-- ==== Sys2Proof/Word.lean ====
section
/-!
DEFINITION. The words of the machine and the plainest arithmetic on them (R4, R7).
-/
namespace Sys2Proof

/-- One byte of memory. -/
abbrev Byte := BitVec 8
/-- A 64-bit register, syllable or address operand. -/
abbrev Word := BitVec 64
/-- One 32-byte unit of line memory (R141). -/
abbrev UnitW := BitVec 256
/-- One vector register (R192). -/
abbrev Vec := BitVec 2048

/-- Bits lo to lo + n − 1 of a syllable or record held as a number (R7's x[hi:lo]). -/
def fld (w lo n : Nat) : BitVec n := BitVec.ofNat n (w / 2 ^ lo)

/-- A field placed at bit lo. -/
def put {n : Nat} (lo : Nat) (x : BitVec n) : Nat := x.toNat * 2 ^ lo

/-- Bits lo to lo + n − 1 are zero (R36). -/
def zeroAt (w lo n : Nat) : Bool := w / 2 ^ lo % 2 ^ n == 0

/-- One bit as a number. -/
def bit (b : Bool) : Nat := if b then 1 else 0

/-- The little-endian number of a list of bytes (R16, R31). -/
def leNat : List Byte → Nat
  | [] => 0
  | b :: bs => b.toNat + 256 * leNat bs

/-- The n bytes of a number, lowest first. -/
def leBytes : Nat → Nat → List Byte
  | 0, _ => []
  | n + 1, w => BitVec.ofNat 8 w :: leBytes n (w / 256)

end Sys2Proof
end

