-- ==== Sys2Proof/Config.lean ====
section
/-!
DEFINITION. What a part is made with and the values that the spec leaves open: constants without a body.
-/
namespace Sys2Proof.Config

/-- Undefined contents, one value per count (R234). -/
opaque freeByte : Nat → Byte
/-- The package number that the straps give (R474). -/
opaque pkgStraps : BitVec 18
/-- SHAKE256 with a 64-byte output (FIPS 202; R457, R460). -/
opaque shake256 : List Byte → BitVec 512
/-- ML-DSA-65 verification (FIPS 204): public key, message, signature (R457). -/
opaque mldsaVerify : List Byte → List Byte → List Byte → Bool
/-- ML-DSA-65 signature of a message under key pair n; pair 0 is the identity key (R458). -/
opaque mldsaSign : Nat → List Byte → List Byte
/-- The public key of key pair n (R458). -/
opaque mldsaPublic : Nat → List Byte
/-- Krytevo's signature over the identity key and the serial number (R459). -/
opaque krytevoSignature : List Byte
opaque serial : List Byte
/-- The key digest in the fuses (R457). -/
opaque fuseKeyDigest : BitVec 512
/-- The digest of the fuses and repair maps (R460): of the fused minimum and of the physical cores that stand in for
others; the rest of the fuses never changes. -/
opaque fuseMeasure : BitVec 32 → List (Nat × Nat) → BitVec 512
opaque romMeasure : BitVec 512
/-- The firmware images that manufacture wrote to the two flash slots, and the fused minimum. -/
opaque flashA : List Byte
opaque flashB : List Byte
opaque fuseMinimum : BitVec 32
/-- The firmware version that an image reports (R459). -/
opaque imageVersion : List Byte → Word

/-- What training at a boot loses: dies and stacks, by BOOTCOUNT (R455, R466); and whether the fuses fail. -/
opaque lostDies : Nat → BitVec 4
opaque lostStacks : Nat → BitVec 8
opaque fuseFault : Nat → Bool

/-- A choice that the spec leaves to the dispatcher, one value per count (R332, R333). -/
opaque choice : Nat → Nat
/-- Flit buffers of a port for a traffic class, beyond the 64 reserved ones of class 0, and beyond the 18 that a longest
message of another class needs (R472). -/
opaque flitBuffers : Nat → Nat
/-- Whether firmware gates M issue in a turn, on a die that it gates (R464). -/
opaque gate : Nat → Bool

end Sys2Proof.Config
end

