-- ==== Sys2Proof/Syntax/Forms.lean ====
section
/-!
DEFINITION. The operand forms that the instructions and events of Syntax.lean carry
(R33 to R45, R449, R470, R476).
-/
namespace Sys2Proof

/-- Guard of a slot: sense 0 (false here) executes when the predicate holds (R34). -/
structure Guard where
  neg : Bool
  pred : BitVec 4
deriving DecidableEq, Repr, Inhabited

/-- The unguarded form, guard p0 with sense 0 (R18). -/
def Guard.always : Guard := ⟨false, 0⟩

/-- Condition codes of CMP, CMPI and FCMP (R39). -/
inductive Cond | eq | ne | lt | le | ltu | leu
deriving DecidableEq, Repr, Inhabited

/-- Memory and barrier scopes, codes 0 to 5 (R2). -/
inductive Scope | core | quad | die | pkg | pod | sys
deriving DecidableEq, Repr, Inhabited

/-- Fence kinds 0 to 2 (R44). -/
inductive FenceKind | acquire | release | full
deriving DecidableEq, Repr, Inhabited

/-- The types of a V instruction (R38). -/
inductive VTy | fp32 | fp16 | bf16 | int32
deriving DecidableEq, Repr, Inhabited

/-- The 15-bit V operand (R37). -/
inductive VOp
  | tap (sig lag : BitVec 7)
  | vreg (r : BitVec 5)
  | sreg (r : BitVec 6)
  | imm (i : BitVec 12)
deriving DecidableEq, Repr, Inhabited

/-- Kind and plane count of a matrix read (R43): pm1 is planes − 1. -/
inductive MKind
  | ni8 (pm1 : BitVec 3)
  | bf16
  | fp16
deriving DecidableEq, Repr, Inhabited

/-- One test of BRM with its displacement (R42). -/
structure BrmTest where
  neg : Bool
  pred : BitVec 4
  disp : BitVec 16
deriving DecidableEq, Repr, Inhabited

/-- Rows of an M instruction: the rows field (0 means 128), the tile row offset (R43). -/
structure MRows where
  rows : BitVec 8
  off : BitVec 8
deriving DecidableEq, Repr, Inhabited

/-- Operands of format XC (R44). flags: bit 0 2:4 expansion, bit 1 streamed, bit 2 far; on CLDA and
CSTR bits 3:1 are the scope. -/
structure XcOps where
  sig : BitVec 7
  ra : BitVec 6
  nest : BitVec 4
  inc : BitVec 16
  acls : BitVec 3
  tcls : BitVec 3
  h : BitVec 4
  flags : BitVec 4
deriving DecidableEq, Repr, Inhabited

/-- Operands of format XG (R44). -/
structure XgOps where
  sig : BitVec 7
  idx : BitVec 7
  ra : BitVec 6
  nest : BitVec 4
  lag : BitVec 8
  acls : BitVec 3
  tcls : BitVec 3
  h : BitVec 4
  flags : BitVec 5
deriving DecidableEq, Repr, Inhabited

/-- Operands of format XS (R44): op 0 add, 1 max, 2 min. -/
structure XsOps where
  tbl : BitVec 7
  idx : BitVec 7
  val : BitVec 7
  op : BitVec 3
  w : BitVec 5
  h : BitVec 4
deriving DecidableEq, Repr, Inhabited

/-- A 64-byte firmware command record without its opcode (R449). -/
structure Cmd where
  die : BitVec 8
  part : BitVec 8
  tag : BitVec 32
  a0 : Word
  a1 : Word
  a2 : Word
  a3 : Word
  a4 : Word
  a5 : Word
  a6 : Word
deriving DecidableEq, Repr, Inhabited

/-- A Wayline message without its class and OP, which the constructor of Instr names (R476). -/
structure Msg where
  tclass : BitVec 3
  src : BitVec 20
  dst : BitVec 20
  flowseq : BitVec 32
  target : Word
  epoch : BitVec 32
  tag : BitVec 32
  payload : List Byte
deriving DecidableEq, Repr, Inhabited

/-- A flit as it arrives on a port (R470); payload is the 240 message bytes. -/
structure Flit where
  fseq : BitVec 12
  ftype : BitVec 2
  rsv : Bool
  aseq : BitVec 12
  nack : Bool
  cclass : BitVec 3
  credits : BitVec 16
  payload : List Byte
  crc : Word
deriving DecidableEq, Repr, Inhabited

/-- An asynchronous trap cause with its DETAIL words (R264 to R267). -/
structure Cause where
  code : BitVec 8
  detail0 : Word
  detail1 : Word
deriving DecidableEq, Repr, Inhabited

/-- The registers that CONFIG_REGISTER_WRITE reaches: those without a row of their own (R5). -/
inductive CfgReg
  | bar0 (off : Nat)
  | cerr (core : Nat)
  | stackcfg (stack : Nat)
  | stackerr (stack : Nat)
  | doorbell (off : Nat)
deriving DecidableEq, Repr, Inhabited

/-- Why a port goes down (R473). -/
inductive PortCause | replay | silence | peerTraining | reset
deriving DecidableEq, Repr, Inhabited

end Sys2Proof
end

