-- ==== Sys2Proof/Machine/Flags.lean ====
section
/-!
DEFINITION. Number formats, exact values, rounding and the flags of FPST (R128, R173 to R188).
-/
namespace Sys2Proof.Machine
open Sys2Proof

/-- FPST's six flags: bit 5 CUT, 4 NV, 3 DZ, 2 OF, 1 UF, 0 NX (R128). -/
abbrev Flags := BitVec 6

def Flags.cut : Flags := 32
def Flags.nv : Flags := 16
def Flags.dz : Flags := 8
def Flags.of : Flags := 4
def Flags.uf : Flags := 2
def Flags.nx : Flags := 1
def Flags.when (b : Bool) (f : Flags) : Flags := if b then f else 0

/-- An exact value: a NaN, an infinity, or (−1)^neg × m × 2^e with its sign kept at zero (R174). -/
inductive FVal
  | nan (signaling : Bool)
  | inf (neg : Bool)
  | num (neg : Bool) (m : Nat) (e : Int)
deriving DecidableEq, Repr, Inhabited

/-- A binary format: p significand bits, exponent width, emin (R173). -/
structure FFmt where
  p : Nat
  ebits : Nat
  emin : Int
deriving DecidableEq, Repr

def fp32 : FFmt := ⟨24, 8, -126⟩
def fp16 : FFmt := ⟨11, 5, -14⟩
def bf16 : FFmt := ⟨8, 8, -126⟩

def FFmt.width (f : FFmt) : Nat := f.p + f.ebits
/-- The exponent field of all ones. -/
def FFmt.eTop (f : FFmt) : Nat := 2 ^ f.ebits - 1
def FFmt.signBit (f : FFmt) : Nat := 2 ^ (f.width - 1)
def FFmt.inf (f : FFmt) (neg : Bool) : Nat := bit neg * f.signBit + f.eTop * 2 ^ (f.p - 1)
/-- The canonical NaN (R173). -/
def FFmt.nan (f : FFmt) : Nat := f.eTop * 2 ^ (f.p - 1) + 2 ^ (f.p - 2)
def FFmt.maxFinite (f : FFmt) (neg : Bool) : Nat := f.inf neg - 1
/-- Largest binary exponent of a finite value. -/
def FFmt.emax (f : FFmt) : Int := 1 - f.emin

/-- Decode (R174). -/
def FFmt.decode (f : FFmt) (x : Nat) : FVal :=
  let frac := x % 2 ^ (f.p - 1)
  let ex := x / 2 ^ (f.p - 1) % 2 ^ f.ebits
  let neg := x / f.signBit % 2 == 1
  if ex = f.eTop then
    if frac = 0 then .inf neg else .nan (frac < 2 ^ (f.p - 2))
  else if ex = 0 then .num neg frac (f.emin - (f.p - 1 : Nat))
  else .num neg (2 ^ (f.p - 1) + frac) (f.emin - (f.p - 1 : Nat) + (ex - 1 : Nat))

/-- The rounding modes of R38. -/
abbrev RM := BitVec 2

/-- The quotient n with n × 2^q the value (−1)^neg × m × 2^e rounded in the mode (RoundTo of R183),
and whether it is exact. -/
def roundTo (mode : RM) (neg : Bool) (m : Nat) (e q : Int) : Nat × Bool :=
  if q ≤ e then (m * 2 ^ (e - q).toNat, true)
  else
    let s := (q - e).toNat
    let n := m / 2 ^ s
    let r := m % 2 ^ s
    let up : Bool :=
      match mode.toNat with
      | 0 => 2 * r > 2 ^ s || (2 * r == 2 ^ s && n % 2 == 1)
      | 1 => false
      | 2 => !neg && r != 0
      | _ => neg && r != 0
    (if up then n + 1 else n, r == 0)

/-- floor(log2 (m × 2^e)) for m > 0. -/
def log2F (m : Nat) (e : Int) : Int := (Nat.log2 m : Int) + e

/-- The pattern of n × 2^q, n × 2^q at most the largest finite value and q at least emin − p + 1. -/
def FFmt.pack (f : FFmt) (neg : Bool) (n : Nat) (q : Int) : Nat :=
  let base := f.emin - (f.p - 1 : Nat)
  bit neg * f.signBit +
    (if n = 0 then 0
     else if n < 2 ^ (f.p - 1) then n * 2 ^ (q - base).toNat
     else if n = 2 ^ f.p then (q - base + 2).toNat * 2 ^ (f.p - 1)
     else ((q - base + 1).toNat) * 2 ^ (f.p - 1) + (n - 2 ^ (f.p - 1)))

/-- The overflow result of R184. -/
def FFmt.overflow (f : FFmt) (mode : RM) (neg : Bool) : Nat :=
  match mode.toNat with
  | 0 => f.inf neg
  | 1 => f.maxFinite neg
  | 2 => if neg then f.maxFinite neg else f.inf neg
  | _ => if neg then f.inf neg else f.maxFinite neg

/-- Round of R183: the pattern and the flags. -/
def FFmt.round (f : FFmt) (mode : RM) : FVal → Nat × Flags
  | .nan s => (f.nan, Flags.when s Flags.nv)
  | .inf neg => (f.inf neg, 0)
  | .num neg 0 _ => (bit neg * f.signBit, 0)
  | .num neg (m + 1) e =>
    let t := log2F (m + 1) e
    let qu := t - (f.p - 1 : Nat)
    let (u, _) := roundTo mode neg (m + 1) e qu
    -- the exponent of u: t, or t + 1 where the rounding carried
    let tu := if u = 2 ^ f.p then t + 1 else t
    if tu > f.emax then (f.overflow mode neg, Flags.of ||| Flags.nx)
    else
      let q := (if t < f.emin then f.emin else t) - (f.p - 1 : Nat)
      let (y, exact) := roundTo mode neg (m + 1) e q
      (f.pack neg y q,
        if exact then 0 else if tu < f.emin then Flags.uf ||| Flags.nx else Flags.nx)

/-- The value of a signed integer. -/
def FVal.ofInt (i : Int) : FVal := .num (i < 0) i.natAbs 0

/-- RoundInt of R186 to L bits. -/
def roundInt (mode : RM) (L : Nat) : FVal → Int × Flags
  | .nan _ => (0, Flags.nv)
  | .inf neg => (if neg then -2 ^ (L - 1) else 2 ^ (L - 1) - 1, Flags.nv)
  | .num neg m e =>
    let (n, exact) := roundTo mode neg m e 0
    let v : Int := if neg then -n else n
    if v > 2 ^ (L - 1) - 1 then (2 ^ (L - 1) - 1, Flags.nv)
    else if v < -2 ^ (L - 1) then (-2 ^ (L - 1), Flags.nv)
    else (v, Flags.when (!exact) Flags.nx)

def FVal.isNan : FVal → Bool
  | .nan _ => true
  | .inf _ => false
  | .num _ _ _ => false

def FVal.isSnan : FVal → Bool
  | .nan s => s
  | .inf _ => false
  | .num _ _ _ => false

def FVal.isZero : FVal → Bool
  | .num _ m _ => m == 0
  | .inf _ => false
  | .nan _ => false

def FVal.isInf : FVal → Bool
  | .inf _ => true
  | .nan _ => false
  | .num _ _ _ => false

def FVal.neg : FVal → FVal
  | .nan s => .nan s
  | .inf n => .inf (!n)
  | .num n m e => .num (!n) m e

def FVal.signNeg : FVal → Bool
  | .nan _ => false
  | .inf n => n
  | .num n _ _ => n

/-- The signed integer that stands at exponent q ≤ e. -/
def scaled (neg : Bool) (m : Nat) (e q : Int) : Int :=
  let n : Int := (m * 2 ^ (e - q).toNat : Nat)
  if neg then -n else n

/-- Exact sum of two finite values; an exact zero takes the sign of equal-signed operands, else −0 in
mode 11 and +0 otherwise (R136, R197). -/
def addFin (mode : RM) (n1 : Bool) (m1 : Nat) (e1 : Int) (n2 : Bool) (m2 : Nat) (e2 : Int) : FVal :=
  let q := if e1 ≤ e2 then e1 else e2
  let v := scaled n1 m1 e1 q + scaled n2 m2 e2 q
  if v = 0 then .num (if n1 == n2 && m1 == 0 && m2 == 0 then n1 else mode == 3) 0 0
  else .num (v < 0) v.natAbs q

/-- Exact sum with the invalid cases (R136): the value and whether the operation is invalid. -/
def addV (mode : RM) : FVal → FVal → FVal × Bool
  | .nan s, .nan t => (.nan false, s || t)
  | .nan s, _ => (.nan false, s)
  | _, .nan t => (.nan false, t)
  | .inf a, .inf b => if a = b then (.inf a, false) else (.nan false, true)
  | .inf a, .num _ _ _ => (.inf a, false)
  | .num _ _ _, .inf b => (.inf b, false)
  | .num n1 m1 e1, .num n2 m2 e2 => (addFin mode n1 m1 e1 n2 m2 e2, false)

/-- Exact product with the invalid cases (R136). -/
def mulV : FVal → FVal → FVal × Bool
  | .nan s, .nan t => (.nan false, s || t)
  | .nan s, _ => (.nan false, s)
  | _, .nan t => (.nan false, t)
  | .inf a, .inf b => (.inf (a != b), false)
  | .inf a, .num n m _ => if m = 0 then (.nan false, true) else (.inf (a != n), false)
  | .num n m _, .inf b => if m = 0 then (.nan false, true) else (.inf (n != b), false)
  | .num n1 m1 e1, .num n2 m2 e2 => (.num (n1 != n2) (m1 * m2) (e1 + e2), false)

/-- Round a value whose computation may have been invalid. -/
def FFmt.finish (f : FFmt) (mode : RM) (r : FVal × Bool) : Nat × Flags :=
  let (x, fl) := f.round mode r.1
  (x, fl ||| Flags.when r.2 Flags.nv)

/-- a + b, a − b, a × b and a × b ± c of R136 and R196, one rounding each. -/
def FFmt.add (f : FFmt) (mode : RM) (a b : FVal) : Nat × Flags := f.finish mode (addV mode a b)
def FFmt.sub (f : FFmt) (mode : RM) (a b : FVal) : Nat × Flags := f.finish mode (addV mode a b.neg)
def FFmt.mul (f : FFmt) (mode : RM) (a b : FVal) : Nat × Flags := f.finish mode (mulV a b)
def FFmt.fma (f : FFmt) (mode : RM) (a b c : FVal) : Nat × Flags :=
  let (p, i1) := mulV a b
  let (s, i2) := addV mode p c
  f.finish mode (s, i1 || i2 || c.isSnan)

/-- Order of two values that are no NaNs, −0 equal to +0. -/
def ltV : FVal → FVal → Bool
  | .inf a, .inf b => a && !b
  | .inf a, .num _ _ _ => a
  | .num _ _ _, .inf b => !b
  | .num n1 m1 e1, .num n2 m2 e2 =>
    let q := if e1 ≤ e2 then e1 else e2
    scaled n1 m1 e1 q < scaled n2 m2 e2 q
  | .nan _, _ => false
  | _, .nan _ => false

def eqV (a b : FVal) : Bool := !a.isNan && !b.isNan && !ltV a b && !ltV b a

/-- −0 counts as less than +0 (R137, R198). -/
def ltZ (a b : FVal) : Bool := ltV a b || (a.isZero && b.isZero && a.signNeg && !b.signNeg)

/-- minimumNumber and maximumNumber (R137): the pattern and the flags; nothing rounds. -/
def FFmt.minmax (f : FFmt) (isMax : Bool) (x y : Nat) : Nat × Flags :=
  let a := f.decode x
  let b := f.decode y
  let fl := Flags.when (a.isSnan || b.isSnan) Flags.nv
  if a.isNan && b.isNan then (f.nan, fl)
  else if a.isNan then (y, fl)
  else if b.isNan then (x, fl)
  else if ltZ a b then (if isMax then y else x, fl)
  else (if isMax then x else y, fl)

/-- EQ, LT and LE on floating values with their NV rule (R138, R201). -/
def fcmp (c : Cond) (a b : FVal) : Bool × Flags :=
  let nan := a.isNan || b.isNan
  let sn := Flags.when (a.isSnan || b.isSnan) Flags.nv
  match c with
  | .eq => (eqV a b, sn)
  | .ne => (!eqV a b, sn)
  | .lt => (!nan && ltV a b, Flags.when nan Flags.nv)
  | .le => (!nan && !ltV b a, Flags.when nan Flags.nv)
  | .ltu => (false, 0)
  | .leu => (false, 0)

/-- The element formats of R145, field FORMAT. -/
inductive Fmt | fp32 | fp16 | bf16 | int32 | ni8 | int8 | s16
deriving DecidableEq, Repr, Inhabited

def Fmt.ofCode : Nat → Option Fmt
  | 0 => some .fp32 | 1 => some .fp16 | 2 => some .bf16 | 3 => some .int32
  | 4 => some .ni8 | 5 => some .int8 | 6 => some .s16 | _ => none

/-- Element size in bytes (R176). -/
def Fmt.size : Fmt → Nat
  | .fp32 => 4 | .int32 => 4 | .fp16 => 2 | .bf16 => 2 | .s16 => 2 | .int8 => 1 | .ni8 => 1

/-- The floating format of an element format, where it has one. -/
def Fmt.float : Fmt → Option FFmt
  | .fp32 => some Machine.fp32
  | .fp16 => some Machine.fp16
  | .s16 => some Machine.fp16
  | .bf16 => some Machine.bf16
  | .int32 => none
  | .int8 => none
  | .ni8 => none

def VTy.fmt : VTy → Fmt
  | .fp32 => .fp32 | .fp16 => .fp16 | .bf16 => .bf16 | .int32 => .int32

/-- FP16 and S16 have the same bits (R175). -/
def Fmt.sameBits (a b : Fmt) : Bool :=
  a == b || (a == .fp16 && b == .s16) || (a == .s16 && b == .fp16)

def signedOf (bits x : Nat) : Int := if x < 2 ^ (bits - 1) then x else (x : Int) - 2 ^ bits
def unsignedOf (bits : Nat) (v : Int) : Nat := (v % 2 ^ bits).toNat

/-- The value of an element that is not NI8. -/
def Fmt.value (f : Fmt) (x : Nat) : FVal :=
  match f.float with
  | some ff => ff.decode x
  | none => FVal.ofInt (signedOf (8 * f.size) x)

/-- Saturation of an integer to INT8 (R186). -/
def satInt (L : Nat) (v : Int) : Int :=
  if v > 2 ^ (L - 1) - 1 then 2 ^ (L - 1) - 1 else if v < -2 ^ (L - 1) then -2 ^ (L - 1) else v

/-- A value to an element of format f (not NI8), rounded (R187). -/
def Fmt.ofValue (f : Fmt) (mode : RM) (v : FVal) : Nat × Flags :=
  match f.float with
  | some ff => ff.round mode v
  | none =>
    let (i, fl) := roundInt mode (8 * f.size) v
    (unsignedOf (8 * f.size) i, fl)

/-- The conversion table of R187 between formats that are not NI8. -/
def convert (mode : RM) (src dst : Fmt) (x : Nat) : Nat × Flags :=
  if src.sameBits dst then (x, 0)
  else if src.float == none && dst.float == none then
    (unsignedOf (8 * dst.size) (satInt (8 * dst.size) (signedOf (8 * src.size) x)), 0)
  else dst.ofValue mode (src.value x)

end Sys2Proof.Machine
end

