-- ==== Sys2Proof/Machine/Store.lean ====
section
/-!
DEFINITION. Sparse maps: lists of (key, value) with rising keys and no entry equal to the default, so
that equal maps are equal data.
-/
namespace Sys2Proof.Machine

/-- A sparse map. -/
abbrev Sparse (α : Type) := List (Nat × α)

namespace Sparse

/-- The value at a key, d where the map lists none. -/
def get {α : Type} (d : α) : Sparse α → Nat → α
  | [], _ => d
  | (k, v) :: m, a => if a = k then v else if a < k then d else get d m a

/-- Write a key; the default removes the entry. -/
def set {α : Type} [DecidableEq α] (d : α) : Sparse α → Nat → α → Sparse α
  | [], a, x => if x = d then [] else [(a, x)]
  | (k, v) :: m, a, x =>
    if a < k then (if x = d then (k, v) :: m else (a, x) :: (k, v) :: m)
    else if a = k then (if x = d then m else (a, x) :: m)
    else (k, v) :: set d m a x

/-- Rising keys above a bound and no default entries. -/
def wfFrom {α : Type} [DecidableEq α] (d : α) : Nat → Sparse α → Bool
  | _, [] => true
  | lo, (k, v) :: m => decide (lo ≤ k) && !decide (v = d) && wfFrom d (k + 1) m

/-- The canonical form. -/
def wf {α : Type} [DecidableEq α] (d : α) (m : Sparse α) : Bool := wfFrom d 0 m

/-- Drop the keys of a range. -/
def clearRange {α : Type} (lo n : Nat) (m : Sparse α) : Sparse α :=
  m.filter fun e => !(lo ≤ e.1 && e.1 < lo + n)

/-- The keys listed. -/
def keys {α : Type} (m : Sparse α) : List Nat := m.map (·.1)

end Sparse

/-- Write consecutive keys. -/
def Sparse.setMany {α : Type} [DecidableEq α] (d : α) (m : Sparse α) (a : Nat) : List α → Sparse α
  | [] => m
  | x :: xs => Sparse.setMany d (m.set d a x) (a + 1) xs

/-- Replace the n keys from a on by a list of values. -/
def Sparse.putRange {α : Type} [DecidableEq α] (d : α) (m : Sparse α) (a : Nat) (xs : List α) : Sparse α :=
  (m.filter fun e => e.1 < a) ++
    ((xs.zipIdx a).filterMap fun e => if e.1 = d then none else some (e.2, e.1)) ++
    (m.filter fun e => a + xs.length ≤ e.1)

/-- Read n consecutive keys. -/
def Sparse.getMany {α : Type} (d : α) (m : Sparse α) (a : Nat) : Nat → List α
  | 0 => []
  | n + 1 => m.get d a :: Sparse.getMany d m (a + 1) n

/-- Remove the first element that satisfies p. -/
def takeFirst {α : Type} (p : α → Bool) : List α → Option (α × List α)
  | [] => none
  | x :: xs => if p x then some (x, xs) else (takeFirst p xs).map fun r => (r.1, x :: r.2)

/-- The element at a position and the list without it. -/
def takeAt {α : Type} : List α → Nat → Option (α × List α)
  | [], _ => none
  | x :: xs, 0 => some (x, xs)
  | x :: xs, n + 1 => (takeAt xs n).map fun r => (r.1, x :: r.2)

/-- Change the element at a position. -/
def modifyAt {α : Type} (f : α → α) : List α → Nat → List α
  | [], _ => []
  | x :: xs, 0 => f x :: xs
  | x :: xs, n + 1 => x :: modifyAt f xs n

end Sys2Proof.Machine
end

