-- ==== Sys2Proof/Machine/SeatState.lean ====
section
/-!
DEFINITION. The state of a seat and of the context it saves (R65 to R73, R122 to R132, R145 to R148,
R216, R217, R239, R240, R265, R279, R303).
-/
namespace Sys2Proof.Machine
open Sys2Proof

/-- One position of the loop stack (R80). -/
structure Loop where
  start : Word
  stop : Word
  remaining : Word
  index : Word
deriving DecidableEq, Repr, Inhabited

/-- A pending transfer: its target, absent for an untaken BRM that only counts its delay bundles, and
the delay bundles still to issue (R65, R75). ret marks RESUME (R112). -/
structure Pend where
  target : Option Word
  left : Nat
  ret : Bool := false
  /-- BR, BRM or JR, whose taking pops loop positions (R83) -/
  pops : Bool := false
deriving DecidableEq, Repr, Inhabited

/-- The registers of a seat: s1 to s63, p1 to p12, v0 to v31, spill slots; unlisted ones are zero. -/
structure Regs where
  s : Sparse Word := []
  p : BitVec 16 := 0
  v : Sparse Vec := []
  spill : Sparse Word := []
deriving DecidableEq, Repr, Inhabited

/-- The resumable position (R65) and the count behind R76: how many bundles ago the last bundle that
held a transfer issued (0 none within two). -/
structure Pos where
  pc : Word := 0
  loops : List Loop := []
  pend : Option Pend := none
  xferAge : Nat := 0
  residue : BitVec 6 := 0
deriving DecidableEq, Repr, Inhabited

/-- The saved position of R110: SAVEPC, its loop stack and pending transfer. -/
structure Saved where
  pc : Word := 0
  loops : List Loop := []
  pend : Option Pend := none
  xferAge : Nat := 0
  /-- syllables of its bundle that a masked retry has masked and that has not committed (R270) -/
  mask : BitVec 8 := 0
deriving DecidableEq, Repr, Inhabited

/-- IBUD, TBUD, the fields of BSTAT and MAXRUN, the recalled budget (R69 to R71, R104). -/
structure Budget where
  ibud : BitVec 48 := 0
  tbud : BitVec 48 := 0
  run : BitVec 17 := 0
  evlost : Bool := false
  ycause : BitVec 2 := 0
  incont : Bool := false
  recallBit : Bool := false
  toppriv : Bool := false
  maxrun : BitVec 17 := 8192
  recalled : BitVec 48 := 0
  /-- a recall since the last yield (R70, R104) -/
  recallPend : Bool := false
  /-- what returned while the seat was trapped: it counts once the disposition is carried out (R269) -/
  owedI : Nat := 0
  owedT : Nat := 0
deriving DecidableEq, Repr, Inhabited

/-- The other control registers that hold state (R72, R73, R125 to R132). -/
structure Csrs where
  now : Word := 0
  cycles : Word := 0
  contpc : Word := 0
  tapwait : BitVec 32 := 0x01000000
  fpst : Flags := 0
  rm : RM := 0
  gfloor : BitVec 8 := 0x82
  evpend : BitVec 16 := 0
  evHeld : BitVec 16 := 0
  /-- events that have latched for the cycle in which the seat now stands (R73) -/
  evNew : BitVec 16 := 0
  trapcause : BitVec 8 := 0
  member : BitVec 4 := 0
  groupsz : BitVec 5 := 0
deriving DecidableEq, Repr, Inhabited

/-- A signal descriptor (R145); fill is FILL − HEAD in two's complement. -/
structure Sig where
  head : BitVec 44 := 0
  fill : BitVec 17 := 0
  estride : BitVec 48 := 0
  lstride : BitVec 48 := 0
  base : BitVec 16 := 0
  depth : BitVec 16 := 0
  width : BitVec 8 := 0
  ahead : BitVec 8 := 0
  rate : BitVec 8 := 0
  phase : BitVec 8 := 0
  block : BitVec 8 := 0
  scalesig : BitVec 7 := 0
  format : BitVec 4 := 0
  planes : BitVec 4 := 0
  feed : BitVec 2 := 0
  init : BitVec 1 := 0
deriving DecidableEq, Repr, Inhabited

/-- The signal table with the marks of R148: keys of written and poison are sig × 2^17 + slot, and
bit u of a value is unit u. -/
structure Signals where
  table : Sparse Sig := []
  written : Sparse (BitVec 128) := []
  poison : Sparse (BitVec 128) := []
deriving DecidableEq, Repr, Inhabited

/-- An accumulator or carry pair (R240). -/
structure Pair where
  gain : BitVec 32 := 0
  off : BitVec 32 := 0
deriving DecidableEq, Repr, Inhabited

/-- A latch: its kind, none while empty, and 64 × 192 exact values at key row × 192 + column (R239);
poison marks are at the same keys (R287). -/
structure Latch where
  kind : Option MKind := none
  elems : Sparse FVal := []
  poison : Sparse (BitVec 2) := []
deriving DecidableEq, Repr, Inhabited

/-- What a pending result is the result of (R57, R58); gain and off name a row of a tile. -/
inductive Res
  | s (r : Nat)
  | p (r : Nat)
  | v (r : Nat)
  | spill (n : Nat)
  | sample (sig : Nat) (idx : Int)
  | gain (tile r : Nat)
  | off (tile r : Nat)
  | carry (c : Nat)
  | latch (l : Nat)
deriving DecidableEq, Repr, Inhabited

def Res.isSample : Res → Bool
  | .sample _ _ => true
  | .s _ => false
  | .p _ => false
  | .v _ => false
  | .spill _ => false
  | .gain _ _ => false
  | .off _ _ => false
  | .carry _ => false
  | .latch _ => false

/-- A result that is not yet final, with the core clock of the first cycle in which a consumer can
issue; or, with use set, a source that issued M work still reads, with the last cycle of that (R247). -/
structure Ready where
  res : Res
  final : Nat
  use : Bool := false
deriving DecidableEq, Repr, Inhabited

/-- Issued M work that is not yet final: its core clock and the flags it raises then (R128, R246). -/
structure MPend where
  final : Nat
  flags : Flags
deriving DecidableEq, Repr, Inhabited

/-- The matrix side of a seat. Keys: tile × 24576 + row × 192 + column; carry × 192 + column. A poison
mark has bit 1 for the gain and bit 0 for the offset (R287). -/
structure Matrix where
  tiles : Sparse Pair := []
  carries : Sparse Pair := []
  tilePoison : Sparse (BitVec 2) := []
  carryPoison : Sparse (BitVec 2) := []
  latch0 : Latch := {}
  latch1 : Latch := {}
  pend : List MPend := []
  affineFree : Nat := 0
deriving DecidableEq, Repr, Inhabited

/-- A copy handle (R216). -/
structure Handle where
  total : BitVec 32 := 0
  progress : BitVec 32 := 0
  first : BitVec 44 := 0
  signal : BitVec 7 := 0
  opcode : BitVec 8 := 0
  poison : Bool := false
  state : BitVec 4 := 0
deriving DecidableEq, Repr, Inhabited

/-- A nest descriptor (R217). -/
structure Nest where
  count : Sparse (BitVec 16) := []
  stride : Sparse (BitVec 48) := []
  format : BitVec 4 := 0
  pack : BitVec 16 := 0
deriving DecidableEq, Repr, Inhabited

/-- A unit of a sample that an outbound reader is taking, as it was when it took it (R160). -/
structure Snap where
  sample : Int
  unit : Nat
  word : UnitW
  bad : Bool
deriving DecidableEq, Repr, Inhabited

/-- The data of an element of a store that it has taken and not yet issued: a 16-byte piece is issued whole (R234). -/
structure Kept where
  elem : Nat
  data : List Byte
  bad : Bool
deriving DecidableEq, Repr, Inhabited

/-- The copy of an accepted copy command (R218, R219), kept with its handle. -/
structure Copy where
  /-- acceptance order among the X commands of the seat -/
  seq : Nat := 0
  op : BitVec 8 := 0
  sig : BitVec 7 := 0
  acls : BitVec 3 := 0
  tcls : BitVec 3 := 0
  nt : Bool := false
  far : Bool := false
  sp24 : Bool := false
  scope : Nat := 0
  counts : List Nat := []
  strides : List Int := []
  memFmt : BitVec 4 := 0
  pack : Nat := 0
  origin : Word := 0
  metaAddr : Word := 0
  index : List Int := []
  /-- the index of the first sample, below 0 for a store of prehistory -/
  first : Int := 0
  samples : Nat := 0
  elems : Nat := 0
  /-- charge of one sample in 64-byte units (R221) -/
  perSample : Nat := 0
  /-- accesses issued; with 2:4 expansion a metadata byte is an access of its own (R224) -/
  issued : Nat := 0
  /-- accesses complete from the start, and complete ones beyond them -/
  lead : Nat := 0
  done : List Nat := []
  /-- accesses in flight -/
  flying : Nat := 0
  /-- destination or source is a table -/
  isTable : Bool := false
  failed : Bool := false
  -- SCACC (R235)
  pairs : List (Int × Nat) := []
  window : Nat := 0
  redOp : BitVec 3 := 0
  /-- no further access is issued; the command ends when those in flight are done -/
  stop : Bool := false
  /-- accesses of 2:4 groups not yet written: number, pattern, poison (R224) -/
  held : List (Nat × Nat × Bool) := []
  /-- the stack whose loader or storer context it holds (R429) -/
  ctxStack : Option Nat := none
  /-- suspended on a translation fault -/
  suspended : Bool := false
  /-- the units that a store is taking (R160) -/
  snaps : List Snap := []
  /-- elements that a store has taken: those below issued wait for the rest of their piece, the others follow in a
  piece that has begun -/
  kept : List Kept := []
deriving DecidableEq, Repr, Inhabited

/-- An ordering command of R229 and R440 kept until it orders nothing more. nm marks NMFENCE. -/
structure FenceRec where
  seq : Nat
  scope : Nat
  kind : FenceKind
  mask : BitVec 8
  nm : Bool
deriving DecidableEq, Repr, Inhabited

/-- The copy-engine side of a seat. -/
structure Engine where
  handles : Sparse Handle := []
  nests : Sparse Nest := []
  copies : Sparse Copy := []
  fences : List FenceRec := []
  nextSeq : Nat := 0
  /-- complete samples above FILL of loads that have ended: signal, first, count (R223) -/
  landed : List (Nat × Nat × Nat) := []
  /-- commands that have taken a handle (R364) -/
  taken : Nat := 0
  /-- pulled writes that a CWAIT has made earlier than a later release: the announcements of each die up to that
  number (R388) -/
  cover : List (Nat × BitVec 32) := []
deriving DecidableEq, Repr, Inhabited

/-- The trap record (R265, R266). -/
structure TrapRec where
  info : Word := 0
  bundle : Word := 0
  ptarget : Word := 0
  savepc : Word := 0
  sptarget : Word := 0
  slotcause : Word := 0
  detail0 : Word := 0
  detail1 : Word := 0
  syll : List Word := []
  loops : List Loop := []
  sloops : List Loop := []
deriving DecidableEq, Repr, Inhabited

/-- The fusion state of a member (R303); span is the number of members of the block. -/
inductive Fuse
  | alone
  | fused (span : Nat)
  | decoupled (span : Nat)
deriving DecidableEq, Repr, Inhabited

/-- An arrival at FUSE or REJOIN (R304, R310), or at a barrier (R90). -/
inductive Arrival
  | fuse (span : Nat)
  | rejoin
  /-- at a barrier, whether released, and for pod and sys whether the package has reported (R490) -/
  | bar (scope id : Nat) (released reported : Bool)
deriving DecidableEq, Repr, Inhabited

/-- A remote channel request that holds a bundle (R485): its tag and the reply, once it came. -/
structure RemoteWait where
  tag : BitVec 32
  /-- the bundle is of continuation code: a reply serves the bundle that asked for it -/
  cont : Bool
  /-- CHSTAT, else CHBIND.w -/
  stat : Bool
  reg : Word
  reply : Option Word
deriving DecidableEq, Repr, Inhabited

/-- Holds and arrivals of a seat. -/
structure Waiting where
  /-- the count of R155; 0 before the first cycle held on an unfilled sample -/
  tapCount : Nat := 0
  /-- cycles of a FUSE hold (R305) -/
  fuseCount : Nat := 0
  /-- cycles since the bundle is held by an outside wait (R343) -/
  held : Nat := 0
  /-- cycles of a bubble or of a split bundle still to pass (R64, R82) -/
  bubble : Nat := 0
  arrival : Option Arrival := none
  /-- cycles until the wired-AND line of a block of 8 or 16 has settled, at its last arriver (R305) -/
  line : Nat := 0
  /-- the latest request last: one that a yield has left waiting stands before those of the continuation code -/
  remote : List RemoteWait := []
  /-- the wait table was full: the bundle commits at an examination only (R345) -/
  exam : Bool := false
  /-- the bundle is held on what the deadlock detector counts, and the channel of a held CHSEND (R364) -/
  stuck : Bool := false
  /-- releases of barriers that the member has committed (R364) -/
  barriers : Nat := 0
  sendReg : Option Word := none
  /-- the signals whose unfilled samples hold the bundle (R365) -/
  taps : List Nat := []
deriving DecidableEq, Repr, Inhabited

/-- A word of seat state that reads with an error (R268, R286): which structure holds it. -/
inductive FlipAt
  /-- a structure code of R268 -/
  | state (code : Nat)
  /-- an accumulator pair, by its key -/
  | tile (key : Nat)
  | carry (key : Nat)
  /-- a latch element -/
  | latch (l : BitVec 1) (key : Nat)
  /-- the instruction cache or the loop buffer -/
  | code
  /-- the copy-engine buffer of the access of a handle from an access number on -/
  | buffer (h : BitVec 4) (elem : Nat)
deriving DecidableEq, Repr, Inhabited

/-- An error not yet met; hard ones cannot be corrected. -/
structure Flip where
  at' : FlipAt
  hard : Bool
deriving DecidableEq, Repr, Inhabited

/-- A seat context: everything a yield saves (R278, R279), with the latches and pending results that
it does not keep. -/
structure Ctx where
  regs : Regs := {}
  pos : Pos := {}
  saved : Saved := {}
  bud : Budget := {}
  csr : Csrs := {}
  sig : Signals := {}
  mx : Matrix := {}
  eng : Engine := {}
  ready : List Ready := []
  fuse : Fuse := .alone
  wait : Waiting := {}
  causes : List Cause := []
  trap : TrapRec := {}
  /-- syllables that a masked retry treats as guarded false (R270) -/
  maskOnce : BitVec 8 := 0
  /-- words that read with an error (R268, R286) -/
  flips : List Flip := []
deriving DecidableEq, Repr, Inhabited

/-- What a seat is doing (R261, R274, R281). -/
inductive Phase
  | idle
  | running
  /-- a trap is taken; results of earlier bundles may be pending -/
  | trapping
  /-- the record is written and firmware is notified -/
  | trapped
  /-- held for the host under policy 10 -/
  | trapHeld
  | draining
  | saving
  | restoring
  | shareHeld
deriving DecidableEq, Repr, Inhabited

end Sys2Proof.Machine
end

