-- ==== Sys2Proof/Machine/CoreState.lean ====
section
/-!
DEFINITION. The state of a core (R63, R141, R144, R239, R245, R288, R289, R332, R405).
-/
namespace Sys2Proof.Machine
open Sys2Proof

/-- A cached leaf (R405): the partition, the virtual page, log2 of its size, its physical base, W, X,
MTYPE and D. -/
structure Xlat where
  part : Nat
  vpage : Nat
  size : Nat
  phys : Nat
  w : Bool
  x : Bool
  mtype : Nat
  dirty : Bool
deriving DecidableEq, Repr, Inhabited

/-- CERR (R288). -/
structure Cerr where
  thresh : BitVec 12 := 0x100
  alert : Bool := false
  uncorr : BitVec 15 := 0
  corr : BitVec 32 := 0
deriving DecidableEq, Repr, Inhabited

/-- What a seat has issued in a cycle, for the merge of R61: the seat, its syllables by class, its banks and whether
the bundle is split; units are those that the bundles of the cycle have touched. -/
structure Issued where
  seat : Nat
  counts : List (Nat × Nat)
  banks : List Nat
  split : Bool
  units : List Nat := []
deriving DecidableEq, Repr, Inhabited

/-- A core. clk is its cycle count; arrayFree and loaderFree are the first cycles in which the matrix
array and the latch loader take new work (R245). -/
structure Core where
  line : Sparse UnitW := []
  /-- units that hold an uncorrectable word, and units that hold a correctable one (R144) -/
  lineBad : List Nat := []
  lineSoft : List Nat := []
  /-- uncorrectable units that CERR has counted -/
  lineMet : List Nat := []
  clk : Nat := 0
  primary : Nat := 0
  arrayFree : Nat := 0
  loaderFree : Nat := 0
  slotmap : BitVec 32 := 0x44
  cerr : Cerr := {}
  /-- ALERT has been reported (R453) -/
  alerted : Bool := false
  tcache : List Xlat := []
  retired : Bool := false
  failed : Bool := false
  /-- the physical number of the spare that took this core's number, 0 while it stands on its own (R289) -/
  phys : Nat := 0
  /-- what this cycle has issued so far -/
  issued : Option Issued := none
  /-- what a fused member has issued on this core since its last cycle (R307) -/
  lent : Option Issued := none
  /-- banks that the copy engine occupies in this cycle, and in the next one, an entry for each access; and
  conflicts of this cycle that delay their bundle further (R59) -/
  busy : List Nat := []
  engBanks : List Nat := []
  later : List Nat := []
deriving DecidableEq, Repr, Inhabited

end Sys2Proof.Machine
end

