-- ==== Sys2Proof/Machine/PackState.lean ====
section
/-!
DEFINITION. Package state: memory system, stacks, partitions, translation faults, host interface,
firmware (R369 to R393, R396 to R415, R416 to R441, R442 to R468).
-/
namespace Sys2Proof.Machine
open Sys2Proof

/-- A vector clock of four counters (R377). -/
structure VClock where
  c0 : BitVec 32 := 0
  c1 : BitVec 32 := 0
  c2 : BitVec 32 := 0
  c3 : BitVec 32 := 0
deriving DecidableEq, Repr, Inhabited

/-- An announcement on its way to die dst (R377): its writes are (address, byte) pairs, with their place in the
coherence order of the package and their poison. -/
structure Ann where
  src : Nat
  dst : Nat
  stamp : VClock
  cells : List Host.Cell
  serial : Nat
  bad : Bool
deriving DecidableEq, Repr, Inhabited

/-- A line of a package cache (R369): its bytes, the place in the coherence order up to which each is known, the
places of the last write that poisoned the granule and of the last one that cleaned it (R426, R427), and its number
among the lines that the die has taken. -/
structure Line where
  bytes : List Byte := []
  marks : List Nat := []
  badAt : Nat := 0
  cleanAt : Nat := 0
  age : Nat := 0
deriving DecidableEq, Repr, Inhabited

/-- Where an access goes (R394, R404). -/
inductive Target
  | dram (pa : Nat)
  | host (bus : Nat)
  | remote (pkg win off : Nat)
deriving DecidableEq, Repr, Inhabited

/-- How far an access is (R224, R386, R420, R481). -/
inductive AccPhase
  /-- waits at its port -/
  | waiting
  /-- answered with a retry response of that many hints of 4 ns -/
  | retry (hint : Nat)
  /-- a streamed write in a write combiner -/
  | combined
  /-- sent to the host or to another package under that tag -/
  | sent (tag : BitVec 32)
  | served
deriving DecidableEq, Repr, Inhabited

/-- An access of the copy engine in flight, for count accesses of its command from elem on, which lie in one 16-byte
piece (R374): a write carries data, a read receives it. -/
structure Access where
  seat : Nat
  h : BitVec 4
  elem : Nat
  count : Nat
  write : Bool
  target : Target
  size : Nat
  data : List Byte
  poison : Bool
  nt : Bool
  uncached : Bool
  tcls : BitVec 3
  phase : AccPhase
  /-- cycle of the die in which it was issued -/
  since : Nat
deriving DecidableEq, Repr, Inhabited

/-- A bank (R420 to R422): the open row, whether a closing prediction closed it, whether it is
throttled. -/
structure Bank where
  row : Option Nat := none
  /-- the row of the last access, whose counter predicted -/
  last : Nat := 0
  predicted : Bool := false
  throttled : Bool := false
deriving DecidableEq, Repr, Inhabited

/-- A stack with STACKCFG (R423), STACKERR (R424), its predictors and activation counters; a row has
key (pc × 64 + bank) × 2^20 + row. -/
structure Stack where
  thresh : BitVec 12 := 2048
  mint : BitVec 8 := 50
  scrub : BitVec 8 := 24
  predict : Bool := true
  corrupt : BitVec 16 := 0
  satur : BitVec 16 := 0
  uncorr : BitVec 16 := 0
  corr : BitVec 16 := 0
  lost : Bool := false
  counters : Sparse (BitVec 2) := []
  banks : Sparse Bank := []
  acts : Sparse (BitVec 12) := []
  /-- rows whose counter has wrong parity -/
  parity : List Nat := []
  scrubPos : Nat := 0
  loaders : Nat := 64
  storers : Nat := 64
deriving DecidableEq, Repr, Inhabited

/-- A window entry (R403). -/
structure Window where
  base : Word := 0
  pkg : BitVec 18 := 0
  rwin : BitVec 8 := 0
  sizelog : BitVec 6 := 12
  w : Bool := false
  kind : BitVec 2 := 0
  v : Bool := false
deriving DecidableEq, Repr, Inhabited

/-- A partition (R396, R403, R452). -/
structure Part where
  present : Bool := false
  /-- dies from which the partition is swapped out (R284) -/
  swapped : BitVec 4 := 0
  ftimeout : BitVec 16 := 0
  root : BitVec 27 := 0
  fpolicy : BitVec 2 := 0
  enable : Bool := false
  windows : Sparse Window := []
  pool : Word := 0
  segments : Nat := 0
  overflow : Word := 0
  overflowLen : Nat := 0
  restarts : BitVec 3 := 0
  depotBytes : Nat := 0
  policies : Sparse (BitVec 2) := []
  ibud : Word := 0
  tbud : Word := 0
  pmeas : BitVec 512 := 0
deriving DecidableEq, Repr, Inhabited

/-- Who makes a request (R406, R410). -/
inductive Asker
  /-- step record, member and handle of a copy or near-memory command -/
  | copy (step member : Nat) (h : BitVec 4)
  | agent (code : Nat)
deriving DecidableEq, Repr, Inhabited

/-- A request that waits on a walk or a fault: who makes it, for which address, and ACCESS of R410. -/
structure Waiter where
  who : Asker
  va : Word
  access : Nat
deriving DecidableEq, Repr, Inhabited

/-- A request in the walk queue (R406). -/
structure WReq where
  part : Nat
  va : Word
  write : Bool
  access : Nat
  agent : Nat
  tcls : BitVec 3
  waiters : List Waiter
  since : Nat
deriving DecidableEq, Repr, Inhabited

/-- An open fault with its record (R410). -/
structure FaultRec where
  id : BitVec 32
  part : Nat
  va : Word
  kind : Nat
  access : Nat
  agent : Nat
  level : Nat
  poison : Bool
  tcls : BitVec 3
  core : Nat
  seath : Nat
  task : Nat
  entry : Word
  waiters : List Waiter
deriving DecidableEq, Repr, Inhabited

/-- An aperture (R445). -/
structure Aperture where
  valid : Bool := false
  part : Nat := 0
  base : Word := 0
deriving DecidableEq, Repr, Inhabited

/-- A ring of BAR0 (R446). -/
structure Ring where
  base : Word := 0
  size : BitVec 4 := 0
  head : BitVec 32 := 0
  tail : BitVec 32 := 0
deriving DecidableEq, Repr, Inhabited

/-- An event that firmware keeps (R453, R454). -/
structure Event where
  type : Nat
  die : Nat
  part : Nat
  payload : List Byte
deriving DecidableEq, Repr, Inhabited

/-- The answer to a host read (R445, R448): none for Unsupported Request, else data and EP. -/
abbrev HostReply := Option (List Byte × Bool)

/-- The host interface: BAR0 (R446, R447), apertures, host memory, signals and answers sent. -/
structure HostIf where
  dieMask : BitVec 8 := 0
  stackMask : BitVec 8 := 0
  selfRefresh : Bool := false
  booterr : BitVec 8 := 0
  resetting : Bool := true
  fatal : Bool := false
  secure : Bool := false
  ready : Bool := false
  cmd : Ring := {}
  cpl : Ring := {}
  ev : Ring := {}
  ltr : BitVec 32 := 0
  evover : Word := 0
  apertures : Sparse Aperture := []
  mem : List Host.Cell := []
  /-- 64-byte blocks of host memory whose completions carry EP -/
  bad : List Nat := []
  msix : Sparse Nat := []
  replies : List HostReply := []
  kept : List Event := []
  seq : BitVec 32 := 0
deriving DecidableEq, Repr, Inhabited

/-- The kinds of reset that end in BOOT (R465). -/
inductive ResetKind | cold | warm (keepmem : Bool)
deriving DecidableEq, Repr, Inhabited

/-- Firmware: flash slots, the running one, the fused minimum, measurements (R455 to R460). -/
structure Firmware where
  slotA : List Byte := []
  slotB : List Byte := []
  running : Option Bool := none
  /-- the slot that FW_STAGE has written last (R452) -/
  staged : Option Bool := none
  minimum : BitVec 32 := 0
  version : Word := 0
  bootcount : Word := 0
  meas0 : BitVec 512 := 0
  meas1 : BitVec 512 := 0
  meas2 : BitVec 512 := 0
  /-- the number of the attestation key pair -/
  attKey : Nat := 0
  cap : BitVec 12 := 2400
  reset : ResetKind := .cold
  /-- dies whose M issue is gated (R464) -/
  gated : List Nat := []
  /-- the queue and the entry of a TASK_END in progress -/
  ending : Option (Nat × Nat) := none
  /-- the command that firmware has taken and not completed: its opcode and its record (R449) -/
  taken : Option (BitVec 16 × Cmd) := none
deriving DecidableEq, Repr, Inhabited

/-- A near-memory command in progress (R431, R435, R437, R439): the records as read, the record and
granule it has reached. -/
structure NmCmd where
  seat : Nat
  step : Nat
  uid : Nat
  member : Nat
  h : BitVec 4
  die : Nat
  part : Nat
  atomic : Bool
  records : List (List Byte)
  rno : Nat := 0
  gno : Nat := 0
  stopped : Bool := false
  cancelled : Bool := false
  /-- translation of this command failed -/
  failed : Bool := false
  /-- fault under which it is suspended -/
  suspended : Bool := false
  /-- completion record of the current record is due -/
  closing : Option (Nat × Nat × Nat × Nat) := none
  /-- sum of SKIPPED -/
  skipped : Nat := 0
  /-- the translation of a completion record failed (R436) -/
  lost : Bool := false
  seq : Nat := 0
deriving DecidableEq, Repr, Inhabited

end Sys2Proof.Machine
end

