-- ==== Sys2Proof/Machine/DieState.lean ====
section
/-!
DEFINITION. The dispatcher's and the channel engine's state (R292 to R301, R316 to R348).
-/
namespace Sys2Proof.Machine
open Sys2Proof

/-- Where a ring entry of a device queue came from, for the return of its budget (R336). -/
inductive Origin
  | host
  /-- the step record key, the step's serial number and the member that executed the LAUNCH, and the budgets
  carved for all steps of the task -/
  | launch (step uid member ibud tbud : Nat)
  /-- WSEND or a trigger, whose channel it names: the draw of the partition's reserve returns there -/
  | reserve (ibud tbud : Nat) (chan : Option Nat)
deriving DecidableEq, Repr, Inhabited

/-- A user queue (R317, R320) with its live count and the origins of its untaken entries. -/
structure Queue where
  present : Bool := false
  ring : Word := 0
  record : Word := 0
  tail : BitVec 32 := 0
  /-- TAKEN as it was last written, and the count that the last switch-out had to write (R320, R413) -/
  taken : BitVec 32 := 0
  out : BitVec 32 := 0
  live : BitVec 32 := 0
  sizelog : Nat := 0
  mapped : Bool := false
  overrun : Bool := false
  device : Bool := false
  slot : Nat := 0
  part : Nat := 0
  pending : Bool := false
  /-- entries that LAUNCH, WSEND and triggers have reserved (R342) -/
  reserved : BitVec 32 := 0
  origins : Sparse Origin := []
  /-- the DONE channels that untaken entries name, by entry (R360) -/
  named : List (Nat × Nat) := []
  /-- an update of the record waits for a fault (R413) -/
  recWait : Bool := false
  /-- queues that have had this number before (R342) -/
  gen : Nat := 0
deriving DecidableEq, Repr, Inhabited

/-- A hardware slot: SLOTCFG (R322), its queue list, mapped queue and consecutive takes (R323). -/
structure HwSlot where
  maxrun : BitVec 17 := 8192
  part : BitVec 8 := 0
  park : BitVec 8 := 32
  cls : BitVec 3 := 7
  valid : Bool := false
  queues : List Nat := []
  mapped : Option Nat := none
  streak : Nat := 0
deriving DecidableEq, Repr, Inhabited

/-- A timetable row (R324). -/
structure TRow where
  tgrant : BitVec 16 := 0
  grant : BitVec 24 := 0
  part : BitVec 8 := 0
  valid : Bool := false
  slot : BitVec 6 := 0
deriving DecidableEq, Repr, Inhabited

/-- A waybill (R327) as its fields. -/
structure Waybill where
  entry : Word := 0
  table : Word := 0
  params : Word := 0
  walk : List Nat := []
  size : Nat := 1
  fused : Bool := false
  seatSel : Nat := 2
  share : Nat := 0
  ibud : Nat := 0
  tbud : Nat := 0
  priv : BitVec 3 := 0
  purse : Nat := 0
  graph : Word := 0
  convoy : Nat := 0
  done : Option Nat := none
  restart : Bool := false
  borrowed : Bool := false
  parent : Option (Nat × Nat) := none
deriving DecidableEq, Repr, Inhabited

/-- A task record (R316, R331, R336, R338). -/
structure Task where
  present : Bool := false
  part : Nat := 0
  slot : Nat := 0
  queue : Nat := 0
  index : BitVec 32 := 0
  wb : Waybill := {}
  image : Sparse Sig := []
  steps : Nat := 0
  next : Nat := 0
  retired : Nat := 0
  exited : Nat := 0
  restarts : Nat := 0
  status : Nat := 0
  code : BitVec 8 := 0
  bundle : Word := 0
  purse : Nat := 0
  origin : Origin := .host
  /-- budgets kept above the 47-bit limit (R331) -/
  excessI : Nat := 0
  excessT : Nat := 0
  /-- take order -/
  order : Nat := 0
  /-- every step retired; the graph return and the completion are due -/
  finishing : Bool := false
  /-- the DONECH of its graph as read at its take (R360): a channel key -/
  graphCh : Option Nat := none
deriving DecidableEq, Repr, Inhabited

/-- What a parked member waits for (R343): an event mask, or signals with the awaited sample. -/
structure ParkCond where
  mask : BitVec 16 := 0
  sigs : List (Nat × Int) := []
deriving DecidableEq, Repr, Inhabited

/-- Where a member of a step is (R331). -/
inductive Place
  | unplaced
  | onSeat (k : Nat)
  | away
  | ended
deriving DecidableEq, Repr, Inhabited

/-- A member of a step with its saved context and line-memory share (R278). -/
structure Member where
  place : Place := .unplaced
  ctx : Ctx := {}
  line : Sparse UnitW := []
  /-- units of the share with an uncorrectable error (R144) -/
  bad : List Nat := []
  lastSeat : Nat := 0
  share : Nat := 0
  /-- the place of a saved context in the overflow region (R280), and the context as it was written there -/
  spilled : Option Nat := none
  written : Ctx := {}
deriving DecidableEq, Repr, Inhabited

/-- A step record (R316, R331, R343). -/
structure Step where
  present : Bool := false
  uid : Nat := 0
  task : Nat := 0
  number : Nat := 0
  members : List Member := []
  /-- the order in which it became ready, none while it runs -/
  ready : Option Nat := none
  placedAt : Nat := 0
  restarts : Nat := 0
  parked : Option (List ParkCond) := none
  /-- a restarted or first-entered step enters at the waybill's entry (R67, R271) -/
  fresh : Bool := true
  /-- a convoy abort has arrived at the other members of this step (R313) -/
  aborted : Bool := false
  /-- the placement grant is still owed (restore of a reserved placement) -/
  grantI : Nat := 0
  grantT : Nat := 0
deriving DecidableEq, Repr, Inhabited

/-- A channel message: its number, the binding it was sent under, its units and their poison. -/
structure ChMsg where
  k : Nat
  binds : BitVec 32
  units : List UnitW
  poison : BitVec 128
  permit : Bool
  /-- step record, member and acceptance number before which its releases must have completed (R363) -/
  after : Option (Nat × Nat × Nat) := none
  /-- a completion message of the dispatcher (R360) -/
  dev : Bool := false
deriving DecidableEq, Repr, Inhabited

/-- A channel record (R348) with its reader's base message D (R352), the messages in flight to the
ring and the cistern queue with its segments (R357). -/
structure Chan where
  state : BitVec 8 := 0
  rbound : Bool := false
  wbound : Bool := false
  raway : Bool := false
  spilling : Bool := false
  armed : Bool := false
  devwriter : Bool := false
  cls : BitVec 3 := 0
  part : Nat := 0
  quota : Nat := 0
  qmax : Nat := 0
  width : Nat := 0
  tqueue : Nat := 0
  binds : BitVec 32 := 0
  sent : Nat := 0
  deliv : Nat := 0
  wpermits : Nat := 0
  /-- permits that return in this cycle: they count from its end (R367) -/
  back : Nat := 0
  heldback : Nat := 0
  wpkg : BitVec 32 := 0
  trig : Word := 0
  /-- step record, member, signal -/
  reader : Option (Nat × Nat × Nat) := none
  /-- step record and member; on another package, task record and member there -/
  writer : Option (Nat × Nat) := none
  remote : Bool := false
  /-- D of R352 -/
  base : Nat := 0
  /-- messages on their way to the ring or to the cistern -/
  flight : List ChMsg := []
  /-- messages in the cistern -/
  spill : List ChMsg := []
  /-- the pool segments that the queue occupies, and the place of its oldest message in the first -/
  segs : List Nat := []
  segHead : Nat := 0
  /-- permits and cistern room granted to a proxy and not yet used (R365, R483) -/
  permOut : Nat := 0
  roomOut : Nat := 0
  /-- a trigger firing is due or waits (R362), and whether it became so in this cycle (R367) -/
  trigPending : Bool := false
  trigNow : Bool := false
  /-- the waybill of a firing whose budgets are drawn and whose ring write waits -/
  trigEntry : Option (List Byte) := none
deriving DecidableEq, Repr, Inhabited

/-- A connected stream (R292 to R301): source seat, mirror seat, signal, permits at the source side,
the sample it carries (index, units already written). -/
structure Stream where
  src : Nat
  dst : Nat
  sig : Nat
  permits : Nat
  carry : Option Nat := none
  units : List UnitW := []
  poison : BitVec 128 := 0
  frozen : Bool := false
deriving DecidableEq, Repr, Inhabited

/-- A stream that a yield of one of its ends has torn down: until the mirror is connected again, its running source
holds the samples above its fill mark (R299). src and member are members of the step. -/
structure Ghost where
  step : Nat
  src : Nat
  member : Nat
  sig : Nat
  fill : Int
deriving DecidableEq, Repr, Inhabited

/-- A candidate of a slot (R325): a ready step, else the next unplaced step of a task, or all of a convoy. -/
structure Cand where
  task : Nat
  step : Option Nat := none
deriving DecidableEq, Repr, Inhabited

/-- Seats that are kept for a candidate (R326, R334), with its class and the grants of the row of its visit. -/
structure Reserve where
  cand : Cand
  cls : Nat
  seats : List Nat
  grantI : Nat
  grantT : Nat
deriving DecidableEq, Repr, Inhabited

/-- A LAUNCH whose entry is not yet written (R342). -/
structure Launch where
  step : Nat
  uid : Nat
  member : Nat
  handle : BitVec 4
  die : Nat
  queue : Nat
  /-- the queue of that number, its partition, and the launching task with the place in which it was taken -/
  gen : Nat
  part : Nat
  task : Nat
  order : Nat
  /-- the seat and its cycle at the commit (R346) -/
  seat : Nat
  clk : Nat
  k : BitVec 32
  bytes : List Byte
  ibud : Nat
  tbud : Nat
  child : Nat
  borrowed : Bool
  /-- the X commands accepted before it, whose accesses its release awaits (R385) -/
  seq : Nat
deriving DecidableEq, Repr, Inhabited

/-- A die: row pointer, reservations, serial numbers, detector and audit state. -/
structure Die where
  slots : Sparse HwSlot := []
  rows : Sparse TRow := []
  rowPtr : Nat := 0
  /-- reservations after recalls, that of the oldest waiting convoy, and the younger ones (R326, R334) -/
  resv : List Reserve := []
  convoy : Option Reserve := none
  convoyLine : List Reserve := []
  order : Nat := 0
  streams : List Stream := []
  ghosts : List Ghost := []
  launches : List Launch := []
  /-- graph returns due: task records (R339) -/
  returns : List Nat := []
  sparesLeft : Nat := 4
  progress : Sparse (List Nat) := []
  stalled : Sparse Nat := []
  detRaised : List Nat := []
  /-- vector clock and package cache, keyed by granule (R369, R377) -/
  vc : VClock := {}
  pcache : Sparse Line := []
  /-- lines taken so far -/
  pnext : Nat := 0
  /-- translation caches, walk queue, fault queue (R405 to R410); wcache keys are level-1 to level-3
  table addresses by partition, level and prefix -/
  tcache : List Xlat := []
  wcache : List (Nat × Nat × Nat × Nat) := []
  walks : List WReq := []
  faults : List FaultRec := []
  nextFault : BitVec 32 := 0
  /-- requests that wait for an entry of the full walk queue, in the order in which they came (R407) -/
  walkLine : List WReq := []
  /-- requests of agents of this die whose fault failed: partition, address, agent -/
  xfails : List (Nat × Nat × Nat) := []
  /-- power state code (R462) and the state being entered -/
  pstate : Nat := 0
deriving DecidableEq, Repr, Inhabited

end Sys2Proof.Machine
end

