-- ==== Sys2Proof/Machine/FabricState.lean ====
section
/-!
DEFINITION. Wayline state: ports, messages, flows, peers, requests, proxies, pod barriers
(R469 to R478, R480 to R494), and events on their way (R88).
-/
namespace Sys2Proof.Machine
open Sys2Proof

/-- A message (R476). -/
structure Wire where
  cls : Nat
  op : Nat
  tcls : BitVec 3
  src : BitVec 20
  dst : BitVec 20
  flowseq : BitVec 32 := 0
  target : Word
  epoch : BitVec 32
  tag : BitVec 32 := 0
  payload : List Byte := []
  /-- the die that it reaches here: that of the port that received it, else the one that DST names (R368) -/
  die : Nat := 0
deriving DecidableEq, Repr, Inhabited

/-- Port states (R473). -/
inductive PortSt
  | up
  | training (attempt : Nat)
  | failed
deriving DecidableEq, Repr, Inhabited

/-- A Wayline port (R470 to R474). A flit in the replay buffer stands as its sequence number, its message
and its place in it. -/
structure Port where
  st : PortSt := .training 0
  fseq : BitVec 12 := 0
  aseq : BitVec 12 := -1
  acked : BitVec 12 := -1
  replay : List (BitVec 12 × Wire × Nat) := []
  rounds : Nat := 0
  credits : Sparse Nat := []
  /-- the flits of messages not yet complete, by traffic class, the innermost message first (R472) -/
  rx : List (Nat × List Byte) := []
  /-- the credits that the peer holds for the flit buffers of this port, by traffic class (R472) -/
  given : List Nat := []
  errors : Nat := 0
  peer : Option (BitVec 18) := none
  /-- an answer with NACK is due -/
  nack : Bool := false
  /-- messages that wait for credits, and messages of which flits have been sent, with the next one -/
  queue : List Wire := []
  going : List (Wire × Nat) := []
deriving DecidableEq, Repr, Inhabited

/-- One direction of a flow (R478): its class, peer and key (the channel or queue register). -/
structure Flow where
  out : Bool
  cls : Nat
  peer : BitVec 18
  key : Word
  next : BitVec 32
  held : List Wire := []
deriving DecidableEq, Repr, Inhabited

/-- A peer package (R474, R475, R491). -/
structure Peer where
  epoch : Option (BitVec 32) := none
  lost : Bool := false
  /-- its links as it reported them: port, up, peer -/
  links : List (Nat × Bool × BitVec 18) := []
deriving DecidableEq, Repr, Inhabited

/-- What a request in flight is for (R480 to R488). -/
inductive ReqKind
  | bind
  | stat
  | work (h : BitVec 4)
deriving DecidableEq, Repr, Inhabited

structure Req where
  tag : BitVec 32
  pkg : BitVec 18
  step : Nat
  uid : Nat
  member : Nat
  kind : ReqKind
deriving DecidableEq, Repr, Inhabited

/-- The proxy of a remote channel (R483). -/
structure Proxy where
  reg : Word
  die : Nat
  pcred : Nat
  scred : Nat
  pspill : Bool
  cls : BitVec 3
  width : Nat
  sent : Nat
  binds : BitVec 32
  fault : Bool
  /-- step record and member of the writer -/
  writer : Nat × Nat
  /-- the writer has closed it; it stays until the messages that were sent are acknowledged (R93, R485) -/
  closed : Bool := false
  /-- the serial number of the writer's step -/
  uid : Nat := 0
deriving DecidableEq, Repr, Inhabited

/-- A barrier of scope pod or sys on this package (R490): its participating step, whether the package
has reported, and at the root the packages that have arrived. -/
structure PodBar where
  part : Nat
  scope : Nat
  id : Nat
  step : Nat
  uid : Nat
  reported : Bool
  arrived : List Nat
  /-- a package of its set has been lost since: it never releases -/
  broken : Bool
deriving DecidableEq, Repr, Inhabited

structure Fabric where
  ports : Sparse Port := []
  flows : List Flow := []
  peers : Sparse Peer := []
  reqs : List Req := []
  nextTag : BitVec 32 := 0
  proxies : List Proxy := []
  bars : List PodBar := []
  /-- BULK accesses that wait for a translation fault to end (R481) -/
  waiting : List Wire := []
  /-- WORK messages of a die that wait for a free ring entry (R489) -/
  work : List Wire := []
  /-- messages that wait for a path (R475) -/
  noPath : List Wire := []
  /-- channel messages that wait for a release of their seat: step, member, acceptance number (R363) -/
  deferred : List (Wire × Nat × Nat × Nat) := []
deriving DecidableEq, Repr, Inhabited

/-- An event on its way to a member (R88): step record, serial number, member, bit; src is the issuing step
record × 16 + its member. -/
structure EvMsg where
  step : Nat
  uid : Nat
  member : Nat
  ev : BitVec 4
  src : Nat
deriving DecidableEq, Repr, Inhabited

end Sys2Proof.Machine
end

