-- ==== Sys2Proof/Syntax.lean ====
section
/-!
DEFINITION. Instr: one constructor per row of spec/opcode_table.json. The first 159 are the
instructions of the five syllable classes (R46 to R50), one slot of a bundle each; the others are the
steps that the rest of the machine takes (95_what_each_step_holds.md), with the parameters that say
where the step happens.
-/
namespace Sys2Proof

inductive Instr
  -- C class (R46)
  | nop (g : Guard)
  | br (g : Guard) (disp : BitVec 32)
  | brm (tests : List BrmTest)
  | jr (g : Guard) (ra : BitVec 6)
  | call (g : Guard) (disp : BitVec 32)
  | callr (g : Guard) (ra : BitVec 6)
  | ret (g : Guard)
  | loop (g : Guard) (count last : BitVec 16)
  | loopr (g : Guard) (ra : BitVec 6) (last : BitVec 16)
  | lexit (g : Guard)
  | tick (g : Guard) (n : BitVec 8)
  | adv (g : Guard) (sig : BitVec 7) (n : BitVec 8)
  | ypt (g : Guard)
  | yield (g : Guard)
  | cont (g : Guard) (disp : BitVec 32)
  | resume (g : Guard)
  | topup (g : Guard) (ra : BitVec 6) (tbud : Bool)
  | exit (g : Guard)
  | trap (g : Guard) (code : BitVec 16)
  | waitev (g : Guard) (mask : BitVec 16)
  | sigev (g : Guard) (sc : Scope) (target : BitVec 6) (ev : BitVec 4)
  | bar (g : Guard) (sc : Scope) (id : BitVec 6)
  | fuse (g : Guard) (span : BitVec 3)
  | decouple (g : Guard)
  | rejoin (g : Guard)
  -- S class (R47)
  | add (g : Guard) (rd ra rb : BitVec 6)
  | sub (g : Guard) (rd ra rb : BitVec 6)
  | mul (g : Guard) (rd ra rb : BitVec 6)
  | mulh (g : Guard) (rd ra rb : BitVec 6)
  | mulhu (g : Guard) (rd ra rb : BitVec 6)
  | div (g : Guard) (rd ra rb : BitVec 6)
  | divu (g : Guard) (rd ra rb : BitVec 6)
  | rem (g : Guard) (rd ra rb : BitVec 6)
  | and (g : Guard) (rd ra rb : BitVec 6)
  | or (g : Guard) (rd ra rb : BitVec 6)
  | xor (g : Guard) (rd ra rb : BitVec 6)
  | andn (g : Guard) (rd ra rb : BitVec 6)
  | shl (g : Guard) (rd ra rb : BitVec 6)
  | shr (g : Guard) (rd ra rb : BitVec 6)
  | sar (g : Guard) (rd ra rb : BitVec 6)
  | min (g : Guard) (rd ra rb : BitVec 6)
  | max (g : Guard) (rd ra rb : BitVec 6)
  | minu (g : Guard) (rd ra rb : BitVec 6)
  | maxu (g : Guard) (rd ra rb : BitVec 6)
  | clz (g : Guard) (rd ra : BitVec 6)
  | popc (g : Guard) (rd ra : BitVec 6)
  | sel (g : Guard) (rd ra rb : BitVec 6) (p : BitVec 4)
  | addi (g : Guard) (rd ra : BitVec 6) (imm : BitVec 35)
  | andi (g : Guard) (rd ra : BitVec 6) (imm : BitVec 35)
  | ori (g : Guard) (rd ra : BitVec 6) (imm : BitVec 35)
  | xori (g : Guard) (rd ra : BitVec 6) (imm : BitVec 35)
  | shli (g : Guard) (rd ra : BitVec 6) (sh : BitVec 6)
  | shri (g : Guard) (rd ra : BitVec 6) (sh : BitVec 6)
  | sari (g : Guard) (rd ra : BitVec 6) (sh : BitVec 6)
  | movi (g : Guard) (rd : BitVec 6) (imm : BitVec 35)
  | movhi (g : Guard) (rd ra : BitVec 6) (imm : BitVec 32)
  | cmp (g : Guard) (pd : BitVec 4) (c : Cond) (ra rb : BitVec 6)
  | cmpi (g : Guard) (pd : BitVec 4) (c : Cond) (ra : BitVec 6) (imm : BitVec 34)
  | pand (g : Guard) (pd pa pb : BitVec 4)
  | por (g : Guard) (pd pa pb : BitVec 4)
  | pxor (g : Guard) (pd pa pb : BitVec 4)
  | pandn (g : Guard) (pd pa pb : BitVec 4)
  | pset (g : Guard) (pd : BitVec 4) (ra : BitVec 6)
  | spld (g : Guard) (rd : BitVec 6) (slot : BitVec 9)
  | spst (g : Guard) (ra : BitVec 6) (slot : BitVec 9)
  | csrr (g : Guard) (rd : BitVec 6) (csr : BitVec 12)
  | csrw (g : Guard) (ra : BitVec 6) (csr : BitVec 12)
  | lidx (g : Guard) (rd : BitVec 6) (level : BitVec 3)
  | fadd (g : Guard) (rd ra rb : BitVec 6)
  | fsub (g : Guard) (rd ra rb : BitVec 6)
  | fmul (g : Guard) (rd ra rb : BitVec 6)
  | ffma (g : Guard) (rd ra rb : BitVec 6)
  | fmin (g : Guard) (rd ra rb : BitVec 6)
  | fmax (g : Guard) (rd ra rb : BitVec 6)
  | fcmp (g : Guard) (pd : BitVec 4) (c : Cond) (ra rb : BitVec 6)
  | fcvti (g : Guard) (rd ra : BitVec 6)
  | icvtf (g : Guard) (rd ra : BitVec 6)
  | sigset (g : Guard) (ra : BitVec 6) (sig : BitVec 7) (field : BitVec 4) (level : BitVec 3)
  | sigget (g : Guard) (rd : BitVec 6) (sig : BitVec 7) (field : BitVec 4) (level : BitVec 3)
  | sigclr (g : Guard) (sig : BitVec 7)
  | fillmk (g : Guard) (sig : BitVec 7) (lag : BitVec 8)
  | waitfill (g : Guard) (rd : BitVec 6) (sig : BitVec 7) (k : BitVec 8)
  | taprd (g : Guard) (rd : BitVec 6) (sig : BitVec 7) (lag : BitVec 8)
  | tapwr (g : Guard) (ra : BitVec 6) (sig : BitVec 7) (lag : BitVec 8)
  -- V class (R48)
  | vadd (g : Guard) (t : VTy) (d a b : VOp) (rm : BitVec 2)
  | vsub (g : Guard) (t : VTy) (d a b : VOp) (rm : BitVec 2)
  | vmul (g : Guard) (t : VTy) (d a b : VOp) (rm : BitVec 2)
  | vfma (g : Guard) (t : VTy) (d a b : VOp) (rm : BitVec 2)
  | vfms (g : Guard) (t : VTy) (d a b : VOp) (rm : BitVec 2)
  | vmin (g : Guard) (t : VTy) (d a b : VOp)
  | vmax (g : Guard) (t : VTy) (d a b : VOp)
  | vabs (g : Guard) (t : VTy) (d a : VOp)
  | vneg (g : Guard) (t : VTy) (d a : VOp)
  | vcmpeq (g : Guard) (t : VTy) (d a b : VOp)
  | vcmplt (g : Guard) (t : VTy) (d a b : VOp)
  | vcmple (g : Guard) (t : VTy) (d a b : VOp)
  | vsel (g : Guard) (t : VTy) (d a b : VOp)
  | vmov (g : Guard) (t : VTy) (d a : VOp)
  | vbcast (g : Guard) (t : VTy) (d a b : VOp)
  | vrsum (g : Guard) (t : VTy) (d a : VOp) (rm : BitVec 2)
  | vrmax (g : Guard) (t : VTy) (d a : VOp)
  | vrcp (g : Guard) (t : VTy) (d a : VOp) (rm : BitVec 2)
  | vrsq (g : Guard) (t : VTy) (d a : VOp) (rm : BitVec 2)
  | vexp2 (g : Guard) (t : VTy) (d a : VOp) (rm : BitVec 2)
  | vlog2 (g : Guard) (t : VTy) (d a : VOp) (rm : BitVec 2)
  | vscale (g : Guard) (t : VTy) (d a b : VOp) (rm : BitVec 2)
  | vcvt (g : Guard) (t : VTy) (d a : VOp) (src : VTy) (rm : BitVec 2)
  | vperm (g : Guard) (t : VTy) (d a b : VOp)
  | vslide (g : Guard) (t : VTy) (d a b : VOp)
  | viota (g : Guard) (t : VTy) (d a : VOp)
  | vtapx (g : Guard) (t : VTy) (d a b : VOp)
  | vand (g : Guard) (d a b : VOp)
  | vor (g : Guard) (d a b : VOp)
  | vxor (g : Guard) (d a b : VOp)
  | vshl (g : Guard) (d a b : VOp)
  | vshr (g : Guard) (d a b : VOp)
  | vsar (g : Guard) (d a b : VOp)
  -- M class (R49)
  | mma (g : Guard) (tile latch : BitVec 1) (sig lag : BitVec 7) (r : MRows) (k : MKind)
  | mmaz (g : Guard) (tile latch : BitVec 1) (sig lag : BitVec 7) (r : MRows) (k : MKind)
  | latch (g : Guard) (l : BitVec 1) (sig lag : BitVec 7) (k : MKind)
  | latcht (g : Guard) (l : BitVec 1) (sig lag : BitVec 7) (k : MKind)
  | asetId (g : Guard) (tile : BitVec 1) (r : MRows)
  | asetZero (g : Guard) (tile : BitVec 1) (r : MRows)
  | again (g : Guard) (tile : BitVec 1) (sig lag : BitVec 7) (r : MRows)
  | aoff (g : Guard) (tile : BitVec 1) (sig lag : BitVec 7) (r : MRows)
  | apply (g : Guard) (tile : BitVec 1) (sig lag : BitVec 7) (r : MRows)
  | ardOff (g : Guard) (tile : BitVec 1) (sig lag : BitVec 7) (r : MRows)
  | ardGain (g : Guard) (tile : BitVec 1) (sig lag : BitVec 7) (r : MRows)
  | scan (g : Guard) (tile : BitVec 1) (cy : BitVec 2) (r : MRows)
  | scanUpd (g : Guard) (tile : BitVec 1) (cy : BitVec 2) (r : MRows)
  | cyset (g : Guard) (cy : BitVec 2) (sig lag : BitVec 7)
  | cysetId (g : Guard) (cy : BitVec 2)
  | cyget (g : Guard) (cy : BitVec 2) (sig lag : BitVec 7)
  -- X class (R50)
  | cld (g : Guard) (o : XcOps)
  | cst (g : Guard) (o : XcOps)
  | clda (g : Guard) (o : XcOps)
  | cstr (g : Guard) (o : XcOps)
  | cgath (g : Guard) (o : XgOps)
  | cscat (g : Guard) (o : XgOps)
  | scacc (g : Guard) (o : XsOps)
  | ccancel (g : Guard) (h : BitVec 4)
  | cwait (g : Guard) (h : BitVec 4)
  | dset (g : Guard) (d field : BitVec 4) (ra : BitVec 6)
  | fence (g : Guard) (sc : Scope) (k : FenceKind) (mask : BitVec 8)
  | csub (g : Guard) (o : XcOps)
  | cpull (g : Guard) (o : XcOps)
  | cunsub (g : Guard) (h : BitVec 4)
  | nmcmd (g : Guard) (sig : BitVec 7) (ra : BitVec 6) (h : BitVec 4)
  | nmfence (g : Guard) (sc : Scope) (k : FenceKind) (mask : BitVec 8)
  | nmatom (g : Guard) (sig : BitVec 7) (ra : BitVec 6) (h : BitVec 4)
  | chsend (g : Guard) (sig : BitVec 7) (ra rd : BitVec 6)
  | chsendTry (g : Guard) (sig : BitVec 7) (ra rd : BitVec 6)
  | chbind (g : Guard) (sig : BitVec 7) (ra rd : BitVec 6)
  | chbindW (g : Guard) (ra rd : BitVec 6)
  | chclose (g : Guard) (ra rd : BitVec 6)
  | chcloseW (g : Guard) (ra rd : BitVec 6)
  | chstat (g : Guard) (ra rd : BitVec 6)
  | launch (g : Guard) (sig : BitVec 7) (ra : BitVec 6) (h : BitVec 4)
  | wsend (g : Guard) (sig : BitVec 7) (ra : BitVec 6) (h : BitVec 4)
  -- seat and core events; k is a seat number, die * 128 + core * 2 + seat
  | heldBundleRelease (k : Nat)
  | eventLatch (n : Nat)
  | barrierRelease (k : Nat)
  | stallToll (k : Nat)
  | maxrunOverrun (k : Nat)
  | tapDeadlock (k : Nat)
  | fuseTimeout (k : Nat)
  | mResultFinal (k : Nat)
  | takeTrap (k : Nat)
  | asynchronousCause (k : Nat) (c : Cause)
  | trapDisposition (k : Nat)
  | recall (k : Nat)
  | yieldTaken (k : Nat)
  | contextSave (k : Nat)
  | contextRestore (k : Nat)
  | spareMap (core : Nat)
  | mirrorSourceSearch (k : Nat) (sig : BitVec 7)
  | streamSampleSend (die n : Nat)
  | streamSampleArrival (die n : Nat)
  -- copy engine and memory events
  | copyElementIssue (k : Nat) (h : BitVec 4)
  | copyAccessComplete (k : Nat) (h : BitVec 4) (n : Nat)
  | scaccWindow (k : Nat) (h : BitVec 4)
  | loaderSamplePush (k : Nat) (h : BitVec 4)
  | storerSampleWrite (k : Nat) (h : BitVec 4)
  | combinerFlush (die n : Nat)
  | announcementApply (die n : Nat)
  | translationWalk (die n : Nat)
  | faultTimeout (die n : Nat)
  | stackRead (n : Nat)
  | stackWrite (n : Nat)
  | bankRefresh (stack pc bank : Nat) (hint : BitVec 6)
  | retryReissue (n : Nat)
  | rowPrecharge (stack pc bank : Nat)
  | rowOpenLimit (stack pc bank : Nat)
  | patrolScrub (stack granule : Nat)
  | stackLost (stack : Nat)
  | nearMemoryGranule (n : Nat)
  | nmAtomicRecord (n : Nat)
  -- dispatcher and channel events
  | timetableVisit (die : Nat)
  | reservedPlacement (die : Nat)
  | convoyPlacement (die : Nat)
  | graphReturn (die n : Nat)
  | launchEntryWrite (die n : Nat)
  | groupPark (die step : Nat)
  | groupWake (die step : Nat)
  | waitExamination (k : Nat)
  | messageDelivery (die chan : Nat)
  | messageSpill (die chan : Nat)
  | cisternDrain (die chan : Nat)
  | triggerFire (die chan : Nat)
  | deadlockSample (die part : Nat)
  | permitAudit (die : Nat)
  -- host writes
  | doorbellTailWrite (die queue : Nat) (t : BitVec 32)
  | ctailWrite (v : Word)
  | pheadWrite (v : Word)
  | eheadWrite (v : Word)
  | ltrWrite (v : Word)
  | resetctlWrite (v : Word)
  | slotmapWrite (core : Nat) (v : BitVec 32)
  | configRegisterWrite (r : CfgReg) (v : Word)
  | hostWrite (aperture off : Nat) (bytes : List Byte) (ep : Bool)
  | hostRead (aperture off n : Nat)
  -- firmware commands (R452)
  | identify (c : Cmd)
  | attest (c : Cmd)
  | fwStage (c : Cmd)
  | partCreate (c : Cmd)
  | partDestroy (c : Cmd)
  | partXlat (c : Cmd)
  | partWindow (c : Cmd)
  | partInval (c : Cmd)
  | partSwapOut (c : Cmd)
  | partSwapIn (c : Cmd)
  | partReserve (c : Cmd)
  | trapPolicy (c : Cmd)
  | trapDisposeRetry (c : Cmd)
  | trapDisposeMaskedRetry (c : Cmd)
  | trapDisposeEnd (c : Cmd)
  | trapDisposeRestart (c : Cmd)
  | trapRead (c : Cmd)
  | shareRelease (c : Cmd)
  | faultResolveRetry (c : Cmd)
  | faultResolveFail (c : Cmd)
  | aperture (c : Cmd)
  | queueCreate (c : Cmd)
  | queueDestroy (c : Cmd)
  | queueAssign (c : Cmd)
  | taskEnd (c : Cmd)
  | slotSet (c : Cmd)
  | rowSet (c : Cmd)
  | chanCreate (c : Cmd)
  | chanDestroy (c : Cmd)
  | chanSet (c : Cmd)
  | codeLoad (c : Cmd)
  | coreRetire (c : Cmd)
  | powerCap (c : Cmd)
  | reset (c : Cmd)
  | unknownOpcode (opcode : BitVec 16) (c : Cmd)
  -- resets, links and power
  | coldReset
  | warmReset (keepmem : Bool)
  | boot
  | linkDown (link : Nat)
  | powerSample (watts : Nat) (hot shutdown : Bool) (dies : BitVec 4)
  | powerStateEntry (die : Nat)
  | wakeEvent (die : Nat)
  -- Wayline ports and messages (R471 to R495)
  | flitReceive (port : Nat) (f : Flit)
  | replayTimeout (port : Nat)
  | portDown (port : Nat) (why : PortCause)
  | portTraining (port : Nat) (ok : Bool) (peer : BitVec 18) (epoch : BitVec 32)
  | flowResend (n : Nat)
  | packageLost (pkg : BitVec 18)
  | msg (m : Msg)
  | close (m : Msg)
  | waybill (m : Msg)
  | loss (m : Msg)
  | refused (m : Msg)
  | xfault (m : Msg)
  | read (m : Msg)
  | readresp (m : Msg)
  | write (m : Msg)
  | writeack (m : Msg)
  | ack (m : Msg)
  | bindreq (m : Msg)
  | bindreply (m : Msg)
  | grant (m : Msg)
  | drained (m : Msg)
  | statreq (m : Msg)
  | statreply (m : Msg)
  | grow (m : Msg)
  | fault (m : Msg)
  | bararr (m : Msg)
  | barrel (m : Msg)
  | workdone (m : Msg)
  | linkstate (m : Msg)
  | refuse (m : Msg)
  | powerLoss
deriving DecidableEq, Repr

end Sys2Proof
end

