-- ==== Sys2Proof/Machine/State.lean ====
section
/-!
DEFINITION. The state of the package, the stops, and the state right after reset.
-/
namespace Sys2Proof.Machine
open Sys2Proof

/-- The first issue cycle of a split bundle has passed (R64): the bundle, the address after what it delimits, the
seats that commit together, and what its slots read: the seat, its line memory, the channels and the proxies. -/
structure Split where
  addr : Word
  syll : List Word
  after : Word
  group : List Nat
  reads : Ctx
  line : Sparse UnitW
  chans : Sparse Chan
  proxies : List Proxy
deriving DecidableEq, Repr, Inhabited

/-- A hardware seat. step is the step record of the die and the member that run on it. -/
structure Seat where
  phase : Phase := .idle
  step : Option (Nat × Nat) := none
  origin : Nat := 0
  share : Nat := 0
  ctx : Ctx := {}
  split : Option Split := none
deriving DecidableEq, Repr, Inhabited

/-- Why the machine stops with a fault. -/
inductive Fault
  /-- a syllable is executed while the current seat runs no step; raised by the bundle issue; safe: the
  spec issues bundles of running seats only -/
  | seatIdle
deriving DecidableEq, Repr

/-- Why the model gives no meaning. -/
inductive Refusal
  /-- the arm of exec has no meaning yet; raised by the dispatch; safe -/
  | notModelled (mnemonic : String)
deriving DecidableEq, Repr

/-- The next thing that happens. -/
inductive Turn
  | cycle (core : Nat)
  | event (i : Instr)
  /-- a message that arrives (R495) -/
  | message (w : Wire)
  | firmware
deriving DecidableEq, Repr

/-- The package. The first four fields are the model's own. -/
structure State where
  /-- the turns that come next; when empty, boot if resetting, else a cycle of the core of cur -/
  agenda : List Turn := []
  /-- the seat on which a syllable that exec is given issues -/
  cur : Nat := 0
  /-- turns taken -/
  cycle : Nat := 0
  /-- the number of the next free value -/
  freeCtr : Nat := 0
  pkgid : BitVec 18 := 0
  seats : Sparse Seat := []
  cores : Sparse Core := []
  dies : Sparse Die := []
  queues : Sparse Queue := []
  tasks : Sparse Task := []
  steps : Sparse Step := []
  chans : Sparse Chan := []
  /-- stacked DRAM by physical address (R395) and its poisoned granules (R426) -/
  mem : List Host.Cell := []
  poisonMem : List Nat := []
  /-- erroneous symbols of a granule (R426) -/
  errs : Sparse Nat := []
  /-- the stamps of the writes of a granule, joined (R377), and the writes that the homes have placed in the
  coherence order (R375) -/
  stamps : Sparse VClock := []
  serial : Nat := 0
  anns : List Ann := []
  accs : List Access := []
  stackTab : Sparse Stack := []
  parts : Sparse Part := []
  host : HostIf := {}
  fw : Firmware := {}
  near : List NmCmd := []
  fab : Fabric := {}
  /-- events on their way to their seats (R88) -/
  events : List EvMsg := []
  /-- die-to-die links that are down (R443) -/
  linksDown : List Nat := []
deriving DecidableEq, Repr

/-- The machine right after reset: straps read, flash and fuses as manufactured, everything else
cleared; DEVSTAT shows a reset in progress (R447, R455, R465, R474). -/
def State.reset : State :=
  { pkgid := Config.pkgStraps,
    fw := { slotA := Config.flashA, slotB := Config.flashB, minimum := Config.fuseMinimum } }

abbrev Out := Host.Outcome State Fault Refusal

end Sys2Proof.Machine
end

