-- ==== Sys2Proof/Machine/Ops.lean ====
section
/-!
DEFINITION. Named operations over registers, seats, cores, line memory and stacked DRAM.
-/
namespace Sys2Proof.Machine
open Sys2Proof

/-! Seats and cores. Seat k is die × 128 + core × 2 + seat; its core is k / 2. -/

def State.seat (s : State) (k : Nat) : Seat := s.seats.get {} k
def State.setSeat (s : State) (k : Nat) (x : Seat) : State := { s with seats := s.seats.set {} k x }
def State.updSeat (s : State) (k : Nat) (f : Seat → Seat) : State := s.setSeat k (f (s.seat k))
def State.ctx (s : State) (k : Nat) : Ctx := (s.seat k).ctx
def State.updCtx (s : State) (k : Nat) (f : Ctx → Ctx) : State :=
  s.updSeat k fun x => { x with ctx := f x.ctx }
def State.core (s : State) (c : Nat) : Core := s.cores.get {} c
def State.setCore (s : State) (c : Nat) (x : Core) : State := { s with cores := s.cores.set {} c x }
def State.updCore (s : State) (c : Nat) (f : Core → Core) : State := s.setCore c (f (s.core c))

def dieOf (k : Nat) : Nat := k / 128
def coreOf (k : Nat) : Nat := k / 2
/-- The clock of the core that a seat stands on. -/
def State.clk (s : State) (k : Nat) : Nat := (s.core (coreOf k)).clk

def State.die (s : State) (d : Nat) : Die := s.dies.get {} d
def State.updDie (s : State) (d : Nat) (f : Die → Die) : State :=
  { s with dies := s.dies.set {} d (f (s.die d)) }
/-- A wake event (R462): the die is Active, and memory leaves self-refresh. -/
def State.wakeDie (s : State) (d : Nat) : State :=
  if (s.die d).pstate = 0 && !s.host.selfRefresh then s
  else { s.updDie d fun x => { x with pstate := 0 } with host.selfRefresh := false }

/-- Queue d × 65536 + q, task d × 4096 + t, step d × 16384 + n, channel d × 4096 + c. -/
def State.queue (s : State) (q : Nat) : Queue := s.queues.get {} q
def State.updQueue (s : State) (q : Nat) (f : Queue → Queue) : State :=
  { s with queues := s.queues.set {} q (f (s.queue q)) }
def State.task (s : State) (t : Nat) : Task := s.tasks.get {} t
def State.updTask (s : State) (t : Nat) (f : Task → Task) : State :=
  { s with tasks := s.tasks.set {} t (f (s.task t)) }
def State.step1 (s : State) (n : Nat) : Step := s.steps.get {} n
def State.updStep (s : State) (n : Nat) (f : Step → Step) : State :=
  { s with steps := s.steps.set {} n (f (s.step1 n)) }
def State.chan (s : State) (c : Nat) : Chan := s.chans.get {} c
def State.updChan (s : State) (c : Nat) (f : Chan → Chan) : State :=
  { s with chans := s.chans.set {} c (f (s.chan c)) }

/-- The step record and member on a seat; a seat without a step names record 0. -/
def State.stepKey (s : State) (k : Nat) : Nat := ((s.seat k).step.getD (0, 0)).1
def State.memberNo (s : State) (k : Nat) : Nat := ((s.seat k).step.getD (0, 0)).2
def State.taskKey (s : State) (k : Nat) : Nat := (s.step1 (s.stepKey k)).task
def State.partOf (s : State) (k : Nat) : Nat := (s.task (s.taskKey k)).part
def State.waybill (s : State) (k : Nat) : Waybill := (s.task (s.taskKey k)).wb

/-- The channel whose bound reader is signal n of seat k (R352): its key. -/
def State.readerChan (s : State) (k : Nat) (n : BitVec 7) : Option Nat :=
  (s.chans.find? fun e => e.1 / 4096 == dieOf k && e.2.rbound &&
    e.2.reader == some (s.stepKey k, s.memberNo k, n.toNat)).map (·.1)

/-- The seat on which a member of a step stands. -/
def memberSeat (s : State) (step m : Nat) : Option Nat :=
  match (s.step1 step).members[m]? with
  | some x => (match x.place with
    | .onSeat k => some k
    | .unplaced => none
    | .away => none
    | .ended => none)
  | none => none

/-- The context of a member: on its seat, else the saved one. -/
def State.memberCtx (s : State) (step m : Nat) : Ctx :=
  match memberSeat s step m with
  | some k => s.ctx k
  | none => (((s.step1 step).members[m]?).getD {}).ctx
def State.updMember (s : State) (step m : Nat) (f : Member → Member) : State :=
  s.updStep step fun x => { x with members := modifyAt f x.members m }
def State.updMemberCtx (s : State) (step m : Nat) (f : Ctx → Ctx) : State :=
  match memberSeat s step m with
  | some k => s.updCtx k f
  | none => s.updMember step m fun x => { x with ctx := f x.ctx }

/-- The register value of R350 that names a channel of this package. -/
def State.chanReg (s : State) (c : Nat) : Word :=
  BitVec.ofNat 64 (s.pkgid.toNat * 2 ^ 14 + c / 4096 * 2 ^ 12 + c % 4096)

/-! Scalar and predicate registers (R66, R113). -/

/-- s0 reads zero. -/
def Ctx.s (c : Ctx) (r : BitVec 6) : Word := if r = 0 then 0 else c.regs.s.get 0 r.toNat
/-- A write to s0 is discarded (R40). -/
def Ctx.setS (c : Ctx) (r : BitVec 6) (v : Word) : Ctx :=
  if r = 0 then c else { c with regs.s := c.regs.s.set 0 r.toNat v }

/-- DUE: IBUD is zero or negative (R99). -/
def Ctx.due (c : Ctx) : Bool := decide (c.bud.ibud.toInt ≤ 0)

/-- p0 reads true; p13 FIRST, p14 LAST, p15 DUE (R66). -/
def Ctx.p (c : Ctx) (r : BitVec 4) : Bool :=
  match r.toNat with
  | 0 => true
  | 13 => match c.pos.loops.getLast? with
    | some l => l.index == 0
    | none => false
  | 14 => match c.pos.loops.getLast? with
    | some l => l.remaining == 1
    | none => false
  | 15 => c.due
  | n => c.regs.p.getLsbD n

def Ctx.setP (c : Ctx) (r : BitVec 4) (b : Bool) : Ctx :=
  if 1 ≤ r.toNat ∧ r.toNat ≤ 12 then
    { c with regs.p := if b then c.regs.p ||| (1 : BitVec 16) <<< r.toNat
                       else c.regs.p &&& ~~~((1 : BitVec 16) <<< r.toNat) }
  else c

/-- The guard holds (R34). -/
def Guard.holds (g : Guard) (c : Ctx) : Bool := c.p g.pred != g.neg

def Ctx.v (c : Ctx) (r : BitVec 5) : Vec := c.regs.v.get 0 r.toNat
def Ctx.setV (c : Ctx) (r : BitVec 5) (x : Vec) : Ctx :=
  { c with regs.v := c.regs.v.set 0 r.toNat x }
def Ctx.spill (c : Ctx) (n : BitVec 9) : Word := c.regs.spill.get 0 n.toNat
def Ctx.setSpill (c : Ctx) (n : BitVec 9) (x : Word) : Ctx :=
  { c with regs.spill := c.regs.spill.set 0 n.toNat x }

/-- The index of loop position l, 0 at or above the depth (R80, R134). -/
def Ctx.loopIndex (c : Ctx) (l : Nat) : Word :=
  match c.pos.loops[l]? with
  | some x => x.index
  | none => 0

/-! Signals (R145 to R150). -/

def Ctx.sg (c : Ctx) (n : BitVec 7) : Sig := c.sig.table.get {} n.toNat
def Ctx.setSg (c : Ctx) (n : BitVec 7) (x : Sig) : Ctx :=
  { c with sig.table := c.sig.table.set {} n.toNat x }

namespace Sig
def present (g : Sig) : Bool := g.width != 0 && g.depth != 0
def isTable (g : Sig) : Bool := g.rate == 0
def isTicked (g : Sig) : Bool := 1 ≤ g.rate.toNat && g.rate.toNat ≤ 254
/-- N = DEPTH + AHEAD slots (R147). -/
def slots (g : Sig) : Nat := g.depth.toNat + g.ahead.toNat
/-- FILL as an absolute index. -/
def fillMark (g : Sig) : Int := (g.head.toNat : Int) + g.fill.toInt
def setFill (g : Sig) (i : Int) : Sig := { g with fill := BitVec.ofInt 17 (i - (g.head.toNat : Int)) }
def fmt (g : Sig) : Fmt := (Fmt.ofCode g.format.toNat).getD .fp32
def lst (g : Sig) (l : Nat) : Int := (g.lstride.extractLsb' (8 * l) 8).toInt
def est (g : Sig) (l : Nat) : Int := (g.estride.extractLsb' (8 * l) 8).toInt
/-- Elements per sample (R153). -/
def elems (g : Sig) : Nat := g.width.toNat * 32 / g.fmt.size
/-- The slot of sample i. -/
def slotOf (g : Sig) (i : Int) : Nat := (i % (g.slots : Int)).toNat
/-- The highest live index, or the last entry of a table. -/
def top (g : Sig) : Int :=
  if g.isTable then (g.depth.toNat : Int) - 1 else (g.head.toNat : Int) + (g.ahead.toNat : Int)
end Sig

/-- The key of a slot's marks. -/
def markKey (n : BitVec 7) (slot : Nat) : Nat := n.toNat * 2 ^ 17 + slot

def Ctx.written (c : Ctx) (n : BitVec 7) (slot u : Nat) : Bool :=
  (c.sig.written.get 0 (markKey n slot)).getLsbD u
def Ctx.poisoned (c : Ctx) (n : BitVec 7) (slot u : Nat) : Bool :=
  (c.sig.poison.get 0 (markKey n slot)).getLsbD u

/-- Set or clear one mark. -/
def setMark (m : Sparse (BitVec 128)) (key u : Nat) (b : Bool) : Sparse (BitVec 128) :=
  let old := m.get 0 key
  let one := (1 : BitVec 128) <<< u
  m.set 0 key (if b then old ||| one else old &&& ~~~one)

def Ctx.markWritten (c : Ctx) (n : BitVec 7) (slot u : Nat) : Ctx :=
  { c with sig.written := setMark c.sig.written (markKey n slot) u true,
           sig.poison := setMark c.sig.poison (markKey n slot) u false }
def Ctx.markPoison (c : Ctx) (n : BitVec 7) (slot u : Nat) (b : Bool) : Ctx :=
  { c with sig.poison := setMark c.sig.poison (markKey n slot) u b }
/-- Clear both bits of every unit of a slot (R148). -/
def Ctx.clearSlot (c : Ctx) (n : BitVec 7) (slot : Nat) : Ctx :=
  { c with sig.written := c.sig.written.set 0 (markKey n slot) 0,
           sig.poison := c.sig.poison.set 0 (markKey n slot) 0 }
/-- Clear both bits in every slot (R165, R168). -/
def Ctx.clearMarks (c : Ctx) (n : BitVec 7) : Ctx :=
  { c with sig.written := c.sig.written.clearRange (markKey n 0) (2 ^ 17),
           sig.poison := c.sig.poison.clearRange (markKey n 0) (2 ^ 17) }

/-- The samples above FILL of signal n that loads which have ended left there count no more: FILL begins anew (R165,
R168, R223). -/
def Ctx.forget (c : Ctx) (n : BitVec 7) : Ctx := { c with eng.landed := c.eng.landed.filter fun l => l.1 != n.toNat }

/-- Opcodes of the commands that read or write a signal in the copy engine (R50). -/
def isCopyOp (op : BitVec 8) : Bool := [0, 1, 2, 3, 4, 5, 6, 0x0B, 0x0C].contains op.toNat
def isStoreOp (op : BitVec 8) : Bool := [1, 3, 5, 0x0C].contains op.toNat
def isLoadOp (op : BitVec 8) : Bool := [0, 2, 4, 0x0B].contains op.toNat

def Ctx.handle (c : Ctx) (h : Nat) : Handle := c.eng.handles.get {} h
/-- A handle in state 1 to 4 holds an incomplete command (R216). -/
def Handle.busy (h : Handle) : Bool := 1 ≤ h.state.toNat && h.state.toNat ≤ 4

/-! Line memory (R141, R147). -/

/-- The unit of line memory that holds unit u of slot t of a signal on seat k. -/
def State.unitOf (s : State) (k : Nat) (g : Sig) (slot u : Nat) : Nat :=
  (s.seat k).origin + g.base.toNat + slot * g.width.toNat + u

def State.line (s : State) (k p : Nat) : UnitW := (s.core (coreOf k)).line.get 0 p
/-- The errors of units that are written whole, or that take a new sample, are gone (R144, R148). -/
def Core.heal (c : Core) (ps : List Nat) : Core :=
  if c.lineBad.isEmpty && c.lineSoft.isEmpty then c
  else
    let keep := fun (p : Nat) => !ps.contains p
    { c with lineBad := c.lineBad.filter keep, lineSoft := c.lineSoft.filter keep, lineMet := c.lineMet.filter keep }
def State.setLine (s : State) (k p : Nat) (x : UnitW) : State :=
  s.updCore (coreOf k) fun c => { c.heal [p] with line := c.line.set 0 p x }
/-- An uncorrectable error in a unit (R144). -/
def State.lineBad (s : State) (k p : Nat) : Bool := (s.core (coreOf k)).lineBad.contains p

/-- An error that CERR counts; both counts saturate (R288). -/
def Cerr.count (e : Cerr) (hard : Bool) : Cerr :=
  if hard then { e with uncorr := BitVec.ofNat 15 (min (e.uncorr.toNat + 1) 32767) }
  else
    let n := min (e.corr.toNat + 1) (2 ^ 32 - 1)
    { e with corr := BitVec.ofNat 32 n
             alert := e.alert || (n != e.corr.toNat && e.thresh != 0 && n % e.thresh.toNat == 0) }

/-- Units of a core's line memory are read: correctable ones are written back, and each error is counted once
(R144). -/
def Core.readUnits (c : Core) (ps : List Nat) : Core :=
  if c.lineBad.isEmpty && c.lineSoft.isEmpty then c
  else
    let soft := c.lineSoft.filter ps.contains
    let hard := c.lineBad.filter fun p => ps.contains p && !c.lineMet.contains p
    { c with
      lineSoft := c.lineSoft.filter fun p => !ps.contains p
      lineMet := c.lineMet ++ hard
      cerr := hard.foldl (fun e _ => e.count true) (soft.foldl (fun e _ => e.count false) c.cerr) }
/-- An agent other than the seat reads or writes a unit: its bank is occupied in the core's next cycle (R59), and
what a read meets is counted. -/
def State.useUnit (s : State) (k p : Nat) : State :=
  s.updCore (coreOf k) fun c => { c.readUnits [p] with engBanks := c.engBanks ++ [p % 16] }

/-- Bytes b to b + z − 1 of a unit. -/
def unitBytes (x : UnitW) (b z : Nat) : Nat := x.toNat / 2 ^ (8 * b) % 2 ^ (8 * z)
def setUnitBytes (x : UnitW) (b z v : Nat) : UnitW :=
  let m := (BitVec.ofNat 256 (2 ^ (8 * z) - 1)) <<< (8 * b)
  (x &&& ~~~m) ||| ((BitVec.ofNat 256 (v % 2 ^ (8 * z))) <<< (8 * b))

/-! Causes (R264 to R266). -/

/-- DETAIL1 with a signal and, where one is resolved, an absolute sample index. -/
def sigDetail (n : BitVec 7) (i : Option Int) : Word :=
  BitVec.ofNat 64 (n.toNat * 2 ^ 5 + 2 ^ 12 +
    match i with
    | some x => 2 ^ 61 + (x % 2 ^ 44).toNat * 2 ^ 13
    | none => 0)
def handleDetail (h : BitVec 4) : Word := BitVec.ofNat 64 (h.toNat + 16)
def memberDetail (m : Nat) : Word := BitVec.ofNat 64 (m % 16 * 2 ^ 57)
def cause (code : Nat) : Cause := ⟨BitVec.ofNat 8 code, 0, 0⟩
def sigCause (code : Nat) (n : BitVec 7) (i : Option Int) : Cause :=
  ⟨BitVec.ofNat 8 code, 0, sigDetail n i⟩
def addrCause (code : Nat) (a : Word) : Cause := ⟨BitVec.ofNat 8 code, a, 0⟩

/-! Taking a trap, and its return (R261 to R266, R270, R301). -/

/-- What a trap reports. -/
structure TrapIn where
  code : BitVec 8
  mask : Nat := 0
  /-- (syllable, cause) of SLOTCAUSE -/
  slots : List (Nat × Nat) := []
  bundle : Word
  detail0 : Word := 0
  detail1 : Word := 0
  syll : List Word := []
  async : Bool := false

/-- DELAY of a position. -/
def pendLeft : Option Pend → Nat
  | some p => p.left
  | none => 0
def pendTarget : Option Pend → Word
  | some p => p.target.getD 0
  | none => 0

/-- INFO (R266). -/
def trapInfo (c : Ctx) (group : Bool) (t : TrapIn) : Word :=
  BitVec.ofNat 64 (t.mask % 256 * 2 ^ 40 + c.pos.residue.toNat * 2 ^ 34 +
    (if c.bud.incont then pendLeft c.saved.pend * 2 ^ 32 + c.saved.loops.length * 2 ^ 29 else 0) +
    c.pos.loops.length * 2 ^ 26 + pendLeft c.pos.pend * 2 ^ 24 + bit group * 2 ^ 10 +
    bit c.bud.incont * 2 ^ 9 + bit t.async * 2 ^ 8 + t.code.toNat)

/-- The trap record of a context (R265). -/
def trapRecord (c : Ctx) (group : Bool) (t : TrapIn) : TrapRec :=
  { info := trapInfo c group t
    bundle := t.bundle
    ptarget := pendTarget c.pos.pend
    savepc := if c.bud.incont then c.saved.pc else 0
    sptarget := if c.bud.incont then pendTarget c.saved.pend else 0
    slotcause := BitVec.ofNat 64 (t.slots.foldl (fun n x => n + x.2 * 2 ^ (8 * x.1)) 0)
    detail0 := t.detail0
    detail1 := t.detail1
    syll := t.syll
    loops := c.pos.loops
    sloops := if c.bud.incont then c.saved.loops else [] }

/-- A seat leaves every hold: counts and arrivals end, a reply that has come is kept (R91, R485). -/
def Waiting.leave (w : Waiting) : Waiting := { remote := w.remote, barriers := w.barriers }
/-- A seat yields under a hold: what it was held on is kept for a channel fault (R365). -/
def Waiting.keep (w : Waiting) : Waiting := { w.leave with sendReg := w.sendReg, taps := w.taps }

/-- A trap of the seat is not disposed of. -/
def Phase.stuck : Phase → Bool
  | .trapping => true
  | .trapped => true
  | .trapHeld => true
  | .idle => false
  | .running => false
  | .draining => false
  | .saving => false
  | .restoring => false
  | .shareHeld => false

/-- The streams that end at a seat are frozen while either end is trapped (R301). -/
def freezeStreams (k : Nat) (s : State) : State :=
  if (s.die (dieOf k)).streams.isEmpty then s
  else s.updDie (dieOf k) fun d =>
    { d with streams := d.streams.map fun x =>
        if x.src == k || x.dst == k then { x with frozen := (s.seat x.src).phase.stuck || (s.seat x.dst).phase.stuck }
        else x }

/-- The seat takes a trap (R261): the record describes the position before the bundle, TRAPCAUSE takes
the code, the seat issues nothing further, its streams freeze. -/
def takeTrap (k : Nat) (t : TrapIn) (s : State) : State :=
  let group := decide ((s.step1 (s.stepKey k)).members.length > 1)
  freezeStreams k (s.updSeat k fun x =>
    { x with
      phase := .trapping
      split := none
      ctx := { x.ctx with
        trap := trapRecord x.ctx group t
        csr.trapcause := t.code
        wait := x.ctx.wait.leave
        maskOnce := 0 } })

/-- The return from a trap (R270): the seat continues at the recorded position, with the named syllables
masked once; a retried hold counts anew. -/
def retryTrap (k : Nat) (mask : BitVec 8) (s : State) : State :=
  freezeStreams k (s.updSeat k fun x =>
    { x with phase := .running, ctx := { x.ctx with maskOnce := mask, wait := x.ctx.wait.leave } })

/-- A yield begins (R102, R103, R107): nothing further issues, YCAUSE and RECALL are written, arrivals
are withdrawn. -/
def beginYield (k : Nat) (ycause : BitVec 2) (s : State) : State :=
  s.updSeat k fun x =>
    { x with
      phase := .draining
      split := none
      ctx := { x.ctx with
        bud.ycause := ycause
        bud.recallBit := x.ctx.bud.recallPend
        bud.recallPend := false
        wait := x.ctx.wait.keep } }

/-- The number at an offset of a record. -/
def fieldAt (bs : List Byte) (o n : Nat) : Nat := leNat ((bs.drop o).take n)

/-! Stacked DRAM (R395). -/

/-- The byte at a physical address; a byte that nothing has written reads 0 (R455). -/
def memByte (m : List Host.Cell) (a : Nat) : Byte := Sparse.get 0 m a
def memSetByte (m : List Host.Cell) (a : Nat) (b : Byte) : List Host.Cell := Sparse.set 0 m a b
def memRead (m : List Host.Cell) (a : Nat) (n : Nat) : List Byte := Sparse.getMany 0 m a n
def memWrite (m : List Host.Cell) (a : Nat) (bs : List Byte) : List Host.Cell := Sparse.setMany 0 m a bs
/-- The canonical form of a memory. -/
abbrev Memory.wf (m : List Host.Cell) : Bool := Sparse.wf (0 : Byte) m

def State.word (s : State) (a : Nat) : Nat := leNat (memRead s.mem a 8)

/-- The next free value: the counter advances, so that no two are known to be equal. -/
def State.bumpFree (s : State) : State := { s with freeCtr := s.freeCtr + 1 }

end Sys2Proof.Machine
end

