-- ==== Sys2Proof/Machine/Memory.lean ====
section
/-!
DEFINITION. Stacked DRAM as the agents of a die see it: homes, rows, error code and poison, package caches, vector
clocks (R369 to R379, R395, R417 to R428), host memory, and the events that firmware reports (R453, R454).
-/
namespace Sys2Proof.Machine
open Sys2Proof

/-! Homes (R369, R395). -/

def stackOf (pa : Nat) : Nat := pa / 2 ^ 36 % 8
def homeDie (pa : Nat) : Nat := stackOf pa / 2
def State.stack (s : State) (n : Nat) : Stack := s.stackTab.get {} n
def State.updStack (s : State) (n : Nat) (f : Stack → Stack) : State :=
  { s with stackTab := s.stackTab.set {} n (f (s.stack n)) }

/-- Granules touched by n bytes at pa. -/
def granules (pa n : Nat) : List Nat :=
  if n = 0 then [] else (List.range ((pa + n - 1) / 64 - pa / 64 + 1)).map (pa / 64 + ·)

/-! Placement in a stack (R417). -/

/-- A granule's place: pseudo-channel, bank, row, column. -/
structure Spot where
  pc : Nat
  bank : Nat
  row : Nat
  column : Nat
deriving DecidableEq, Repr

def spotOf (pa : Nat) : Spot :=
  let c := pa % 2 ^ 36 / 64 / 4
  ⟨c % 96, c / 96 / 4 % 64, c / 96 / 256, c / 96 % 4⟩

def Spot.bankKey (p : Spot) : Nat := p.pc * 64 + p.bank
def rowKey (bankKey row : Nat) : Nat := bankKey * 2 ^ 20 + row

/-! Host memory (R387, R448). -/

def hostRead (s : State) (a n : Nat) : List Byte := memRead s.host.mem a n
def hostBad (s : State) (a n : Nat) : Bool := (granules a n).any s.host.bad.contains
def hostStore (a : Nat) (bs : List Byte) (s : State) : State :=
  { s with host.mem := memWrite s.host.mem a bs }
def State.msix (s : State) (v : Nat) : State :=
  { s with host.msix := s.host.msix.set 0 v (s.host.msix.get 0 v + 1) }

/-! Rings and events (R446, R453, R454). -/

/-- Entries of a ring, 0 where its size is not 4 to 12. -/
def Ring.entries (r : Ring) : Nat := if 4 ≤ r.size.toNat ∧ r.size.toNat ≤ 12 then 2 ^ r.size.toNat else 0
def Ring.used (r : Ring) : Nat := (r.tail - r.head).toNat
def Ring.full (r : Ring) : Bool := r.entries ≤ r.used
/-- The host address of the entry that index i names. -/
def Ring.slot (r : Ring) (i : BitVec 32) : Nat := r.base.toNat + 64 * (i.toNat % r.entries)

def padTo (n : Nat) (bs : List Byte) : List Byte := (bs ++ List.replicate n 0).take n

/-- The 64-byte record of an event (R453). -/
def eventBytes (e : Event) (seq : BitVec 32) : List Byte :=
  leBytes 2 e.type ++ leBytes 1 e.die ++ leBytes 1 e.part ++ leBytes 4 seq.toNat ++ padTo 56 e.payload

/-- Firmware writes kept events while the ring takes them. -/
def drainEvents : Nat → State → State
  | 0, s => s
  | n + 1, s =>
    match s.host.kept with
    | [] => s
    | e :: rest =>
      if s.host.ev.full then s
      else
        let bs := eventBytes e s.host.seq
        let a := s.host.ev.slot s.host.ev.tail
        drainEvents n (State.msix (hostStore a bs
          { s with host.kept := rest, host.seq := s.host.seq + 1, host.ev.tail := s.host.ev.tail + 1 }) 1)

def State.drainKept (s : State) : State := drainEvents s.host.kept.length s

/-- Firmware reports an event: types 1 and 2 are never dropped, others beyond 1,024 kept are counted in
EVOVER (R454). -/
def State.post (s : State) (type die part : Nat) (payload : List Byte) : State :=
  let others := (s.host.kept.filter fun e => e.type ≥ 3).length
  if type ≥ 3 && s.host.ev.full && others ≥ 1024 then
    { s with host.evover := if s.host.evover = -1 then s.host.evover else s.host.evover + 1 }
  else ({ s with host.kept := s.host.kept ++ [⟨type, die, part, payload⟩] } : State).drainKept

/-! Stack errors (R424). -/

def stackErr (x : Stack) : Word :=
  BitVec.ofNat 64 (x.corrupt.toNat * 2 ^ 48 + x.satur.toNat * 2 ^ 32 + x.uncorr.toNat * 2 ^ 16 + x.corr.toNat)

def satCount (x : BitVec 16) : BitVec 16 := if x = -1 then x else x + 1

/-- A stack error or loss is reported (R453). -/
def stackEvent (n : Nat) (s : State) : State :=
  s.post 8 (n / 2) 0 (leBytes 4 n ++ leBytes 8 (stackErr (s.stack n)).toNat)

/-! Core errors (R288). -/

def cerrWord (x : Cerr) : Word :=
  BitVec.ofNat 64 (x.thresh.toNat * 2 ^ 48 + bit x.alert * 2 ^ 47 + x.uncorr.toNat * 2 ^ 32 + x.corr.toNat)

/-- A core alert or retirement is reported (R453). -/
def coreEvent (c : Nat) (s : State) : State :=
  s.post 7 (c / 64) 0 (leBytes 4 (c % 64) ++ leBytes 8 (cerrWord (s.core c).cerr).toNat)

/-! Rows (R421, R422). -/

def predictorOf (bank row : Nat) : Nat := (64 * bank) ^^^ (row % 4096 ^^^ row / 4096 % 4096)

/-- The counter of a predictor; each starts at 2. The map holds the value XOR 2. -/
def Stack.counter (x : Stack) (pc i : Nat) : Nat := (x.counters.get 0 (pc * 4096 + i) ^^^ 2).toNat
def Stack.setCounter (x : Stack) (pc i v : Nat) : Stack :=
  { x with counters := x.counters.set 0 (pc * 4096 + i) (BitVec.ofNat 2 v ^^^ 2) }

/-- What the base die reads in a row's activation counter as it precharges the row (R422). -/
def mitigate (bankKey row : Nat) (x : Stack) : Stack :=
  let k := rowKey bankKey row
  let bad := x.parity.contains k
  let v := if bad then 4095 else (x.acts.get 0 k).toNat
  let b := x.banks.get {} bankKey
  let x1 := if bad then { x with corrupt := satCount x.corrupt, parity := x.parity.filter (· != k) } else x
  if v = 4095 then
    { x1 with acts := x1.acts.set 0 k 0, satur := satCount x1.satur
              banks := x1.banks.set {} bankKey { b with throttled := true } }
  else if x.thresh.toNat ≤ v then { x1 with acts := x1.acts.set 0 k 0 }
  else x1

/-- Close the open row of a bank; closing says that a prediction closed it. -/
def closeRow (n bankKey : Nat) (closing : Bool) (s : State) : State :=
  let b := (s.stack n).banks.get {} bankKey
  match b.row with
  | none => s
  | some r =>
    let bad := (s.stack n).parity.contains (rowKey bankKey r)
    let s1 := s.updStack n fun x =>
      let y := { x with banks := x.banks.set {} bankKey { b with row := none, predicted := closing } }
      mitigate bankKey r y
    if bad then stackEvent n s1 else s1

/-- The prediction made at a bank's last access meets its next access, which activates its row where another
one is open, or none. -/
def openRow (n : Nat) (p : Spot) (s : State) : State :=
  let b := (s.stack n).banks.get {} p.bankKey
  let i := predictorOf p.bank b.last
  let learn := fun (x : Stack) =>
    let v := x.counter p.pc i
    if b.row == some p.row then x.setCounter p.pc i (min 3 (v + 1))
    else if b.row.isSome || b.predicted then x.setCounter p.pc i (v - 1) else x
  let s1 := s.updStack n learn
  if b.row == some p.row then s1
  else
    (closeRow n p.bankKey false s1).updStack n fun x =>
      let k := rowKey p.bankKey p.row
      let a := x.acts.get 0 k
      { x with acts := x.acts.set 0 k (if a = 4095 then a else a + 1)
               banks := x.banks.set {} p.bankKey { row := some p.row, last := p.row } }

/-- The row of an access: activation, and whether it stays open after it. -/
def touchRow (pa : Nat) (s : State) : State :=
  let n := stackOf pa
  let p := spotOf pa
  let s1 := openRow n p s
  let x := s1.stack n
  if !x.predict then closeRow n p.bankKey false s1
  else if x.counter p.pc (predictorOf p.bank p.row) ≤ 1 then closeRow n p.bankKey true s1
  else s1

/-! Poison (R426, R428). -/

def State.granBad (s : State) (g : Nat) : Bool :=
  s.poisonMem.contains g || (s.stack (stackOf (64 * g))).lost

def insertNat (x : Nat) : List Nat → List Nat
  | [] => [x]
  | y :: ys => if x < y then x :: y :: ys else if x = y then y :: ys else y :: insertNat x ys

def State.poisonGran (s : State) (g : Nat) : State := { s with poisonMem := insertNat g s.poisonMem }

/-- An erroneous granule is corrected, or becomes poisoned, when it is read (R426). -/
def scrubGran (g : Nat) (s : State) : State :=
  let e := s.errs.get 0 g
  let n := stackOf (64 * g)
  if e = 0 || s.granBad g then s
  else
    let s1 := { s with errs := s.errs.set 0 g 0 }
    if e = 1 then s1.updStack n fun x => { x with corr := satCount x.corr }
    else (s1.poisonGran g).updStack n fun x => { x with uncorr := satCount x.uncorr }

/-- The 64 bytes of a granule at its home. -/
def homeLine (s : State) (g : Nat) : List Byte := memRead s.mem (64 * g) 64

/-- The home reads a granule: its row, its error code (R421, R426). The flag tells poison. -/
def homeRead (g : Nat) (s : State) : List Byte × Bool × State :=
  let s1 := scrubGran g (touchRow (64 * g) s)
  (homeLine s1 g, s1.granBad g, s1)

/-! Vector clocks (R377, R379). -/

namespace VClock
def get (v : VClock) : Nat → BitVec 32
  | 0 => v.c0 | 1 => v.c1 | 2 => v.c2 | _ => v.c3
def set (v : VClock) (d : Nat) (x : BitVec 32) : VClock :=
  match d with
  | 0 => { v with c0 := x } | 1 => { v with c1 := x } | 2 => { v with c2 := x } | _ => { v with c3 := x }
/-- a ≤ b in serial-number order (R379). -/
def leS (a b : BitVec 32) : Bool := (b - a).toNat < 2 ^ 31
/-- Every counter of a is at most that of b. -/
def le (a b : VClock) : Bool := (List.range 4).all fun d => leS (a.get d) (b.get d)
/-- The later of each pair of counters. -/
def join (a b : VClock) : VClock :=
  let later := fun (x y : BitVec 32) => if leS x y then y else x
  ⟨later a.c0 b.c0, later a.c1 b.c1, later a.c2 b.c2, later a.c3 b.c3⟩
end VClock

/-- The conditions of R377 for an announcement at its die. -/
def annReady (s : State) (a : Ann) : Bool :=
  let v := (s.die a.dst).vc
  a.stamp.get a.src == v.get a.src + 1 &&
    (List.range 4).all fun k => k == a.src || VClock.leS (a.stamp.get k) (v.get k)

/-- One byte of a write reaches a held line, unless the line has a later one of the coherence order (R375). -/
def Line.put (serial : Nat) (l : Line) (c : Host.Cell) : Line :=
  let j := c.1 % 64
  if l.marks.getD j 0 < serial then { l with bytes := l.bytes.set j c.2, marks := l.marks.set j serial } else l

/-- The place of a write in the order of what a line knows: a copy of the home lies between two writes. -/
def writePlace (serial : Nat) : Nat := 2 * serial
def copyPlace (serial : Nat) : Nat := 2 * serial + 1

/-- The line is poisoned: the last write that poisoned its granule comes after the last one that cleaned it. -/
def Line.bad (l : Line) : Bool := decide (l.cleanAt < l.badAt)

/-- A write reaches a held line of granule g: a poisoned one poisons it, and a whole one that is not cleans it, each from
its place in the coherence order on (R375, R426, R427). -/
def Line.patch (g serial : Nat) (cells : List Host.Cell) (bad : Bool) (l : Line) : Line :=
  let mine := cells.filter fun c => c.1 / 64 == g
  if mine.isEmpty then l
  else
    let l1 := mine.foldl (Line.put serial) l
    if bad then { l1 with badAt := max l.badAt (writePlace serial) }
    else if mine.length = 64 then { l1 with cleanAt := max l.cleanAt (writePlace serial) } else l1

/-- A die applies a write to the lines it holds. -/
def patchCache (d serial : Nat) (cells : List Host.Cell) (bad : Bool) (s : State) : State :=
  s.updDie d fun x => { x with pcache := x.pcache.map fun e => (e.1, e.2.patch e.1 serial cells bad) }

/-- A die applies an announcement. -/
def applyAnn (a : Ann) (s : State) : State :=
  patchCache a.dst a.serial a.cells a.bad
    (s.updDie a.dst fun d => { d with vc := d.vc.set a.src (a.stamp.get a.src) })

/-- A die applies the announcements that it can, until none is ready. -/
def syncDie (d : Nat) : Nat → State → State
  | 0, s => s
  | n + 1, s =>
    match takeFirst (fun a => a.dst == d && annReady s a) s.anns with
    | some (a, rest) => syncDie d n (applyAnn a { s with anns := rest })
    | none => s

def State.sync (s : State) (d : Nat) : State := syncDie d s.anns.length s

/-- A die whose counter window is full holds its write until every die has applied what it has announced (R379). -/
def openWindow (d : Nat) (s : State) : State :=
  let own := (s.die d).vc.get d + 1
  if (List.range 4).any fun e => 2 ^ 31 ≤ (own - (s.die e).vc.get d).toNat then
    (List.range 4).foldl (fun s e => s.sync e) s
  else s

/-! Writes and reads at the home. -/

/-- The write of n bytes at pa covers granule g whole. -/
def coversGran (pa n g : Nat) : Bool := pa ≤ 64 * g && 64 * g + 64 ≤ pa + n

/-- The home takes the granules of a write: their rows; a masked write reads its granule (R418, R421). -/
def openGrans (pa n : Nat) (s : State) : State :=
  (granules pa n).foldl (fun s g =>
    let s1 := touchRow (64 * g) s
    if coversGran pa n g then s1 else scrubGran g s1) s

/-- A write by an agent of die d is performed at its home (R371, R375 to R379, R426): the home gives it its place in
the coherence order after everything that die d has seen, and the announcement goes to the other dies. A full write
clears the poison and the errors of its granule; a poisoned one leaves it poisoned. A lost stack performs none. -/
def putMem (d pa : Nat) (bs : List Byte) (bad : Bool) (s : State) : State :=
  let h := homeDie pa
  if bs.isEmpty || (s.stack (stackOf pa)).lost then s
  else
    let s0 := openWindow d (openGrans pa bs.length s)
    let s1 := if h = d then s0 else s0.sync h
    let v := (s1.die d).vc
    let stamp := v.set d (v.get d + 1)
    let serial := s1.serial + 1
    let cells := bs.zipIdx.map fun x => (pa + x.2, x.1)
    let s2 := s1.updDie d fun x => { x with vc := stamp }
    let s3 := if h = d then s2 else patchCache d serial cells bad
      (s2.updDie h fun x => { x with vc := x.vc.set d (stamp.get d) })
    let gs := granules pa bs.length
    let full := gs.filter (coversGran pa bs.length)
    let clean := s3.poisonMem.filter fun g => !full.contains g
    { s3 with
      serial := serial
      mem := memWrite s3.mem pa bs
      poisonMem := if bad then gs.foldl (fun l g => insertNat g l) clean else clean
      errs := s3.errs.filter fun e => !full.contains e.1
      stamps := gs.foldl (fun m g => m.set {} g ((m.get {} g).join stamp)) s3.stamps
      anns := s3.anns ++ (([0, 1, 2, 3].filter fun e => e != d && e != h).map fun e => ⟨d, e, stamp, cells, serial, bad⟩) }

/-- Lines of a package cache: 16 MiB (R369). -/
abbrev pcacheLines := 262144

/-- A die keeps a line; a full cache gives up the one that it took first. -/
def keepLine (d g : Nat) (bytes : List Byte) (bad : Bool) (s : State) : State :=
  s.updDie d fun x =>
    let at' := copyPlace s.serial
    let l : Line := ⟨bytes, List.replicate 64 s.serial, if bad then at' else 0, if bad then 0 else at', x.pnext⟩
    let old := x.pcache.foldl (fun m e => min m e.2.age) x.pnext
    let ls := if x.pcache.length < pcacheLines then x.pcache else x.pcache.filter fun e => e.2.age != old
    { x with pcache := ls.set {} g l, pnext := x.pnext + 1 }

/-- A die delivers no value before it has applied every announcement that the value includes (R377). -/
def applySeen (d g : Nat) (s : State) : State := if VClock.le (s.stamps.get {} g) (s.die d).vc then s else s.sync d

/-- How a read meets the package cache (R369, R400). -/
inductive Via
  /-- a held line, else the home, of which a line is kept -/
  | keep
  /-- a held line, else the home -/
  | look
  /-- the home -/
  | home
deriving DecidableEq, Repr

/-- The line of a granule that a die holds and a read may take. -/
def heldLine (s : State) (d g : Nat) (via : Via) : Option Line :=
  if via = .home then none else ((s.die d).pcache.find? fun e => e.1 == g).map (·.2)

/-- A read of n bytes inside granule pa / 64 for an agent of die d (R369, R376, R377, R400): its own memory, a held line
with its mark, or the home's value. -/
def getMem (d pa n : Nat) (via : Via) (s : State) : List Byte × Bool × State :=
  let g := pa / 64
  let part := fun (bs : List Byte) => (bs.drop (pa % 64)).take n
  if homeDie pa = d then
    let r := homeRead g s
    (part r.1, r.2)
  else
    match heldLine s d g via with
    | some l => (part l.bytes, l.bad, s)
    | none =>
      let r := homeRead g (applySeen d g s)
      (part r.1, r.2.1, if via = .keep then keepLine d g r.1 r.2.1 r.2.2 else r.2.2)

/-! The die port (R419, R420). -/

/-- The access is at its port, or waits to be sent again. -/
def Access.pending (a : Access) : Bool :=
  match a.phase with
  | .waiting => true
  | .retry _ => true
  | .combined => false
  | .sent _ => false
  | .served => false

/-- The n-th access of the copy engine is performed at its stack. -/
def serveAcc (n : Nat) (s : State) : State :=
  match s.accs[n]? with
  | none => s
  | some a =>
    match a.target with
    | .dram pa =>
      let d := dieOf a.seat
      if a.write then
        let s1 := putMem d pa a.data a.poison s
        { s1 with accs := modifyAt (fun x => { x with phase := .served }) s1.accs n }
      else
        let (bs, bad, s1) := getMem d pa a.size (if a.uncached then .home else if a.nt then .look else .keep) s
        { s1 with accs := modifyAt (fun x => { x with phase := .served, data := bs, poison := bad }) s1.accs n }
    | .host _ => s
    | .remote _ _ _ => s

/-- The access waits for its bank's refresh. -/
def Access.retried (a : Access) : Bool :=
  match a.phase with
  | .retry _ => true
  | .waiting => false
  | .combined => false
  | .sent _ => false
  | .served => false

/-- Two places lie in one bank of one stack. -/
def sameBank (x y : Nat) : Bool := stackOf x == stackOf y && (spotOf x).bankKey == (spotOf y).bankKey

/-- Access b waits behind access a of the same die port: one granule, or one bank in one class; a bank that is
refreshed holds every later request (R419, R420). -/
def blocks (a b : Access) : Bool :=
  match a.target, b.target with
  | .dram x, .dram y =>
    dieOf a.seat == dieOf b.seat && a.pending && (x / 64 == y / 64 || (sameBank x y && (a.tcls == b.tcls || a.retried)))
  | _, _ => false

/-- A class-0 access goes before a request of another class of die d at its stack (R419). -/
def Access.urgent (a : Access) (d pa : Nat) (tc : BitVec 3) : Bool :=
  match a.target with
  | .dram x => dieOf a.seat == d && a.pending && a.tcls == 0 && tc != 0 && stackOf x == stackOf pa
  | .host _ => false
  | .remote _ _ _ => false

/-- An access stands before a request of die d for n bytes at pa in class tc at the die's port: to the same granule, in
its class at its bank, or at a bank whose refresh it waits for (R419, R420). -/
def Access.standsBefore (a : Access) (d pa n : Nat) (tc : BitVec 3) : Bool :=
  match a.target with
  | .dram x =>
    dieOf a.seat == d && a.pending && ((granules pa n).contains (x / 64) ||
      (sameBank x pa && (a.tcls == tc || a.retried)))
  | .host _ => false
  | .remote _ _ _ => false

/-- Which accesses of a list, in the order in which they came, are due with those that satisfy q: each that blocks a
later one that is due. -/
def dueOf (q : Access → Bool) : List Access → List Bool
  | [] => []
  | a :: rest =>
    let r := dueOf q rest
    (q a || (rest.zip r).any fun x => x.2 && blocks a x.1) :: r

/-- The accesses that are due with those that satisfy q are performed, each in its place. -/
def settleDue (q : Access → Bool) (s : State) : State :=
  ((dueOf q s.accs).zipIdx.filter (·.1)).foldl (fun s x => serveAcc x.2 s) s

/-- What stands before a request of another agent of the die is performed first: class 0, then what the order of its
class, bank and granule puts there, each behind what it waits for (R419, R420). DESIGN CHOICE (log 98). -/
def settlePort (d pa n : Nat) (s : State) (tc : BitVec 3 := 4) : State :=
  if s.accs.isEmpty then s
  else settleDue (fun a => a.standsBefore d pa n tc) (settleDue (fun a => a.urgent d pa tc) s)

/-- A read of a granule through the port of die d. -/
def checkedRead (d pa n : Nat) (via : Via) (s : State) (tc : BitVec 3 := 4) : List Byte × Bool × State :=
  getMem d pa n via (settlePort d pa n s tc)

/-- A write with its poison through the port of die d. -/
def checkedWrite (d pa : Nat) (bs : List Byte) (bad : Bool) (s : State) (tc : BitVec 3 := 4) : State :=
  putMem d pa bs bad (settlePort d pa bs.length s tc)

def writeMem (d pa : Nat) (bs : List Byte) (s : State) (tc : BitVec 3 := 4) : State := checkedWrite d pa bs false s tc

/-- A read of n bytes that may cross granules, with the poison of each; fuel bounds the pieces. -/
def readMem (d : Nat) (via : Via) (tc : BitVec 3) : Nat → Nat → Nat → State → List Byte × List Bool × State
  | 0, _, _, s => ([], [], s)
  | fuel + 1, pa, n, s =>
    if n = 0 then ([], [], s)
    else
      let k := min n (64 - pa % 64)
      let (bs, bad, s1) := checkedRead d pa k via s tc
      let (rest, bads, s2) := readMem d via tc fuel (pa + k) (n - k) s1
      (bs ++ rest, bad :: bads, s2)

/-- A read of a page of a memory type: a line is used for type 0 only (R400). -/
def viaType (mtype : Nat) : Via := if mtype = 0 then .look else .home

def State.readMarked (s : State) (d pa n : Nat) (via : Via) (tc : BitVec 3 := 4) : List Byte × List Bool × State :=
  readMem d via tc (n / 64 + 2) pa n s
/-- The flag tells poison. -/
def State.read (s : State) (d pa n : Nat) (via : Via) (tc : BitVec 3 := 4) : List Byte × Bool × State :=
  let r := s.readMarked d pa n via tc
  (r.1, r.2.1.any id, r.2.2)

/-- A write of bytes whose granules have their own poison. -/
def writeMarked (d : Nat) (tc : BitVec 3) : Nat → Nat → List Byte → List Bool → State → State
  | 0, _, _, _, s => s
  | fuel + 1, pa, bs, bads, s =>
    if bs.isEmpty then s
    else
      let k := 64 - pa % 64
      writeMarked d tc fuel (pa + k) (bs.drop k) (bads.drop 1) (checkedWrite d pa (bs.take k) (bads.headD false) s tc)

/-- The fill of an instruction cache: the granule as die d sees it. DESIGN CHOICE (log 109): every fetch is a fill. -/
def fetchGran (d pa n : Nat) (s : State) : List Byte × Bool × State := checkedRead d pa n .look s

/-- An 8-byte compare-and-swap at its home for an agent of die d (R402, R439): not performed on a poisoned granule, and
none where the entry has changed, which the die then sees. -/
def casMem (d pa old new : Nat) (s : State) (tc : BitVec 3 := 4) : Bool × State :=
  let r := homeRead (pa / 64) (settlePort d pa 8 s tc)
  let s1 := r.2.2
  if !r.2.1 && s1.word pa = old then (true, putMem d pa (leBytes 8 new) false s1) else (false, s1.sync d)

/-- The near-memory unit of die h reads a granule at its home; it sees no value before what the value includes
(R368, R377). -/
def nmFetch (h pa n : Nat) (s : State) (tc : BitVec 3 := 4) : List Byte × Bool × State :=
  let r := checkedRead (homeDie pa) pa n .home s tc
  (r.1, r.2.1, applySeen h (pa / 64) r.2.2)

/-- The near-memory unit of the home writes, after everything that is announced to its die (R377, R378, R390). -/
def nmWrite (pa : Nat) (bs : List Byte) (s : State) (tc : BitVec 3 := 4) : State :=
  writeMem (homeDie pa) pa bs (s.sync (homeDie pa)) tc

/-- Drop lines of the package cache of a die. -/
def dropLines (d : Nat) (p : Nat → Bool) (s : State) : State :=
  s.updDie d fun x => { x with pcache := x.pcache.filter fun e => !p e.1 }

end Sys2Proof.Machine
end

