-- ==== Sys2Proof/Machine/Route.lean ====
section
/-!
DEFINITION. Wayline sending: identities, routes, flows, flits (R470 to R478).
-/
namespace Sys2Proof.Machine
open Sys2Proof

/-- A message of a class and OP. -/
def Wire.ofMsg (cls op : Nat) (m : Msg) : Wire :=
  ⟨cls, op, m.tclass, m.src, m.dst, m.flowseq, m.target, m.epoch, m.tag, m.payload, m.dst.toNat / 2 ^ 18⟩

/-- The bytes of a message: header and payload (R476). -/
def Wire.bytes (w : Wire) : List Byte :=
  leBytes 1 (w.cls + w.tcls.toNat * 8) ++ leBytes 1 w.op ++ leBytes 2 w.payload.length ++
  leBytes 4 w.src.toNat ++ leBytes 4 w.dst.toNat ++ leBytes 4 w.flowseq.toNat ++
  leBytes 8 w.target.toNat ++ leBytes 4 w.epoch.toNat ++ leBytes 4 w.tag.toNat ++ w.payload

/-- Package and die of an SRC or DST field. -/
def endPkg (x : BitVec 20) : BitVec 18 := x.setWidth 18
def endDie (x : BitVec 20) : Nat := x.toNat / 2 ^ 18
def mkEnd (p : BitVec 18) (d : Nat) : BitVec 20 := BitVec.ofNat 20 (p.toNat + d * 2 ^ 18)

/-- EPOCH: the low 32 bits of BOOTCOUNT (R474). -/
def State.epoch (s : State) : BitVec 32 := s.fw.bootcount.setWidth 32

def State.port (s : State) (n : Nat) : Port := s.fab.ports.get {} n
def State.updPort (s : State) (n : Nat) (f : Port → Port) : State :=
  { s with fab.ports := s.fab.ports.set {} n (f (s.port n)) }
def State.peer (s : State) (p : BitVec 18) : Peer := s.fab.peers.get {} p.toNat
def State.updPeer (s : State) (p : BitVec 18) (f : Peer → Peer) : State :=
  { s with fab.peers := s.fab.peers.set {} p.toNat (f (s.peer p)) }

/-! Routes (R475). -/

/-- Packages one more link away. -/
def spread (s : State) (ps : List (BitVec 18)) : List (BitVec 18) :=
  (ps ++ ps.flatMap fun p => ((s.peer p).links.filter (·.2.1)).map (·.2.2)).dedup

/-- Links from the packages ps to dst, at most fuel. -/
def hops (s : State) (dst : BitVec 18) : Nat → List (BitVec 18) → Option Nat
  | 0, ps => if ps.contains dst then some 0 else none
  | n + 1, ps => if ps.contains dst then some 0 else (hops s dst n (spread s ps)).map (· + 1)

/-- Ports that are up, with their distance to a package. -/
def portHops (s : State) (dst : BitVec 18) : List (Nat × Nat) :=
  (List.range 16).filterMap fun n =>
    let p := s.port n
    match p.st, p.peer with
    | .up, some q => (hops s dst (s.fab.peers.length + 1) [q]).map fun h => (n, h)
    | _, _ => none

/-- The ports on shortest paths, lowest first. -/
def shortest (s : State) (dst : BitVec 18) : List Nat :=
  let xs := portHops s dst
  let best := xs.foldl (fun b x => min b x.2) (xs.length + s.fab.peers.length + 16)
  (xs.filter (·.2 == best)).map (·.1)

/-- The port of a message: the lowest for ordered classes, spread by tag for BULK and EVENT. -/
def Wire.route (w : Wire) (s : State) : Option Nat :=
  let ps := shortest s (endPkg w.dst)
  if w.cls == 2 || w.cls == 3 then ps[w.tag.toNat % max 1 ps.length]? else ps.head?

/-! Ports (R470 to R472). -/

def Wire.flits (w : Wire) : Nat := (w.bytes.length + 239) / 240

/-- The next flit of a port: in the lowest class that can send, a message that has begun goes on, else the oldest one
begins, once the port holds a credit for each of its flits. -/
def nextFlit (p : Port) : Option (Wire × Nat × Port) :=
  (List.range 8).findSome? fun c =>
    match takeFirst (fun x : Wire × Nat => x.1.tcls.toNat == c) p.going with
    | some ((w, i), rest) => some (w, i, { p with going := if i + 1 < w.flits then (w, i + 1) :: rest else rest })
    | none =>
      match takeFirst (fun w : Wire => w.tcls.toNat == c) p.queue with
      | some (w, rest) =>
        if w.flits ≤ p.credits.get 0 c then
          some (w, 0, { p with
            queue := rest
            credits := p.credits.set 0 c (p.credits.get 0 c - w.flits)
            going := if 1 < w.flits then p.going ++ [(w, 1)] else p.going })
        else none
      | none => none

/-- Flits of the replay buffer (R471). -/
abbrev replaySize := 2048

/-- Flits leave a port while the replay buffer takes them. -/
def sendFlits : Nat → Port → Port
  | 0, p => p
  | f + 1, p =>
    if p.st != .up || replaySize ≤ p.replay.length then p
    else
      match nextFlit p with
      | none => p
      | some (w, i, q) => sendFlits f { q with replay := q.replay ++ [(q.fseq, w, i)], fseq := q.fseq + 1 }

/-- A port sends what it can. -/
def State.pump (s : State) (n : Nat) : State :=
  let p := s.port n
  if p.queue.isEmpty && p.going.isEmpty then s
  else s.updPort n (sendFlits ((p.queue.map Wire.flits).sum + (p.going.map fun x => x.1.flits).sum))

/-- Hand a message to its port; two EVENT notices of one OP and TARGET in a port queue merge (R482). -/
def launchWire (w : Wire) (s : State) : State :=
  match w.route s with
  | none => { s with fab.noPath := s.fab.noPath ++ [w] }
  | some n =>
    if w.cls == 2 && (s.port n).queue.any (fun x => x.cls == 2 && x.op == w.op && x.target == w.target) then s
    else (s.updPort n fun p => { p with queue := p.queue ++ [w] }).pump n

/-! Flows (R478). -/

/-- The flow key of a message: its register for DATA and WORK, 0 for CONTROL. -/
def Wire.key (w : Wire) : Word := if w.cls == 4 then 0 else w.target
def Wire.ordered (w : Wire) : Bool := w.cls == 0 || w.cls == 1 || w.cls == 4

def Flow.hits (f : Flow) (out : Bool) (cls : Nat) (peer : BitVec 18) (key : Word) : Bool :=
  f.out == out && f.cls == cls && f.peer == peer && f.key == key

/-- Take the next number of an outgoing flow and keep the message until it is acknowledged. -/
def enflow (w : Wire) (s : State) : Wire × State :=
  let p := endPkg w.dst
  match s.fab.flows.find? (·.hits true w.cls p w.key) with
  | some f =>
    let w := { w with flowseq := f.next }
    let bump := fun (g : Flow) =>
      if g.hits true w.cls p w.key then { g with next := g.next + 1, held := g.held ++ [w] } else g
    (w, { s with fab.flows := s.fab.flows.map bump })
  | none => (w, { s with fab.flows := s.fab.flows ++ [⟨true, w.cls, p, w.key, 1, [w]⟩] })

/-- Send a message from a die of this package. One to the own package needs no link (R488): it becomes a
turn of the agenda. -/
def sendWire (w : Wire) (s : State) : State :=
  if endPkg w.dst == s.pkgid then
    { s with agenda := s.agenda ++ [.message w] }
  else if w.ordered then
    let (w, s) := enflow w s
    launchWire w s
  else launchWire w s

/-- Send with the header fields filled in. -/
def State.send (s : State) (die cls op : Nat) (tcls : BitVec 3) (pkg : BitVec 18) (ddie : Nat) (target : Word)
    (tag : BitVec 32) (payload : List Byte) : State :=
  sendWire ⟨cls, op, tcls, mkEnd s.pkgid die, mkEnd pkg ddie, 0, target, s.epoch, tag, payload, ddie⟩ s

/-- A new request tag. -/
def State.newTag (s : State) : BitVec 32 × State :=
  (s.fab.nextTag, { s with fab.nextTag := s.fab.nextTag + 1 })

/-! Channel registers (R350) and grants (R483). -/

def regPkg (r : Word) : BitVec 18 := BitVec.ofNat 18 (r.toNat / 2 ^ 14)
def regDie (r : Word) : Nat := r.toNat / 2 ^ 12 % 4
/-- The key of a channel of this package. -/
def regKey (r : Word) : Nat := regDie r * 4096 + r.toNat % 4096

/-- Grant permits and room to the proxy of a channel. -/
def sendGrant (ch permits room : Nat) (s : State) : State :=
  let c := s.chan ch
  (s.updChan ch fun x => { x with permOut := x.permOut + permits, roomOut := x.roomOut + room }).send
    (ch / 4096) 4 3 0 (c.wpkg.setWidth 18) (c.wpkg.toNat / 2 ^ 18 % 4) (s.chanReg ch) 0
    (leBytes 4 permits ++ leBytes 4 room ++ leBytes 4 c.binds.toNat ++ leBytes 4 0)

/-- SPILLED: messages in the cistern or on their way there. -/
def Chan.spilled (c : Chan) : Nat := c.spill.length + (c.flight.filter fun m => !m.permit).length

/-- A permit of the current binding returns; it counts from the next cycle boundary (R150, R352, R367). -/
def returnPermit (ch : Nat) (s : State) : State := s.updChan ch fun x => { x with back := x.back + 1 }

/-- What a cycle has returned reaches the writer side of a channel (R357, R483). -/
def settleChan (s : State) (ch : Nat) : State :=
  let c := s.chan ch
  let s1 := s.updChan ch fun x => { x with back := 0, trigNow := false }
  if c.back = 0 then s1
  else if c.remote && c.rbound && !c.raway && !c.spilling && c.spilled == 0 then sendGrant ch c.back 0 s1
  else s1.updChan ch fun x => { x with wpermits := x.wpermits + c.back }

/-- The channels at a cycle boundary. -/
def settleChans (s : State) : State :=
  ((s.chans.filter fun e => e.2.back != 0 || e.2.trigNow).map (·.1)).foldl settleChan s

end Sys2Proof.Machine
end

