-- ==== Sys2Proof/Machine/Operands.lean ====
section
/-!
DEFINITION. Operand forms: taps, tap writes, vector operands (R153 to R157, R178 to R182, R193, R194).
-/
namespace Sys2Proof.Machine
open Sys2Proof

/-- A resolved tap (R153). -/
structure Tap where
  n : BitVec 7
  g : Sig
  /-- effective lag -/
  lag : Int
  /-- element offset -/
  off : Int
  /-- absolute sample index -/
  idx : Int
deriving DecidableEq, Repr

def strideSum (c : Ctx) (st : Nat → Int) : Int :=
  ((List.range 6).map fun l => st l * ((c.loopIndex l).toNat : Int)).foldl (· + ·) 0

/-- SampleIndex of R9. -/
def Sig.sampleIndex (g : Sig) (lag : Int) : Int := if g.isTable then lag else (g.head.toNat : Int) - lag

def resolve (c : Ctx) (n : BitVec 7) (lagField : Nat) : Tap :=
  let g := c.sg n
  let lag := (lagField : Int) + strideSum c g.lst
  ⟨n, g, lag, 16 * strideSum c g.est, g.sampleIndex lag⟩

/-- Row j of rows consecutive samples from a base tap (R156). -/
def Tap.row (t : Tap) (rows j : Nat) : Tap :=
  let lag := if t.g.isTable then t.lag + j else t.lag + (rows : Int) - 1 - j
  { t with lag := lag, idx := t.g.sampleIndex lag }

/-- The lag limits of R154. -/
def Tap.inLag (t : Tap) : Bool :=
  if t.g.isTable then 0 ≤ t.lag && t.lag < t.g.depth.toNat
  else -(t.g.ahead.toNat : Int) ≤ t.lag && t.lag < t.g.depth.toNat

def Tap.prehistory (t : Tap) : Bool := !t.g.isTable && t.idx < 0
def Tap.slot (t : Tap) : Nat := t.g.slotOf t.idx

/-- An SCACC on the table is incomplete (R236). -/
def Ctx.scaccBusy (c : Ctx) (n : BitVec 7) : Bool :=
  c.eng.copies.any fun e => e.2.op == 0x06 && e.2.sig == n &&
    [1, 2, 3, 4].contains (c.eng.handles.get {} e.1).state.toNat

/-- Every step of Tap before its hold (R154). -/
def Tap.preTrap (t : Tap) : Option Cause :=
  if !t.g.present then some (sigCause 0x08 t.n none)
  else if !t.inLag then some (sigCause 0x04 t.n (some t.idx))
  else if t.off < 0 then some (sigCause 0x08 t.n (some t.idx))
  else if t.prehistory && t.g.init == 1 then some (sigCause 0x05 t.n (some t.idx))
  else none

/-- The tap reaches samples whose content counts. -/
def Tap.live (t : Tap) : Bool := t.preTrap.isNone && !t.prehistory

/-- R359: the writer of the bound channel has closed, every message is counted, and sample i is beyond
the last one: the channel's register value. -/
def chanClosed (s : State) (k : Nat) (g : Sig) (n : BitVec 7) (i : Int) : Option Word :=
  if g.feed == 3 then
    match s.readerChan k n with
    | some ch =>
      let x := s.chan ch
      if x.state == 2 && x.deliv == x.sent && decide ((x.sent : Int) - x.base ≤ i) then
        some (s.chanReg ch)
      else none
    | none => none
  else none

/-- The sample is beyond FILL, or an SCACC on its table is incomplete (R154, R236). -/
def Tap.pending (c : Ctx) (t : Tap) : Bool :=
  t.live && ((t.g.feed != 0 && t.idx > t.g.fillMark) || c.scaccBusy t.n)

/-- The fill hold on the sample itself (R155, R359). -/
def Tap.unfilled (s : State) (k : Nat) (c : Ctx) (t : Tap) : Bool :=
  t.pending c && (chanClosed s k t.g t.n t.idx).isNone

/-- The channel fault that stands in the place of a hold (R359). -/
def Tap.closedTrap (s : State) (k : Nat) (c : Ctx) (t : Tap) : Option Cause :=
  if t.pending c then (chanClosed s k t.g t.n t.idx).map (addrCause 0x12) else none

/-- Unit u of a sample is poisoned: by its mark, or by an uncorrectable error in it, written or not (R144, R148, R154). -/
def Tap.unitBad (s : State) (k : Nat) (c : Ctx) (t : Tap) (u : Nat) : Bool :=
  c.poisoned t.n t.slot u || s.lineBad k (s.unitOf k t.g t.slot u)

/-- Units of a sample that hold element e; an NI8 element is read in k planes (R153, R178). -/
def elemUnits (g : Sig) (k e : Nat) : List Nat :=
  match g.fmt with
  | .ni8 => ((List.range k).map fun q => (q * 4 * g.width.toNat + e / 8) / 32).dedup
  | f => [e * f.size / 32]

/-- The planes that a reader takes: the syllable's, or the descriptor's (R179). -/
def planesOf (g : Sig) (k : Option Nat) : Nat := k.getD g.planes.toNat

/-- Poison, then an unwritten unit of a trapping seat-written signal (R154). -/
def laneTrap (s : State) (k : Nat) (c : Ctx) (t : Tap) (pl : Option Nat) (e : Nat) : Option Cause :=
  if e ≥ t.g.elems then none
  else
    (elemUnits t.g (planesOf t.g pl) e).findSome? fun u =>
      if t.unitBad s k c u then
        some (sigCause 0x06 t.n (some t.idx))
      else if t.g.feed == 0 && !c.written t.n t.slot u && t.g.init == 1 then
        some (sigCause 0x05 t.n (some t.idx))
      else none

/-- The element reads zero: beyond the sample, or not yet written (R154). DESIGN CHOICE (log 113): an NI8 element of which
any unit is unwritten. -/
def laneZero (c : Ctx) (t : Tap) (pl : Option Nat) (e : Nat) : Bool :=
  decide (e ≥ t.g.elems) || t.prehistory ||
    (t.g.feed == 0 && (elemUnits t.g (planesOf t.g pl) e).any fun u => !c.written t.n t.slot u)

/-- The stored pattern of an element that is not NI8 (R176). -/
def rawElem (s : State) (k : Nat) (t : Tap) (e : Nat) : Nat :=
  let z := t.g.fmt.size
  unitBytes (s.line k (s.unitOf k t.g t.slot (e * z / 32))) (e * z % 32) z

/-- Bit of element e in plane q of an NI8 sample (R177). -/
def planeBit (s : State) (k : Nat) (t : Tap) (q e : Nat) : Nat :=
  let b := q * 4 * t.g.width.toNat + e / 8
  (s.line k (s.unitOf k t.g t.slot (b / 32))).toNat / 2 ^ (8 * (b % 32) + e % 8) % 2

/-- NIMag of R178. -/
def niMag (s : State) (k : Nat) (t : Tap) (e pl : Nat) : Nat :=
  let m := (List.range (pl - 1)).foldl (fun m q => 2 * m + planeBit s k t (q + 1) e) 0
  if m = 0 then 0 else if pl ≥ 8 then m else m * 2 ^ (8 - pl) + 2 ^ (7 - pl)

/-- The scale tap of an NI8 sample: its row index and element shift (R180), none for scale 1. DESIGN CHOICE (log 127): a
sample with no scale signal takes none of the traps of R181, that of N and 2^a among them. -/
def scaleTap (c : Ctx) (t : Tap) : Option Tap :=
  if t.g.scalesig == 127 then none
  else
    let n := t.g.scalesig
    let g := c.sg n
    let a := t.g.block.toNat / 16
    let r : Int := if t.g.isTable then t.idx / 2 ^ a else (t.slot : Int) / 2 ^ a
    some ⟨n, g, r, 0, r⟩

def scaleElem (t : Tap) (e : Nat) : Nat := e / 2 ^ (t.g.block.toNat % 16)

/-- The illegal scale arrangements of R181 and the limits of the scale tap (log 127). -/
def scalePre (t sc : Tap) : Option Cause :=
  if !sc.g.present then some (sigCause 0x08 sc.n none)
  else if sc.g.fmt != .s16 || !sc.g.isTable ||
      (!t.g.isTable && t.g.slots % 2 ^ (t.g.block.toNat / 16) != 0) then some (sigCause 0x01 sc.n none)
  else sc.preTrap

/-- Every trap of one tap read of the elements es (R154, R181). DESIGN CHOICE: the order of several (log 91), and the
scale of a sample of which no element is read (log 92), and that a sample without a scale signal has no arrangement to
check (log 127). -/
def tapTrap (s : State) (k : Nat) (c : Ctx) (t : Tap) (pl : Option Nat) (es : List Nat) : Option Cause :=
  match t.preTrap with
  | some x => some x
  | none =>
    if t.prehistory then none
    else
      match (t.closedTrap s k c).or (es.findSome? (laneTrap s k c t pl)) with
      | some x => some x
      | none =>
        if t.g.fmt != .ni8 then none
        else match scaleTap c t with
          | none => none
          | some sc =>
            match scalePre t sc with
            | some x => some ⟨x.code, x.detail0, if x.code == 0x01 then 0 else x.detail1⟩
            | none => (es.filter (· < t.g.elems)).findSome? fun e => laneTrap s k c sc none (scaleElem t e)

/-- The hold of one tap read (R155, R181); also of one that reads no element (DESIGN CHOICE, log 92). -/
def tapHold (s : State) (k : Nat) (c : Ctx) (t : Tap) : Bool :=
  t.unfilled s k c ||
    (t.live && t.g.fmt == .ni8 &&
      match scaleTap c t with
      | none => false
      | some sc => (scalePre t sc).isNone && sc.unfilled s k c)

/-- The scale of an NI8 element (R180 to R182). -/
def scaleVal (s : State) (k : Nat) (c : Ctx) (t : Tap) (e : Nat) : FVal :=
  match scaleTap c t with
  | none => .num false 1 0
  | some sc =>
    let e' := scaleElem t e
    if laneZero c sc none e' then .num false 0 0 else fp16.decode (rawElem s k sc e')

/-- NIValue of R182. DESIGN CHOICE (log 126): a zero scale gives a zero whose sign is that of the element times that of
the scale. -/
def niValue (s : State) (k : Nat) (c : Ctx) (t : Tap) (e pl : Nat) : FVal :=
  let m := niMag s k t e pl
  if m = 0 then .num false 0 0
  else
    let neg := planeBit s k t 0 e == 1
    match scaleVal s k c t e with
    | .nan sn => .nan sn
    | .inf n => .inf (n != neg)
    | .num n a x => .num (n != neg) (a * m) x

/-- The exact value of an element that counts. -/
def elemValue (s : State) (k : Nat) (c : Ctx) (t : Tap) (pl : Option Nat) (e : Nat) : FVal :=
  match t.g.fmt with
  | .ni8 => niValue s k c t e (planesOf t.g pl)
  | f => f.value (rawElem s k t e)

/-- One lane of Tap in a type (R154, R187, R188). -/
def tapLane (s : State) (k : Nat) (c : Ctx) (t : Tap) (pl : Option Nat) (ty : Fmt) (e : Nat) :
    Nat × Flags :=
  if laneZero c t pl e then (0, 0)
  else match t.g.fmt with
    | .ni8 => ty.ofValue 0 (niValue s k c t e (planesOf t.g pl))
    | f => convert 0 f ty (rawElem s k t e)

/-- Lanes with the OR of their flags. -/
def collect (xs : List (Nat × Flags)) : List Nat × Flags :=
  (xs.map (·.1), xs.foldl (fun f x => f ||| x.2) 0)

/-- The elements off to off + n − 1. -/
def Tap.span (t : Tap) (n : Nat) : List Nat := (List.range n).map (t.off.toNat + ·)

/-- The scale tap that a live tap of an NI8 sample also reads (R181). -/
def liveScale (c : Ctx) (t : Tap) : Option Tap := if t.live && t.g.fmt == .ni8 then scaleTap c t else none

/-- The units of the elements es of one sample. -/
def sampleUnits (s : State) (k : Nat) (t : Tap) (pl : Option Nat) (es : List Nat) : List Nat :=
  (es.filter (· < t.g.elems)).flatMap fun e => (elemUnits t.g (planesOf t.g pl) e).map (s.unitOf k t.g t.slot)

/-- Line-memory units that a tap of the elements es touches, those of its scales included, for the bank checks of
R61 and R143. -/
def tapUnits (s : State) (k : Nat) (t : Tap) (pl : Option Nat) (es : List Nat) : List Nat :=
  if t.live then
    (sampleUnits s k t pl es ++
      match liveScale (s.ctx k) t with
      | some sc => if sc.live then sampleUnits s k sc none ((es.filter (· < t.g.elems)).map (scaleElem t)) else []
      | none => []).dedup
  else []

/-- The samples that a tap reads, that of its scales included (R58, R181). -/
def tapSamples (c : Ctx) (t : Tap) : List Res :=
  if t.live then
    .sample t.n.toNat t.idx :: match liveScale c t with
      | some sc => [.sample sc.n.toNat sc.idx]
      | none => []
  else []

/-! Whole units of the sample at lag 0, whatever the format (R341, R355, R431). -/

/-- The traps of units us of a sample that is read as an operand. -/
def unitsTrap (s : State) (k : Nat) (c : Ctx) (t : Tap) (us : List Nat) : Option Cause :=
  match t.preTrap with
  | some x => some x
  | none =>
    if t.prehistory then none
    else (t.closedTrap s k c).or (us.findSome? fun u =>
      if t.unitBad s k c u then some (sigCause 0x06 t.n (some t.idx))
      else if t.g.feed == 0 && !c.written t.n t.slot u && t.g.init == 1 then some (sigCause 0x05 t.n (some t.idx))
      else none)

/-- Unit u of a sample: zero beyond WIDTH, before index 0 and where never written. -/
def unitWord (s : State) (k : Nat) (c : Ctx) (t : Tap) (u : Nat) : UnitW :=
  if u ≥ t.g.width.toNat || t.prehistory || (t.g.feed == 0 && !c.written t.n t.slot u) then 0
  else s.line k (s.unitOf k t.g t.slot u)

/-- The bytes of units. -/
def unitsBytes (s : State) (k : Nat) (c : Ctx) (t : Tap) (us : List Nat) : List Byte :=
  us.flatMap fun u => leBytes 32 (unitWord s k c t u).toNat

/-! Tap writes (R157). -/

/-- Checks 1 to 6 of R157. -/
def writeTrap (t : Tap) : Option Cause :=
  if !t.g.present then some (sigCause 0x08 t.n none)
  else if t.g.feed != 0 then some (sigCause 0x07 t.n (some t.idx))
  else if t.g.fmt == .ni8 then some (cause 0x01)
  else if !t.inLag then some (sigCause 0x04 t.n (some t.idx))
  else if t.off < 0 then some (sigCause 0x08 t.n (some t.idx))
  else if t.prehistory && t.g.init == 1 then some (sigCause 0x05 t.n (some t.idx))
  else none

/-- Write one element of a live sample (rule 9 of R157), its pattern given in the signal's format. -/
def putElem (k : Nat) (t : Tap) (e x : Nat) (s : State) : State :=
  let z := t.g.fmt.size
  let u := e * z / 32
  let p := s.unitOf k t.g t.slot u
  let old := if (s.ctx k).written t.n t.slot u then s.line k p else 0
  (s.setLine k p (setUnitBytes old (e * z % 32) z x)).updCtx k fun c => c.markWritten t.n t.slot u

/-- Write the elements from e on; those beyond the sample and writes to prehistory are discarded. -/
def putElems (k : Nat) (t : Tap) (e : Nat) (xs : List Nat) (s : State) : State :=
  if t.prehistory then s
  else match xs with
    | [] => s
    | x :: rest => putElems k t (e + 1) rest (if e < t.g.elems then putElem k t e x s else s)

/-- The patterns of TapWrite in the signal's format, with the flags of the lanes inside the sample. -/
def toFormat (t : Tap) (ty : Fmt) (mode : RM) (xs : List Nat) : List Nat × Flags :=
  let n := t.g.elems - t.off.toNat
  collect ((xs.take n).map (convert mode ty t.g.fmt))

/-- TapWrite of R9: lanes of a type from the tap's offset on. -/
def tapWrite (k : Nat) (t : Tap) (ty : Fmt) (mode : RM) (xs : List Nat) (s : State) : State :=
  putElems k t t.off.toNat (toFormat t ty mode xs).1 s

/-! Vector operands (R192 to R194). -/

def VTy.lanes : VTy → Nat
  | .fp32 => 64 | .int32 => 64 | .fp16 => 128 | .bf16 => 128
def VTy.width : VTy → Nat
  | .fp32 => 32 | .int32 => 32 | .fp16 => 16 | .bf16 => 16

/-- The lanes of a vector register in a type. -/
def unpack (ty : VTy) (v : Vec) : List Nat :=
  (List.range (VTy.lanes ty)).map fun i => v.toNat / 2 ^ (VTy.width ty * i) % 2 ^ VTy.width ty

def packNat (w : Nat) : List Nat → Nat
  | [] => 0
  | x :: xs => x % 2 ^ w + 2 ^ w * packNat w xs

def packVec (ty : VTy) (xs : List Nat) : Vec := BitVec.ofNat 2048 (packNat (VTy.width ty) xs)

/-- A broadcast immediate in a type, without flags (R193). -/
def immLane (ty : VTy) (i : BitVec 12) : Nat := ((VTy.fmt ty).ofValue 0 (FVal.ofInt i.toInt)).1

/-- The L lanes of a source operand and the flags of its tap conversions (R193). -/
def vRead (s : State) (k : Nat) (c : Ctx) (ty : VTy) : VOp → List Nat × Flags
  | .vreg r => (unpack ty (c.v r), 0)
  | .sreg r => (List.replicate (VTy.lanes ty) ((c.s r).toNat % 2 ^ VTy.width ty), 0)
  | .imm i => (List.replicate (VTy.lanes ty) (immLane ty i), 0)
  | .tap n lag =>
    let t := resolve c n lag.toNat
    collect ((t.span (VTy.lanes ty)).map (tapLane s k c t none (VTy.fmt ty)))

def vHold (s : State) (k : Nat) (c : Ctx) : VOp → Bool
  | .tap n lag => tapHold s k c (resolve c n lag.toNat)
  | .vreg _ => false
  | .sreg _ => false
  | .imm _ => false

def vTrap (s : State) (k : Nat) (c : Ctx) (ty : VTy) : VOp → Option Cause
  | .tap n lag =>
    let t := resolve c n lag.toNat
    tapTrap s k c t none (t.span (VTy.lanes ty))
  | .vreg _ => none
  | .sreg _ => none
  | .imm _ => none

def vUnits (s : State) (k : Nat) (c : Ctx) (ty : VTy) : VOp → List Nat
  | .tap n lag =>
    let t := resolve c n lag.toNat
    tapUnits s k t none (t.span (VTy.lanes ty))
  | .vreg _ => []
  | .sreg _ => []
  | .imm _ => []

/-- The results that an operand reads (R58). -/
def vUses (c : Ctx) : VOp → List Res
  | .vreg r => [.v r.toNat]
  | .sreg r => [.s r.toNat]
  | .imm _ => []
  | .tap n lag => tapSamples c (resolve c n lag.toNat)

/-- The traps of a destination (R157). -/
def vDestTrap (c : Ctx) : VOp → Option Cause
  | .tap n lag => writeTrap (resolve c n lag.toNat)
  | .vreg _ => none
  | .sreg _ => none
  | .imm _ => none

/-- Write L lanes to a destination (R194). -/
def vWrite (k : Nat) (c : Ctx) (ty : VTy) (mode : RM) (xs : List Nat) : VOp → State → State
  | .vreg r => fun s => s.updCtx k fun x => x.setV r (packVec ty xs)
  | .tap n lag => tapWrite k (resolve c n lag.toNat) (VTy.fmt ty) mode xs
  | .sreg _ => id
  | .imm _ => id

/-- The flags of the conversions on writing. -/
def vWriteFlags (c : Ctx) (ty : VTy) (mode : RM) (xs : List Nat) : VOp → Flags
  | .tap n lag =>
    let t := resolve c n lag.toNat
    if t.prehistory then 0 else (toFormat t (VTy.fmt ty) mode xs).2
  | .vreg _ => 0
  | .sreg _ => 0
  | .imm _ => 0

end Sys2Proof.Machine
end

