-- ==== Sys2Proof/Machine/Slots.lean ====
section
/-!
DEFINITION. What one slot of a bundle does: what it reads and defines, whether it holds or traps, and
its effects on commit in the order of R152. Every value is taken from the state before the bundle (R53).
-/
namespace Sys2Proof.Machine
open Sys2Proof

/-- A hold condition (R101, R105). -/
inductive Hold
  | free
  /-- an unfilled tap or advance: counted by R155, a point of kind 3 -/
  | unfilled
  /-- another wait outside the seat: a point of kind 3 -/
  | outside
  /-- the scoreboard, a bank conflict, a lost merge slot -/
  | own
  /-- FUSE (R305) -/
  | fuse
deriving DecidableEq, Repr, Inhabited

/-- The stronger of two holds: an unfilled sample counts whatever else holds. -/
def Hold.join : Hold → Hold → Hold
  | .free, b => b
  | .unfilled, _ => .unfilled
  | .outside, .unfilled => .unfilled
  | .outside, _ => .outside
  | .own, .free => .own
  | .own, b => b
  | .fuse, .free => .fuse
  | .fuse, .own => .fuse
  | .fuse, b => b

/-- What a slot does to the flow of control after commit (R75 to R85, R93, R107, R112). -/
inductive Ctl
  | next
  /-- a taken transfer; pops for BR, BRM and JR (R83) -/
  | jump (target : Word) (pops : Bool)
  /-- CALL and CALLR: a transfer that links through s62 (R79) -/
  | call (target : Word)
  /-- an untaken BRM: two delay bundles and no target -/
  | fall
  | loop (stop : Word) (count : Word)
  | skip (stop : Word)
  | point
  | yield
  | resume
  | exit
  | bar (scope id : Nat)
  | fuse (span : Nat)
  | decouple
  | rejoin
deriving DecidableEq, Repr, Inhabited

/-- The outcome of a slot before its bundle commits. -/
structure SlotOut where
  uses : List Res := []
  defs : List (Res × Nat) := []
  hold : Hold := .free
  trap : Option Cause := none
  /-- what its advances meet in the descriptors as the bundle's SIGSETs leave them (R150, R152) -/
  late : State → Option Cause := fun _ => none
  /-- step 1 of R152: registers, spill slots, samples -/
  write : State → State := id
  /-- step 2: SIGSET, SIGCLR, FILLMK -/
  desc : State → State := id
  /-- step 3: TICK, ADV -/
  tick : State → State := id
  /-- acceptance of an X command -/
  accept : State → State := id
  flags : Flags := 0
  /-- FPST bits that a CSRW clears (R128) -/
  clearFpst : Flags := 0
  toll : Nat := 0
  traffic : Nat := 0
  ctl : Ctl := .next
  /-- line-memory units touched (R143) -/
  units : List Nat := []
  /-- results and uses of M work with their cycles after issue (R246) -/
  marks : List (Res × Bool × Nat) := []
  /-- samples that an advance retires (R248) -/
  retires : List Res := []
  /-- what happens in a cycle that this slot holds: a trigger fires, a remote request is sent -/
  onHold : State → State := id
  /-- a hold that the deadlock detector counts, and the channel of a held CHSEND (R364) -/
  listed : Bool := false
  /-- samples on which it holds beside the unfilled ones among its uses and retires (R151, R355) -/
  lacks : List (BitVec 7 × Int) := []
  /-- beside unfilled samples of engine-fed signals it waits for something else (R343) -/
  other : Bool := false
  sendReg : Option Word := none

/-- The result that a guard predicate or source predicate waits for; p0 and the state predicates have none. -/
def predUse (p : BitVec 4) : List Res :=
  if 1 ≤ p.toNat ∧ p.toNat ≤ 12 then [.p p.toNat] else []

def sUse (r : BitVec 6) : List Res := if r = 0 then [] else [.s r.toNat]

/-- A slot whose guard does not hold reads its guard only (R35). -/
def guarded (g : Guard) (c : Ctx) (o : SlotOut) : SlotOut :=
  if Guard.holds g c then { o with uses := predUse g.pred ++ o.uses } else { uses := predUse g.pred }

/-- A scalar result. -/
def sResult (k : Nat) (rd : BitVec 6) (lat : Nat) (uses : List Res) (v : Word) : SlotOut :=
  { uses := uses, defs := (sUse rd).map (·, lat),
    write := fun s => s.updCtx k fun c => c.setS rd v }

/-- A predicate result. -/
def pResult (k : Nat) (pd : BitVec 4) (lat : Nat) (uses : List Res) (b : Bool) : SlotOut :=
  { uses := uses, defs := (predUse pd).map (·, lat),
    write := fun s => s.updCtx k fun c => c.setP pd b }

end Sys2Proof.Machine
end

