-- ==== Sys2Proof/WellFormed.lean ====
section
/-!
DEFINITION. Which instructions are well formed: the field limits that step 2 of R56 checks (R34, R36,
R37, R39 to R50, R162, R195, R212, R222, R349). Decode.lean refuses what is not well formed.
-/
namespace Sys2Proof

/-- R34: p0 in sense 1 is illegal. -/
def Guard.ok (g : Guard) : Bool := !(g.neg && g.pred == 0)

/-- R40: p0, p13, p14 and p15 are no destination. -/
def predDestOk (p : BitVec 4) : Bool := 1 ≤ p.toNat && p.toNat ≤ 12

/-- R45: signals 0 to 126. -/
def sigOk (s : BitVec 7) : Bool := s.toNat ≤ 126

/-- The CSR numbers of R124. -/
def csrListed (n : BitVec 12) : Bool :=
  [0x001, 0x002, 0x010, 0x011, 0x013, 0x014, 0x018, 0x019, 0x01A, 0x020, 0x021, 0x022,
   0x030, 0x031, 0x032, 0x033, 0x034, 0x035, 0x036, 0x040, 0x050].contains n.toNat

/-- R162: the level is used on fields 12 and 13 only, 0 to 5 (R45). -/
def sigFieldOk (top : Nat) (field : BitVec 4) (level : BitVec 3) : Bool :=
  field.toNat ≤ top &&
    (if field.toNat = 12 ∨ field.toNat = 13 then level.toNat ≤ 5 else level.toNat = 0)

/-- R37, R45: a source operand. -/
def VOp.ok : VOp → Bool
  | .tap s _ => sigOk s
  | .vreg _ => true
  | .sreg _ => true
  | .imm _ => true

def VOp.isTap : VOp → Bool
  | .tap _ _ => true
  | .vreg _ => false
  | .sreg _ => false
  | .imm _ => false

/-- R37: a destination is a tap or a vector register. -/
def VOp.isDest : VOp → Bool
  | .tap s _ => sigOk s
  | .vreg _ => true
  | .sreg _ => false
  | .imm _ => false

/-- R201, R202, R212: a vector register only. -/
def VOp.isVreg : VOp → Bool
  | .tap _ _ => false
  | .vreg _ => true
  | .sreg _ => false
  | .imm _ => false

/-- R203, R212: the b operand of VBCAST and VSLIDE. -/
def VOp.isScalar : VOp → Bool
  | .tap _ _ => false
  | .vreg _ => false
  | .sreg _ => true
  | .imm _ => true

/-- R48: the rounding field is unused on INT32 except in VCVT. -/
def roundOk (t : VTy) (rm : BitVec 2) : Bool := t != .int32 || rm == 0

/-- R195: VRCP, VRSQ, VEXP2 and VLOG2 take FP32 and FP16. -/
def VTy.isFh (t : VTy) : Bool := t == .fp32 || t == .fp16

/-- R43: rows 0 means 128. -/
def MRows.count (r : MRows) : Nat := if r.rows = 0 then 128 else r.rows.toNat
/-- R43: offset and rows together at most 128. -/
def MRows.ok (r : MRows) : Bool := r.count + r.off.toNat ≤ 128

/-- R43: NI8 has 2 to 8 planes. -/
def MKind.ok : MKind → Bool
  | .ni8 p => p != 0
  | .bf16 => true
  | .fp16 => true

/-- R44: scopes are 0 to 5. -/
def Scope.ofCode : Nat → Option Scope
  | 0 => some .core | 1 => some .quad | 2 => some .die
  | 3 => some .pkg | 4 => some .pod | 5 => some .sys
  | _ => none

/-- R222: signal, a nonzero increment, and the flags of the mask only. -/
def XcOps.ok (o : XcOps) (flagMask : BitVec 4) : Bool :=
  sigOk o.sig && o.inc != 0 && (o.flags &&& ~~~flagMask) == 0

/-- R44: the scope of CLDA and CSTR is in flags 3:1, flag 0 is zero. -/
def XcOps.scopedOk (o : XcOps) : Bool :=
  sigOk o.sig && o.inc != 0 && o.flags.toNat % 2 == 0 && o.flags.toNat / 2 ≤ 5

def XgOps.ok (o : XgOps) : Bool :=
  sigOk o.sig && sigOk o.idx && (o.flags &&& ~~~(6 : BitVec 5)) == 0

def XsOps.ok (o : XsOps) : Bool :=
  sigOk o.tbl && sigOk o.idx && sigOk o.val && o.op.toNat ≤ 2 && o.w.toNat ≤ 10

/-- R88: the range of the SIGEV target per scope; pkg, pod and sys are illegal. -/
def sigevOk (sc : Scope) (target : BitVec 6) : Bool :=
  match sc with
  | .core => target.toNat ≤ 1
  | .quad => target.toNat ≤ 7
  | .die => target.toNat ≤ 15
  | .pkg => false
  | .pod => false
  | .sys => false

/-- Ranges of the places that the event rows name: 4 dies, 256 cores, 512 seats, 8 stacks with 32
pseudo-channels of 16 banks each, 16 ports, 64 apertures. -/
def dieOk (n : Nat) : Bool := n < 4
def coreOk (n : Nat) : Bool := n < 256
def seatOk (n : Nat) : Bool := n < 512
def stackOk (n : Nat) : Bool := n < 8
def portOk (n : Nat) : Bool := n < 16

/-- The well-formed instructions and events. -/
def Instr.wf : Instr → Bool
  | .nop g | .ret g | .lexit g | .ypt g | .yield g | .resume g | .exit g
  | .decouple g | .rejoin g => g.ok
  | .br g _ | .call g _ | .cont g _ => g.ok
  | .brm ts => 1 ≤ ts.length && ts.length ≤ 4
  | .jr g _ | .callr g _ | .topup g _ _ => g.ok
  | .loop g _ last => g.ok && last != 0
  | .loopr g _ last => g.ok && last != 0
  | .tick g n => g.ok && n != 0
  | .adv g s n => g.ok && sigOk s && n != 0
  | .trap g _ => g.ok
  | .waitev g m => g.ok && m != 0
  | .sigev g sc t _ => g.ok && sigevOk sc t
  | .bar g _ _ => g.ok
  | .fuse g s => g.ok && s.toNat ≤ 4
  | .add g _ _ _ | .sub g _ _ _ | .mul g _ _ _ | .mulh g _ _ _ | .mulhu g _ _ _
  | .div g _ _ _ | .divu g _ _ _ | .rem g _ _ _ | .and g _ _ _ | .or g _ _ _ | .xor g _ _ _
  | .andn g _ _ _ | .shl g _ _ _ | .shr g _ _ _ | .sar g _ _ _ | .min g _ _ _ | .max g _ _ _
  | .minu g _ _ _ | .maxu g _ _ _ => g.ok
  | .clz g _ _ | .popc g _ _ => g.ok
  | .sel g _ _ _ _ => g.ok
  | .addi g _ _ _ | .andi g _ _ _ | .ori g _ _ _ | .xori g _ _ _ => g.ok
  | .shli g _ _ _ | .shri g _ _ _ | .sari g _ _ _ => g.ok
  | .movi g _ _ => g.ok
  | .movhi g _ _ _ => g.ok
  | .cmp g pd _ _ _ => g.ok && predDestOk pd
  | .cmpi g pd _ _ _ => g.ok && predDestOk pd
  | .pand g pd _ _ | .por g pd _ _ | .pxor g pd _ _ | .pandn g pd _ _ => g.ok && predDestOk pd
  | .pset g pd _ => g.ok && predDestOk pd
  | .spld g _ _ | .spst g _ _ => g.ok
  | .csrr g _ c | .csrw g _ c => g.ok && csrListed c
  | .lidx g _ l => g.ok && l.toNat ≤ 5
  | .fadd g _ _ _ | .fsub g _ _ _ | .fmul g _ _ _ | .ffma g _ _ _ | .fmin g _ _ _
  | .fmax g _ _ _ => g.ok
  | .fcmp g pd c _ _ => g.ok && predDestOk pd && c != .ltu && c != .leu
  | .fcvti g _ _ | .icvtf g _ _ => g.ok
  | .sigset g _ s f l => g.ok && sigOk s && sigFieldOk 14 f l
  | .sigget g _ s f l => g.ok && sigOk s && sigFieldOk 15 f l
  | .sigclr g s => g.ok && sigOk s
  | .fillmk g s _ => g.ok && sigOk s
  | .waitfill g _ s _ | .taprd g _ s _ | .tapwr g _ s _ => g.ok && sigOk s
  | .vadd g t d a b rm | .vsub g t d a b rm | .vmul g t d a b rm | .vfma g t d a b rm
  | .vfms g t d a b rm => g.ok && d.isDest && a.ok && b.ok && roundOk t rm
  | .vmin g _ d a b | .vmax g _ d a b | .vperm g _ d a b => g.ok && d.isDest && a.ok && b.ok
  | .vabs g _ d a | .vneg g _ d a | .vmov g _ d a | .vrmax g _ d a | .viota g _ d a =>
      g.ok && d.isDest && a.ok
  | .vcmpeq g _ d a b | .vcmplt g _ d a b | .vcmple g _ d a b | .vsel g _ d a b =>
      g.ok && d.isVreg && a.ok && b.ok
  | .vbcast g _ d a b | .vslide g _ d a b => g.ok && d.isDest && a.ok && b.isScalar
  | .vrsum g t d a rm => g.ok && d.isDest && a.ok && roundOk t rm
  | .vrcp g t d a _ | .vrsq g t d a _ | .vexp2 g t d a _ | .vlog2 g t d a _ =>
      g.ok && t.isFh && d.isDest && a.ok
  | .vscale g t d a b _ => g.ok && t != .int32 && d.isDest && a.ok && b.ok
  | .vcvt g _ d a _ _ => g.ok && d.isDest && a.ok
  | .vtapx g _ d a b => g.ok && d.isDest && a.isTap && a.ok && b.ok
  | .vand g d a b | .vor g d a b | .vxor g d a b | .vshl g d a b | .vshr g d a b
  | .vsar g d a b => g.ok && d.isDest && a.ok && b.ok
  | .mma g _ _ s _ r k | .mmaz g _ _ s _ r k => g.ok && sigOk s && r.ok && k.ok
  | .latch g _ s _ k | .latcht g _ s _ k => g.ok && sigOk s && k.ok
  | .asetId g _ r | .asetZero g _ r => g.ok && r.ok
  | .again g _ s _ r | .aoff g _ s _ r | .apply g _ s _ r | .ardOff g _ s _ r
  | .ardGain g _ s _ r => g.ok && sigOk s && r.ok
  | .scan g _ _ r | .scanUpd g _ _ r => g.ok && r.ok
  | .cyset g _ s _ | .cyget g _ s _ => g.ok && sigOk s
  | .cysetId g _ => g.ok
  | .cld g o => g.ok && o.ok 7
  | .cst g o => g.ok && o.ok 6
  | .csub g o => g.ok && o.ok 1
  | .cpull g o => g.ok && o.ok 0
  | .clda g o | .cstr g o => g.ok && o.scopedOk
  | .cgath g o | .cscat g o => g.ok && o.ok
  | .scacc g o => g.ok && o.ok
  | .ccancel g _ | .cwait g _ | .cunsub g _ => g.ok
  | .dset g _ f _ => g.ok && f.toNat ≤ 13
  | .fence g _ _ m | .nmfence g _ _ m => g.ok && m != 0
  | .nmcmd g s _ _ | .nmatom g s _ _ | .launch g s _ _ | .wsend g s _ _ => g.ok && sigOk s
  | .chsend g s _ _ | .chsendTry g s _ _ | .chbind g s _ _ => g.ok && sigOk s
  | .chbindW g _ _ | .chclose g _ _ | .chcloseW g _ _ | .chstat g _ _ => g.ok
  | .heldBundleRelease k | .barrierRelease k | .stallToll k | .maxrunOverrun k | .tapDeadlock k
  | .fuseTimeout k | .mResultFinal k | .takeTrap k | .trapDisposition k | .recall k
  | .yieldTaken k | .contextSave k | .contextRestore k | .waitExamination k => seatOk k
  | .asynchronousCause k _ => seatOk k
  | .eventLatch _ => true
  | .spareMap c => coreOk c
  | .mirrorSourceSearch k s => seatOk k && sigOk s
  | .streamSampleSend d _ | .streamSampleArrival d _ => dieOk d
  | .copyElementIssue k _ | .copyAccessComplete k _ _ | .scaccWindow k _
  | .loaderSamplePush k _ | .storerSampleWrite k _ => seatOk k
  | .combinerFlush d _ | .announcementApply d _ | .translationWalk d _ | .faultTimeout d _ =>
      dieOk d
  | .stackRead _ | .stackWrite _ | .retryReissue _ | .nearMemoryGranule _
  | .nmAtomicRecord _ => true
  | .bankRefresh st _ _ hint => stackOk st && 1 ≤ hint.toNat && hint.toNat ≤ 40
  | .rowPrecharge st _ _ | .rowOpenLimit st _ _ => stackOk st
  | .patrolScrub st _ => stackOk st
  | .stackLost st => stackOk st
  | .timetableVisit d | .reservedPlacement d | .convoyPlacement d | .permitAudit d
  | .powerStateEntry d | .wakeEvent d => dieOk d
  | .graphReturn d _ | .launchEntryWrite d _ | .groupPark d _ | .groupWake d _
  | .messageDelivery d _ | .messageSpill d _ | .cisternDrain d _ | .triggerFire d _
  | .deadlockSample d _ | .doorbellTailWrite d _ _ => dieOk d
  | .ctailWrite _ | .pheadWrite _ | .eheadWrite _ | .ltrWrite _ | .resetctlWrite _ => true
  | .slotmapWrite c _ => coreOk c
  | .configRegisterWrite _ _ => true
  | .hostWrite a _ _ _ => a < 64
  | .hostRead a _ _ => a < 64
  | .identify _ | .attest _ | .fwStage _ | .partCreate _ | .partDestroy _ | .partXlat _
  | .partWindow _ | .partInval _ | .partSwapOut _ | .partSwapIn _ | .partReserve _
  | .trapPolicy _ | .trapDisposeRetry _ | .trapDisposeMaskedRetry _ | .trapDisposeEnd _
  | .trapDisposeRestart _ | .trapRead _ | .shareRelease _ | .faultResolveRetry _
  | .faultResolveFail _ | .aperture _ | .queueCreate _ | .queueDestroy _ | .queueAssign _
  | .taskEnd _ | .slotSet _ | .rowSet _ | .chanCreate _ | .chanDestroy _ | .chanSet _
  | .codeLoad _ | .coreRetire _ | .powerCap _ | .reset _ | .unknownOpcode _ _ => true
  | .coldReset | .boot | .powerLoss => true
  | .warmReset _ => true
  | .linkDown l => l < 4
  | .powerSample _ _ _ _ => true
  | .flitReceive p _ | .replayTimeout p | .portDown p _ | .portTraining p _ _ _ => portOk p
  | .flowResend _ | .packageLost _ => true
  | .msg _ | .close _ | .waybill _ | .loss _ | .refused _ | .xfault _ | .read _ | .readresp _
  | .write _ | .writeack _ | .ack _ | .bindreq _ | .bindreply _ | .grant _ | .drained _
  | .statreq _ | .statreply _ | .grow _ | .fault _ | .bararr _ | .barrel _ | .workdone _
  | .linkstate _ | .refuse _ => true

end Sys2Proof
end

