-- ==== Sys2Proof/Decode.lean ====
section
/-!
DEFINITION. Decoding of syllables and bundles (R33 to R52, steps 1 and 2 of R56) and the encoder, both
written from the encoding tables. A syllable is a number below 2^64; a refusal has a name.
-/
namespace Sys2Proof

/-- Why a syllable is not an instruction (all are trap 0x01 under R36). -/
inductive DecodeError
  /-- class 110 or 111 (R33) -/
  | reservedClass
  /-- an extension syllable that no BRM precedes (R42) -/
  | loneExtension
  /-- an opcode that the map does not list, or a V type the operation does not admit (R36, R195) -/
  | opcode
  /-- a nonzero bit that the format leaves unused or marks zero (R36) -/
  | unusedBits
  /-- a field value outside its limits, a code without meaning, an illegal guard (R34, R36) -/
  | fieldLimit
  /-- a BRM of two to four tests without its extension syllable (R42) -/
  | missingExtension
deriving DecidableEq, Repr

/-- The result of decoding. -/
abbrev Dec := Except DecodeError Instr

/-- The instruction, where the bits that must be zero are. -/
def whenZero (b : Bool) (i : Instr) : Dec := if b then .ok i else .error .unusedBits

/-- A field whose code may have no meaning. -/
def withCode {α : Type} (o : Option α) (k : α → Dec) : Dec :=
  match o with
  | some a => k a
  | none => .error .fieldLimit

def condOf : Nat → Option Cond
  | 0 => some .eq | 1 => some .ne | 2 => some .lt | 3 => some .le | 4 => some .ltu | 5 => some .leu
  | _ => none

def condCode : Cond → Nat
  | .eq => 0 | .ne => 1 | .lt => 2 | .le => 3 | .ltu => 4 | .leu => 5

def scopeCode : Scope → Nat
  | .core => 0 | .quad => 1 | .die => 2 | .pkg => 3 | .pod => 4 | .sys => 5

def fenceKindOf : Nat → Option FenceKind
  | 0 => some .acquire | 1 => some .release | 2 => some .full
  | _ => none

def fenceKindCode : FenceKind → Nat
  | .acquire => 0 | .release => 1 | .full => 2

/-- R38: the type in opcode bits 7:6. -/
def vtyOf : Nat → VTy
  | 0 => .fp32 | 1 => .fp16 | 2 => .bf16 | _ => .int32

def vtyCode : VTy → Nat
  | .fp32 => 0 | .fp16 => 1 | .bf16 => 2 | .int32 => 3

/-- R37: a 15-bit V operand. -/
def vopOf (x : Nat) : Option VOp :=
  if x / 16384 % 2 = 1 then some (.tap (fld x 7 7) (fld x 0 7))
  else match x / 4096 % 4 with
    | 0 => if zeroAt x 5 7 then some (.vreg (fld x 0 5)) else none
    | 1 => if zeroAt x 6 6 then some (.sreg (fld x 0 6)) else none
    | 2 => some (.imm (fld x 0 12))
    | _ => none

def vopCode : VOp → Nat
  | .tap s l => 16384 + put 7 s + put 0 l
  | .vreg r => put 0 r
  | .sreg r => 4096 + put 0 r
  | .imm i => 8192 + put 0 i

/-- R43: the kind in 9:8 and planes − 1 in 12:10. -/
def mkindOf (kind planes : Nat) : Option MKind :=
  match kind with
  | 0 => some (.ni8 (BitVec.ofNat 3 planes))
  | 1 => if planes = 0 then some .bf16 else none
  | 2 => if planes = 0 then some .fp16 else none
  | _ => none

def mkindCode : MKind → Nat
  | .ni8 p => put 10 p
  | .bf16 => 256
  | .fp16 => 512

/-- R33: the guard of a syllable. -/
def guardOf (w : Nat) : Guard := ⟨w / 2 ^ 59 % 2 == 1, fld w 55 4⟩

/-- R41: the C class without BRM. -/
def decodeC (w : Nat) : Dec :=
  let g := guardOf w
  match w / 2 ^ 47 % 256 with
  | 0x00 => whenZero (zeroAt w 0 47) (.nop g)
  | 0x01 => whenZero (zeroAt w 0 15) (.br g (fld w 15 32))
  | 0x03 => whenZero (zeroAt w 0 41) (.jr g (fld w 41 6))
  | 0x04 => whenZero (zeroAt w 0 15) (.call g (fld w 15 32))
  | 0x05 => whenZero (zeroAt w 0 41) (.callr g (fld w 41 6))
  | 0x06 => whenZero (zeroAt w 0 47) (.ret g)
  | 0x08 => whenZero (zeroAt w 0 15) (.loop g (fld w 31 16) (fld w 15 16))
  | 0x09 => whenZero (zeroAt w 31 10 && zeroAt w 0 15) (.loopr g (fld w 41 6) (fld w 15 16))
  | 0x0A => whenZero (zeroAt w 0 47) (.lexit g)
  | 0x10 => whenZero (zeroAt w 0 39) (.tick g (fld w 39 8))
  | 0x11 => whenZero (zeroAt w 0 32) (.adv g (fld w 40 7) (fld w 32 8))
  | 0x18 => whenZero (zeroAt w 0 47) (.ypt g)
  | 0x19 => whenZero (zeroAt w 0 47) (.yield g)
  | 0x1A => whenZero (zeroAt w 0 15) (.cont g (fld w 15 32))
  | 0x1B => whenZero (zeroAt w 0 47) (.resume g)
  | 0x1C => whenZero (zeroAt w 0 40) (.topup g (fld w 41 6) (w / 2 ^ 40 % 2 == 1))
  | 0x1D => whenZero (zeroAt w 0 47) (.exit g)
  | 0x1E => whenZero (zeroAt w 0 31) (.trap g (fld w 31 16))
  | 0x20 => whenZero (zeroAt w 0 31) (.waitev g (fld w 31 16))
  | 0x21 => withCode (Scope.ofCode (w / 2 ^ 44 % 8)) fun sc =>
      whenZero (zeroAt w 0 34) (.sigev g sc (fld w 38 6) (fld w 34 4))
  | 0x28 => withCode (Scope.ofCode (w / 2 ^ 44 % 8)) fun sc =>
      whenZero (zeroAt w 0 38) (.bar g sc (fld w 38 6))
  | 0x30 => whenZero (zeroAt w 0 44) (.fuse g (fld w 44 3))
  | 0x31 => whenZero (zeroAt w 0 47) (.decouple g)
  | 0x32 => whenZero (zeroAt w 0 47) (.rejoin g)
  | _ => .error .opcode

/-- R39: format SR with bits 28:0 zero. -/
def srForm (w : Nat) (k : Guard → BitVec 6 → BitVec 6 → BitVec 6 → Instr) : Dec :=
  whenZero (zeroAt w 0 29) (k (guardOf w) (fld w 41 6) (fld w 35 6) (fld w 29 6))

/-- R47: SR with rb zero too. -/
def sr1Form (w : Nat) (k : Guard → BitVec 6 → BitVec 6 → Instr) : Dec :=
  whenZero (zeroAt w 0 35) (k (guardOf w) (fld w 41 6) (fld w 35 6))

/-- R39: format SI. -/
def siForm (w : Nat) (k : Guard → BitVec 6 → BitVec 6 → BitVec 35 → Instr) : Dec :=
  .ok (k (guardOf w) (fld w 41 6) (fld w 35 6) (fld w 0 35))

/-- R47: a shift immediate outside 0 to 63 is illegal. -/
def shForm (w : Nat) (k : Guard → BitVec 6 → BitVec 6 → BitVec 6 → Instr) : Dec :=
  if zeroAt w 6 29 then .ok (k (guardOf w) (fld w 41 6) (fld w 35 6) (fld w 0 6))
  else .error .fieldLimit

/-- R39: format SQ. -/
def sqForm (w : Nat) (k : Guard → BitVec 4 → BitVec 4 → BitVec 4 → Instr) : Dec :=
  whenZero (zeroAt w 0 35) (k (guardOf w) (fld w 43 4) (fld w 39 4) (fld w 35 4))

/-- R39: format SG with a lag or count field and level zero. -/
def sgForm (w : Nat) (k : Guard → BitVec 6 → BitVec 7 → BitVec 8 → Instr) : Dec :=
  whenZero (zeroAt w 0 26) (k (guardOf w) (fld w 41 6) (fld w 34 7) (fld w 26 8))

/-- R39, R47: the S class. -/
def decodeS (w : Nat) : Dec :=
  let g := guardOf w
  match w / 2 ^ 47 % 256 with
  | 0x00 => srForm w .add
  | 0x01 => srForm w .sub
  | 0x02 => srForm w .mul
  | 0x03 => srForm w .mulh
  | 0x04 => srForm w .mulhu
  | 0x05 => srForm w .div
  | 0x06 => srForm w .divu
  | 0x07 => srForm w .rem
  | 0x08 => srForm w .and
  | 0x09 => srForm w .or
  | 0x0A => srForm w .xor
  | 0x0B => srForm w .andn
  | 0x0C => srForm w .shl
  | 0x0D => srForm w .shr
  | 0x0E => srForm w .sar
  | 0x0F => srForm w .min
  | 0x10 => srForm w .max
  | 0x11 => srForm w .minu
  | 0x12 => srForm w .maxu
  | 0x13 => sr1Form w .clz
  | 0x14 => sr1Form w .popc
  | 0x15 => whenZero (zeroAt w 0 25) (.sel g (fld w 41 6) (fld w 35 6) (fld w 29 6) (fld w 25 4))
  | 0x20 => siForm w .addi
  | 0x21 => siForm w .andi
  | 0x22 => siForm w .ori
  | 0x23 => siForm w .xori
  | 0x24 => shForm w .shli
  | 0x25 => shForm w .shri
  | 0x26 => shForm w .sari
  | 0x27 => whenZero (zeroAt w 35 6) (.movi g (fld w 41 6) (fld w 0 35))
  | 0x28 => whenZero (zeroAt w 32 3) (.movhi g (fld w 41 6) (fld w 35 6) (fld w 0 32))
  | 0x30 => withCode (condOf (w / 2 ^ 40 % 8)) fun c =>
      whenZero (zeroAt w 0 28) (.cmp g (fld w 43 4) c (fld w 34 6) (fld w 28 6))
  | 0x31 => withCode (condOf (w / 2 ^ 40 % 8)) fun c =>
      .ok (.cmpi g (fld w 43 4) c (fld w 34 6) (fld w 0 34))
  | 0x38 => sqForm w .pand
  | 0x39 => sqForm w .por
  | 0x3A => sqForm w .pxor
  | 0x3B => sqForm w .pandn
  | 0x3C => whenZero (zeroAt w 40 3 && zeroAt w 0 34) (.pset g (fld w 43 4) (fld w 34 6))
  | 0x40 => whenZero (zeroAt w 0 32) (.spld g (fld w 41 6) (fld w 32 9))
  | 0x41 => whenZero (zeroAt w 0 32) (.spst g (fld w 41 6) (fld w 32 9))
  | 0x42 => whenZero (zeroAt w 0 29) (.csrr g (fld w 41 6) (fld w 29 12))
  | 0x43 => whenZero (zeroAt w 0 29) (.csrw g (fld w 41 6) (fld w 29 12))
  | 0x44 => whenZero (zeroAt w 26 15 && zeroAt w 0 23) (.lidx g (fld w 41 6) (fld w 23 3))
  | 0x50 => srForm w .fadd
  | 0x51 => srForm w .fsub
  | 0x52 => srForm w .fmul
  | 0x53 => srForm w .ffma
  | 0x54 => srForm w .fmin
  | 0x55 => srForm w .fmax
  | 0x56 => withCode (condOf (w / 2 ^ 40 % 8)) fun c =>
      whenZero (zeroAt w 0 28) (.fcmp g (fld w 43 4) c (fld w 34 6) (fld w 28 6))
  | 0x57 => sr1Form w .fcvti
  | 0x58 => sr1Form w .icvtf
  | 0x60 => if zeroAt w 30 4 then
        whenZero (zeroAt w 0 23) (.sigset g (fld w 41 6) (fld w 34 7) (fld w 26 4) (fld w 23 3))
      else .error .fieldLimit
  | 0x61 => if zeroAt w 30 4 then
        whenZero (zeroAt w 0 23) (.sigget g (fld w 41 6) (fld w 34 7) (fld w 26 4) (fld w 23 3))
      else .error .fieldLimit
  | 0x62 => whenZero (zeroAt w 41 6 && zeroAt w 0 34) (.sigclr g (fld w 34 7))
  | 0x63 => whenZero (zeroAt w 41 6 && zeroAt w 0 26) (.fillmk g (fld w 34 7) (fld w 26 8))
  | 0x64 => sgForm w .waitfill
  | 0x65 => sgForm w .taprd
  | 0x66 => sgForm w .tapwr
  | _ => .error .opcode

/-- R38: d, a and b with the rounding field. -/
def v3m (w : Nat) (k : VOp → VOp → VOp → BitVec 2 → Instr) : Dec :=
  withCode (vopOf (w / 2 ^ 32 % 2 ^ 15)) fun d => withCode (vopOf (w / 2 ^ 17 % 2 ^ 15)) fun a =>
    withCode (vopOf (w / 4 % 2 ^ 15)) fun b => .ok (k d a b (fld w 0 2))

/-- R48: d, a and b, the rounding field zero. -/
def v3 (w : Nat) (k : VOp → VOp → VOp → Instr) : Dec :=
  withCode (vopOf (w / 2 ^ 32 % 2 ^ 15)) fun d => withCode (vopOf (w / 2 ^ 17 % 2 ^ 15)) fun a =>
    withCode (vopOf (w / 4 % 2 ^ 15)) fun b => whenZero (zeroAt w 0 2) (k d a b)

/-- R48: d and a with the rounding field, b zero. -/
def v2m (w : Nat) (k : VOp → VOp → BitVec 2 → Instr) : Dec :=
  withCode (vopOf (w / 2 ^ 32 % 2 ^ 15)) fun d => withCode (vopOf (w / 2 ^ 17 % 2 ^ 15)) fun a =>
    whenZero (zeroAt w 2 15) (k d a (fld w 0 2))

/-- R48: d and a, b and the rounding field zero. -/
def v2 (w : Nat) (k : VOp → VOp → Instr) : Dec :=
  withCode (vopOf (w / 2 ^ 32 % 2 ^ 15)) fun d => withCode (vopOf (w / 2 ^ 17 % 2 ^ 15)) fun a =>
    whenZero (zeroAt w 0 17) (k d a)

/-- R48: VCVT's b is the immediate 0 to 3 that names the source type. -/
def vcvtForm (w : Nat) (k : VOp → VOp → VTy → BitVec 2 → Instr) : Dec :=
  withCode (vopOf (w / 2 ^ 32 % 2 ^ 15)) fun d => withCode (vopOf (w / 2 ^ 17 % 2 ^ 15)) fun a =>
    if w / 16 % 2 ^ 13 = 2048 then .ok (k d a (vtyOf (w / 4 % 4)) (fld w 0 2)) else .error .fieldLimit

/-- R207: the bitwise operations are INT32 only. -/
def intOnly (t : VTy) (d : Dec) : Dec := if t = .int32 then d else .error .opcode

/-- R38, R48, R195: the V class. -/
def decodeV (w : Nat) : Dec :=
  let g := guardOf w
  let t := vtyOf (w / 2 ^ 53 % 4)
  match w / 2 ^ 47 % 64 with
  | 0x00 => v3m w (.vadd g t)
  | 0x01 => v3m w (.vsub g t)
  | 0x02 => v3m w (.vmul g t)
  | 0x03 => v3m w (.vfma g t)
  | 0x04 => v3m w (.vfms g t)
  | 0x05 => v3 w (.vmin g t)
  | 0x06 => v3 w (.vmax g t)
  | 0x07 => v2 w (.vabs g t)
  | 0x08 => v2 w (.vneg g t)
  | 0x09 => v3 w (.vcmpeq g t)
  | 0x0A => v3 w (.vcmplt g t)
  | 0x0B => v3 w (.vcmple g t)
  | 0x0C => v3 w (.vsel g t)
  | 0x0D => v2 w (.vmov g t)
  | 0x0E => v3 w (.vbcast g t)
  | 0x0F => v2m w (.vrsum g t)
  | 0x10 => v2 w (.vrmax g t)
  | 0x11 => v2m w (.vrcp g t)
  | 0x12 => v2m w (.vrsq g t)
  | 0x13 => v2m w (.vexp2 g t)
  | 0x14 => v2m w (.vlog2 g t)
  | 0x15 => v3m w (.vscale g t)
  | 0x16 => vcvtForm w (.vcvt g t)
  | 0x17 => v3 w (.vperm g t)
  | 0x18 => v3 w (.vslide g t)
  | 0x19 => v2 w (.viota g t)
  | 0x1A => v3 w (.vtapx g t)
  | 0x20 => intOnly t (v3 w (.vand g))
  | 0x21 => intOnly t (v3 w (.vor g))
  | 0x22 => intOnly t (v3 w (.vxor g))
  | 0x23 => intOnly t (v3 w (.vshl g))
  | 0x24 => intOnly t (v3 w (.vshr g))
  | 0x25 => intOnly t (v3 w (.vsar g))
  | _ => .error .opcode

/-- R43: a tile or latch field holds 0 or 1. -/
def oneBit (x : Nat) : Option (BitVec 1) := if x < 2 then some (BitVec.ofNat 1 x) else none

def rowsOf (w : Nat) : MRows := ⟨fld w 21 8, fld w 13 8⟩

/-- R43: format MM. -/
def mmForm (w : Nat) (k : Guard → BitVec 1 → BitVec 1 → BitVec 7 → BitVec 7 → MRows → MKind → Instr) :
    Dec :=
  withCode (oneBit (w / 2 ^ 45 % 4)) fun tile => withCode (oneBit (w / 2 ^ 43 % 4)) fun l =>
    withCode (mkindOf (w / 2 ^ 8 % 4) (w / 2 ^ 10 % 8)) fun kd =>
      whenZero (zeroAt w 0 8) (k (guardOf w) tile l (fld w 36 7) (fld w 29 7) (rowsOf w) kd)

/-- R43: format ML. -/
def mlForm (w : Nat) (k : Guard → BitVec 1 → BitVec 7 → BitVec 7 → MKind → Instr) : Dec :=
  withCode (oneBit (w / 2 ^ 43 % 4)) fun l =>
    withCode (mkindOf (w / 2 ^ 8 % 4) (w / 2 ^ 10 % 8)) fun kd =>
      whenZero (zeroAt w 45 2 && zeroAt w 13 16 && zeroAt w 0 8)
        (k (guardOf w) l (fld w 36 7) (fld w 29 7) kd)

/-- R43: format MA with its tap, mode bits checked by the caller. -/
def maForm (w : Nat) (k : Guard → BitVec 1 → BitVec 7 → BitVec 7 → MRows → Instr) : Dec :=
  withCode (oneBit (w / 2 ^ 45 % 4)) fun tile =>
    whenZero (zeroAt w 43 2 && zeroAt w 0 11) (k (guardOf w) tile (fld w 36 7) (fld w 29 7) (rowsOf w))

/-- R241: ASET, signal and lag zero. -/
def masForm (w : Nat) (k : Guard → BitVec 1 → MRows → Instr) : Dec :=
  withCode (oneBit (w / 2 ^ 45 % 4)) fun tile =>
    whenZero (zeroAt w 43 2 && zeroAt w 29 14 && zeroAt w 0 11) (k (guardOf w) tile (rowsOf w))

/-- R43: format MS. -/
def msForm (w : Nat) (k : Guard → BitVec 1 → BitVec 2 → MRows → Instr) : Dec :=
  withCode (oneBit (w / 2 ^ 45 % 4)) fun tile =>
    whenZero (zeroAt w 29 14 && zeroAt w 0 12) (k (guardOf w) tile (fld w 43 2) (rowsOf w))

/-- R43: format MY with its tap. -/
def myForm (w : Nat) (k : Guard → BitVec 2 → BitVec 7 → BitVec 7 → Instr) : Dec :=
  whenZero (zeroAt w 45 2 && zeroAt w 13 16 && zeroAt w 0 11)
    (k (guardOf w) (fld w 43 2) (fld w 36 7) (fld w 29 7))

/-- R43, R49: the M class. -/
def decodeM (w : Nat) : Dec :=
  let mode := w / 2 ^ 11 % 4
  match w / 2 ^ 47 % 256 with
  | 0x00 => mmForm w .mma
  | 0x01 => mmForm w .mmaz
  | 0x02 => mlForm w .latch
  | 0x03 => mlForm w .latcht
  | 0x04 => if mode = 0 then masForm w .asetId else if mode = 1 then masForm w .asetZero
      else .error .fieldLimit
  | 0x05 => if mode = 0 then maForm w .again else .error .fieldLimit
  | 0x06 => if mode = 0 then maForm w .aoff else .error .fieldLimit
  | 0x08 => if w / 2 ^ 12 % 2 = 0 then msForm w .scan else msForm w .scanUpd
  | 0x09 => if mode = 0 then myForm w .cyset
      else if mode = 1 then
        whenZero (zeroAt w 45 2 && zeroAt w 13 30 && zeroAt w 0 11) (.cysetId (guardOf w) (fld w 43 2))
      else .error .fieldLimit
  | 0x0A => if mode = 0 then myForm w .cyget else .error .fieldLimit
  | 0x0B => if mode = 0 then maForm w .apply else .error .fieldLimit
  | 0x0C => if mode = 0 then maForm w .ardOff else if mode = 1 then maForm w .ardGain
      else .error .fieldLimit
  | _ => .error .opcode

/-- R44: format XC. -/
def xcForm (w : Nat) (k : Guard → XcOps → Instr) : Dec :=
  .ok (k (guardOf w) ⟨fld w 40 7, fld w 34 6, fld w 30 4, fld w 14 16, fld w 11 3, fld w 8 3,
    fld w 4 4, fld w 0 4⟩)

/-- R44: format XG. -/
def xgForm (w : Nat) (k : Guard → XgOps → Instr) : Dec :=
  .ok (k (guardOf w) ⟨fld w 40 7, fld w 33 7, fld w 27 6, fld w 23 4, fld w 15 8, fld w 12 3,
    fld w 9 3, fld w 5 4, fld w 0 5⟩)

/-- R44: format XH. -/
def xhForm (w : Nat) (k : Guard → BitVec 4 → Instr) : Dec :=
  whenZero (zeroAt w 0 43) (k (guardOf w) (fld w 43 4))

/-- R44: format XF. -/
def xfForm (w : Nat) (k : Guard → Scope → FenceKind → BitVec 8 → Instr) : Dec :=
  withCode (Scope.ofCode (w / 2 ^ 44 % 8)) fun sc => withCode (fenceKindOf (w / 2 ^ 42 % 4)) fun fk =>
    whenZero (zeroAt w 0 34) (k (guardOf w) sc fk (fld w 34 8))

/-- R44: formats XN and XL. -/
def xnForm (w : Nat) (k : Guard → BitVec 7 → BitVec 6 → BitVec 4 → Instr) : Dec :=
  whenZero (zeroAt w 8 26 && zeroAt w 0 4) (k (guardOf w) (fld w 40 7) (fld w 34 6) (fld w 4 4))

/-- R44, R349: format XK without a signal; flag 24 must be b and flags 27:25 zero. -/
def xkForm (w : Nat) (k : Guard → BitVec 6 → BitVec 6 → Instr) : Dec :=
  if zeroAt w 25 3 then
    whenZero (zeroAt w 40 7 && zeroAt w 0 24) (k (guardOf w) (fld w 34 6) (fld w 28 6))
  else .error .fieldLimit

/-- R44, R349: format XK with a signal. -/
def xksForm (w : Nat) (k : Guard → BitVec 7 → BitVec 6 → BitVec 6 → Instr) : Dec :=
  if zeroAt w 25 3 then
    whenZero (zeroAt w 0 24) (k (guardOf w) (fld w 40 7) (fld w 34 6) (fld w 28 6))
  else .error .fieldLimit

/-- R44, R50: the X class. -/
def decodeX (w : Nat) : Dec :=
  match w / 2 ^ 47 % 256 with
  | 0x00 => xcForm w .cld
  | 0x01 => xcForm w .cst
  | 0x02 => xcForm w .clda
  | 0x03 => xcForm w .cstr
  | 0x04 => xgForm w .cgath
  | 0x05 => xgForm w .cscat
  | 0x06 => whenZero (zeroAt w 0 14) (.scacc (guardOf w) ⟨fld w 40 7, fld w 33 7, fld w 26 7,
      fld w 23 3, fld w 18 5, fld w 14 4⟩)
  | 0x07 => xhForm w .ccancel
  | 0x08 => xhForm w .cwait
  | 0x09 => whenZero (zeroAt w 0 33) (.dset (guardOf w) (fld w 43 4) (fld w 39 4) (fld w 33 6))
  | 0x0A => xfForm w .fence
  | 0x0B => xcForm w .csub
  | 0x0C => xcForm w .cpull
  | 0x0D => xhForm w .cunsub
  | 0x10 => xnForm w .nmcmd
  | 0x11 => xfForm w .nmfence
  | 0x12 => xnForm w .nmatom
  | 0x18 => if w / 2 ^ 24 % 2 = 0 then xksForm w .chsend else xksForm w .chsendTry
  | 0x19 => if w / 2 ^ 24 % 2 = 0 then xksForm w .chbind else xkForm w .chbindW
  | 0x1A => if w / 2 ^ 24 % 2 = 0 then xkForm w .chclose else xkForm w .chcloseW
  | 0x1B => if w / 2 ^ 24 % 2 = 0 then xkForm w .chstat else .error .fieldLimit
  | 0x20 => xnForm w .launch
  | 0x21 => xnForm w .wsend
  | _ => .error .opcode

/-- One test of BRM (R42): the 5-bit test and its displacement. -/
def brmTest (t disp : Nat) : BrmTest := ⟨t / 16 % 2 == 1, BitVec.ofNat 4 t, BitVec.ofNat 16 disp⟩

/-- R34, R42: a BRM syllable w and the extension syllable e (zero where there is none). -/
def decodeBrm (w e : Nat) : Dec :=
  if guardOf w != Guard.always then .error .fieldLimit
  else
    let t0 := brmTest (w / 2 ^ 42 % 32) (w / 2 ^ 9 % 2 ^ 16)
    let t1 := brmTest (w / 2 ^ 37 % 32) (e / 2 ^ 44 % 2 ^ 16)
    let t2 := brmTest (w / 2 ^ 32 % 32) (e / 2 ^ 28 % 2 ^ 16)
    let t3 := brmTest (w / 2 ^ 27 % 32) (e / 2 ^ 12 % 2 ^ 16)
    let z := zeroAt w 0 9 && zeroAt e 0 12
    match w / 2 ^ 25 % 4 with
    | 0 => whenZero (z && zeroAt w 27 15) (.brm [t0])
    | 1 => whenZero (z && zeroAt w 27 10 && zeroAt e 12 32) (.brm [t0, t1])
    | 2 => whenZero (z && zeroAt w 27 5 && zeroAt e 12 16) (.brm [t0, t1, t2])
    | _ => whenZero z (.brm [t0, t1, t2, t3])

/-- R33: the class code of a syllable. -/
def classOf (w : Nat) : Nat := w / 2 ^ 60 % 8

/-- R42: a BRM syllable. -/
def isBrm (w : Nat) : Bool := classOf w == 0 && w / 2 ^ 47 % 256 == 2

/-- The fields of one syllable, before the limits. -/
def decodeFields (w : Nat) : Dec :=
  match classOf w with
  | 0 => if w / 2 ^ 47 % 256 = 2 then decodeBrm w 0 else decodeC w
  | 1 => decodeS w
  | 2 => decodeV w
  | 3 => decodeM w
  | 4 => decodeX w
  | 5 => .error .loneExtension
  | _ => .error .reservedClass

/-- The limits of WellFormed.lean. -/
def withLimits : Dec → Dec
  | .ok i => if i.wf then .ok i else .error .fieldLimit
  | .error e => .error e

/-- Step 2 of R56 for a syllable that stands alone. -/
def decodeSyllable (w : Nat) : Dec :=
  if isBrm w && w / 2 ^ 25 % 4 != 0 then .error .missingExtension else withLimits (decodeFields w)

/-- Step 2 of R56 for a BRM of two to four tests and its extension syllable. -/
def decodeBrmPair (w e : Nat) : Dec :=
  if isBrm w && classOf e == 5 && w / 2 ^ 25 % 4 != 0 then withLimits (decodeBrm w e)
  else .error .missingExtension

/-- A slot of a bundle with the index of its (first) syllable. -/
structure Slot where
  idx : Nat
  instr : Instr
deriving DecidableEq, Repr

/-- A bundle that passed steps 1 and 2: its slots and its size in syllables. -/
structure Bundle where
  slots : List Slot
  size : Nat
deriving DecidableEq, Repr

/-- A bundle check that failed: the trap code of R56 and the fault mask. -/
structure BundleFault where
  code : Nat
  mask : Nat
deriving DecidableEq, Repr

/-- The place of a class in the order C, CE, S, V, M, X (R52). -/
def classRank : Nat → Nat
  | 0 => 0 | 5 => 1 | 1 => 2 | 2 => 3 | 3 => 4 | 4 => 5 | _ => 6

/-- How often a class may stand in a bundle (R33). -/
def classCount : Nat → Nat
  | 1 => 2 | 2 => 2 | _ => 1

/-- Step 1 of R56 at syllable w, after the syllables before it (nearest first) and with the one that
follows: order, count and the placement of extension syllables; reserved classes take no part (R52).
DESIGN CHOICE (log 125): the CE of a BRM is the very next syllable of the bundle, so that one of a reserved class between
the two misplaces it (0x02); R42 wants it directly after, and R52 keeps reserved classes out of the check. -/
def orderFault (before : List Nat) (w : Nat) (next : Option Nat) : Bool :=
  let c := classOf w
  let legal := (before.map classOf).filter (· < 6)
  if c ≥ 6 then false
  else
    legal.any (fun d => classRank d > classRank c) || (legal.filter (· == c)).length ≥ classCount c ||
    (c == 5 && !(match before with
      | b :: _ => isBrm b && b / 2 ^ 25 % 4 != 0
      | [] => false)) ||
    (isBrm w && w / 2 ^ 25 % 4 != 0 && !(match next with
      | some e => classOf e == 5
      | none => false))

/-- The mask of step 1. -/
def orderMask (before : List Nat) : List Nat → Nat
  | [] => 0
  | w :: ws => bit (orderFault before w ws.head?) * 2 ^ before.length + orderMask (w :: before) ws

/-- The extension syllable with its zero bits and the displacements of unused tests cleared (R42). -/
def cleanCe (w e : Nat) : Nat :=
  e - e % (match w / 2 ^ 25 % 4 with
    | 1 => 2 ^ 44
    | 2 => 2 ^ 28
    | _ => 2 ^ 12)

/-- The syllables of a BRM of two to four tests that show a fault of step 2: each for its own bits. -/
def brmPairMask (w e : Nat) : Nat :=
  let own := match decodeBrmPair w (cleanCe w e) with
    | .ok _ => 0
    | .error _ => 1
  own + if cleanCe w e = e then 0 else 2

/-- Step 2 over the syllables of a bundle that passed step 1: the slots, and the mask of the faults. -/
def decodeSlots (i : Nat) : List Nat → List Slot × Nat
  | [] => ([], 0)
  | [w] => match decodeSyllable w with
    | .ok x => ([⟨i, x⟩], 0)
    | .error _ => ([], 2 ^ i)
  | w :: e :: ws =>
    if classOf e = 5 then
      let (ss, m) := decodeSlots (i + 2) ws
      match decodeBrmPair w e with
      | .ok x => (⟨i, x⟩ :: ss, m)
      | .error _ => (ss, m + 2 ^ i * brmPairMask w e)
    else
      let (ss, m) := decodeSlots (i + 1) (e :: ws)
      match decodeSyllable w with
      | .ok x => (⟨i, x⟩ :: ss, m)
      | .error _ => (ss, m + 2 ^ i)
termination_by structural ws => ws

/-- Steps 1 and 2 of R56 over the syllables of one bundle. -/
def decodeBundle (ws : List Nat) : Except BundleFault Bundle :=
  let m1 := orderMask [] ws
  if m1 ≠ 0 then .error ⟨0x02, m1⟩
  else
    let (ss, m2) := decodeSlots 0 ws
    if m2 ≠ 0 then .error ⟨0x01, m2⟩ else .ok ⟨ss, ws.length⟩

/-- R51: the syllables from the bundle start to the first with E set; none where the line has none. -/
def delimit : List Nat → Option (List Nat)
  | [] => none
  | w :: ws => if w / 2 ^ 63 % 2 = 1 then some [w] else (delimit ws).map (w :: ·)

/-! The encoder, from the same tables. -/

def guardBits (g : Guard) : Nat := bit g.neg * 2 ^ 59 + put 55 g.pred

def head (cls op : Nat) (g : Guard) : Nat := cls * 2 ^ 60 + guardBits g + op * 2 ^ 47

def encC (op : Nat) (g : Guard) (x : Nat) : Nat := head 0 op g + x
def encSR (op : Nat) (g : Guard) (rd ra rb : BitVec 6) : Nat :=
  head 1 op g + put 41 rd + put 35 ra + put 29 rb
def encSI (op : Nat) (g : Guard) (rd ra : BitVec 6) (imm : Nat) : Nat :=
  head 1 op g + put 41 rd + put 35 ra + imm
def encSP (op : Nat) (g : Guard) (pd : BitVec 4) (c : Cond) (ra : BitVec 6) (x : Nat) : Nat :=
  head 1 op g + put 43 pd + condCode c * 2 ^ 40 + put 34 ra + x
def encSQ (op : Nat) (g : Guard) (pd pa pb : BitVec 4) : Nat :=
  head 1 op g + put 43 pd + put 39 pa + put 35 pb
def encSG (op : Nat) (g : Guard) (r : BitVec 6) (sig : BitVec 7) (x : Nat) : Nat :=
  head 1 op g + put 41 r + put 34 sig + x
def encV (op : Nat) (g : Guard) (t : VTy) (d a : VOp) (b rm : Nat) : Nat :=
  head 2 (vtyCode t * 64 + op) g + vopCode d * 2 ^ 32 + vopCode a * 2 ^ 17 + b * 4 + rm
def encV3m (op : Nat) (g : Guard) (t : VTy) (d a b : VOp) (rm : BitVec 2) : Nat :=
  encV op g t d a (vopCode b) rm.toNat
def encV3 (op : Nat) (g : Guard) (t : VTy) (d a b : VOp) : Nat := encV op g t d a (vopCode b) 0
def encV2m (op : Nat) (g : Guard) (t : VTy) (d a : VOp) (rm : BitVec 2) : Nat :=
  encV op g t d a 0 rm.toNat
def encV2 (op : Nat) (g : Guard) (t : VTy) (d a : VOp) : Nat := encV op g t d a 0 0
def rowsBits (r : MRows) : Nat := put 21 r.rows + put 13 r.off
def encMA (op mode : Nat) (g : Guard) (tile : BitVec 1) (sig lag : BitVec 7) (r : MRows) : Nat :=
  head 3 op g + put 45 tile + put 36 sig + put 29 lag + rowsBits r + mode * 2 ^ 11
def encMM (op : Nat) (g : Guard) (tile l : BitVec 1) (sig lag : BitVec 7) (r : MRows) (k : MKind) : Nat :=
  head 3 op g + put 45 tile + put 43 l + put 36 sig + put 29 lag + rowsBits r + mkindCode k
def encXC (op : Nat) (g : Guard) (o : XcOps) : Nat :=
  head 4 op g + put 40 o.sig + put 34 o.ra + put 30 o.nest + put 14 o.inc + put 11 o.acls +
    put 8 o.tcls + put 4 o.h + put 0 o.flags
def encXG (op : Nat) (g : Guard) (o : XgOps) : Nat :=
  head 4 op g + put 40 o.sig + put 33 o.idx + put 27 o.ra + put 23 o.nest + put 15 o.lag +
    put 12 o.acls + put 9 o.tcls + put 5 o.h + put 0 o.flags
def encXF (op : Nat) (g : Guard) (sc : Scope) (k : FenceKind) (m : BitVec 8) : Nat :=
  head 4 op g + scopeCode sc * 2 ^ 44 + fenceKindCode k * 2 ^ 42 + put 34 m
def encXN (op : Nat) (g : Guard) (sig : BitVec 7) (ra : BitVec 6) (h : BitVec 4) : Nat :=
  head 4 op g + put 40 sig + put 34 ra + put 4 h
def encXK (op flag sig : Nat) (g : Guard) (ra rd : BitVec 6) : Nat :=
  head 4 op g + sig * 2 ^ 40 + put 34 ra + put 28 rd + flag * 2 ^ 24

def testBits (t : BrmTest) : Nat := bit t.neg * 16 + t.pred.toNat

/-- R42: the BRM syllable and, from two tests on, its extension syllable. -/
def encBrm : List BrmTest → List Nat
  | [t0] => [head 0 2 .always + testBits t0 * 2 ^ 42 + put 9 t0.disp]
  | [t0, t1] => [head 0 2 .always + testBits t0 * 2 ^ 42 + testBits t1 * 2 ^ 37 + 1 * 2 ^ 25 +
      put 9 t0.disp, 5 * 2 ^ 60 + put 44 t1.disp]
  | [t0, t1, t2] => [head 0 2 .always + testBits t0 * 2 ^ 42 + testBits t1 * 2 ^ 37 +
      testBits t2 * 2 ^ 32 + 2 * 2 ^ 25 + put 9 t0.disp,
      5 * 2 ^ 60 + put 44 t1.disp + put 28 t2.disp]
  | [t0, t1, t2, t3] => [head 0 2 .always + testBits t0 * 2 ^ 42 + testBits t1 * 2 ^ 37 +
      testBits t2 * 2 ^ 32 + testBits t3 * 2 ^ 27 + 3 * 2 ^ 25 + put 9 t0.disp,
      5 * 2 ^ 60 + put 44 t1.disp + put 28 t2.disp + put 12 t3.disp]
  | _ => []

/-- The syllable of an instruction that has one, E clear; none for BRM and for the event rows. -/
def encodeOne : Instr → Option Nat
  | .nop g => some (encC 0x00 g 0)
  | .br g d => some (encC 0x01 g (put 15 d))
  | .jr g ra => some (encC 0x03 g (put 41 ra))
  | .call g d => some (encC 0x04 g (put 15 d))
  | .callr g ra => some (encC 0x05 g (put 41 ra))
  | .ret g => some (encC 0x06 g 0)
  | .loop g c l => some (encC 0x08 g (put 31 c + put 15 l))
  | .loopr g ra l => some (encC 0x09 g (put 41 ra + put 15 l))
  | .lexit g => some (encC 0x0A g 0)
  | .tick g n => some (encC 0x10 g (put 39 n))
  | .adv g s n => some (encC 0x11 g (put 40 s + put 32 n))
  | .ypt g => some (encC 0x18 g 0)
  | .yield g => some (encC 0x19 g 0)
  | .cont g d => some (encC 0x1A g (put 15 d))
  | .resume g => some (encC 0x1B g 0)
  | .topup g ra t => some (encC 0x1C g (put 41 ra + bit t * 2 ^ 40))
  | .exit g => some (encC 0x1D g 0)
  | .trap g c => some (encC 0x1E g (put 31 c))
  | .waitev g m => some (encC 0x20 g (put 31 m))
  | .sigev g sc t e => some (encC 0x21 g (scopeCode sc * 2 ^ 44 + put 38 t + put 34 e))
  | .bar g sc id => some (encC 0x28 g (scopeCode sc * 2 ^ 44 + put 38 id))
  | .fuse g s => some (encC 0x30 g (put 44 s))
  | .decouple g => some (encC 0x31 g 0)
  | .rejoin g => some (encC 0x32 g 0)
  | .add g rd ra rb => some (encSR 0x00 g rd ra rb)
  | .sub g rd ra rb => some (encSR 0x01 g rd ra rb)
  | .mul g rd ra rb => some (encSR 0x02 g rd ra rb)
  | .mulh g rd ra rb => some (encSR 0x03 g rd ra rb)
  | .mulhu g rd ra rb => some (encSR 0x04 g rd ra rb)
  | .div g rd ra rb => some (encSR 0x05 g rd ra rb)
  | .divu g rd ra rb => some (encSR 0x06 g rd ra rb)
  | .rem g rd ra rb => some (encSR 0x07 g rd ra rb)
  | .and g rd ra rb => some (encSR 0x08 g rd ra rb)
  | .or g rd ra rb => some (encSR 0x09 g rd ra rb)
  | .xor g rd ra rb => some (encSR 0x0A g rd ra rb)
  | .andn g rd ra rb => some (encSR 0x0B g rd ra rb)
  | .shl g rd ra rb => some (encSR 0x0C g rd ra rb)
  | .shr g rd ra rb => some (encSR 0x0D g rd ra rb)
  | .sar g rd ra rb => some (encSR 0x0E g rd ra rb)
  | .min g rd ra rb => some (encSR 0x0F g rd ra rb)
  | .max g rd ra rb => some (encSR 0x10 g rd ra rb)
  | .minu g rd ra rb => some (encSR 0x11 g rd ra rb)
  | .maxu g rd ra rb => some (encSR 0x12 g rd ra rb)
  | .clz g rd ra => some (encSR 0x13 g rd ra 0)
  | .popc g rd ra => some (encSR 0x14 g rd ra 0)
  | .sel g rd ra rb p => some (encSR 0x15 g rd ra rb + put 25 p)
  | .addi g rd ra i => some (encSI 0x20 g rd ra i.toNat)
  | .andi g rd ra i => some (encSI 0x21 g rd ra i.toNat)
  | .ori g rd ra i => some (encSI 0x22 g rd ra i.toNat)
  | .xori g rd ra i => some (encSI 0x23 g rd ra i.toNat)
  | .shli g rd ra i => some (encSI 0x24 g rd ra i.toNat)
  | .shri g rd ra i => some (encSI 0x25 g rd ra i.toNat)
  | .sari g rd ra i => some (encSI 0x26 g rd ra i.toNat)
  | .movi g rd i => some (encSI 0x27 g rd 0 i.toNat)
  | .movhi g rd ra i => some (encSI 0x28 g rd ra i.toNat)
  | .cmp g pd c ra rb => some (encSP 0x30 g pd c ra (put 28 rb))
  | .cmpi g pd c ra i => some (encSP 0x31 g pd c ra i.toNat)
  | .pand g pd pa pb => some (encSQ 0x38 g pd pa pb)
  | .por g pd pa pb => some (encSQ 0x39 g pd pa pb)
  | .pxor g pd pa pb => some (encSQ 0x3A g pd pa pb)
  | .pandn g pd pa pb => some (encSQ 0x3B g pd pa pb)
  | .pset g pd ra => some (head 1 0x3C g + put 43 pd + put 34 ra)
  | .spld g rd s => some (head 1 0x40 g + put 41 rd + put 32 s)
  | .spst g ra s => some (head 1 0x41 g + put 41 ra + put 32 s)
  | .csrr g rd c => some (head 1 0x42 g + put 41 rd + put 29 c)
  | .csrw g ra c => some (head 1 0x43 g + put 41 ra + put 29 c)
  | .lidx g rd l => some (head 1 0x44 g + put 41 rd + put 23 l)
  | .fadd g rd ra rb => some (encSR 0x50 g rd ra rb)
  | .fsub g rd ra rb => some (encSR 0x51 g rd ra rb)
  | .fmul g rd ra rb => some (encSR 0x52 g rd ra rb)
  | .ffma g rd ra rb => some (encSR 0x53 g rd ra rb)
  | .fmin g rd ra rb => some (encSR 0x54 g rd ra rb)
  | .fmax g rd ra rb => some (encSR 0x55 g rd ra rb)
  | .fcmp g pd c ra rb => some (encSP 0x56 g pd c ra (put 28 rb))
  | .fcvti g rd ra => some (encSR 0x57 g rd ra 0)
  | .icvtf g rd ra => some (encSR 0x58 g rd ra 0)
  | .sigset g ra s f l => some (encSG 0x60 g ra s (put 26 f + put 23 l))
  | .sigget g rd s f l => some (encSG 0x61 g rd s (put 26 f + put 23 l))
  | .sigclr g s => some (encSG 0x62 g 0 s 0)
  | .fillmk g s l => some (encSG 0x63 g 0 s (put 26 l))
  | .waitfill g rd s k => some (encSG 0x64 g rd s (put 26 k))
  | .taprd g rd s l => some (encSG 0x65 g rd s (put 26 l))
  | .tapwr g ra s l => some (encSG 0x66 g ra s (put 26 l))
  | .vadd g t d a b rm => some (encV3m 0x00 g t d a b rm)
  | .vsub g t d a b rm => some (encV3m 0x01 g t d a b rm)
  | .vmul g t d a b rm => some (encV3m 0x02 g t d a b rm)
  | .vfma g t d a b rm => some (encV3m 0x03 g t d a b rm)
  | .vfms g t d a b rm => some (encV3m 0x04 g t d a b rm)
  | .vmin g t d a b => some (encV3 0x05 g t d a b)
  | .vmax g t d a b => some (encV3 0x06 g t d a b)
  | .vabs g t d a => some (encV2 0x07 g t d a)
  | .vneg g t d a => some (encV2 0x08 g t d a)
  | .vcmpeq g t d a b => some (encV3 0x09 g t d a b)
  | .vcmplt g t d a b => some (encV3 0x0A g t d a b)
  | .vcmple g t d a b => some (encV3 0x0B g t d a b)
  | .vsel g t d a b => some (encV3 0x0C g t d a b)
  | .vmov g t d a => some (encV2 0x0D g t d a)
  | .vbcast g t d a b => some (encV3 0x0E g t d a b)
  | .vrsum g t d a rm => some (encV2m 0x0F g t d a rm)
  | .vrmax g t d a => some (encV2 0x10 g t d a)
  | .vrcp g t d a rm => some (encV2m 0x11 g t d a rm)
  | .vrsq g t d a rm => some (encV2m 0x12 g t d a rm)
  | .vexp2 g t d a rm => some (encV2m 0x13 g t d a rm)
  | .vlog2 g t d a rm => some (encV2m 0x14 g t d a rm)
  | .vscale g t d a b rm => some (encV3m 0x15 g t d a b rm)
  | .vcvt g t d a s rm => some (encV 0x16 g t d a (8192 + vtyCode s) rm.toNat)
  | .vperm g t d a b => some (encV3 0x17 g t d a b)
  | .vslide g t d a b => some (encV3 0x18 g t d a b)
  | .viota g t d a => some (encV2 0x19 g t d a)
  | .vtapx g t d a b => some (encV3 0x1A g t d a b)
  | .vand g d a b => some (encV3 0x20 g .int32 d a b)
  | .vor g d a b => some (encV3 0x21 g .int32 d a b)
  | .vxor g d a b => some (encV3 0x22 g .int32 d a b)
  | .vshl g d a b => some (encV3 0x23 g .int32 d a b)
  | .vshr g d a b => some (encV3 0x24 g .int32 d a b)
  | .vsar g d a b => some (encV3 0x25 g .int32 d a b)
  | .mma g t l s lag r k => some (encMM 0x00 g t l s lag r k)
  | .mmaz g t l s lag r k => some (encMM 0x01 g t l s lag r k)
  | .latch g l s lag k => some (head 3 0x02 g + put 43 l + put 36 s + put 29 lag + mkindCode k)
  | .latcht g l s lag k => some (head 3 0x03 g + put 43 l + put 36 s + put 29 lag + mkindCode k)
  | .asetId g t r => some (head 3 0x04 g + put 45 t + rowsBits r)
  | .asetZero g t r => some (head 3 0x04 g + put 45 t + rowsBits r + 2 ^ 11)
  | .again g t s lag r => some (encMA 0x05 0 g t s lag r)
  | .aoff g t s lag r => some (encMA 0x06 0 g t s lag r)
  | .apply g t s lag r => some (encMA 0x0B 0 g t s lag r)
  | .ardOff g t s lag r => some (encMA 0x0C 0 g t s lag r)
  | .ardGain g t s lag r => some (encMA 0x0C 1 g t s lag r)
  | .scan g t cy r => some (head 3 0x08 g + put 45 t + put 43 cy + rowsBits r)
  | .scanUpd g t cy r => some (head 3 0x08 g + put 45 t + put 43 cy + rowsBits r + 2 ^ 12)
  | .cyset g cy s lag => some (head 3 0x09 g + put 43 cy + put 36 s + put 29 lag)
  | .cysetId g cy => some (head 3 0x09 g + put 43 cy + 2 ^ 11)
  | .cyget g cy s lag => some (head 3 0x0A g + put 43 cy + put 36 s + put 29 lag)
  | .cld g o => some (encXC 0x00 g o)
  | .cst g o => some (encXC 0x01 g o)
  | .clda g o => some (encXC 0x02 g o)
  | .cstr g o => some (encXC 0x03 g o)
  | .cgath g o => some (encXG 0x04 g o)
  | .cscat g o => some (encXG 0x05 g o)
  | .scacc g o => some (head 4 0x06 g + put 40 o.tbl + put 33 o.idx + put 26 o.val + put 23 o.op +
      put 18 o.w + put 14 o.h)
  | .ccancel g h => some (head 4 0x07 g + put 43 h)
  | .cwait g h => some (head 4 0x08 g + put 43 h)
  | .dset g d f ra => some (head 4 0x09 g + put 43 d + put 39 f + put 33 ra)
  | .fence g sc k m => some (encXF 0x0A g sc k m)
  | .csub g o => some (encXC 0x0B g o)
  | .cpull g o => some (encXC 0x0C g o)
  | .cunsub g h => some (head 4 0x0D g + put 43 h)
  | .nmcmd g s ra h => some (encXN 0x10 g s ra h)
  | .nmfence g sc k m => some (encXF 0x11 g sc k m)
  | .nmatom g s ra h => some (encXN 0x12 g s ra h)
  | .chsend g s ra rd => some (encXK 0x18 0 s.toNat g ra rd)
  | .chsendTry g s ra rd => some (encXK 0x18 1 s.toNat g ra rd)
  | .chbind g s ra rd => some (encXK 0x19 0 s.toNat g ra rd)
  | .chbindW g ra rd => some (encXK 0x19 1 0 g ra rd)
  | .chclose g ra rd => some (encXK 0x1A 0 0 g ra rd)
  | .chcloseW g ra rd => some (encXK 0x1A 1 0 g ra rd)
  | .chstat g ra rd => some (encXK 0x1B 0 0 g ra rd)
  | .launch g s ra h => some (encXN 0x20 g s ra h)
  | .wsend g s ra h => some (encXN 0x21 g s ra h)
  | _ => none

/-- The syllables of an instruction, E clear; an event row has none. -/
def encode : Instr → List Nat
  | .brm ts => encBrm ts
  | i => (encodeOne i).toList

/-- An instruction that stands in a bundle. -/
def Instr.isSyllable (i : Instr) : Bool := !(encode i).isEmpty

/-- The decoder over the syllables of one instruction. -/
def decode : List Nat → Dec
  | [w] => decodeSyllable w
  | [w, e] => decodeBrmPair w e
  | _ => .error .loneExtension

/-- The instruction that the decoder reads from nbits bits of w: one syllable, or a BRM with its
extension syllable where nbits is above 64. -/
def decodeTableWord (nbits w : Nat) : Option Instr :=
  let w0 := w % 2 ^ 63
  let w1 := w / 2 ^ 64 % 2 ^ 63
  match if nbits ≤ 64 && !(isBrm w0 && w0 / 2 ^ 25 % 4 != 0) then decodeSyllable w0 else
      if isBrm w0 && w0 / 2 ^ 25 % 4 != 0 then decodeBrmPair w0 w1 else decodeSyllable w0 with
  | .ok i => some i
  | .error _ => none

end Sys2Proof
end

