-- ==== Sys2Proof/Machine/Xlate.lean ====
section
/-!
DEFINITION. Address translation (R394 to R414) and the fetch of a bundle (R51, R77).
-/
namespace Sys2Proof.Machine
open Sys2Proof

def State.part (s : State) (p : Nat) : Part := s.parts.get {} p
def State.updPart (s : State) (p : Nat) (f : Part → Part) : State :=
  { s with parts := s.parts.set {} p (f (s.part p)) }

/-- What an access asks of its leaf (R401). -/
inductive Want
  | read
  | write
  | fetch
  /-- a near-memory update, a write on every granule -/
  | update
deriving DecidableEq, Repr

def Want.writes : Want → Bool
  | .write => true
  | .update => true
  | .read => false
  | .fetch => false

/-- ACCESS of the fault record. -/
def Want.code : Want → Nat
  | .read => 0 | .fetch => 0 | .write => 1 | .update => 2

/-- AGENT codes of R410; 8 is firmware. -/
abbrev agentCopy := 0
abbrev agentStack := 1
abbrev agentNear := 2
abbrev agentDisp := 3
abbrev agentChan := 4
abbrev agentDepot := 5
abbrev agentHost := 6
abbrev agentRemote := 7
abbrev agentFw := 8

/-- A request of an agent for something of its own: two requests of one agent are two (R410, R411). -/
def request (agent id : Nat) : Nat := agent + 16 * id
/-- A request of the dispatcher: of one kind for a queue, task, launch or channel (its key). -/
def dispRequest (kind key : Nat) : Nat := request agentDisp (8 * key + kind)
/-- The code of the agent that makes a request. -/
def agentCode (request : Nat) : Nat := request % 16

/-- Agents that may use a memory type (R400, R401). -/
def typeAllowed (mtype agent : Nat) (w : Want) : Bool :=
  match mtype with
  | 0 => true
  | 1 => w != .fetch
  | 2 => [3, 4, 5, 8].contains (agentCode agent)
  | _ => false

/-- The leaf permits the access (R401). -/
def Xlat.permits (x : Xlat) (agent : Nat) (w : Want) : Bool :=
  typeAllowed x.mtype agent w &&
    (match w with
     | .fetch => x.x && x.mtype == 0
     | .read => true
     | .write => x.w
     | .update => x.w)

/-! Page-table entries (R397, R398). -/

def pteV (e : Nat) : Bool := e % 2 == 1
def pteKind (e : Nat) : Nat := e / 2 % 4
def pteAddr (e : Nat) : Nat := e / 2 ^ 12 % 2 ^ 27 * 2 ^ 12
def pteType (e : Nat) : Nat := e / 2 ^ 45 % 8
/-- A reserved bit is set. -/
def pteRsv (e : Nat) : Bool := e / 2 ^ 48 % 2 ^ 16 != 0 || e / 2 ^ 39 % 64 != 0 || e / 128 % 2 != 0
/-- MTYPE, D, A, X or W is set. -/
def pteLeafBits (e : Nat) : Bool := pteType e != 0 || e / 8 % 16 != 0

/-- The outcome of a walk: a leaf with the address of its entry and the entry, or a fault of R409 with
the level, the entry and whether poison was met. -/
inductive WalkRes
  | ok (x : Xlat) (entry pte : Nat)
  | fault (kind level entry : Nat) (poison : Bool)
deriving DecidableEq, Repr

/-- A leaf of 2^size bytes for a virtual address. -/
def leafOf (p va e size level ea : Nat) : WalkRes :=
  let a := pteAddr e
  if pteType e > 2 || a % 2 ^ size != 0 || a + 2 ^ size > 2 ^ 39 then .fault 2 level e false
  else .ok ⟨p, va / 2 ^ size, size, a, e / 8 % 2 == 1, e / 16 % 2 == 1, pteType e, e / 64 % 2 == 1⟩ ea e

/-- The shape of a level: how far the index lies up, its width, and the leaf size there (0 for none). -/
structure Lvl where
  level : Nat
  shift : Nat
  bits : Nat
  leaf : Nat
deriving DecidableEq, Repr

def lvl0 : Lvl := ⟨0, 39, 9, 0⟩
def lvl1 : Lvl := ⟨1, 30, 9, 30⟩
def lvl2 : Lvl := ⟨2, 21, 9, 21⟩
def lvl3 (big : Bool) : Lvl := if big then ⟨3, 16, 5, 16⟩ else ⟨3, 12, 9, 12⟩

/-- The table level that a table entry of kind k at a level points to. -/
def nextLvl (l : Lvl) (k : Nat) : Option Lvl :=
  match l.level, k with
  | 0, 1 => some lvl1
  | 1, 1 => some lvl2
  | 2, 1 => some (lvl3 false)
  | 2, 2 => some (lvl3 true)
  | _, _ => none

/-- Walk from a table (R398, R399): fuel is the number of levels left, and src ea is the die as which an entry is
read. Visited table entries of levels 1 and 2 are returned for the walk cache. -/
def walkFrom (src : Nat → Nat) (p va : Nat) : Nat → Lvl → Nat → State → WalkRes × List (Nat × Nat × Nat × Nat) × State
  | 0, l, _, s => (.fault 2 l.level 0 false, [], s)
  | n + 1, l, table, s =>
    let ea := table + 8 * (va / 2 ^ l.shift % 2 ^ l.bits)
    let (bs, bad, s1) := s.read (src ea) ea 8 .look
    let e := leNat bs
    if bad then (.fault 2 l.level e true, [], s1)
    else if !pteV e then (.fault 1 l.level e false, [], s1)
    else if pteRsv e then (.fault 2 l.level e false, [], s1)
    else if pteKind e = 3 && l.leaf != 0 then (leafOf p va e l.leaf l.level ea, [], s1)
    else
      match nextLvl l (pteKind e) with
      | none => (.fault 2 l.level e false, [], s1)
      | some l2 =>
        if pteLeafBits e then (.fault 2 l.level e false, [], s1)
        else
          let (r, es, s2) := walkFrom src p va n l2 (pteAddr e) s1
          let mine := if l.level = 0 then [] else
            [(p, l.level, va / 2 ^ l.shift, pteAddr e * 2 + bit (l2.leaf == 16))]
          (r, mine ++ es, s2)

/-- The place of ROOT. -/
def rootStart (s : State) (p : Nat) : Lvl × Nat × Nat := (lvl0, (s.part p).root.toNat * 4096, 4)

/-- The deepest hit of the walk cache, else the root (R405). -/
def walkStart (s : State) (d p va : Nat) : Lvl × Nat × Nat :=
  let hit := fun (lv sh : Nat) => (s.die d).wcache.find? fun e =>
    e.1 == p && e.2.1 == lv && e.2.2.1 == va / 2 ^ sh
  match hit 2 21 with
  | some e => (lvl3 (e.2.2.2 % 2 == 1), e.2.2.2 / 2, 1)
  | none =>
    match hit 1 30 with
    | some e => (lvl2, e.2.2.2 / 2, 2)
    | none => rootStart s p

/-- Keep the newest n entries of a cache. -/
def keepLast {α : Type} (n : Nat) (xs : List α) : List α := xs.drop (xs.length - n)

/-- The end of a walk that found a leaf: its caches. -/
def keepWalk (d p : Nat) (x : Xlat) (es : List (Nat × Nat × Nat × Nat)) (s : State) : State :=
  s.updDie d fun y => { y with
    tcache := keepLast 16384 ((y.tcache.filter fun t =>
      !(t.part == p && t.size == x.size && t.vpage == x.vpage)) ++ [x])
    wcache := keepLast 1024 (y.wcache ++ es.filter fun t => !y.wcache.contains t) }

/-- One pass over the tables from a start (R398, R401, R402): permission, then A, and D for a write, set in the leaf
at its home; none where the compare fails. -/
def walkPass (src : Nat → Nat) (start : Lvl × Nat × Nat) (d p va agent : Nat) (w : Want) (s : State) :
    Option WalkRes × State :=
  match walkFrom src p va start.2.2 start.1 start.2.1 s with
  | (.fault k lv e po, _, s1) => (some (.fault k lv e po), s1)
  | (.ok x ea e, es, s1) =>
    if !x.permits agent w then
      (some (.fault 3 (if x.size = 30 then 1 else if x.size = 21 then 2 else 3) e false), s1)
    else
      let e' := e ||| 32 ||| (if w.writes then 64 else 0)
      let x' := { x with dirty := e' / 64 % 2 == 1 }
      let r := if e' = e then (true, s1) else casMem d ea e e' s1
      (if r.1 then some (.ok x' ea e') else none, if r.1 then keepWalk d p x' es r.2 else r.2)

/-- A walk that starts again from ROOT whenever an entry has changed under it, and reads every entry at its home
(R402). Each change comes from an access that stood at a port, so that their number bounds the passes. -/
def walkAgain (d p va agent : Nat) (w : Want) : Nat → State → WalkRes × State
  | 0, s => (.fault 1 0 0 false, s)
  | n + 1, s =>
    match walkPass homeDie (rootStart s p) d p va agent w s with
    | (some r, s1) => (r, s1)
    | (none, s1) => walkAgain d p va agent w n s1

def Xlat.covers (x : Xlat) (p va : Nat) : Bool := x.part == p && x.vpage == va / 2 ^ x.size
def Xlat.pa (x : Xlat) (va : Nat) : Nat := x.phys + va % 2 ^ x.size

/-- A cached translation that serves the access: permitted, and dirty for a write (R402). -/
def Xlat.serves (x : Xlat) (p va agent : Nat) (w : Want) : Bool :=
  x.covers p va && x.permits agent w && (!w.writes || x.dirty)

/-! Windows (R394, R403, R404). -/

/-- Where a .far address goes: none for the page tables, else a target or a fault kind. -/
def windowOf (s : State) (p : Nat) (a : Word) (wr : Bool) : Option (Except Nat Target) :=
  let top := a.toNat / 2 ^ 56
  let n := a.toNat / 2 ^ 48 % 256
  let o := a.toNat % 2 ^ 48
  if top ≠ 0 then some (.error 5)
  else if n = 0 then none
  else
    let w := (s.part p).windows.get {} n
    let lg := if 12 ≤ w.sizelog.toNat ∧ w.sizelog.toNat ≤ 48 then w.sizelog.toNat else 12
    if !w.v || o ≥ 2 ^ lg || (wr && !w.w) then some (.error 4)
    else match w.kind.toNat with
      | 1 => some (.ok (.host (w.base.toNat + o)))
      | 2 => some (.ok (.remote w.pkg.toNat w.rwin.toNat (w.base.toNat + o)))
      | _ => some (.error 4)

/-- The partition that admits a remote access, the lowest that has a window r with KIND 10 and PKG = S (R480). -/
def admitWindow (s : State) (pkg : BitVec 18) (r : Nat) : Option Nat :=
  ((s.parts.filter fun e => e.2.present &&
    (let w := e.2.windows.get {} r
     w.v && w.kind == 2 && w.pkg == pkg)).map (·.1)).head?

/-- The partition and the virtual page of a remote access (R480, R495). -/
def remotePage (s : State) (w : Wire) : Option (Nat × Nat) :=
  (admitWindow s (w.src.setWidth 18) (w.target.toNat / 2 ^ 48 % 256)).map fun p => (p, w.target.toNat % 2 ^ 48 / 4096)

def pageOf (va : Word) : Nat := va.toNat / 4096

/-! The walk queue (R406, R407). -/

/-- Two requests are for one page. -/
def WReq.samePage (a b : WReq) : Bool := a.part == b.part && pageOf a.va == pageOf b.va

/-- The waiters of a request join one for the same page. -/
def WReq.take (r w : WReq) : WReq :=
  if r.samePage w then { w with waiters := w.waiters ++ r.waiters.filter fun x => !w.waiters.contains x } else w

/-- A request joins one for its page that is queued, or that waits for an entry; else it takes an entry of the walk
queue, or waits for one at a full queue, in the order of arrival (R406, R407). -/
def enqueueWalk (d : Nat) (r : WReq) (s : State) : State :=
  s.updDie d fun x =>
    if x.walks.any r.samePage then { x with walks := x.walks.map r.take }
    else if x.walkLine.any r.samePage then { x with walkLine := x.walkLine.map r.take }
    else if x.walks.length < 1024 && x.walkLine.isEmpty then { x with walks := x.walks ++ [r] }
    else { x with walkLine := x.walkLine ++ [r] }

/-- Entries that are free go to the requests that wait, the first of them first (R407). -/
def fillWalks : Nat → Die → Die
  | 0, x => x
  | n + 1, x =>
    match x.walkLine with
    | [] => x
    | r :: rest =>
      if x.walks.any r.samePage then fillWalks n { x with walks := x.walks.map r.take, walkLine := rest }
      else if x.walks.length < 1024 then fillWalks n { x with walks := x.walks ++ [r], walkLine := rest } else x

def Die.fillWalks (x : Die) : Die := Machine.fillWalks x.walkLine.length x

/-- The remote accesses of a die that wait for a translation and satisfy q come to their turn again (R481). -/
def wakeRemote (d : Nat) (q : Wire → Bool) (s : State) : State :=
  let hit := fun (w : Wire) => w.die == d && q w
  { s with fab.waiting := s.fab.waiting.filter fun w => !hit w
           agenda := s.agenda ++ (s.fab.waiting.filter hit).map .message }

/-- The request of another package. -/
def Waiter.remote (w : Waiter) : Bool :=
  match w.who with
  | .copy _ _ _ => false
  | .agent a => agentCode a == agentRemote

/-- What a fault or a walk ends for waits no more, where other packages wait for the page. -/
def wakeWaiters (d p : Nat) (ws : List Waiter) (s : State) : State :=
  (ws.filter Waiter.remote).foldl (fun s w => wakeRemote d (fun x => remotePage s x == some (p, pageOf w.va)) s) s

/-- What the requests of the walk queue ask of a leaf. -/
def wantOf (r : WReq) : Want := if r.access = 2 then .update else if r.write then .write else .read

/-- A walk that has found a leaf serves every queued request that its page covers, and wakes the remote accesses among
them; the entries that come free go to the requests that wait for one (R406, R407). -/
def serveLeaf (d : Nat) (x : Xlat) (s : State) : State :=
  let hit := fun (w : WReq) => x.serves w.part w.va.toNat w.agent (wantOf w)
  let ended := ((s.die d).walks ++ (s.die d).walkLine).filter hit
  if ended.isEmpty then s
  else ended.foldl (fun s w => wakeWaiters d w.part w.waiters s) (s.updDie d fun y => Die.fillWalks { y with
    walks := y.walks.filter fun w => !hit w, walkLine := y.walkLine.filter fun w => !hit w })

/-- A found leaf serves those that wait for it; a failure changes nothing here. -/
def endWalk (d : Nat) (r : WalkRes × State) : WalkRes × State :=
  match r.1 with
  | .ok x _ _ => (r.1, serveLeaf d x r.2)
  | .fault _ _ _ _ => r

/-- One walk (R398, R402, R405). DESIGN CHOICE (log 124): with ENABLE 0 no entry is read, and LEVEL and ENTRY are 0. -/
def walk (d p va agent : Nat) (w : Want) (s : State) : WalkRes × State :=
  if !(s.part p).enable then (.fault 1 0 0 false, s)
  else
    endWalk d (match walkPass (fun _ => d) (walkStart s d p va) d p va agent w s with
    | (some r, s1) => (r, s1)
    | (none, s1) => walkAgain d p va agent w (s1.accs.length + 2) s1)

/-- The core's cache, then the die's (R405). -/
def cached (s : State) (core : Option Nat) (d p va agent : Nat) (w : Want) : Option Xlat :=
  let own := match core with
    | some c => (s.core c).tcache.find? fun (y : Xlat) => y.serves p va agent w
    | none => none
  own.or ((s.die d).tcache.find? fun (y : Xlat) => y.serves p va agent w)

/-- Keep a leaf in a core's cache. -/
def coreCache (c : Nat) (x : Xlat) (s : State) : State :=
  s.updCore c fun y => { y with
    tcache := keepLast 64 ((y.tcache.filter fun t =>
      !(t.part == x.part && t.size == x.size && t.vpage == x.vpage)) ++ [x]) }

/-- Translate now: a cache hit or a walk. -/
def translate (core : Option Nat) (d p va agent : Nat) (w : Want) (s : State) : WalkRes × State :=
  match cached s core d p va agent w with
  | some x => (.ok x 0 0, s)
  | none =>
    match walk d p va agent w s with
    | (.ok x ea e, s1) => (.ok x ea e, match core with
      | some c => coreCache c x s1
      | none => s1)
    | r => r

/-! Faults (R409 to R411). -/

/-- Under FPOLICY 01, 10 or 11, and for kind 5, a fault is unresolvable (R396, R409). -/
def unresolvable (s : State) (p kind : Nat) : Bool := (s.part p).fpolicy != 0 || kind == 5

/-- The 32 bytes of a fault record (R410). -/
def faultBytes (f : FaultRec) : List Byte :=
  leBytes 8 f.va.toNat ++ leBytes 1 f.kind ++ leBytes 1 f.access ++ leBytes 1 f.part ++ leBytes 1 f.agent ++
  leBytes 2 f.waiters.length ++ leBytes 1 (f.level + 128 * bit f.poison) ++ leBytes 1 f.tcls.toNat ++
  leBytes 1 f.core ++ leBytes 1 f.seath ++ leBytes 2 f.task ++ leBytes 4 f.id.toNat ++ leBytes 8 f.entry.toNat

/-- The open fault of a die that a request for the page joins (R406): one that no request waits on takes none. -/
def openFault (s : State) (d p : Nat) (va : Word) : Option FaultRec :=
  (s.die d).faults.find? fun f => f.part == p && pageOf f.va == pageOf va && !f.waiters.isEmpty

/-- CORE, SEATH and TASK of a member; a member that is away is named by its last seat. -/
def seatField (s : State) (st m : Nat) (h : BitVec 4) : Nat × Nat × Nat :=
  let k := (memberSeat s st m).getD ((((s.step1 st).members[m]?).getD {}).lastSeat)
  (k / 2 % 64, k % 2 * 16 + h.toNat, (s.step1 st).task % 4096)

/-- CORE, SEATH and TASK of a record for its first seat request. -/
def seatFields (s : State) (ws : List Waiter) : Nat × Nat × Nat :=
  (ws.findSome? fun w => match w.who with
    | .copy st m h => some (seatField s st m h)
    | .agent _ => none).getD (0xFF, 0, 0)

/-- Write a fault record, or join the open fault of the page, and report it. One that no request waits on is
reported only (R413). -/
def recordFault (d p : Nat) (va : Word) (kind access agent level entry : Nat) (poison : Bool)
    (tcls : BitVec 3) (ws : List Waiter) (s : State) : State :=
  match if ws.isEmpty then none else openFault s d p va with
  | some f => s.updDie d fun x => { x with faults := x.faults.map fun g =>
      if g.id == f.id then { g with waiters := g.waiters ++ ws.filter fun w => !g.waiters.contains w } else g }
  | none =>
    let (c, sh, t) := seatFields s ws
    let f : FaultRec := ⟨(s.die d).nextFault, p, va, kind, access, agentCode agent, level, poison, tcls, c, sh, t,
      BitVec.ofNat 64 entry, ws⟩
    (s.updDie d fun x => { x with
      faults := if ws.isEmpty then x.faults else x.faults ++ [f], nextFault := x.nextFault + 1 }).post 1 d p
      (faultBytes f)

/-- A request is taken before another one: first those that have waited 16,384 cycles, then by traffic class, then
by age. -/
def WReq.before (now : Nat) (a b : WReq × Nat) : Bool :=
  let old := fun (x : WReq) => decide (16384 ≤ now - x.since)
  if old a.1 != old b.1 then old a.1
  else if !old a.1 && a.1.tcls != b.1.tcls then a.1.tcls.toNat < b.1.tcls.toNat
  else a.1.since < b.1.since || (a.1.since == b.1.since && a.2 < b.2)

/-- One of the 256 walkers has taken the n-th request. -/
def walkTaken (s : State) (d n : Nat) : Bool :=
  match (s.die d).walks[n]? with
  | some r => ((s.die d).walks.zipIdx.filter fun x => WReq.before s.cycle x (r, n)).length < 256
  | none => false

/-- The outcome of a translation for an agent that serves itself (R413). -/
inductive AgentRes
  | ok (pa mtype : Nat)
  /-- a walk or a fault is waited for -/
  | wait
  | fail

/-- A request for an address waits on an open fault of the die. -/
def heldByFault (s : State) (d p : Nat) (va : Word) (agent : Nat) : Bool :=
  (s.die d).faults.any fun f => f.part == p && f.waiters.any fun w => w.who == .agent agent && w.va == va

/-- Translate for the dispatcher, the channel engine, the depot engine or a remote access; agent is the request. One
that waits on a fault goes on only when that fault has ended (R411, R413). -/
def agentXlate (d p : Nat) (va : Word) (agent : Nat) (w : Want) (s : State) : AgentRes × State :=
  let key := (p, va.toNat, agent)
  let me : Waiter := ⟨.agent agent, va, w.code⟩
  if heldByFault s d p va agent then (.wait, s)
  else if (s.die d).xfails.contains key then
    (.fail, s.updDie d fun x => { x with xfails := x.xfails.erase key })
  else if va.toNat ≥ 2 ^ 48 then (.fail, s)
  else
    match cached s none d p va.toNat agent w with
    | some x => (.ok (x.pa va.toNat) x.mtype, s)
    | none =>
      if (openFault s d p va).isSome then (.wait, recordFault d p va 1 w.code agent 0 0 false 0 [me] s)
      else (.wait, enqueueWalk d ⟨p, va, w.writes, w.code, agent, 0, [me], s.cycle⟩ s)

/-- The waiter is a request that q names. -/
def Waiter.asks (q : Nat → Bool) (w : Waiter) : Bool :=
  match w.who with
  | .copy _ _ _ => false
  | .agent a => q a

/-- What has made the requests that q names is gone: nothing of a die waits for them, and no outcome of theirs is kept
(R411). -/
def dropRequests (d : Nat) (q : Nat → Bool) (s : State) : State :=
  let x := s.die d
  let rest := fun (ws : List Waiter) => ws.filter fun w => !w.asks q
  let keep := fun (rs : List WReq) => (rs.map fun r => { r with waiters := rest r.waiters }).filter fun r => !r.waiters.isEmpty
  if (x.walks ++ x.walkLine).any (fun r => r.waiters.any (·.asks q)) || x.faults.any (fun f => f.waiters.any (·.asks q)) ||
      x.xfails.any (fun e => q e.2.2) then
    s.updDie d fun x => Die.fillWalks { x with
      walks := keep x.walks, walkLine := keep x.walkLine
      faults := x.faults.map fun f => { f with waiters := rest f.waiters }
      xfails := x.xfails.filter fun e => !q e.2.2 }
  else s

/-- Translate as firmware (R451) or for the host (R413): no wait; a host access leaves a record without
a waiter. The answer holds the physical address and the memory type. -/
def nowXlate (d p : Nat) (va : Word) (agent : Nat) (w : Want) (s : State) : Option (Nat × Nat) × State :=
  if va.toNat ≥ 2 ^ 48 then (none, s)
  else
    match translate none d p va.toNat agent w s with
    | (.ok x _ _, s1) => (some (x.pa va.toNat, x.mtype), s1)
    | (.fault k lv e po, s1) =>
      if agent == agentFw || unresolvable s1 p k then (none, s1)
      else (none, recordFault d p va k w.code agent lv e po 0 [] s1)

/-! Reads and writes at virtual addresses, page by page. -/

/-- The bytes up to the next 4 KiB boundary. -/
def inPage (va n : Nat) : Nat := min n (4096 - va % 4096)

/-- Firmware reads memory of a partition (R451): the bytes and whether poison was met. -/
def fwRead (d p : Nat) : Nat → Nat → Nat → State → Option (List Byte × Bool) × State
  | 0, _, _, s => (some ([], false), s)
  | f + 1, va, n, s =>
    if n = 0 then (some ([], false), s)
    else
      let k := inPage va n
      match nowXlate d p (BitVec.ofNat 64 va) agentFw .read s with
      | (none, s1) => (none, s1)
      | (some (pa, ty), s1) =>
        let (bs, bad, s2) := s1.read d pa k (viaType ty)
        match fwRead d p f (va + k) (n - k) s2 with
        | (none, s3) => (none, s3)
        | (some (r, b2), s3) => (some (bs ++ r, bad || b2), s3)

def fwWrite (d p : Nat) : Nat → Nat → List Byte → State → Bool × State
  | 0, _, _, s => (true, s)
  | f + 1, va, bs, s =>
    if bs.isEmpty then (true, s)
    else
      let k := inPage va bs.length
      match nowXlate d p (BitVec.ofNat 64 va) agentFw .write s with
      | (none, s1) => (false, s1)
      | (some (pa, _), s1) => fwWrite d p f (va + k) (bs.drop k) (writeMem d pa (bs.take k) s1)

def State.fwRead (s : State) (d p va n : Nat) : Option (List Byte × Bool) × State :=
  Machine.fwRead d p (n / 4096 + 2) va n s
def State.fwWrite (s : State) (d p va : Nat) (bs : List Byte) : Bool × State :=
  Machine.fwWrite d p (bs.length / 4096 + 2) va bs s

/-- The outcome of an agent's transfer. -/
inductive XferRes (α : Type)
  | ok (x : α)
  | wait
  | fail

/-- Read for a self-serving agent; poison is returned as a flag. -/
def agentRead (d p agent : Nat) : Nat → Nat → Nat → State → XferRes (List Byte × Bool) × State
  | 0, _, _, s => (.ok ([], false), s)
  | f + 1, va, n, s =>
    if n = 0 then (.ok ([], false), s)
    else
      let k := inPage va n
      match agentXlate d p (BitVec.ofNat 64 va) agent .read s with
      | (.wait, s1) => (.wait, s1)
      | (.fail, s1) => (.fail, s1)
      | (.ok pa ty, s1) =>
        let (bs, bad, s2) := s1.read d pa k (viaType ty)
        match agentRead d p agent f (va + k) (n - k) s2 with
        | (.ok (r, b2), s3) => (.ok (bs ++ r, bad || b2), s3)
        | (.wait, s3) => (.wait, s3)
        | (.fail, s3) => (.fail, s3)

/-- The physical addresses of the pages of a write, before any byte of it. -/
def agentSpan (d p agent : Nat) : Nat → Nat → Nat → State → XferRes (List (Nat × Nat)) × State
  | 0, _, _, s => (.ok [], s)
  | f + 1, va, n, s =>
    if n = 0 then (.ok [], s)
    else
      let k := inPage va n
      match agentXlate d p (BitVec.ofNat 64 va) agent .write s with
      | (.wait, s1) => (.wait, s1)
      | (.fail, s1) => (.fail, s1)
      | (.ok pa _, s1) =>
        match agentSpan d p agent f (va + k) (n - k) s1 with
        | (.ok r, s2) => (.ok ((pa, k) :: r), s2)
        | (.wait, s2) => (.wait, s2)
        | (.fail, s2) => (.fail, s2)

def writeSpan (d : Nat) : List (Nat × Nat) → List Byte → State → State
  | [], _, s => s
  | (pa, k) :: r, bs, s => writeSpan d r (bs.drop k) (writeMem d pa (bs.take k) s)

def State.agentRead (s : State) (d p agent va n : Nat) : XferRes (List Byte × Bool) × State :=
  Machine.agentRead d p agent (n / 4096 + 2) va n s
def State.agentWrite (s : State) (d p agent va : Nat) (bs : List Byte) : XferRes Unit × State :=
  match agentSpan d p agent (bs.length / 4096 + 2) va bs.length s with
  | (.ok xs, s1) => (.ok (), writeSpan d xs bs s1)
  | (.wait, s1) => (.wait, s1)
  | (.fail, s1) => (.fail, s1)

/-! Removing translations (R414). -/

/-- Drop the cached translations of a partition that satisfy q on every die and core. -/
def dropXlats (p : Nat) (q : Xlat → Bool) (s : State) : State :=
  { s with
    dies := s.dies.map fun e => (e.1, { e.2 with
      tcache := e.2.tcache.filter fun x => !(x.part == p && q x)
      wcache := e.2.wcache.filter fun x => x.1 != p })
    cores := s.cores.map fun e => (e.1, { e.2 with
      tcache := e.2.tcache.filter fun x => !(x.part == p && q x) }) }

/-- Every die applies the announcements that are ready, so that a walk that begins now reads no entry from before them. -/
def State.syncAll (s : State) : State := (List.range 4).foldl (fun s d => s.sync d) s

/-- An invalidation removes the cached translations of a partition that satisfy q; later walks read the entries as they
are now, on every die (R414). -/
def invalidate (p : Nat) (q : Xlat → Bool) (s : State) : State := dropXlats p q s.syncAll

/-- Drop the walk-cache entries of a partition: later walks begin at its ROOT (R396, R398). -/
def dropWalks (p : Nat) (s : State) : State :=
  { s with dies := s.dies.map fun e => (e.1, { e.2 with wcache := e.2.wcache.filter fun x => x.1 != p }) }

/-! Fetch (R51, R77, R426). -/

/-- What the fetch of a bundle at an address gives. -/
inductive Fetch
  | bundle (ws : List Nat)
  /-- no syllable of the line has E set: mask of the last syllable -/
  | noEnd (ws : List Nat)
  | untranslatable
  | poisoned (gran : Nat)
deriving DecidableEq, Repr

/-- The syllables of n words of bytes. -/
def wordsOf : Nat → List Byte → List Nat
  | 0, _ => []
  | n + 1, bs => leNat (bs.take 8) :: wordsOf n (bs.drop 8)

/-- Fetch at an address for seat k. A bundle lies in one granule. -/
def fetch (k : Nat) (pc : Word) (s : State) : Fetch × State :=
  let a := pc.toNat
  if a ≥ 2 ^ 48 then (.untranslatable, s)
  else
    match translate (some (coreOf k)) (dieOf k) (s.partOf k) a agentCopy .fetch s with
    | (.fault _ _ _ _, s1) => (.untranslatable, s1)
    | (.ok x _ _, s1) =>
      let pa := x.pa a
      let n := (64 - pa % 64) / 8
      let (bs, bad, s2) := fetchGran (dieOf k) pa (8 * n) s1
      if bad then (.poisoned (a / 64 * 64), s2)
      else
        let ws := wordsOf n bs
        match delimit ws with
        | some b => (.bundle b, s2)
        | none => (.noEnd ws, s2)

end Sys2Proof.Machine
end

