-- ==== Sys2Proof/Machine/Copy.lean ====
section
/-!
DEFINITION. Copy commands: nests, checks, acceptance, ordering, fill marks and the end of a command
(R215 to R238, R372, R380 to R389).
-/
namespace Sys2Proof.Machine
open Sys2Proof

/-! The walk (R217 to R219). -/

def Nest.counts (n : Nest) : List Nat := (List.range 6).map fun l => max 1 (n.count.get 0 l).toNat
def Nest.strides (n : Nest) : List Int := (List.range 6).map fun l => (n.stride.get 0 l).toInt

/-- The level index i(l) of element j. -/
def walkIndex (cs : List Nat) (l j : Nat) : Nat := j / (cs.take l).prod % cs.getD l 1

/-- addr(j) of R219; xs is the index vector of a gather or scatter. -/
def Copy.addr (p : Copy) (j : Nat) : Word :=
  let low := ((List.range 5).map fun l => (walkIndex p.counts l j : Int) * p.strides.getD l 0).foldl (· + ·) 0
  let i5 := walkIndex p.counts 5 j
  let x : Int := if p.op == 4 || p.op == 5 then p.index.getD i5 0 else i5
  p.origin + BitVec.ofInt 64 (low + x * p.strides.getD 5 0)

def Copy.memFormat (p : Copy) : Fmt := (Fmt.ofCode p.memFmt.toNat).getD .fp32

/-! Accesses of a command. With 2:4 expansion group g has three: its metadata byte and two values. -/

/-- Accesses per sample. -/
def Copy.perSampleAcc (p : Copy) : Nat := if p.sp24 then p.pack / 4 * 3 else p.pack
def Copy.total (p : Copy) : Nat := p.samples * p.perSampleAcc
def Copy.accAddr (p : Copy) (n : Nat) : Word :=
  if p.sp24 then (if n % 3 = 0 then p.metaAddr + BitVec.ofNat 64 (n / 3) else p.addr (n / 3 * 2 + n % 3 - 1))
  else p.addr n
def Copy.accSize (p : Copy) (n : Nat) : Nat := if p.sp24 && n % 3 == 0 then 1 else p.memFormat.size
/-- The walk element of an access: PROGRESS after n complete accesses. -/
def Copy.elemAt (p : Copy) (n : Nat) : Nat := if p.sp24 then n / 3 * 2 + (n % 3 - 1) else n
/-- The sample of an access. -/
def Copy.sampleAt (p : Copy) (n : Nat) : Int := p.first + (n / max 1 p.perSampleAcc : Nat)
def Copy.performed (p : Copy) : Bool := (p.stop || p.issued == p.total) && p.flying == 0
/-- Access n + c follows on the accesses n to n + c − 1 inside one 16-byte piece (R374). -/
def Copy.joins (p : Copy) (n c : Nat) : Bool :=
  let a := (p.accAddr n).toNat
  !p.sp24 && (p.accAddr (n + c)).toNat == a + c * p.memFormat.size && (a + c * p.memFormat.size) / 16 == a / 16

/-! Line memory side (R176, R177, R187, R220). -/

/-- Units that element e of a sample touches on a write from a memory format. -/
def copyUnits (g : Sig) (mem : Fmt) (e : Nat) : List Nat :=
  match g.fmt with
  | .ni8 => if mem == .ni8 then [e / 32]
      else ((List.range 8).map fun q => (q * 4 * g.width.toNat + e / 8) / 32).dedup
  | f => [e * f.size / 32]

/-- Write z bytes at byte b of a sample's slot. -/
def putBytes (k : Nat) (g : Sig) (slot b z v : Nat) (s : State) : State :=
  let p := s.unitOf k g slot (b / 32)
  s.setLine k p (setUnitBytes (s.line k p) (b % 32) z v)

/-- Write one bit of a plane. -/
def putPlaneBit (k : Nat) (g : Sig) (slot q e : Nat) (v : Nat) (s : State) : State :=
  let b := q * 4 * g.width.toNat + e / 8
  let old := unitBytes (s.line k (s.unitOf k g slot (b / 32))) (b % 32) 1
  let m := 2 ^ (e % 8)
  putBytes k g slot b 1 (if v = 1 then old ||| m else old - old / m % 2 * m) s

/-- Write element e of a sample from its memory pattern. -/
def putCopy (k : Nat) (g : Sig) (i : Int) (mem : Fmt) (e x : Nat) (s : State) : State :=
  let slot := g.slotOf i
  match g.fmt with
  | .ni8 =>
    if mem == .ni8 then putBytes k g slot e 1 x s
    else
      let v := signedOf 8 x
      let m := min v.natAbs 127
      (List.range 7).foldl (fun s q => putPlaneBit k g slot (q + 1) e (m / 2 ^ (6 - q) % 2) s)
        (putPlaneBit k g slot 0 e (bit (v < 0)) s)
  | f => putBytes k g slot (e * f.size) f.size (convert 0 mem f x).1 s

/-- Set the poison bits of units of a sample. -/
def poisonUnits (k : Nat) (n : BitVec 7) (g : Sig) (i : Int) (us : List Nat) (s : State) : State :=
  s.updCtx k fun c => us.foldl (fun c u => c.markPoison n (g.slotOf i) u true) c

/-- Bit b of a sample belongs to one of its first p elements; plane bytes count as elements (R177, R220). -/
def belowPack (g : Sig) (mem : Fmt) (p b : Nat) : Bool :=
  if g.fmt == .ni8 && mem != .ni8 then decide (b % (32 * g.width.toNat) < p) else decide (b / 8 < p * g.fmt.size)

/-- Elements of a sample beyond P are zero. -/
def zeroBeyond (k : Nat) (g : Sig) (i : Int) (mem : Fmt) (p : Nat) (s : State) : State :=
  (List.range g.width.toNat).foldl (fun s u =>
    let bits := (List.range 256).filter fun b => belowPack g mem p (256 * u + b)
    if bits.length = 256 then s
    else
      let q := s.unitOf k g (g.slotOf i) u
      s.setLine k q (s.line k q &&& BitVec.ofNat 256 (bits.map (2 ^ ·)).sum)) s

/-- What an outbound reader takes of unit u of sample i (R159, R226): zeros before index 0 and where never written,
and its poison. DESIGN CHOICE (log 130): whether a unit was ever written is kept for seat-written signals, and one of an
engine-fed signal is read as line memory has it. -/
def takeUnit (s : State) (k : Nat) (c : Ctx) (n : BitVec 7) (i : Int) (u : Nat) : UnitW × Bool :=
  let t : Tap := ⟨n, c.sg n, 0, 0, i⟩
  if i < 0 then (0, false)
  else (if t.g.feed == 0 && !c.written n t.slot u then 0 else s.line k (s.unitOf k t.g t.slot u), t.unitBad s k c u)

/-! Fill marks (R223). -/

/-- Sample i of signal n is complete. -/
def sampleDone (c : Ctx) (n : BitVec 7) (i : Int) : Bool :=
  (c.eng.landed.any fun l => l.1 == n.toNat && decide ((l.2.1 : Int) ≤ i) && decide (i < l.2.1 + l.2.2)) ||
  c.eng.copies.any fun e =>
    let p := e.2
    isLoadOp p.op && p.sig == n && (c.handle e.1).busy && (c.handle e.1).state != 4 &&
      decide (p.first ≤ i) && decide (i < p.first + p.samples) &&
      (List.range p.perSampleAcc).all fun a =>
        let m := (i - p.first).toNat * p.perSampleAcc + a
        decide (m < p.lead) || p.done.contains m

/-- FILL rises over complete samples; the fuel bounds the rise by the number of slots. -/
def raiseFill (n : BitVec 7) : Nat → Ctx → Ctx
  | 0, c => c
  | f + 1, c =>
    let i := (c.sg n).fillMark + 1
    if sampleDone c n i then raiseFill n f (c.setSg n ((c.sg n).setFill i)) else c

def Ctx.raise (c : Ctx) (n : BitVec 7) : Ctx :=
  let c1 := raiseFill n (c.sg n).slots c
  { c1 with eng.landed := c1.eng.landed.filter fun l =>
      l.1 != n.toNat || decide ((c1.sg n).fillMark < (l.2.1 : Int) + l.2.2 - 1) }

/-! The end of a command (R216, R221, R234). -/

def Ctx.updHandle (c : Ctx) (h : Nat) (f : Handle → Handle) : Ctx :=
  { c with eng.handles := c.eng.handles.set {} h (f (c.handle h)) }
def Ctx.copy (c : Ctx) (h : Nat) : Copy := c.eng.copies.get {} h
def Ctx.updCopy (c : Ctx) (h : Nat) (f : Copy → Copy) : Ctx :=
  { c with eng.copies := c.eng.copies.set {} h (f (c.copy h)) }
def Ctx.dropCopy (c : Ctx) (h : Nat) : Ctx := { c with eng.copies := c.eng.copies.set {} h {} }

/-- A budget below 2^47 plus an amount, capped (R106, R336). -/
def capAdd (b : BitVec 48) (n : Nat) : BitVec 48 := BitVec.ofInt 48 (min (b.toInt + n) (2 ^ 47 - 1))

/-- Budgets rise; what comes to a seat whose trap waits for its disposition is owed to it (R269). -/
def Ctx.gain (stuck : Bool) (i t : Nat) (c : Ctx) : Ctx :=
  if stuck then { c with bud.owedI := c.bud.owedI + i, bud.owedT := c.bud.owedT + t }
  else { c with bud.ibud := capAdd c.bud.ibud i, bud.tbud := capAdd c.bud.tbud t }

/-- The seat of a member has trapped, and its disposition is still to come (R261, R269). -/
def memberStuck (s : State) (st m : Nat) : Bool :=
  (memberSeat s st m).any fun k => (s.seat k).phase.stuck

/-- Samples of which nothing was issued. -/
def Copy.untouched (p : Copy) : Nat := p.samples - (p.issued + p.perSampleAcc - 1) / max 1 p.perSampleAcc

/-- A load has ended with n complete samples from its first on: FILL rises over them once every sample before is
complete (R223). -/
def Ctx.landSamples (p : Copy) (n : Nat) (c : Ctx) : Ctx :=
  if isLoadOp p.op && n != 0 then
    ({ c with eng.landed := c.eng.landed ++ [(p.sig.toNat, p.first.toNat, n)] } : Ctx).raise p.sig
  else c

/-- The final state is entered: cancelled (7, with the refund; by DESIGN CHOICE also a poisoned one, log 93), failed or
poisoned (6), complete (5). -/
def Ctx.finishCopy (stuck : Bool) (c : Ctx) (h : Nat) : Ctx :=
  let p := c.copy h
  let hd := c.handle h
  let c1 := c.dropCopy h
  if hd.state == 4 then
    (c1.updHandle h fun x => { x with state := 7 }).gain stuck 0 (p.untouched * p.perSample)
  else if p.stop then
    (c1.updHandle h fun x => { x with state := 6 }).landSamples p (p.lead / max 1 p.perSampleAcc)
  else
    (c1.updHandle h fun x => { x with progress := x.total, state := if x.poison || p.failed then 6 else 5 }).landSamples
      p p.samples

/-- A die of a scope has not yet applied a pulled write that the seat's releases cover (R388). -/
def pullOpen (s : State) (d : Nat) (c : Ctx) (scope : Nat) : Bool :=
  s.anns.any fun a => (scope > 2 || a.dst == d) && c.eng.cover.any fun x => x.1 == a.src && VClock.leS (a.stamp.get a.src) x.2

/-- What the seat has written is visible at a scope: the dies of the scope have applied every announcement of die d
(R371) and the pulled writes. -/
def visibleAt (s : State) (d : Nat) (c : Ctx) (scope : Nat) : Bool :=
  (scope ≤ 2 || !(s.anns.any fun a => a.src == d)) && !pullOpen s d c scope

/-- Return the loader or storer context of an ended command (R429). -/
def freeStackCtx (p : Copy) (s : State) : State :=
  match p.ctxStack with
  | some n => s.updStack n fun x =>
      if p.op == 0x0B then { x with loaders := x.loaders + 1 } else { x with storers := x.storers + 1 }
  | none => s

/-- Bytes that the spec leaves undefined: free values. -/
def freeData (s : State) (n : Nat) : List Byte := (List.range n).map fun i => Config.freeByte (s.freeCtr + i)

/-- The samples above FILL that a cancelled load has touched hold undefined bytes (R234). -/
def spoilLoad (st m h : Nat) (s : State) : State :=
  let c := s.memberCtx st m
  let p := c.copy h
  let g := c.sg p.sig
  match memberSeat s st m with
  | none => s
  | some k =>
    if (c.handle h).state != 4 || !isLoadOp p.op then s
    else
      ((List.range (p.samples - p.untouched)).filter fun j => decide (p.first + (j : Int) > g.fillMark)).foldl (fun s j =>
        (List.range g.width.toNat).foldl (fun s u =>
          let x := BitVec.ofNat 256 (leNat (freeData s 32))
          { s.setLine k (s.unitOf k g (g.slotOf (p.first + (j : Int))) u) x with freeCtr := s.freeCtr + 32 }) s) s

/-- End a command of a member whose accesses are done; a CSTR also waits for visibility. -/
def tryFinish (st m h : Nat) (s : State) : State :=
  let c := s.memberCtx st m
  let p := c.copy h
  if (c.handle h).busy && isCopyOp p.op && p.op != 6 && (p.performed || ((c.handle h).state == 4 && p.flying == 0)) &&
      !(p.op == 3 && !p.stop && (c.handle h).state != 4 && !visibleAt s (st / 16384) c p.scope) then
    freeStackCtx p ((spoilLoad st m h s).updMemberCtx st m fun c => c.finishCopy (memberStuck s st m) h)
  else s

/-- Withdraw the requests of a handle from walks and faults (R415). -/
def dropWaiters (st m : Nat) (h : BitVec 4) (s : State) : State :=
  let rest := fun (ws : List Waiter) => ws.filter fun w => w.who != .copy st m h
  let live := fun (rs : List WReq) =>
    (rs.map fun w => { w with waiters := rest w.waiters }).filter fun w => !w.waiters.isEmpty
  s.updDie (st / 16384) fun d => Die.fillWalks { d with
    walks := live d.walks
    walkLine := live d.walkLine
    faults := d.faults.map fun f => { f with waiters := rest f.waiters } }

/-- Where an address of a command goes now, without a walk on record. -/
def placeNow (core : Option Nat) (d pt : Nat) (far : Bool) (w : Want) (a : Word) (s : State) : Option Target :=
  let va := a.toNat % 2 ^ 48
  let dram := match (translate core d pt va agentCopy w s).1 with
    | .ok x _ _ => some (Target.dram (x.pa va))
    | .fault _ _ _ _ => none
  if far then
    match windowOf s pt a w.writes with
    | none => dram
    | some (.ok t) => some t
    | some (.error _) => none
  else dram

/-- For the comparison of overlapping accesses. -/
def placeOf (s : State) (k : Nat) (p : Copy) (a : Word) : Option Target :=
  placeNow (some (coreOf k)) (dieOf k) (s.partOf k) p.far .read a s

/-! The pieces of a store (R227, R234, R374). -/

/-- The elements of a walk that lie in the 16-byte piece of element n. -/
def Copy.pieceOf (p : Copy) (n : Nat) : List Nat :=
  (List.range p.total).filter fun j => (p.accAddr j).toNat / 16 == (p.accAddr n).toNat / 16

/-- The place at byte b of the 16-byte piece of a target. -/
def Target.inPiece (b : Nat) : Target → Target
  | .dram pa => .dram (pa / 16 * 16 + b)
  | .host bus => .host (bus / 16 * 16 + b)
  | .remote pkg win off => .remote pkg win (off / 16 * 16 + b)
def Copy.inPiece (p : Copy) (n : Nat) (t : Target) : Target := t.inPiece ((p.accAddr n).toNat % 16)

/-- Send an access to another package (R404, R480, R481, R495). -/
def sendRemote (d : Nat) (p : Copy) (pkg win off size : Nat) (data : List Byte) (bad : Bool) (tag : BitVec 32)
    (s : State) : State :=
  let target := BitVec.ofNat 64 (off % 2 ^ 48 + win * 2 ^ 48)
  if isStoreOp p.op then
    s.send d 3 2 p.tcls (BitVec.ofNat 18 pkg) 0 target tag (leBytes 8 (bit bad) ++ data)
  else s.send d 3 0 p.tcls (BitVec.ofNat 18 pkg) 0 target tag (leBytes 4 size ++ leBytes 4 0)

/-- An access of a command goes to its target. -/
def putAccess (p : Copy) (a : Access) (s : State) : State :=
  let d := dieOf a.seat
  let put := fun (a : Access) => { s with accs := s.accs ++ [a] }
  let port := { a with phase := if a.write && a.nt then .combined else .waiting }
  match a.target with
  | .remote pkg win off =>
    let (tag, s1) := s.newTag
    sendRemote d p pkg win off a.size a.data a.poison tag { s1 with accs := s1.accs ++ [{ a with phase := .sent tag }] }
  | .host _ => put port
  | .dram pa =>
    match if a.write || a.uncached then none else heldLine s d (pa / 64) .look with
    | some l => put { a with phase := .served, data := (l.bytes.drop (pa % 64)).take a.size, poison := l.bad }
    | none => put port

/-- The access of one kept element, to its place beside target t in its piece. -/
def sendKept (k : Nat) (h : BitVec 4) (p : Copy) (t : Target) (unc : Bool) (s : State) (e : Kept) : State :=
  putAccess p ⟨k, h, e.elem, 1, true, p.inPiece e.elem t, p.accSize e.elem, e.data, e.bad, p.nt, unc, p.tcls, .waiting, s.cycle⟩
    (s.updCtx k fun c =>
      let c1 := c.updCopy h.toNat fun q => { q with flying := q.flying + 1, kept := q.kept.filter fun x => x.elem != e.elem }
      if e.bad then c1.updHandle h.toNat fun x => { x with poison := true } else c1)

/-- A storer writes at a home after everything that is announced there, and the die of its seat has the write before any
later access of the class (R226, R372, R378, R388). DESIGN CHOICE (log 99). -/
def pullWrite (d pa : Nat) (bs : List Byte) (bad : Bool) (tc : BitVec 3) (s : State) : State :=
  (checkedWrite (homeDie pa) pa bs bad (s.sync (homeDie pa)) tc).sync d

/-- A kept element of a piece that has begun is written as the store is cancelled, where its page still translates: as
an access of the engine on its seat; that of a storer, or of a member that is away, at once. -/
def closeElem (st m h : Nat) (p : Copy) (s : State) (e : Kept) : State :=
  let d := st / 16384
  let k := memberSeat s st m
  match placeNow (k.map coreOf) d (s.task (s.step1 st).task).part p.far .write (p.accAddr e.elem) s with
  | none => s
  | some t =>
    match k.filter fun _ => p.op != 0x0C, t with
    | some k, _ => sendKept k (BitVec.ofNat 4 h) p t false s e
    | none, .dram pa => if p.op == 0x0C then pullWrite d pa e.data e.bad p.tcls s else checkedWrite d pa e.data e.bad s p.tcls
    | none, .host bus => hostStore bus e.data s
    | none, .remote pkg win off =>
      let (tag, s1) := s.newTag
      sendRemote d p pkg win off e.data.length e.data e.bad tag s1

/-- A cancelled store leaves each 16-byte piece old or new: of a piece that has begun what is kept follows, and what is
kept of one that has not is dropped (R234). DESIGN CHOICE (log 122). -/
def closePieces (st m h : Nat) (s : State) : State :=
  let p := (s.memberCtx st m).copy h
  if p.kept.isEmpty then s
  else (p.kept.filter fun e => decide (p.issued ≤ e.elem)).foldl (closeElem st m h p)
    (s.updMemberCtx st m fun c => c.updCopy h fun q => { q with kept := [] })

/-- CCANCEL and CUNSUB on a copy command, with the later loads on its signal (R234). -/
def cancelOne (st m : Nat) (h : Nat) (s : State) : State :=
  tryFinish st m h (dropWaiters st m (BitVec.ofNat 4 h) (closePieces st m h
    (s.updMemberCtx st m fun c =>
      (c.updHandle h fun x => { x with state := 4 }).updCopy h fun p => { p with stop := true, suspended := false })))

def cancelCopy (st m h : Nat) (s : State) : State :=
  let c := s.memberCtx st m
  let p := c.copy h
  let later := if isLoadOp p.op then c.eng.copies.filter fun e =>
      e.1 != h && isLoadOp e.2.op && e.2.sig == p.sig && decide (p.seq < e.2.seq) && (c.handle e.1).busy
    else []
  (h :: later.map (·.1)).foldl (fun s h => cancelOne st m h s) s

/-- A translation fault suspends a command at its next element; the state follows once nothing is in
flight (R412). -/
def suspendCopy (st m : Nat) (h : BitVec 4) (s : State) : State :=
  s.updMemberCtx st m fun c =>
    let c1 := c.updCopy h.toNat fun p => { p with suspended := true }
    if (c.copy h.toNat).flying = 0 && (c.handle h.toNat).state == 1 then
      c1.updHandle h.toNat fun x => { x with state := 2 }
    else c1

/-- The engine of a seat issues (R54, R261, R274). -/
def engineOn : Phase → Bool
  | .running => true
  | .trapping => true
  | .trapped => true
  | .trapHeld => true
  | .draining => true
  | .idle => false
  | .saving => false
  | .restoring => false
  | .shareHeld => false

/-- The fault ends with retry: the walk goes on (R231). The handle of a seat that is away, or on its way, continues
at its resume (R415): one whose last accesses are still in flight then suspends with its context (R275). -/
def resumeCopy (st m : Nat) (h : BitVec 4) (s : State) : State :=
  let on := (memberSeat s st m).any fun k => engineOn (s.seat k).phase
  s.updMemberCtx st m fun c =>
    let c1 := c.updCopy h.toNat fun p => { p with suspended := false }
    if on then c1.updHandle h.toNat fun x => { x with state := if x.state == 2 then 1 else x.state }
    else if (c.copy h.toNat).suspended then c1.updHandle h.toNat fun x => { x with state := if x.state == 1 then 3 else x.state }
    else c1

/-- The fault fails: the handle ends failed and the seat takes 0x0B asynchronously (R231, R412). -/
def failCopy (st m : Nat) (h : BitVec 4) (va : Word) (s : State) : State :=
  tryFinish st m h.toNat (s.updMemberCtx st m fun c =>
    { c.updCopy h.toNat fun p => { p with stop := true, suspended := false } with
      causes := c.causes ++ [⟨0x0B, va, handleDetail h⟩] })

/-! Order (R227 to R229, R372, R380 to R390). -/

/-- An incomplete command of the seat accepted before seq satisfies q. -/
def earlier (c : Ctx) (seq : Nat) (q : Copy → Bool) : Bool :=
  c.eng.copies.any fun e => decide (e.2.seq < seq) && (c.handle e.1).busy && isCopyOp e.2.op && e.2.op != 6 && q e.2

def inMask (mask : BitVec 8) (p : Copy) : Bool := mask.getLsbD p.acls.toNat

/-- Earlier reads of the mask are still to be performed. -/
def readsOpen (c : Ctx) (seq : Nat) (mask : BitVec 8) : Bool :=
  earlier c seq fun q => inMask mask q && isLoadOp q.op && !q.performed

/-- Earlier accesses of the mask are not yet visible at a scope; pulls and subscriptions are not covered
(R388, R389). -/
def releaseOpen (s : State) (d : Nat) (c : Ctx) (seq scope : Nat) (mask : BitVec 8) : Bool :=
  (earlier c seq fun q => inMask mask q && q.op != 0x0B && q.op != 0x0C && !q.performed) || !visibleAt s d c scope

/-- Near-memory commands of a member accepted before seq are open, or not yet visible (R390). -/
def nearOpen (s : State) (d st m seq scope : Nat) : Bool :=
  (s.near.any fun x => x.step == st && x.member == m && decide (x.seq < seq)) ||
    (if scope ≤ 2 then s.anns.any fun a => a.dst == d else !s.anns.isEmpty)

/-- A fence still holds commands back, by its kind. -/
def FenceRec.holdsAll (f : FenceRec) (s : State) (d st m : Nat) (c : Ctx) : Bool :=
  f.kind != .release &&
    (if f.nm then nearOpen s d st m f.seq f.scope else readsOpen c f.seq f.mask)
def FenceRec.holdsWrites (f : FenceRec) (s : State) (d : Nat) (c : Ctx) : Bool :=
  f.kind != .acquire && releaseOpen s d c f.seq f.scope f.mask

/-- Fences that order nothing more are forgotten. -/
def pruneFences (st m : Nat) (s : State) : State :=
  let d := st / 16384
  let c := s.memberCtx st m
  if c.eng.fences.isEmpty then s
  else
    let live := fun (f : FenceRec) => f.holdsAll s d st m c || f.holdsWrites s d c
    s.updMemberCtx st m fun x => { x with eng.fences := x.eng.fences.filter live }

/-- A release accepted before seq is still open: a fence of kind release or full, a CSTR, or that of a LAUNCH, whose
entry may wait for room after it (R342, R363, R382). -/
def releasesOpen (s : State) (st m seq : Nat) : Bool :=
  let c := s.memberCtx st m
  (c.eng.fences.any fun f => decide (f.seq < seq) && f.holdsWrites s (st / 16384) c) ||
  (earlier c seq fun q => q.op == 3) ||
  ((s.die (st / 16384)).launches.any fun l => l.step == st && l.member == m && decide (l.seq < seq) &&
    releaseOpen s (st / 16384) c l.seq 3 0xFF)

def rangesMeet (a n b m : Nat) : Bool := decide (a < b + m) && decide (b < a + n)

def targetsMeet (n m : Nat) : Target → Target → Bool
  | .dram a, .dram b => rangesMeet a n b m
  | .host a, .host b => rangesMeet a n b m
  | .remote p w a, .remote q v b => p == q && w == v && rangesMeet a n b m
  | _, _ => false

/-- Access x of p overlaps access y of q. -/
def accMeet (s : State) (k : Nat) (p q : Copy) (x y : Nat) : Bool :=
  let a := p.accAddr x
  let b := q.accAddr y
  (a.toNat == b.toNat && p.far == q.far) ||
  ((a.toNat % 4096 < b.toNat % 4096 + q.accSize y && b.toNat % 4096 < a.toNat % 4096 + p.accSize x) &&
    match placeOf s k p a, placeOf s k q b with
    | some t, some u => targetsMeet (p.accSize x) (q.accSize y) t u
    | _, _ => false)

/-- The sample of an access has its slot, or can be read (R158, R159, R223, R226). -/
def sampleReady (s : State) (k : Nat) (p : Copy) (n : Nat) : Bool :=
  let c := s.ctx k
  let g := c.sg p.sig
  let i := p.sampleAt n
  if isLoadOp p.op then p.isTable || decide (i ≤ (g.head.toNat : Int) + g.ahead.toNat)
  else decide (i < 0) || (decide (i ≤ g.fillMark) &&
    !(c.ready.any fun r => !r.use && r.res == .sample p.sig.toNat i && decide (s.clk k < r.final)))

/-- The unissued accesses of an earlier command hold no later one of its class that does not overlap them (R227): they
wait for a ring slot, under a suspension, or for a loader or storer context. -/
def letsPass (s : State) (k : Nat) (q : Copy) : Bool :=
  q.stop || q.issued == q.total || q.suspended || (isLoadOp q.op && !sampleReady s k q q.issued) ||
    ((q.op == 0x0B || q.op == 0x0C) && q.ctxStack.isNone)

/-- The order of one alias class (R227): nothing of an earlier command is in flight, nothing of it that could be issued
is unissued, and no other unissued access overlaps; a CSUB waits for all of them (R389). -/
def classOpen (s : State) (k : Nat) (c : Ctx) (p : Copy) (n : Nat) : Bool :=
  earlier c p.seq fun q => q.acls == p.acls &&
    (q.flying != 0 || (p.op == 0x0B && !q.performed) || !letsPass s k q ||
      (!q.stop && ((q.kept.any fun e => accMeet s k p q n e.elem) ||
        (List.range (q.total - q.issued)).any fun j => accMeet s k p q n (q.issued + j))))

/-- A cancelled load on the signal of p still writes what it has issued (R234): a later load of those samples waits. -/
def loadBehind (c : Ctx) (p : Copy) : Bool :=
  isLoadOp p.op && c.eng.copies.any fun e =>
    isLoadOp e.2.op && e.2.sig == p.sig && decide (e.2.seq < p.seq) && (c.handle e.1).state == 4

/-- Access n of p may be made now. -/
def mayAccess (s : State) (k : Nat) (p : Copy) (n : Nat) : Bool :=
  let c := s.ctx k
  let d := dieOf k
  let st := s.stepKey k
  let m := s.memberNo k
  !classOpen s k c p n && !loadBehind c p &&
  !(earlier c p.seq fun q => q.op == 2 && !q.performed) &&
  !(p.op == 3 && releaseOpen s d c p.seq p.scope 0xFF) &&
  !(c.eng.fences.any fun f => decide (f.seq < p.seq) && inMask f.mask p &&
      (f.holdsAll s d st m c || (!f.nm && isStoreOp p.op && f.holdsWrites s d c)))

/-! Acceptance (R215, R223, R226, R230, R238). -/

/-- The operands that the copy instructions share. -/
structure CopyForm where
  op : BitVec 8
  sig : BitVec 7
  ra : BitVec 6
  nest : BitVec 4
  inc : Option (BitVec 16)
  acls : BitVec 3
  tcls : BitVec 3
  h : BitVec 4
  sp24 : Bool := false
  nt : Bool := false
  far : Bool := false
  scope : Nat := 0
  /-- index signal and lag of a gather or scatter -/
  idx : Option (BitVec 7 × BitVec 8) := none

/-- The first sample from i on that no ended load has landed; the fuel bounds the ranges. -/
def pastLanded (n : Nat) (ls : List (Nat × Nat × Nat)) : Nat → Int → Int
  | 0, i => i
  | f + 1, i =>
    match ls.find? fun l => l.1 == n && decide ((l.2.1 : Int) ≤ i) && decide (i < l.2.1 + l.2.2) with
    | some l => pastLanded n ls f (l.2.1 + l.2.2)
    | none => i

/-- The next sample range of a load begins past FILL and past every incomplete load of the signal, in issue order (R223);
a load that is being cancelled counts no more (R234). DESIGN CHOICE (log 54): samples that have landed there count as well. -/
def firstLoad (c : Ctx) (n : BitVec 7) : Int :=
  let ends := (c.eng.copies.filter fun e =>
    isLoadOp e.2.op && e.2.sig == n && (c.handle e.1).busy && (c.handle e.1).state != 4).map fun e =>
      e.2.first + (e.2.samples : Int)
  pastLanded n.toNat c.eng.landed c.eng.landed.length (ends.foldl max ((c.sg n).fillMark + 1))

/-- A landed range without the samples a to b − 1 of signal n. -/
def clipLanded (n : Nat) (a b : Int) (l : Nat × Nat × Nat) : List (Nat × Nat × Nat) :=
  let e : Int := l.2.1 + l.2.2
  if l.1 != n then [l]
  else
    (if (l.2.1 : Int) < a then [(n, l.2.1, (min e a - l.2.1).toNat)] else []) ++
    (if b < e then [(n, (max (l.2.1 : Int) b).toNat, (e - max (l.2.1 : Int) b).toNat)] else [])

/-- An accepted load writes its samples anew: those that had landed there are complete no more. -/
def Ctx.clipFor (p : Copy) (c : Ctx) : Ctx :=
  if isLoadOp p.op then
    { c with eng.landed := c.eng.landed.flatMap (clipLanded p.sig.toNat p.first (p.first + p.samples)) }
  else c

/-- The elements of the index vector that a gather or scatter reads. -/
def indexVec (s : State) (k : Nat) (c : Ctx) (t : Tap) (n : Nat) : List Int :=
  (t.span n).map fun e => signedOf 32 (tapLane s k c t none .int32 e).1

/-- The command that an instruction describes. -/
def CopyForm.plan (f : CopyForm) (s : State) (k : Nat) : Copy :=
  let c := s.ctx k
  let g := c.sg f.sig
  let d := c.eng.nests.get {} f.nest.toNat
  let cs := d.counts
  let p := if d.pack = 0 then g.elems else d.pack.toNat
  let e := cs.prod
  let z := ((Fmt.ofCode d.format.toNat).getD .fp32).size
  let sam := if f.sp24 then e / max 1 (p / 2) else e / max 1 p
  let bytes := if f.sp24 then p / 2 * z + p / 4 else p * z
  { seq := c.eng.nextSeq, op := f.op, sig := f.sig, acls := f.acls, tcls := f.tcls, nt := f.nt, far := f.far,
    sp24 := f.sp24, scope := f.scope, counts := cs, strides := d.strides, memFmt := d.format, pack := p,
    origin := c.s f.ra, metaAddr := c.s (f.ra + 1),
    index := match f.idx with
      | some (n, lag) => indexVec s k c (resolve c n lag.toNat) (cs.getD 5 1)
      | none => []
    first := if isLoadOp f.op then firstLoad c f.sig
      else if g.isTable then 0
      else if f.op == 0x0C then g.head.toNat
      else (g.head.toNat : Int) - sam + 1
    samples := sam, elems := e, perSample := (bytes + 63) / 64, isTable := g.isTable }

/-- The pair of memory and signal formats is provided (R187, R220). -/
def pairOk (load : Bool) (mem : Fmt) (g : Sig) (p : Nat) : Bool :=
  match mem, g.fmt with
  | .ni8, .ni8 => p == 4 * g.width.toNat * g.planes.toNat
  | .int8, .ni8 => load
  | .ni8, _ => false
  | _, .ni8 => false
  | _, _ => true

/-- Check 4 of R238 for a walk. DESIGN CHOICE (log 129): a gather or scatter of one index takes any STRIDE(5), and its
elements then lie where the sum of R219 puts them, aligned or not. -/
def CopyForm.shapeOk (f : CopyForm) (g : Sig) (p : Copy) : Bool :=
  let z := p.memFormat.size
  let per := if f.sp24 then p.pack / 2 else p.pack
  pairOk (isLoadOp f.op) p.memFormat g p.pack && decide (p.elems < 2 ^ 32) && per != 0 && p.elems % per == 0 &&
  decide (p.pack ≤ g.elems) &&
  (match f.inc with
   | some i => p.samples == i.toNat
   | none => true) &&
  p.origin.toNat % z == 0 &&
  ((List.range 6).all fun l => p.counts.getD l 1 ≤ 1 || p.strides.getD l 0 % (z : Int) == 0) &&
  (!f.sp24 || (p.pack % 4 == 0 && f.ra != 63))

/-- The traps of R238. -/
def CopyForm.trap (f : CopyForm) (s : State) (k : Nat) : Option Cause :=
  let c := s.ctx k
  let g := c.sg f.sig
  let p := f.plan s k
  let it := f.idx.map fun x => resolve c x.1 x.2.toNat
  let absent := (if g.present then none else some (sigCause 0x08 f.sig none)).or
    (it.bind fun t => if t.g.present then none else some (sigCause 0x08 t.n none))
  let feed := if isLoadOp f.op && g.feed != 1 then some (sigCause 0x07 f.sig none) else none
  let taps := it.bind fun t => tapTrap s k c t none (t.span (p.counts.getD 5 1))
  let shape := if f.shapeOk g p && (it.all fun t => t.g.fmt == .int32) then none else some (cause 0x01)
  let range :=
    if isLoadOp f.op then
      if g.isTable && decide (p.first + p.samples - 1 > (g.depth.toNat : Int) - 1) then
        some (sigCause 0x04 f.sig (some g.depth.toNat)) else none
    else if p.samples > g.depth.toNat then
      some (sigCause 0x04 f.sig (if g.isTable then some g.depth.toNat else none)) else none
  let high := if !f.far && p.origin.toNat ≥ 2 ^ 48 then some ⟨0x0B, p.origin, handleDetail f.h⟩ else none
  absent.or (feed.or (taps.or (shape.or (range.or high))))

/-- A handle that is active, suspended or cancelling holds a bundle that takes it (R215). -/
def handleHold (c : Ctx) (h : BitVec 4) : Bool := [1, 2, 4].contains (c.handle h.toNat).state.toNat

/-- Take a handle for a command. -/
def takeHandle (h : BitVec 4) (x : Handle) (c : Ctx) : Ctx :=
  { c with eng.handles := c.eng.handles.set {} h.toNat x, eng.nextSeq := c.eng.nextSeq + 1, eng.taken := c.eng.taken + 1 }

/-- The context once the command is accepted. -/
def CopyForm.accepted (f : CopyForm) (p : Copy) (c : Ctx) : Ctx :=
  let hd : Handle :=
    { total := BitVec.ofNat 32 p.elems, first := BitVec.ofInt 44 p.first, signal := f.sig, opcode := f.op, state := 1 }
  let p1 := { p with seq := c.eng.nextSeq }
  let cs := c.eng.copies.set {} f.h.toNat p1
  takeHandle f.h hd (({ c with eng.copies := cs } : Ctx).clipFor p1)

def CopyForm.slot (f : CopyForm) (g : Guard) (k : Nat) (s : State) : SlotOut :=
  let c := s.ctx k
  let p := f.plan s k
  let it := f.idx.map fun x => resolve c x.1 x.2.toNat
  let es := fun (t : Tap) => t.span (p.counts.getD 5 1)
  guarded g c
    { uses := sUse f.ra ++ (if f.sp24 then sUse (f.ra + 1) else []) ++
        (match it with
         | some t => tapSamples c t
         | none => [])
      hold := if it.any fun t => t.g.present && tapHold s k c t then .unfilled
        else if handleHold c f.h then .outside else .free
      listed := handleHold c f.h
      other := handleHold c f.h
      trap := f.trap s k
      accept := fun s => s.updCtx k (f.accepted p)
      traffic := p.samples * p.perSample
      units := match it with
        | some t => tapUnits s k t none (es t)
        | none => [] }

def xcForm (op : Nat) (o : XcOps) : CopyForm :=
  { op := BitVec.ofNat 8 op, sig := o.sig, ra := o.ra, nest := o.nest, inc := some o.inc, acls := o.acls,
    tcls := o.tcls, h := o.h, sp24 := o.flags.getLsbD 0, nt := o.flags.getLsbD 1, far := o.flags.getLsbD 2 }
/-- CLDA and CSTR keep their scope in flags 3:1 (R228). -/
def xcScoped (op : Nat) (o : XcOps) : CopyForm :=
  { op := BitVec.ofNat 8 op, sig := o.sig, ra := o.ra, nest := o.nest, inc := some o.inc, acls := o.acls,
    tcls := o.tcls, h := o.h, scope := o.flags.toNat / 2 }
def xgForm (op : Nat) (o : XgOps) : CopyForm :=
  { op := BitVec.ofNat 8 op, sig := o.sig, ra := o.ra, nest := o.nest, inc := none, acls := o.acls,
    tcls := o.tcls, h := o.h, nt := o.flags.getLsbD 1, far := o.flags.getLsbD 2, idx := some (o.idx, o.lag) }

def slotCld (g : Guard) (o : XcOps) : Nat → State → SlotOut := (xcForm 0 o).slot g
def slotCst (g : Guard) (o : XcOps) : Nat → State → SlotOut := (xcForm 1 o).slot g
def slotClda (g : Guard) (o : XcOps) : Nat → State → SlotOut := (xcScoped 2 o).slot g
def slotCstr (g : Guard) (o : XcOps) : Nat → State → SlotOut := (xcScoped 3 o).slot g
def slotCgath (g : Guard) (o : XgOps) : Nat → State → SlotOut := (xgForm 4 o).slot g
def slotCscat (g : Guard) (o : XgOps) : Nat → State → SlotOut := (xgForm 5 o).slot g
def slotCsub (g : Guard) (o : XcOps) : Nat → State → SlotOut := (xcForm 0x0B o).slot g
def slotCpull (g : Guard) (o : XcOps) : Nat → State → SlotOut := (xcForm 0x0C o).slot g

/-! SCACC (R235, R236). -/

/-- The pairs of an SCACC: index and value of each element of the index sample. -/
def scaccPairs (s : State) (k : Nat) (c : Ctx) (tbl : Sig) (ix vx : Tap) : List (Int × Nat) :=
  let ty := if tbl.fmt == .int32 then Fmt.int32 else .fp32
  (List.range ix.g.elems).map fun j =>
    (signedOf 32 (tapLane s k c ix none .int32 (ix.off.toNat + j)).1,
      (tapLane s k c vx none ty (vx.off.toNat + j)).1)

def scaccAccepted (o : XsOps) (pairs : List (Int × Nat)) (c : Ctx) : Ctx :=
  let hd : Handle := { total := BitVec.ofNat 32 pairs.length, signal := o.tbl, opcode := 6, state := 1 }
  let p : Copy :=
    { seq := c.eng.nextSeq, op := 6, sig := o.tbl, isTable := true, pairs := pairs, window := 2 ^ o.w.toNat, redOp := o.op }
  let cs := c.eng.copies.set {} o.h.toNat p
  takeHandle o.h hd { c with eng.copies := cs }

def slotScacc (g : Guard) (o : XsOps) (k : Nat) (s : State) : SlotOut :=
  let c := s.ctx k
  let tb := c.sg o.tbl
  let ix := resolve c o.idx 0
  let vx := resolve c o.val 0
  let n := ix.g.elems
  let absent := [o.tbl, o.idx, o.val].findSome? fun x =>
    if (c.sg x).present then none else some (sigCause 0x08 x none)
  let feed := if tb.feed != 1 then some (sigCause 0x07 o.tbl none) else none
  let fmts := if tb.isTable && [Fmt.fp32, .fp16, .bf16, .int32].contains tb.fmt && ix.g.fmt == .int32 then none
    else some (cause 0x01)
  guarded g c
    { uses := tapSamples c ix ++ tapSamples c vx
      hold := if (ix.g.present && tapHold s k c ix) || (vx.g.present && tapHold s k c vx) then .unfilled
        else if handleHold c o.h then .outside else .free
      listed := handleHold c o.h
      other := handleHold c o.h
      trap := absent.or (feed.or ((tapTrap s k c ix none (ix.span n)).or ((tapTrap s k c vx none (vx.span n)).or fmts)))
      accept := fun s1 => s1.updCtx k (scaccAccepted o (scaccPairs s k c tb ix vx))
      units := tapUnits s k ix none (ix.span n) ++ tapUnits s k vx none (vx.span n) }

/-! CCANCEL, CUNSUB, CWAIT, DSET, FENCE (R218, R229, R233, R234). -/

/-- Cancel what a handle holds: a copy, an SCACC, or a near-memory command (R437). -/
def cancelHandle (st m : Nat) (h : Nat) (s : State) : State :=
  let hd := (s.memberCtx st m).handle h
  if !hd.busy || hd.state == 4 then s
  else if hd.opcode == 0x10 || hd.opcode == 0x12 then
    let stop := fun (x : NmCmd) =>
      if x.step == st && x.member == m && x.h.toNat == h then { x with cancelled := true, suspended := false } else x
    dropWaiters st m (BitVec.ofNat 4 h)
      { s.updMemberCtx st m fun c => c.updHandle h fun x => { x with state := 4 } with near := s.near.map stop }
  else if hd.opcode == 6 then
    s.updMemberCtx st m fun c => (c.dropCopy h).updHandle h fun x => { x with state := 7 }
  else if isCopyOp hd.opcode then cancelCopy st m h s
  else s

/-- CCANCEL and CUNSUB act alike: on a subscription or pull as CUNSUB, on any other as CCANCEL (R234). -/
def cancelSlot (g : Guard) (h : BitVec 4) (k : Nat) (s : State) : SlotOut :=
  guarded g (s.ctx k) { accept := fun s => cancelHandle (s.stepKey k) (s.memberNo k) h.toNat s }

def slotCcancel := cancelSlot
def slotCunsub := cancelSlot

def slotCwait (g : Guard) (h : BitVec 4) (k : Nat) (s : State) : SlotOut :=
  let c := s.ctx k
  guarded g c
    { hold := if handleHold c h then .outside else .free
      listed := true
      trap := if (c.handle h.toNat).state == 6 then some ⟨0x0C, 0, handleDetail h⟩ else none
      accept := fun s => if (c.handle h.toNat).opcode == 0x0C then
        s.updCtx k fun c => { c with eng.cover := [0, 1, 2, 3].map fun e => (e, (s.die e).vc.get e) } else s }

/-- DSET's limits (R218). -/
def dsetOk (field : Nat) (x : Word) : Bool :=
  if field = 12 then x.toNat ≤ 6
  else if field = 13 || field % 2 = 0 then x.toNat < 2 ^ 16
  else decide (-2 ^ 47 ≤ x.toInt) && decide (x.toInt < 2 ^ 47)

def Nest.setField (n : Nest) (field : Nat) (x : Word) : Nest :=
  if field = 12 then { n with format := x.setWidth 4 }
  else if field = 13 then { n with pack := x.setWidth 16 }
  else if field % 2 = 0 then { n with count := n.count.set 0 (field / 2) (x.setWidth 16) }
  else { n with stride := n.stride.set 0 (field / 2) (x.setWidth 48) }

def slotDset (g : Guard) (d field : BitVec 4) (ra : BitVec 6) (k : Nat) (s : State) : SlotOut :=
  let c := s.ctx k
  let x := c.s ra
  guarded g c
    { uses := sUse ra
      trap := if dsetOk field.toNat x then none else some (cause 0x01)
      write := fun s => s.updCtx k fun c =>
        { c with eng.nests := c.eng.nests.set {} d.toNat ((c.eng.nests.get {} d.toNat).setField field.toNat x) } }

/-- The scope's number (R2). -/
def fenceScope : Scope → Nat
  | .core => 0 | .quad => 1 | .die => 2 | .pkg => 3 | .pod => 4 | .sys => 5

def fenceSlot (nm : Bool) (g : Guard) (sc : Scope) (kind : FenceKind) (mask : BitVec 8) (k : Nat) (s : State) :
    SlotOut :=
  guarded g (s.ctx k)
    { accept := fun s => s.updCtx k fun c => { c with
        eng.fences := c.eng.fences ++ [⟨c.eng.nextSeq, fenceScope sc, kind, mask, nm⟩]
        eng.nextSeq := c.eng.nextSeq + 1 } }

def slotFence := fenceSlot false
def slotNmfence := fenceSlot true

end Sys2Proof.Machine
end

