-- ==== Sys2Proof/Machine/Engine.lean ====
section
/-!
DEFINITION. The steps of the copy engine, the scatter-accumulate engine, loaders and storers, write
combiners, announcements, walkers and faults (R223 to R237, R376, R377, R386, R406, R411, R412, R429).
-/
namespace Sys2Proof.Machine
open Sys2Proof

/-! Translation for copy commands (R224, R406, R407, R412). -/

def copyAgent (p : Copy) : Nat := if p.op == 0x0B || p.op == 0x0C then agentStack else agentCopy
def copyWant (p : Copy) : Want := if isStoreOp p.op then .write else .read

/-- Where an address of a command goes, none while it waits. DESIGN CHOICE (log 116): an element or metadata address with
bits 63:48 that the origin has not, without .far, meets a fault of kind 5 and ends the handle failed. -/
def copyXlate (k : Nat) (h : BitVec 4) (p : Copy) (a : Word) (s : State) : Option (Target × Bool) × State :=
  let d := dieOf k
  let pt := s.partOf k
  let st := s.stepKey k
  let m := s.memberNo k
  let w := copyWant p
  let me : Waiter := ⟨.copy st m h, a, w.code⟩
  let win := if p.far then windowOf s pt a w.writes
    else if a.toNat ≥ 2 ^ 48 then some (.error 5) else none
  match win with
  | some (.ok t) => (some (t, true), s)
  | some (.error kind) =>
    if unresolvable s pt kind then (none, failCopy st m h a s)
    else (none, suspendCopy st m h (recordFault d pt a kind w.code (copyAgent p) 0 0 false p.tcls [me] s))
  | none =>
    let va := a.toNat % 2 ^ 48
    let v := BitVec.ofNat 64 va
    match cached s (some (coreOf k)) d pt va (copyAgent p) w with
    | some x => (some (.dram (x.pa va), x.mtype != 0), s)
    | none =>
      match openFault s d pt v with
      | some _ => (none, suspendCopy st m h (recordFault d pt v 1 w.code (copyAgent p) 0 0 false p.tcls [me] s))
      | none => (none, enqueueWalk d ⟨pt, v, w.writes, w.code, copyAgent p, p.tcls, [me], s.cycle⟩ s)

/-! Issue (R224 to R227, R276). -/

/-- A unit of a sample as an outbound reader takes it: once, for all of its elements (R159, R160, R226). -/
def takeWord (k : Nat) (h : BitVec 4) (i : Int) (u : Nat) (s : State) : Snap × State :=
  let p := (s.ctx k).copy h.toNat
  let g := (s.ctx k).sg p.sig
  match p.snaps.find? fun y => y.sample == i && y.unit == u with
  | some y => (y, s)
  | none =>
    let r := takeUnit s k (s.ctx k) p.sig i u
    let y : Snap := ⟨i, u, r.1, r.2⟩
    let s1 := if i < 0 then s else s.useUnit k (s.unitOf k g (g.slotOf i) u)
    (y, s1.updCtx k fun c => c.updCopy h.toNat fun q => { q with
      snaps := (q.snaps.filter fun z => decide (q.sampleAt q.issued ≤ z.sample)) ++ [y] })

/-- A store takes the data of access n with its poison: what it has kept, else from the sample. -/
def takeElem (k : Nat) (h : BitVec 4) (n : Nat) (s : State) : List Byte × Bool × State :=
  let p := (s.ctx k).copy h.toNat
  match p.kept.find? fun e => e.elem == n with
  | some e => (e.data, e.bad, s.updCtx k fun c => c.updCopy h.toNat fun q => { q with kept := q.kept.filter fun x => x.elem != n })
  | none =>
    let g := (s.ctx k).sg p.sig
    let b := n % max 1 p.perSampleAcc * g.fmt.size
    let (x, s1) := takeWord k h (p.sampleAt n) (b / 32) s
    (leBytes p.memFormat.size (convert 0 g.fmt p.memFormat (unitBytes x.word (b % 32) g.fmt.size)).1, x.bad, s1)

/-- The data of c accesses from n on. -/
def takeElems (k : Nat) (h : BitVec 4) : Nat → Nat → State → List Byte × Bool × State
  | 0, _, s => ([], false, s)
  | c + 1, n, s =>
    let (bs, bad, s1) := takeElem k h n s
    let (r, b2, s2) := takeElems k h c (n + 1) s1
    (bs ++ r, bad || b2, s2)

/-- A store takes the data of element n ahead of its access. -/
def keepElem (k : Nat) (h : BitVec 4) (s : State) (n : Nat) : State :=
  let (bs, bad, s1) := takeElem k h n s
  s1.updCtx k fun c => c.updCopy h.toNat fun q => { q with kept := q.kept ++ [⟨n, bs, bad⟩] }

/-- A piece begins with c accesses from n on: the store takes the elements of it that follow later in the walk. -/
def keepRest (k : Nat) (h : BitVec 4) (p : Copy) (n c : Nat) (s : State) : State :=
  ((p.pieceOf n).filter fun j => decide (n + c ≤ j) && !(p.kept.any fun e => e.elem == j)).foldl (keepElem k h) s

/-- What is kept of the elements of the piece of n that come before it in the walk. -/
def Copy.keptBefore (p : Copy) (n : Nat) : List Kept :=
  p.kept.filter fun e => decide (e.elem < n) && (p.pieceOf n).contains e.elem

/-- Element n waits with its data for the rest of its piece. -/
def holdElem (k : Nat) (h : BitVec 4) (n : Nat) (s : State) : State :=
  (keepElem k h s n).updCtx k fun c => c.updCopy h.toNat fun q => { q with issued := n + 1 }

/-- Issue the c accesses from n on, one run of a piece, to their target; a store then issues what waits before them in
the piece, and takes what follows. -/
def sendAccess (k : Nat) (h : BitVec 4) (p : Copy) (n c : Nat) (t : Target) (unc : Bool) (s : State) : State :=
  let wr := isStoreOp p.op
  let z := c * p.accSize n
  let (data, bad, s0) := if wr then takeElems k h c n s else ([], false, s)
  let s1 := putAccess p ⟨k, h, n, c, wr, t, z, data, bad, p.nt, unc, p.tcls, .waiting, s.cycle⟩ (s0.updCtx k fun x =>
    let c1 := x.updCopy h.toNat fun q => { q with issued := n + c, flying := q.flying + c }
    if bad then c1.updHandle h.toNat fun x => { x with poison := true } else c1)
  if wr then keepRest k h p n c ((p.keptBefore n).foldl (sendKept k h p t unc) s1) else s1

/-- The accesses from n on that go as one, of which c are known to. -/
def runLength (s : State) (k : Nat) (p : Copy) (n : Nat) : Nat → Nat → Nat
  | 0, c => c
  | f + 1, c =>
    if n + c < p.total && p.joins n c && sampleReady s k p (n + c) && mayAccess s k p (n + c) then
      runLength s k p n f (c + 1) else c

/-- The accesses from n on that lie side by side in a 16-byte piece, of which c are known to. -/
def pieceLength (p : Copy) (n : Nat) : Nat → Nat → Nat
  | 0, c => c
  | f + 1, c => if n + c < p.total && p.joins n c then pieceLength p n f (c + 1) else c

/-- Every element of the piece of n can be read. -/
def pieceReady (s : State) (k : Nat) (p : Copy) (n : Nat) : Bool :=
  (p.pieceOf n).all fun j => decide (j < p.issued) || sampleReady s k p j

/-- How many accesses go as one from n on: none while they must wait. A store issues a piece only once all of it can be
read, so that a cancelled one leaves none half written (R234); an element before then is taken alone. -/
def runNow (s : State) (k : Nat) (p : Copy) (n : Nat) : Nat :=
  if !sampleReady s k p n || !mayAccess s k p n then 0
  else if !isStoreOp p.op then runLength s k p n 15 1
  else if pieceReady s k p n then
    let c := pieceLength p n 15 1
    if (List.range c).all fun j => mayAccess s k p (n + j) then c else 0
  else 1

/-- Issue the next accesses of a copy command of the engine, if they can go now. -/
def issueNext (k : Nat) (h : BitVec 4) (s : State) : State :=
  let c := s.ctx k
  let p := c.copy h.toNat
  let n := p.issued
  if (c.handle h.toNat).state != 1 || !isCopyOp p.op || p.op == 6 || p.op == 0x0B || p.op == 0x0C || p.stop ||
      p.suspended || n ≥ p.total || runNow s k p n = 0 then s
  else
    match copyXlate k h p (p.accAddr n) s with
    | (some (t, unc), s1) =>
      if isStoreOp p.op && !pieceReady s k p n then holdElem k h n s1 else sendAccess k h p n (runNow s k p n) t unc s1
    | (none, s1) => s1

def copyElementIssue (k : Nat) (h : BitVec 4) (s : State) : State :=
  if engineOn (s.seat k).phase then pruneFences (s.stepKey k) (s.memberNo k) (issueNext k h s) else s

/-! Completion (R220, R223, R224, R231, R232). -/

/-- Land one element of a load. -/
def landElem (k : Nat) (p : Copy) (i : Int) (e x : Nat) (bad : Bool) (s : State) : State :=
  let g := (s.ctx k).sg p.sig
  let s1 := putCopy k g i p.memFormat e x s
  if bad then poisonUnits k p.sig g i (copyUnits g p.memFormat e) s1 else s1

/-- Metadata of a 2:4 group: the two positions, none where it breaks its rule (R224). -/
def metaPair (m : Nat) : Option (Nat × Nat) :=
  if m / 16 = 0 && m % 4 < m / 4 % 4 then some (m % 4, m / 4 % 4) else none

/-- Land a 2:4 group whose three accesses are there. -/
def landGroup (k : Nat) (h : BitVec 4) (p : Copy) (gno mt v0 v1 : Nat) (bad : Bool) (s : State) : State :=
  let i := p.sampleAt (3 * gno)
  let base := gno % max 1 (p.pack / 4) * 4
  let z := (List.range 4).foldl (fun s j => landElem k p i (base + j) 0 false s) s
  match metaPair mt with
  | some (a, b) => landElem k p i (base + b) v1 bad (landElem k p i (base + a) v0 bad z)
  | none =>
    let s1 := (List.range 4).foldl (fun s j => landElem k p i (base + j) 0 true s) z
    s1.updCtx k fun c => (c.updHandle h.toNat fun x => { x with poison := true }).updCopy h.toNat fun q =>
      { q with failed := true }

/-- The data of an access reach line memory. -/
def landAccess (k : Nat) (h : BitVec 4) (n x : Nat) (bad : Bool) (s : State) : State :=
  let p := (s.ctx k).copy h.toNat
  let i := p.sampleAt n
  let g := (s.ctx k).sg p.sig
  let s0 := if n % max 1 p.perSampleAcc = 0 then zeroBeyond k g i p.memFormat p.pack s else s
  if p.sp24 then
    let hs := p.held ++ [(n, x, bad)]
    let b := n / 3 * 3
    let at3 := fun (j : Nat) => hs.find? fun y => y.1 == b + j
    match at3 0, at3 1, at3 2 with
    | some m, some u, some v =>
      landGroup k h p (n / 3) m.2.1 u.2.1 v.2.1 (m.2.2 || u.2.2 || v.2.2)
        (s0.updCtx k fun c => c.updCopy h.toNat fun q => { q with held := hs.filter fun y => y.1 / 3 != n / 3 })
    | _, _, _ => s0.updCtx k fun c => c.updCopy h.toNat fun q => { q with held := hs }
  else landElem k p i (n % max 1 p.perSampleAcc) x bad s0

/-- Complete accesses from the start. -/
def leadOf (done : List Nat) : Nat → Nat → Nat
  | 0, l => l
  | f + 1, l => if done.contains l then leadOf done f (l + 1) else l

/-- The line-memory units that c accesses from n on write, each taken once (R59). -/
def landUnits (s : State) (k : Nat) (p : Copy) (n c : Nat) : List Nat :=
  let g := (s.ctx k).sg p.sig
  ((List.range c).flatMap fun j =>
    let e := if p.sp24 then (n + j) / 3 * 4 % max 1 p.pack else (n + j) % max 1 p.perSampleAcc
    (copyUnits g p.memFormat e).map (s.unitOf k g (g.slotOf (p.sampleAt (n + j))))).dedup

/-- The data of c accesses of one size from n on reach line memory. -/
def landRun (k : Nat) (h : BitVec 4) (n c : Nat) (bs : List Byte) (bad : Bool) (s : State) : State :=
  let p := (s.ctx k).copy h.toNat
  let z := p.accSize n
  let s1 := (List.range c).foldl (fun s j => landAccess k h (n + j) (leNat ((bs.drop (j * z)).take z)) bad s) s
  (landUnits s k p n c).foldl (fun s u => s.useUnit k u) s1

/-- Count c accesses from n on as complete: PROGRESS, FILL, suspension, the end of the command. -/
def countAccess (k : Nat) (h : BitVec 4) (n c : Nat) (bad : Bool) (s : State) : State :=
  let s1 := s.updCtx k fun x =>
    let p := x.copy h.toNat
    let done := p.done ++ (List.range c).map (n + ·)
    let lead := leadOf done done.length p.lead
    let c1 := x.updCopy h.toNat fun q =>
      { q with flying := q.flying - c, lead := lead, done := done.filter fun x => x ≥ lead }
    let c2 := c1.updHandle h.toNat fun x =>
      { x with progress := BitVec.ofNat 32 (p.elemAt lead), poison := x.poison || bad,
               state := if p.suspended && p.flying ≤ c && x.state == 1 then 2 else x.state }
    if isLoadOp p.op then c2.raise p.sig else c2
  tryFinish (s1.stepKey k) (s1.memberNo k) h.toNat s1

/-- A read with its data, or a write, is complete. -/
def endAccess (a : Access) (bs : List Byte) (bad : Bool) (s : State) : State :=
  countAccess a.seat a.h a.elem a.count (!a.write && bad)
    (if a.write then s else landRun a.seat a.h a.elem a.count bs bad s)

/-- A host access is made as its completion comes (R387). -/
def hostAccess (a : Access) (bus : Nat) (s : State) : List Byte × Bool × State :=
  if a.write then
    let s1 := hostStore bus a.data s
    ([], false, if a.poison then { s1 with host.bad := insertNat (bus / 64) s1.host.bad } else s1)
  else (hostRead s bus a.size, hostBad s bus a.size, s)

def copyAccessComplete (k : Nat) (h : BitVec 4) (n : Nat) (s : State) : State :=
  match takeFirst (fun (a : Access) => a.seat == k && a.h == h && a.elem == n) s.accs with
  | none => tryFinish (s.stepKey k) (s.memberNo k) h.toNat s
  | some (a, rest) =>
    let go : Option (List Byte × Bool × State) :=
      match a.phase, a.target with
      | .served, _ => some (a.data, a.poison, { s with accs := rest })
      | .waiting, .host bus => some (hostAccess a bus { s with accs := rest })
      | _, _ => none
    match go with
    | none => s
    | some (bs, bad, s1) => endAccess a bs bad s1

/-! Loaders and storers (R225, R226, R429). -/

/-- A loader or storer context of the stack that homes the first element. -/
def takeStackCtx (k : Nat) (h : BitVec 4) (p : Copy) (pa : Nat) (s : State) : Option (Nat × State) :=
  match p.ctxStack with
  | some n => some (n, s)
  | none =>
    let n := stackOf pa
    let free := if p.op == 0x0B then (s.stack n).loaders else (s.stack n).storers
    if free = 0 then none
    else some (n, (s.updStack n fun x =>
      if p.op == 0x0B then { x with loaders := x.loaders - 1 } else { x with storers := x.storers - 1 }).updCtx k fun c =>
        c.updCopy h.toNat fun q => { q with ctxStack := some n })

/-- The accesses that are left of the sample of the next access. -/
def restOfSample (p : Copy) : Nat := p.perSampleAcc - p.issued % max 1 p.perSampleAcc

/-- The command that a stack controller may serve now, with its next access. -/
def stackReady (k : Nat) (h : BitVec 4) (op : BitVec 8) (s : State) : Bool :=
  let c := s.ctx k
  let p := c.copy h.toNat
  engineOn (s.seat k).phase && (c.handle h.toNat).state == 1 && p.op == op && !p.stop && !p.suspended &&
    decide (p.issued < p.total) && sampleReady s k p p.issued &&
    ((List.range (restOfSample p)).all fun j => mayAccess s k p (p.issued + j))

/-- A loader makes access n at the stack that homes it; the seat's die sees no value before what the value includes
(R225, R377). -/
def pushAccess (k : Nat) (h : BitVec 4) (n pa : Nat) (s : State) : State :=
  let p := (s.ctx k).copy h.toNat
  let s0 := s.updCtx k fun c => c.updCopy h.toNat fun q => { q with issued := n + 1, flying := q.flying + 1 }
  let (bs, bad, s1) := checkedRead (homeDie pa) pa (p.accSize n) .home s0 p.tcls
  countAccess k h n 1 bad (landAccess k h n (leNat bs) bad (applySeen (dieOf k) (pa / 64) s1))

/-- A storer makes access n at the stack that homes it, with what waits before it in its piece (R226, R234). -/
def pullAccess (k : Nat) (h : BitVec 4) (n pa : Nat) (s : State) : State :=
  let p := (s.ctx k).copy h.toNat
  if !pieceReady s k p n then holdElem k h n s
  else
    let (bs, bad, s1) := takeElem k h n s
    let es := p.keptBefore n ++ [⟨n, bs, bad⟩]
    let s2 := (keepRest k h p n 1 s1).updCtx k fun c => (c.updCopy h.toNat fun q => { q with
      issued := n + 1, flying := q.flying + es.length, kept := q.kept.filter fun x => decide (n ≤ x.elem) || !es.contains x }).updHandle
        h.toNat fun x => { x with poison := x.poison || es.any (·.bad) }
    let at' := fun (e : Kept) => pa / 16 * 16 + (p.accAddr e.elem).toNat % 16
    es.foldl (fun s e => countAccess k h e.elem 1 false s)
      (es.foldl (fun s e => pullWrite (dieOf k) (at' e) e.data e.bad p.tcls s) s2)

/-- The accesses of one sample from n on, in order up to the first that must wait: after a fault on element f every
element below f is complete (R231, R412). -/
def stackRun (k : Nat) (h : BitVec 4) (load : Bool) : Nat → Nat → State → State
  | 0, _, s => s
  | f + 1, n, s =>
    let p := (s.ctx k).copy h.toNat
    match copyXlate k h p (p.accAddr n) s with
    | (some (.dram pa, _), s1) =>
      (match takeStackCtx k h p pa s1 with
       | none => s1
       | some (_, s2) => stackRun k h load f (n + 1) (if load then pushAccess k h n pa s2 else pullAccess k h n pa s2))
    | (_, s1) => s1

def stackSample (k : Nat) (h : BitVec 4) (load : Bool) (s : State) : State :=
  if !stackReady k h (if load then 0x0B else 0x0C) s then s
  else
    let p := (s.ctx k).copy h.toNat
    let s1 := stackRun k h load (restOfSample p) p.issued s
    let q := (s1.ctx k).copy h.toNat
    let n := if q.op = p.op && q.seq = p.seq then q.issued - p.issued else restOfSample p
    if load then (landUnits s1 k p p.issued n).foldl (fun s u => s.useUnit k u) s1 else s1

def loaderSamplePush (k : Nat) (h : BitVec 4) (s : State) : State := stackSample k h true s
def storerSampleWrite (k : Nat) (h : BitVec 4) (s : State) : State := stackSample k h false s

/-! Scatter-accumulate (R235, R236). -/

/-- Merge of two FP32 or INT32 values. -/
def scaccMerge (op : Nat) (int : Bool) (a b : Nat) : Nat :=
  if int then
    match op with
    | 0 => (a + b) % 2 ^ 32
    | 1 => if signedOf 32 a < signedOf 32 b then b else a
    | _ => if signedOf 32 b < signedOf 32 a then b else a
  else
    match op with
    | 0 => (fp32.add 0 (fp32.decode a) (fp32.decode b)).1
    | o => (fp32.minmax (o == 1) a b).1

/-- Apply a merged value to an element pattern of the table's format. -/
def scaccApply (op : Nat) (f : Fmt) (x acc : Nat) : Nat :=
  match f.float with
  | none => scaccMerge op true x acc
  | some ff =>
    if op = 0 then (ff.add 0 (f.value x) (fp32.decode acc)).1
    else (convert 0 .fp32 f (fp32.minmax (op == 1) (convert 0 f .fp32 x).1 acc).1).1

/-- The distinct indices of a window in the order of their first pair. -/
def firstIndices : List (Int × Nat) → List Int
  | [] => []
  | x :: xs => x.1 :: (firstIndices xs).filter (· != x.1)

/-- One index of a window: the new state and the pairs dropped. A unit that is poisoned stays so, and the handle has
met it (R216). -/
def scaccIndex (k : Nat) (h : BitVec 4) (n : BitVec 7) (op : Nat) (ps : List (Int × Nat)) (x : Int) (s : State) :
    State × Nat :=
  let g := (s.ctx k).sg n
  let vs := (ps.filter (·.1 == x)).map (·.2)
  if x = -1 then (s, 0)
  else if x < -1 || decide (x ≥ ((g.depth.toNat * g.elems : Nat) : Int)) ||
      decide (x / (g.elems : Int) > g.fillMark) then (s, vs.length)
  else
    let acc := match vs with
      | [] => 0
      | v :: r => r.foldl (scaccMerge op (g.fmt == .int32)) v
    let i := x / (g.elems : Int)
    let e := (x % (g.elems : Int)).toNat
    let t : Tap := ⟨n, g, 0, 0, i⟩
    let z := g.fmt.size
    let u := e * z / 32
    let s1 := putBytes k g (g.slotOf i) (e * z) z (scaccApply op g.fmt (rawElem s k t e) acc)
      (s.useUnit k (s.unitOf k g (g.slotOf i) u))
    (if t.unitBad s k (s.ctx k) u then
      (poisonUnits k n g i [u] s1).updCtx k fun c => c.updHandle h.toNat fun x => { x with poison := true }
    else s1, 0)

/-- An earlier SCACC of the seat on the same table is incomplete. -/
def scaccBehind (c : Ctx) (p : Copy) : Bool :=
  c.eng.copies.any fun e => e.2.op == 6 && e.2.sig == p.sig && decide (e.2.seq < p.seq) && (c.handle e.1).busy

def scaccWindow (k : Nat) (h : BitVec 4) (s : State) : State :=
  let c := s.ctx k
  let p := c.copy h.toNat
  let done := (c.handle h.toNat).progress.toNat
  if !engineOn (s.seat k).phase || p.op != 6 || (c.handle h.toNat).state != 1 || scaccBehind c p then s
  else
    let w := (p.pairs.drop done).take p.window
    let r := (firstIndices w).foldl (fun a x =>
      let b := scaccIndex k h p.sig p.redOp.toNat w x a.1
      (b.1, a.2 + b.2)) (s, 0)
    r.1.updCtx k fun c =>
      let c1 := c.updHandle h.toNat fun x =>
        { x with progress := BitVec.ofNat 32 (done + w.length), first := x.first + BitVec.ofNat 44 r.2 }
      if done + w.length ≥ p.pairs.length then
        (c1.dropCopy h.toNat).updHandle h.toNat fun x => { x with state := if x.poison then 6 else 5 }
      else c1

/-! The yield of a seat's commands (R237, R275). -/

/-- The next access begins a new 64-byte granule. -/
def atGranule (p : Copy) : Bool :=
  let n := p.issued
  let j := p.elemAt n
  n = 0 || n ≥ p.total || (j != p.elemAt (n - 1) && j != 0 &&
    (p.addr j).toNat / 64 != (p.addr (j - 1)).toNat / 64)

/-- Issue to the next granule; what cannot go now stays. -/
def issueToGranule (k : Nat) (h : BitVec 4) : Nat → State → State
  | 0, s => s
  | f + 1, s =>
    let p := (s.ctx k).copy h.toNat
    if atGranule p then s
    else
      let s1 := issueNext k h s
      if ((s1.ctx k).copy h.toNat).issued = p.issued then s1 else issueToGranule k h f s1

/-- A handle at the yield (R237, R275); one that a fault suspends stays in state 2, whatever its command (R415). -/
def yieldHandle (k h : Nat) (s : State) : State :=
  let c := s.ctx k
  let hd := c.handle h
  let p := c.copy h
  let st := s.stepKey k
  let m := s.memberNo k
  if !hd.busy || !isCopyOp hd.opcode then s
  else if p.op == 0x0B || p.op == 0x0C then (if hd.state == 2 then s else cancelOne st m h s)
  else if hd.state == 1 then
    if p.suspended || (p.op != 6 && p.issued ≥ p.total) then s
    else
      let s1 := if p.op == 6 then s else issueToGranule k (BitVec.ofNat 4 h) (p.total - p.issued) s
      let q := (s1.ctx k).copy h
      if ((s1.ctx k).handle h).state == 1 && !q.suspended && (p.op == 6 || q.issued < p.total) then
        dropWaiters st m (BitVec.ofNat 4 h) (s1.updCtx k fun c => c.updHandle h fun x => { x with state := 3 })
      else s1
  else s

/-- At the restore a handle in state 3 returns to state 1, and one in state 2 whose fault has ended with retry. -/
def resumeHandles (k : Nat) (s : State) : State :=
  s.updCtx k fun c => c.eng.handles.foldl (fun c e =>
    if e.2.state == 3 || (e.2.state == 2 && isCopyOp e.2.opcode && !(c.copy e.1).suspended) then
      c.updHandle e.1 fun x => { x with state := 1 } else c) c

/-! Combiners and announcements (R377, R386). -/

/-- A combiner of a die releases its n-th access. -/
def combinerFlush (d n : Nat) (s : State) : State :=
  { s with accs := modifyAt (fun (a : Access) =>
      if dieOf a.seat == d && a.phase == .combined then { a with phase := .waiting } else a) s.accs n }

def announcementApply (d n : Nat) (s : State) : State :=
  match s.anns[n]? with
  | some a => if a.dst == d && annReady s a then applyAnn a { s with anns := s.anns.eraseIdx n } else s
  | none => s

/-! Walks and faults (R406, R410 to R412). -/

/-- A near-memory command holds the handle. -/
def isNear (s : State) (st m : Nat) (h : BitVec 4) : Bool :=
  s.near.any fun x => x.step == st && x.member == m && x.h == h
def updNear (st m : Nat) (h : BitVec 4) (f : NmCmd → NmCmd) (s : State) : State :=
  let one := fun (x : NmCmd) => if x.step == st && x.member == m && x.h == h then f x else x
  { s with near := s.near.map one }

/-- A waiter of a failed request receives the unresolvable outcome, for its own address (R412, R413, R437). -/
def failWaiter (d p : Nat) (s : State) (w : Waiter) : State :=
  match w.who with
  | .copy st m h =>
    if isNear s st m h then
      (updNear st m h (fun x => { x with failed := true, suspended := false }) s).updMemberCtx st m fun c =>
        { c with causes := c.causes ++ [⟨0x0B, w.va, handleDetail h⟩] }
    else failCopy st m h w.va s
  | .agent a =>
    wakeWaiters d p [w] (s.updDie d fun x => { x with xfails := x.xfails ++ [(p, w.va.toNat, a)] })

def retryWaiter (d p : Nat) (s : State) (w : Waiter) : State :=
  match w.who with
  | .copy st m h =>
    if isNear s st m h then
      (updNear st m h (fun x => { x with suspended := false }) s).updMemberCtx st m fun c =>
        c.updHandle h.toNat fun x => { x with state := if x.state == 2 then 1 else x.state }
    else resumeCopy st m h s
  | .agent _ => wakeWaiters d p [w] s

def holdWaiter (s : State) (w : Waiter) : State :=
  match w.who with
  | .copy st m h =>
    if isNear s st m h then
      (updNear st m h (fun x => { x with suspended := true }) s).updMemberCtx st m fun c =>
        c.updHandle h.toNat fun x => { x with state := if x.state == 1 then 2 else x.state }
    else suspendCopy st m h s
  | .agent _ => s

/-- The senders of the remote accesses that wait for a page hear of its fault (R482). -/
def tellXfault (d p : Nat) (va : Word) (s : State) : State :=
  match openFault s d p va with
  | none => s
  | some f => (s.fab.waiting.filter fun w => w.die == d && remotePage s w == some (p, pageOf va)).foldl
      (fun s w => s.send d 2 2 7 (endPkg w.src) (endDie w.src) w.target w.tag (faultBytes f)) s

/-- The failure of a walk is the waiter's own: any but a protection fault, which is of the access that walked. -/
def WReq.concerns (r : WReq) (kind : Nat) (w : Waiter) : Bool :=
  kind != 3 || (w.access == r.access && match w.who with
    | .copy _ _ _ => r.agent ≤ agentNear
    | .agent a => agentCode a == agentCode r.agent)

/-- A walker takes the n-th request of a die (R406): a leaf serves every request that joined it, as the walk itself
serves the queued ones that the page covers; a failure becomes a fault, or the unresolvable outcome. The other requests
ask anew. -/
def translationWalk (d n : Nat) (s : State) : State :=
  match (s.die d).walks[n]? with
  | none => s
  | some r =>
    if !walkTaken s d n then s
    else
      let s1 := s.updDie d fun x => Die.fillWalks { x with walks := x.walks.eraseIdx n }
      match walk d r.part r.va.toNat r.agent (wantOf r) s1 with
      | (.ok _ _ _, s2) => wakeWaiters d r.part r.waiters s2
      | (.fault k lv e po, s2) =>
        let mine := r.waiters.filter (r.concerns k)
        let s3 := wakeWaiters d r.part (r.waiters.filter fun w => !r.concerns k w) s2
        if unresolvable s3 r.part k then mine.foldl (failWaiter d r.part) s3
        else
          let s4 := mine.foldl holdWaiter (recordFault d r.part r.va k r.access r.agent lv e po r.tcls mine s3)
          if mine.any Waiter.remote then tellXfault d r.part r.va s4 else s4

/-- End an open fault (R411): the waiting requests walk again from ROOT, or fail. -/
def endFault (d : Nat) (id : BitVec 32) (retry : Bool) (s : State) : State :=
  match (s.die d).faults.find? fun f => f.id == id with
  | none => s
  | some f =>
    let va := f.va.toNat
    let path := fun (e : Nat × Nat × Nat × Nat) =>
      e.1 == f.part && e.2.2.1 == va / 2 ^ (if e.2.1 = 1 then lvl1.shift else lvl2.shift)
    let s1 := s.updDie d fun x => { x with
      faults := x.faults.filter fun g => g.id != id
      wcache := if retry then x.wcache.filter fun e => !path e else x.wcache }
    if retry then f.waiters.foldl (retryWaiter d f.part) s1 else f.waiters.foldl (failWaiter d f.part) s1

end Sys2Proof.Machine
end

