-- ==== Sys2Proof/Machine/Signals.lean ====
section
/-!
DEFINITION. The signal instructions of the C and S classes (R150 to R152, R162 to R172).
-/
namespace Sys2Proof.Machine
open Sys2Proof

/-- An incomplete copy command names the signal (R166). -/
def copyAttached (c : Ctx) (n : BitVec 7) : Bool :=
  c.eng.copies.any fun e => isCopyOp e.2.op && e.2.sig == n && (c.handle e.1).busy

/-- The signal is the source of a stream of this seat (R166). -/
def exported (s : State) (k : Nat) (n : BitVec 7) : Bool :=
  (s.die (dieOf k)).streams.any fun x => x.src == k && x.sig == n.toNat

/-- An agent is attached (R166). A present signal whose FEED is 2 is a mirror (R292). -/
def attached (s : State) (k : Nat) (c : Ctx) (n : BitVec 7) : Bool :=
  copyAttached c n || exported s k n || ((c.sg n).present && (c.sg n).feed == 2) ||
    (s.readerChan k n).isSome

/-- A store or pull of the seat has not yet taken sample i (R159, R226). -/
def storeUntaken (c : Ctx) (n : BitVec 7) (i : Int) : Bool :=
  c.eng.copies.any fun e =>
    let p := e.2
    isStoreOp p.op && p.sig == n && (c.handle e.1).busy && decide (p.first ≤ i) &&
      decide (i < p.first + p.samples) && decide ((p.issued : Int) < (i - p.first + 1) * p.pack)

/-- A connected mirror, or one that is away, has not yet counted sample i (R294, R299). -/
def streamUntaken (s : State) (k : Nat) (n : BitVec 7) (i : Int) : Bool :=
  ((s.die (dieOf k)).streams.any fun x =>
    x.src == k && x.sig == n.toNat && decide (((s.ctx x.dst).sg n).fillMark < i)) ||
  (s.die (dieOf k)).ghosts.any fun x =>
    x.step == s.stepKey k && x.src == s.memberNo k && x.sig == n.toNat && decide (x.fill < i)

/-- An outbound reader has not yet taken sample i, prehistory included (R151, R226). -/
def untaken (s : State) (k : Nat) (c : Ctx) (n : BitVec 7) (i : Int) : Bool :=
  storeUntaken c n i || streamUntaken s k n i

/-- The samples that a advances retire. -/
def retired (g : Sig) (a : Nat) : List Int :=
  (List.range a).map fun (j : Nat) => (g.head.toNat : Int) - g.depth.toNat + 1 + (j : Int)

def retiredRes (c : Ctx) (n : BitVec 7) (a : Nat) : List Res :=
  (retired (c.sg n) a).map (Res.sample n.toNat ·)

/-- A retired sample that an engine-fed signal has not filled (R151). -/
def retireUnfilled (g : Sig) (i : Int) : Bool := g.feed != 0 && decide (0 ≤ i) && decide (i > g.fillMark)

/-- R151, with the channel fault of R359 in the place of a hold. -/
def advHold (s : State) (k : Nat) (c : Ctx) (n : BitVec 7) (a : Nat) : Bool :=
  let g := c.sg n
  (retired g a).any fun i =>
    (retireUnfilled g i && (chanClosed s k g n i).isNone) || untaken s k c n i

/-- The samples of an advance that an outbound reader has still to take. -/
def advLacks (s : State) (k : Nat) (c : Ctx) (n : BitVec 7) (a : Nat) : List (BitVec 7 × Int) :=
  ((retired (c.sg n) a).filter (untaken s k c n)).map (n, ·)

/-- An advance that would carry HEAD beyond 2^44 − 1 (R150). -/
def headTrap (c : Ctx) (n : BitVec 7) (a : Nat) : Option Cause :=
  let g := c.sg n
  if g.head.toNat + a ≥ 2 ^ 44 then some (sigCause 0x08 n (some (g.head.toNat + a))) else none

/-- An advance over a sample that a closed channel cannot fill (R359). -/
def closedTrap (s : State) (k : Nat) (c : Ctx) (n : BitVec 7) (a : Nat) : Option Cause :=
  let g := c.sg n
  (retired g a).findSome? fun i =>
    if retireUnfilled g i then (chanClosed s k g n i).map (addrCause 0x12) else none

/-- The traps of an advance. -/
def advTrap (s : State) (k : Nat) (c : Ctx) (n : BitVec 7) (a : Nat) : Option Cause :=
  (headTrap c n a).or (closedTrap s k c n a)

/-- A stream's permit returns to the source side (R295). -/
def streamPermit (k : Nat) (n : BitVec 7) (s : State) : State :=
  if (s.die (dieOf k)).streams.isEmpty then s
  else s.updDie (dieOf k) fun d =>
    { d with streams := d.streams.map fun x =>
        if x.dst == k && x.sig == n.toNat then { x with permits := x.permits + 1 } else x }

/-- What retiring sample i returns: a channel permit, or one held back, and a stream's permit. -/
def returnPermits (k : Nat) (n : BitVec 7) (i : Int) (s : State) : State :=
  let s1 := match s.readerChan k n with
    | some ch =>
      if 0 ≤ i then returnPermit ch s
      else if (s.chan ch).heldback = 0 then s
      else returnPermit ch (s.updChan ch fun x => { x with heldback := x.heldback - 1 })
    | none => s
  streamPermit k n s1

/-- One advance (R150). -/
def advance1 (k : Nat) (n : BitVec 7) (s : State) : State :=
  let c := s.ctx k
  let g := c.sg n
  let old := (g.head.toNat : Int) - g.depth.toNat + 1
  let outbound := c.eng.copies.any fun e =>
    isStoreOp e.2.op && e.2.sig == n && (c.handle e.1).busy
  let g1 := { g with head := g.head + 1 }
  let f := g.fillMark
  let low := (g1.head.toNat : Int) - g.depth.toNat
  let f := if g.feed == 0 && !outbound && !exported s k n && f < low then low else f
  let g2 := g1.setFill f
  returnPermits k n old
    (s.updCtx k fun c => (c.setSg n g2).clearSlot n (g2.slotOf ((g2.head.toNat : Int) + g2.ahead.toNat)))

def advanceN (k : Nat) (n : BitVec 7) : Nat → State → State
  | 0, s => s
  | a + 1, s => advanceN k n a (advance1 k n s)

/-- The advances of a TICK or ADV. DESIGN CHOICE (log 114): none where a SIGSET of its bundle has left the signal absent
or a table, which R150 does not advance. -/
def advances (k : Nat) (n : BitVec 7) (a : Nat) (s : State) : State :=
  let g := (s.ctx k).sg n
  if g.present && !g.isTable then advanceN k n a s else s

/-- Advances of a ticked signal under TICK n (R163). -/
def tickCount (now : Nat) (n : Nat) (g : Sig) : Nat :=
  ((List.range n).filter fun (j : Nat) =>
    ((now : Int) + 1 + (j : Int) - g.phase.toNat) % (g.rate.toNat : Int) = 0).length

/-- The present ticked signals with their advances. -/
def tickSet (c : Ctx) (n : Nat) : List (BitVec 7 × Nat) :=
  (c.sig.table.filter fun e => e.2.present && e.2.isTicked).map fun e =>
    (BitVec.ofNat 7 e.1, tickCount c.csr.now.toNat n e.2)

def slotTick (g : Guard) (n : BitVec 8) (k : Nat) (s : State) : SlotOut :=
  let c := s.ctx k
  let sigs := (tickSet c n.toNat).filter (·.2 > 0)
  guarded g c
    { hold := if sigs.any fun x => advHold s k c x.1 x.2 then .unfilled else .free
      trap := sigs.findSome? fun x => closedTrap s k c x.1 x.2
      late := fun s => sigs.findSome? fun x => headTrap (s.ctx k) x.1 x.2
      lacks := sigs.flatMap fun x => advLacks s k c x.1 x.2
      other := sigs.any fun x => !(advLacks s k c x.1 x.2).isEmpty
      retires := sigs.flatMap fun x => retiredRes c x.1 x.2
      tick := fun s =>
        sigs.foldl (fun s x => advances k x.1 x.2 s)
          (s.updCtx k fun c => { c with csr.now := c.csr.now + n.zeroExtend 64 }) }

def slotAdv (g : Guard) (n : BitVec 7) (a : BitVec 8) (k : Nat) (s : State) : SlotOut :=
  let c := s.ctx k
  let sg := c.sg n
  let bad : Option Cause :=
    if !sg.present then some (sigCause 0x08 n none)
    else if sg.rate != 255 then some (cause 0x01)
    else none
  guarded g c
    { hold := if bad.isNone && advHold s k c n a.toNat then .unfilled else .free
      trap := bad.or (closedTrap s k c n a.toNat)
      late := fun s => headTrap (s.ctx k) n a.toNat
      lacks := advLacks s k c n a.toNat
      other := !(advLacks s k c n a.toNat).isEmpty
      retires := retiredRes c n a.toNat
      tick := advances k n a.toNat }

/-! SIGSET (R165, R166). -/

def Sig.kind (g : Sig) : Nat := if g.isTable then 0 else if g.isTicked then 1 else 2

/-- The value lies inside the limit of its field. -/
def sigLimit (g : Sig) (field : Nat) (x : Word) : Bool :=
  let v := x.toNat
  match field with
  | 0 => v < 2 ^ 16
  | 1 => v ≤ 128
  | 2 => v < 2 ^ 16
  | 3 => v < 2 ^ 8
  | 4 => v ≤ 255 && !(1 ≤ v && v ≤ 254 && g.phase.toNat ≥ v) && (g.feed != 3 || v == 255)
  | 5 => if g.isTicked then v < g.rate.toNat else v == 0
  | 6 => v ≤ 6 && (v == 4 || g.planes == 8)
  | 7 => if g.format == 4 then 2 ≤ v && v ≤ 8 else v == 8
  | 8 => v ≤ 127
  | 9 => v < 256 && v / 16 + v % 16 == 6
  | 10 => v ≤ 3 && (v != 3 || g.rate == 255)
  | 11 => v ≤ 1
  | 12 => -128 ≤ x.toInt && x.toInt ≤ 127
  | 13 => -128 ≤ x.toInt && x.toInt ≤ 127
  | 14 => v < 2 ^ 44 && (!g.isTable || v == 0)
  | _ => false

/-- Write byte l of a packed stride field. -/
def setStride (x : BitVec 48) (l : Nat) (b : BitVec 8) : BitVec 48 :=
  (x &&& ~~~((0xFF : BitVec 48) <<< (8 * l))) ||| ((b.zeroExtend 48) <<< (8 * l))

/-- The descriptor with one field written. -/
def Sig.setField (g : Sig) (field level : Nat) (x : Word) : Sig :=
  match field with
  | 0 => { g with base := x.setWidth 16 }
  | 1 => { g with width := x.setWidth 8 }
  | 2 => { g with depth := x.setWidth 16 }
  | 3 => { g with ahead := x.setWidth 8 }
  | 4 => { g with rate := x.setWidth 8 }
  | 5 => { g with phase := x.setWidth 8 }
  | 6 => { g with format := x.setWidth 4 }
  | 7 => { g with planes := x.setWidth 4 }
  | 8 => { g with scalesig := x.setWidth 7 }
  | 9 => { g with block := x.setWidth 8 }
  | 10 => { g with feed := x.setWidth 2 }
  | 11 => { g with init := x.setWidth 1 }
  | 12 => { g with lstride := setStride g.lstride level (x.setWidth 8) }
  | 13 => { g with estride := setStride g.estride level (x.setWidth 8) }
  | 14 => { g with head := x.setWidth 44 }
  | _ => g

/-- A present signal's ring lies inside a share of the given units. -/
def Sig.fits (g : Sig) (share : Nat) : Bool :=
  !g.present || g.base.toNat + g.slots * g.width.toNat ≤ share

/-- The traps of SIGSET (R165, R166). DESIGN CHOICE (log 91): 0x07 before 0x01 before 0x08. -/
def sigsetTrap (s : State) (k : Nat) (c : Ctx) (n : BitVec 7) (field level : Nat) (x : Word) : Option Cause :=
  let g := c.sg n
  if !([11, 12, 13].contains field) && attached s k c n then some (sigCause 0x07 n none)
  else if !sigLimit g field x then some (cause 0x01)
  else if field ≤ 3 && !(g.setField field level x).fits (s.seat k).share then some (sigCause 0x08 n none)
  else none

/-- The field and its side effect at commit (R165). -/
def sigsetEffect (k : Nat) (n : BitVec 7) (field level : Nat) (x : Word) (s : State) : State :=
  s.updCtx k fun c =>
    let g := c.sg n
    let g1 := g.setField field level x
    if field ≤ 3 ∨ field = 14 then
      ((c.forget n).setSg n (g1.setFill ((g1.head.toNat : Int) - 1))).clearMarks n
    else if field = 4 ∧ g1.kind ≠ g.kind then
      ((c.forget n).setSg n ({ g1 with head := 0 }.setFill (-1))).clearMarks n
    else if field = 10 then (c.forget n).setSg n (g1.setFill ((g1.head.toNat : Int) - 1))
    else c.setSg n g1

def slotSigset (g : Guard) (ra : BitVec 6) (n : BitVec 7) (field : BitVec 4) (level : BitVec 3) (k : Nat)
    (s : State) : SlotOut :=
  let c := s.ctx k
  guarded g c
    { uses := sUse ra
      trap := sigsetTrap s k c n field.toNat level.toNat (c.s ra)
      desc := sigsetEffect k n field.toNat level.toNat (c.s ra) }

/-- SIGGET (R167). -/
def sigField (g : Sig) (field level : Nat) : Word :=
  match field with
  | 0 => g.base.zeroExtend 64
  | 1 => g.width.zeroExtend 64
  | 2 => g.depth.zeroExtend 64
  | 3 => g.ahead.zeroExtend 64
  | 4 => g.rate.zeroExtend 64
  | 5 => g.phase.zeroExtend 64
  | 6 => g.format.zeroExtend 64
  | 7 => g.planes.zeroExtend 64
  | 8 => g.scalesig.zeroExtend 64
  | 9 => g.block.zeroExtend 64
  | 10 => g.feed.zeroExtend 64
  | 11 => g.init.zeroExtend 64
  | 12 => BitVec.ofInt 64 (g.lst level)
  | 13 => BitVec.ofInt 64 (g.est level)
  | 14 => g.head.zeroExtend 64
  | _ => BitVec.ofInt 64 g.fillMark

/-- An absent signal traps (R146). -/
def absentTrap (c : Ctx) (n : BitVec 7) : Option Cause :=
  if (c.sg n).present then none else some (sigCause 0x08 n none)

def slotSigget (g : Guard) (rd : BitVec 6) (n : BitVec 7) (field : BitVec 4) (level : BitVec 3) (k : Nat)
    (s : State) : SlotOut :=
  let c := s.ctx k
  guarded g c { sResult k rd 2 [] (sigField (c.sg n) field.toNat level.toNat) with
    trap := absentTrap c n }

def slotSigclr (g : Guard) (n : BitVec 7) (k : Nat) (s : State) : SlotOut :=
  let c := s.ctx k
  guarded g c
    { trap := (absentTrap c n).or (if attached s k c n then some (sigCause 0x07 n none) else none)
      desc := fun s => s.updCtx k fun c =>
        ((c.forget n).setSg n ({ c.sg n with head := 0 }.setFill (-1))).clearMarks n }

/-- FILLMK (R169). -/
def slotFillmk (g : Guard) (n : BitVec 7) (lag : BitVec 8) (k : Nat) (s : State) : SlotOut :=
  let c := s.ctx k
  let t := resolve c n lag.toNat
  guarded g c
    { trap :=
        if !t.g.present then some (sigCause 0x08 n none)
        else if t.g.feed != 0 then some (sigCause 0x07 n (some t.idx))
        else if !t.inLag then some (sigCause 0x04 n (some t.idx))
        else none
      desc := fun s => s.updCtx k fun c =>
        let g1 := c.sg n
        if g1.fillMark < t.idx then c.setSg n (g1.setFill t.idx) else c }

/-- WAITFILL (R170); a closed channel that cannot fill further traps (R359). -/
def slotWaitfill (g : Guard) (rd : BitVec 6) (n : BitVec 7) (kk : BitVec 8) (k : Nat) (s : State) : SlotOut :=
  let c := s.ctx k
  let sg := c.sg n
  let head : Int := if sg.isTable then 0 else sg.head.toNat
  let want := head + kk.toInt
  let wait := sg.present && sg.feed != 0 && decide (sg.fillMark < want)
  guarded g c { sResult k rd 2 [] (BitVec.ofInt 64 (sg.fillMark - head)) with
    hold := if wait && (chanClosed s k sg n want).isNone then .unfilled else .free
    trap := if !sg.present then some (sigCause 0x08 n none)
      else if sg.feed == 0 then some (sigCause 0x07 n none)
      else if wait then (chanClosed s k sg n want).map (addrCause 0x12)
      else none }

/-- TAPRD (R171). -/
def slotTaprd (g : Guard) (rd : BitVec 6) (n : BitVec 7) (lag : BitVec 8) (k : Nat) (s : State) : SlotOut :=
  let c := s.ctx k
  let t := resolve c n lag.toNat
  let es := t.span 1
  let e := t.off.toNat
  let r : Word × Flags := match t.g.fmt with
    | .int32 => (BitVec.ofInt 64 (signedOf 32 (tapLane s k c t none .int32 e).1), 0)
    | .int8 => (BitVec.ofInt 64 (signedOf 32 (tapLane s k c t none .int32 e).1), 0)
    | _ =>
      let x := tapLane s k c t none .fp32 e
      (BitVec.ofNat 64 x.1, x.2)
  guarded g c { sResult k rd 2 (tapSamples c t) r.1 with
    hold := if tapHold s k c t then .unfilled else .free
    trap := tapTrap s k c t none es
    flags := r.2
    units := tapUnits s k t none es }

/-- The element that TAPWR writes, in the signal's format (R172). -/
def tapwrElem (t : Tap) (x : Word) : Nat × Flags :=
  match t.g.fmt with
  | .int32 => (x.toNat % 2 ^ 32, 0)
  | .int8 => (unsignedOf 8 (satInt 8 x.toInt), 0)
  | f => convert 0 .fp32 f (x.toNat % 2 ^ 32)

def slotTapwr (g : Guard) (ra : BitVec 6) (n : BitVec 7) (lag : BitVec 8) (k : Nat) (s : State) : SlotOut :=
  let c := s.ctx k
  let t := resolve c n lag.toNat
  let x := tapwrElem t (c.s ra)
  guarded g c
    { uses := sUse ra
      defs := [(.sample n.toNat t.idx, 1)]
      trap := writeTrap t
      write := putElems k t t.off.toNat [x.1]
      flags := if t.prehistory || decide (t.off.toNat ≥ t.g.elems) then 0 else x.2
      units := tapUnits s k t none (t.span 1) }

end Sys2Proof.Machine
end

