-- ==== Sys2Proof/Machine/Channels.lean ====
section
/-!
DEFINITION. Channels: the instructions and the steps of the channel engine (R347 to R367, R483 to R485).
-/
namespace Sys2Proof.Machine
open Sys2Proof

/-! The cistern (R357). -/

/-- Messages of a segment. -/
def segMsgs (width : Nat) : Nat := 65536 / (32 * max 1 width)
/-- Places of the segments that are used, granted room included. -/
def Chan.used (c : Chan) : Nat := c.segHead + c.spilled + c.roomOut
/-- Segments that a count of places takes. -/
def segsFor (width n : Nat) : Nat := (n + segMsgs width - 1) / segMsgs width

/-- Segments of a partition's pool that nothing uses. -/
def poolFree (s : State) (p : Nat) : Nat :=
  let taken := (s.chans.filter fun e => e.2.part == p && e.2.state != 0).map fun e =>
    max e.2.segs.length (segsFor e.2.width e.2.used)
  (s.part p).segments - taken.sum

/-- Cistern room under QUOTA: fewer than q full segments and a place that the pool can supply. -/
def cisternRoom (s : State) (ch : Nat) : Bool :=
  let c := s.chan ch
  let m := segMsgs c.width
  decide (c.used / m < c.quota) && (c.used % m != 0 || poolFree s c.part != 0)

/-- Room in messages that may be granted to a proxy, at most 64 at a time (R483). -/
def grantRoom (s : State) (ch : Nat) : Nat :=
  let c := s.chan ch
  let m := segMsgs c.width
  let segs := min c.quota (segsFor c.width c.used + poolFree s c.part)
  min (64 - c.roomOut) (segs * m - c.used)

/-- The lowest pool segment that no channel of the partition uses. -/
def freeSeg (s : State) (p : Nat) : Option Nat :=
  let used := (s.chans.filter fun e => e.2.part == p && e.2.state != 0).flatMap fun e => e.2.segs
  (List.range (s.part p).segments).find? fun n => !used.contains n

/-- The address of place n of a channel's segments. -/
def segAddr (s : State) (c : Chan) (n : Nat) : Nat :=
  let m := segMsgs c.width
  (s.part c.part).pool.toNat + 65536 * c.segs.getD (n / m) 0 + 32 * c.width * (n % m)

/-! Triggers (R362). -/

/-- The trigger of an armed channel fires: the dispatcher's part follows in TRIGGER_FIRE. -/
def armTrigger (ch : Nat) (s : State) : State :=
  let c := s.chan ch
  if c.trig != 0 && c.armed then s.updChan ch fun x => { x with armed := false, trigPending := true, trigNow := true }
  else s

/-! Faults of a channel (R365, R413). -/

/-- Every seat held on the channel on either side takes 0x12, one that has yielded under the hold at its resume; the
writer's proxy is told (R492). -/
def faultChan (ch : Nat) (s : State) : State :=
  let c := s.chan ch
  let why : Cause := ⟨0x12, s.chanReg ch, 0⟩
  let s1 := s.updChan ch fun x => { x with state := 3 }
  let hit := fun (s : State) (st m : Nat) (p : Ctx → Bool) =>
    if p (s.memberCtx st m) then s.updMemberCtx st m fun x => { x with causes := x.causes ++ [why] } else s
  let s2 := match c.reader with
    | some (st, m, n) => hit s1 st m fun x => x.wait.taps.contains n
    | none => s1
  if c.remote then
    s2.send (ch / 4096) 4 8 0 (c.wpkg.setWidth 18) (c.wpkg.toNat / 2 ^ 18 % 4) (s.chanReg ch) 0 (leBytes 8 3)
  else match c.writer with
    | some (st, m) => hit s2 st m fun x => x.wait.sendReg == some (s.chanReg ch)
    | none => s2

/-! Delivery (R356, R357, R361). -/

/-- The seat of a bound reader that is not away. -/
def readerSeat (s : State) (ch : Nat) : Option (Nat × BitVec 7) :=
  let c := s.chan ch
  match c.reader with
  | some (st, m, n) =>
    if c.rbound && !c.raway then (memberSeat s st m).map fun k => (k, BitVec.ofNat 7 n) else none
  | none => none

/-- Units of a message reach sample i of the reader signal, which is counted. -/
def landMessage (k : Nat) (n : BitVec 7) (i : Int) (units : List UnitW) (poison : BitVec 128) (s : State) : State :=
  let g := (s.ctx k).sg n
  let s1 := units.zipIdx.foldl (fun s u => s.setLine k (s.unitOf k g (g.slotOf i) u.2) u.1) s
  let bad := (List.range units.length).filter fun u => poison.getLsbD u
  (poisonUnits k n g i bad s1).updCtx k fun c => c.setSg n ((c.sg n).setFill i)

/-- The channel that the DONE field of a waybill names. -/
def doneOf (bs : List Byte) : Option Nat :=
  let x := leNat ((bs.drop 0x54).take 4)
  if x / 2 ^ 31 = 1 then some (x % 4096) else none

/-- The channels of a waybill's DONE and of a graph's DONECH have DEVWRITER set (R360). -/
def setDevwriter (ch p : Nat) (s : State) : State :=
  s.updChan ch fun x => if x.state != 0 && x.part == p then { x with devwriter := true } else x

/-- A task, a launch or an untaken entry that still names the channel keeps DEVWRITER set (R360). -/
def devWanted (s : State) (ch : Nat) : Bool :=
  (s.tasks.any fun e => e.2.present &&
    ((e.1 / 4096 == ch / 4096 && e.2.wb.done == some (ch % 4096)) || e.2.graphCh == some ch)) ||
  (s.dies.any fun e => e.2.launches.any fun l => l.die == ch / 4096 && doneOf l.bytes == some (ch % 4096)) ||
  s.queues.any fun e => e.1 / 65536 == ch / 4096 && e.2.named.any fun x => x.2 == ch % 4096

/-- A message is counted: DELIV rises; a counted completion message may clear DEVWRITER. -/
def countMessage (ch : Nat) (m : ChMsg) (s : State) : State :=
  let more := ((s.chan ch).flight ++ (s.chan ch).spill).any fun x => x.dev
  let keep := devWanted s ch || more
  s.updChan ch fun x => { x with deliv := x.deliv + 1, devwriter := x.devwriter && (!m.dev || keep) }

/-- Permits that stand at the writer side go to the proxy, and so does new room (R483). -/
def feedProxy (ch : Nat) (s : State) : State :=
  let c := s.chan ch
  if !c.remote then s
  else
    let p := if c.rbound && !c.raway && c.spilled == 0 then c.wpermits else 0
    let r := grantRoom s ch
    if p == 0 && r == 0 then s
    else sendGrant ch p r (s.updChan ch fun x => { x with wpermits := x.wpermits - p })

/-- Room has come free in the pool of a partition: every remote channel of it grants what it now can (R357, R483). -/
def feedPool (p : Nat) (s : State) : State :=
  ((s.chans.filter fun e => e.2.remote && e.2.part == p).map (·.1)).foldl (fun s ch => feedProxy ch s) s

/-- The message may move: its releases are complete (R363). -/
def msgFree (s : State) (m : ChMsg) : Bool :=
  match m.after with
  | some (st, mem, seq) => !releasesOpen s st mem seq
  | none => true

/-- A permit of a message is one of the current binding. -/
def permitLive (c : Chan) (m : ChMsg) : Bool := m.permit && m.binds == c.binds

/-- The oldest message in flight goes into the ring (R356); one of the dispatcher that found no place takes a
permit that has returned since (R360). -/
def messageDelivery (d n : Nat) (s : State) : State :=
  let ch := d * 4096 + n
  let c := s.chan ch
  match c.flight, readerSeat s ch with
  | m :: rest, some (k, sig) =>
    let late := m.dev && c.spill.isEmpty && c.wpermits != 0
    if !msgFree s m || !(permitLive c m || late) || m.k != c.deliv then s
    else
      let s := s.wakeDie d
      let s1 := countMessage ch m (landMessage k sig ((m.k : Int) - c.base) m.units m.poison
        (s.updChan ch fun x =>
          if permitLive c m then { x with flight := rest }
          else { x with flight := rest, wpermits := x.wpermits - 1
                        spilling := x.spilling && rest.any fun y => !y.permit }))
      if permitLive c m then s1 else feedPool c.part s1
  | _, _ => s

/-- The oldest message in flight goes into the cistern: one without a permit, one whose permit is void, or
one that finds its reader away, or unbound, whose permit is then held back (R352, R354, R358, R361). -/
def messageSpill (d n : Nat) (s : State) : State :=
  let ch := d * 4096 + n
  let c := s.chan ch
  match c.flight with
  | [] => s
  | m :: rest =>
    if !msgFree s m || (permitLive c m && c.rbound && !c.raway) then s
    else
      let place := c.segHead + c.spill.length
      let grown := if place / segMsgs c.width < c.segs.length then some c.segs
        else (freeSeg s c.part).map fun g => c.segs ++ [g]
      match grown with
      | none => s
      | some segs =>
        let c1 := { c with segs := segs }
        match (s.wakeDie d).agentWrite d c.part (request agentChan (2 * ch)) (segAddr s c1 place) (m.units.flatMap fun u => leBytes 32 u.toNat) with
        | (.wait, s1) => s1
        | (.fail, s1) => faultChan ch s1
        | (.ok _, s1) =>
          let home := permitLive c m && !c.rbound
          s1.updChan ch fun x =>
            { x with segs := segs, flight := rest, spilling := true, heldback := x.heldback + bit home
                     spill := x.spill ++ [{ m with units := [], permit := m.permit && !home }] }

/-- The 32-byte units of bytes. -/
def unitsOf : Nat → List Byte → List UnitW
  | 0, _ => []
  | n + 1, bs => BitVec.ofNat 256 (leNat (bs.take 32)) :: unitsOf n (bs.drop 32)

/-- After a drained message: segments return, SPILLING clears, the proxy hears of it, and the pool's room is granted. -/
def afterDrain (ch k : Nat) (s : State) : State :=
  let s1 := s.updChan ch fun x =>
    let h := x.segHead + 1
    if x.spilled = 0 then { x with spilling := false, segs := [], segHead := 0 }
    else if h ≥ segMsgs x.width then { x with segs := x.segs.drop 1, segHead := 0 }
    else { x with segHead := h }
  let c := s1.chan ch
  let s2 := if c.remote && c.spilled == 0 then
      s1.send (ch / 4096) 4 4 0 (c.wpkg.setWidth 18) (c.wpkg.toNat / 2 ^ 18 % 4) (s1.chanReg ch) 0 (leBytes 8 k)
    else s1
  feedPool c.part s2

/-- A permit carries the oldest spilled message into the ring (R357). -/
def cisternDrain (d n : Nat) (s : State) : State :=
  let ch := d * 4096 + n
  let c := s.chan ch
  match c.spill, readerSeat s ch with
  | m :: rest, some (k, sig) =>
    if m.k != c.deliv || (!permitLive c m && c.wpermits == 0) then s
    else
      match (s.wakeDie d).agentRead d c.part (request agentChan (2 * ch + 1)) (segAddr s c c.segHead) (32 * c.width) with
      | (.wait, s1) => s1
      | (.fail, s1) => faultChan ch s1
      | (.ok (bs, bad), s1) =>
        let poison := if bad then BitVec.allOnes 128 else m.poison
        let s2 := s1.updChan ch fun x =>
          { x with spill := rest, wpermits := if permitLive c m then x.wpermits else x.wpermits - 1 }
        afterDrain ch m.k (countMessage ch m (landMessage k sig ((m.k : Int) - c.base) (unitsOf c.width bs) poison s2))
  | _, _ => s

/-! Closing (R358, R360). -/

/-- A message that the writer of a proxy has sent is not acknowledged by the channel's die (R484). -/
def proxyPending (s : State) (p : Proxy) : Bool :=
  (s.fab.deferred.any fun x => x.1.cls == 0 && x.1.target == p.reg && (x.2.1, x.2.2.1) == p.writer) ||
  s.fab.flows.any fun f => f.out && f.cls == 0 && f.key == p.reg &&
    f.held.any fun w => w.op == 0 && decide (fieldAt w.payload 0 8 < p.sent)

/-- The reader's binding ends: permits in flight are held back, so that their messages follow through the cistern, and
the trigger is armed, to fire where messages had spilled before (R357, R358, R362). -/
def closeReader (ch : Nat) (s : State) : State :=
  let c := s.chan ch
  let live := fun (m : ChMsg) => bit (permitLive c m)
  let void := fun (m : ChMsg) => { m with permit := m.permit && !permitLive c m }
  let s1 := s.updChan ch fun x =>
    { x with rbound := false, reader := none, raway := false, armed := true
             heldback := x.heldback + ((x.flight ++ x.spill).map live).sum
             spilling := x.spilling || !x.flight.isEmpty
             flight := x.flight.map void, spill := x.spill.map void }
  if c.spilled > 0 then armTrigger ch s1 else s1

def closeWriter (ch : Nat) (s : State) : State :=
  s.updChan ch fun x =>
    { x with wbound := false, writer := none, remote := false, wpkg := 0, state := if x.state == 1 then 2 else x.state }

/-- Closed proxies whose messages are all acknowledged are removed. -/
def pruneProxies (s : State) : State :=
  { s with fab.proxies := s.fab.proxies.filter fun p => !p.closed || proxyPending s p }

/-- Close a proxy: the close travels as the last DATA message of its flow, behind those that wait for a release
(R485). -/
def closeProxy (p : Proxy) (s : State) : State :=
  let mark := fun (x : Proxy) => if x == p then { x with closed := true } else x
  let s1 := { s with fab.proxies := s.fab.proxies.map mark }
  let m : Wire := ⟨0, 1, p.cls, mkEnd s.pkgid p.die, mkEnd (regPkg p.reg) (regDie p.reg), 0, p.reg, s.epoch, 0,
    leBytes 8 p.sent, regDie p.reg⟩
  pruneProxies (if s1.fab.deferred.any fun x => x.1.cls == 0 && x.1.target == p.reg then
      { s1 with fab.deferred := s1.fab.deferred ++ [(m, p.writer.1, p.writer.2, 0)] }
    else sendWire m s1)

/-- Close every binding of a member (R360). -/
def closeBindings (st m : Nat) (s : State) : State :=
  let s1 := (s.chans.filter fun e => e.2.rbound &&
    match e.2.reader with
    | some r => r.1 == st && r.2.1 == m
    | none => false).foldl (fun s e => closeReader e.1 s) s
  let s2 := (s1.chans.filter fun e => e.2.wbound && !e.2.remote && e.2.writer == some (st, m)).foldl
    (fun s e => closeWriter e.1 s) s1
  (s2.fab.proxies.filter fun p => p.writer == (st, m) && !p.closed).foldl (fun s p => closeProxy p s) s2

/-- Mark the channels of a reader as away or back (R361). -/
def markAway (st m : Nat) (away : Bool) (s : State) : State :=
  (s.chans.filter fun e => e.2.rbound &&
    match e.2.reader with
    | some r => r.1 == st && r.2.1 == m
    | none => false).foldl (fun s e =>
      let s1 := s.updChan e.1 fun x => { x with raway := away }
      if away then s1 else feedProxy e.1 s1) s

/-! Sending (R354, R355, R360). -/

inductive SendPath
  | ring
  | cistern
  | none
deriving DecidableEq, Repr

def SendPath.status : SendPath → Nat
  | .ring => 0 | .cistern => 1 | .none => 2

/-- Path() of R354. -/
def chanPath (s : State) (ch : Nat) : SendPath :=
  let c := s.chan ch
  let spill := if cisternRoom s ch then SendPath.cistern else .none
  if c.spilling || c.spilled != 0 || !c.rbound || c.raway then spill
  else if c.wpermits > 0 then .ring else spill

/-- RemotePath() of R484. -/
def proxyPath (p : Proxy) : SendPath :=
  if !p.pspill && p.pcred > 0 then .ring else if p.scred > 0 then .cistern else .none

/-- Commit a message of the channel's own package. -/
def sendLocal (ch : Nat) (path : SendPath) (units : List UnitW) (poison : BitVec 128)
    (after : Option (Nat × Nat × Nat)) (s : State) : State :=
  let c := s.chan ch
  let m : ChMsg := ⟨c.sent, c.binds, units, poison, path == .ring, after, false⟩
  let s1 := (s.wakeDie (ch / 4096)).updChan ch fun x =>
    { x with sent := x.sent + 1, flight := x.flight ++ [m]
             wpermits := if path = .ring then x.wpermits - 1 else x.wpermits
             spilling := x.spilling || path == .cistern }
  if c.rbound then s1 else armTrigger ch s1

/-- A completion message of the dispatcher: without a permit it spills outside QUOTA (R360). -/
def sendDevice (ch : Nat) (bs : List Byte) (s : State) : State :=
  let c := s.chan ch
  let ring := !c.spilling && c.spilled == 0 && c.rbound && !c.raway && decide (c.wpermits > 0)
  let m : ChMsg := ⟨c.sent, c.binds, unitsOf c.width (padTo (32 * c.width) bs), 0, ring, none, true⟩
  let s1 := (s.wakeDie (ch / 4096)).updChan ch fun x =>
    { x with sent := x.sent + 1, flight := x.flight ++ [m]
             wpermits := if ring then x.wpermits - 1 else x.wpermits
             spilling := x.spilling || !ring }
  if c.rbound then s1 else armTrigger ch s1

/-- The source of a CHSEND (R355): the traps of check 6 of R351. -/
def sourceTrap (t : Tap) : Option Cause :=
  if !t.inLag then some (sigCause 0x04 t.n (some t.idx))
  else if t.off < 0 then some (sigCause 0x08 t.n (some t.idx)) else none

/-- The units of a message and their poison. -/
def sourceUnits (s : State) (k : Nat) (c : Ctx) (t : Tap) (w : Nat) : List UnitW × BitVec 128 :=
  ((List.range w).map (unitWord s k c t),
    BitVec.ofNat 128 (((List.range (min w t.g.width.toNat)).map fun u =>
      if !t.prehistory && t.unitBad s k c u then 2 ^ u else 0).sum))

/-- Bits 63:32 of a channel register are zero (R350). -/
def regTrap (r : Word) : Option Cause := if r.toNat < 2 ^ 32 then none else some (cause 0x01)
def chanTrap (r : Word) : Cause := ⟨0x12, r, 0⟩
def isRemote (s : State) (r : Word) : Bool := regPkg r != s.pkgid

/-- Check 4 of R351. -/
def chanUsable (s : State) (k : Nat) (r : Word) : Bool :=
  let c := s.chan (regKey r)
  c.state != 0 && c.state != 3 && c.part == s.partOf k

def State.proxy (s : State) (k : Nat) (r : Word) : Option Proxy :=
  s.fab.proxies.find? fun p => p.reg == r && p.die == dieOf k && p.writer == (s.stepKey k, s.memberNo k) && !p.closed

def updProxy (r : Word) (w : Nat × Nat) (f : Proxy → Proxy) (s : State) : State :=
  let one := fun (p : Proxy) => if p.reg == r && p.writer == w && !p.closed then f p else p
  { s with fab.proxies := s.fab.proxies.map one }

/-- Commit a message to a channel of another package (R484): credit, then the DATA message. -/
def sendRemoteMsg (k : Nat) (r : Word) (path : SendPath) (units : List UnitW) (poison : BitVec 128) (seq : Nat)
    (s : State) : State :=
  match s.proxy k r with
  | none => s
  | some p =>
    let w := p.writer
    let s1 := if path = .ring then updProxy r w (fun x => { x with pcred := x.pcred - 1, sent := x.sent + 1 }) s
      else
        let s0 := if p.pspill || p.pcred = 0 then s
          else s.send p.die 4 3 0 (regPkg r) (regDie r) r 0
            (leBytes 4 p.pcred ++ leBytes 4 0 ++ leBytes 4 p.binds.toNat ++ leBytes 4 1)
        updProxy r w (fun x => { x with scred := x.scred - 1, pspill := true, pcred := if p.pspill then x.pcred else 0,
                                        sent := x.sent + 1 }) s0
    let body := leBytes 8 p.sent ++ leBytes 4 (bit (path == .cistern)) ++ leBytes 4 p.binds.toNat ++
      leBytes 16 poison.toNat ++ units.flatMap fun u => leBytes 32 u.toNat
    let m : Wire := ⟨0, 0, p.cls, mkEnd s.pkgid p.die, mkEnd (regPkg r) (regDie r), 0, r, s.epoch, 0, body, regDie r⟩
    if releasesOpen s1 w.1 w.2 seq || (s1.fab.deferred.any fun x => x.1.cls == 0 && x.1.target == r) then
      { s1 with fab.deferred := s1.fab.deferred ++ [(m, w.1, w.2, seq)] }
    else sendWire m s1

/-- The scope of the release that a WSEND performs (R488). -/
def workScope (s : State) (w : Wire) : Nat := if (endPkg w.dst).toNat / 2 ^ 10 = s.pkgid.toNat / 2 ^ 10 then 4 else 5

/-- A release still holds a deferred message: those accepted earlier for a channel message (R363), its own over
every class for a waybill (R488). -/
def deferredHeld (s : State) (x : Wire × Nat × Nat × Nat) : Bool :=
  if x.1.cls == 1 then
    releaseOpen s (x.2.1 / 16384) (s.memberCtx x.2.1 x.2.2.1) x.2.2.2 (workScope s x.1) 0xFF
  else releasesOpen s x.2.1 x.2.2.1 x.2.2.2

/-- Send deferred messages whose releases are complete, in order per channel and queue. -/
def flushDeferred : Nat → State → State
  | 0, s => s
  | n + 1, s =>
    match takeFirst (fun (x : Wire × Nat × Nat × Nat) => !deferredHeld s x &&
        (s.fab.deferred.find? fun y => y.1.cls == x.1.cls && y.1.target == x.1.target) == some x) s.fab.deferred with
    | some (x, rest) => flushDeferred n (sendWire x.1 { s with fab.deferred := rest })
    | none => s

def State.flush (s : State) : State := flushDeferred s.fab.deferred.length s

/-- CHSEND and CHSEND.try (R351, R354, R484). -/
def chsendSlot (tri : Bool) (g : Guard) (n : BitVec 7) (ra rd : BitVec 6) (k : Nat) (s : State) : SlotOut :=
  let c := s.ctx k
  let r := c.s ra
  let t := resolve c n 0
  let remote := isRemote s r
  let px := s.proxy k r
  let ch := regKey r
  let own := if remote then px.any fun p => !p.fault
    else chanUsable s k r && (s.chan ch).writer == some (s.stepKey k, s.memberNo k) && !(s.chan ch).remote &&
      (s.chan ch).state == 1
  let usable := t.g.present && (regTrap r).isNone && own && (sourceTrap t).isNone
  let width := if remote then (px.map fun p => p.width).getD 0 else (s.chan ch).width
  let path := if remote then (px.map proxyPath).getD .none else chanPath s ch
  let num := if remote then (px.map fun p => p.sent).getD 0 else (s.chan ch).sent
  let body := sourceUnits s k c t width
  let after := (s.stepKey k, s.memberNo k, c.eng.nextSeq)
  let stop := usable && path == .none && !tri
  let early := t.g.present && (sourceTrap t).isNone && decide (0 ≤ t.idx) && decide (t.idx > t.g.fillMark)
  guarded g c { sResult k rd 1 (sUse ra ++ [.sample n.toNat t.idx]) (BitVec.ofNat 64 (num * 256 + path.status)) with
    hold := if early then .unfilled else if stop then .outside else .free
    listed := true
    lacks := if early then [(n, t.idx)] else []
    other := stop || t.g.feed == 0
    sendReg := if stop then some r else none
    onHold := if stop && !remote && !(s.chan ch).rbound then armTrigger ch else id
    trap := (absentTrap c n).or ((regTrap r).or ((if own then none else some (chanTrap r)).or (sourceTrap t)))
    accept := if path = .none then id
      else if remote then sendRemoteMsg k r path body.1 body.2 c.eng.nextSeq
      else sendLocal ch path body.1 body.2 (some after)
    traffic := (width + 1) / 2
    units := if t.live then (List.range (min width t.g.width.toNat)).map (s.unitOf k t.g t.slot) else [] }

def slotChsend := chsendSlot false
def slotChsendTry := chsendSlot true

/-! Binding (R352, R353, R485). -/

/-- The result of a reader CHBIND. -/
def bindResult (s : State) (k : Nat) (n : BitVec 7) (ch : Nat) : Nat :=
  let c := s.chan ch
  let g := (s.ctx k).sg n
  if c.rbound then 1
  else if g.width.toNat != c.width then 2
  else if g.head != 0 || g.fillMark != -1 then 3
  else if attached s k (s.ctx k) n then 4 else 0

/-- A reader binding: every permit is counted afresh. -/
def bindReader (k : Nat) (n : BitVec 7) (ch : Nat) (s : State) : State :=
  let g := (s.ctx k).sg n
  let s1 := s.updChan ch fun x =>
    { x with rbound := true, reader := some (s.stepKey k, s.memberNo k, n.toNat), armed := false, raway := false
             binds := x.binds + 1, base := x.deliv, wpermits := g.ahead.toNat + 1
             heldback := g.depth.toNat - 1, permOut := 0, back := 0
             trigPending := x.trigPending && !x.trigNow }
  let c := s1.chan ch
  if c.remote then
    let p := if c.spilled = 0 then c.wpermits else 0
    sendGrant ch p 0 (s1.updChan ch fun x => { x with wpermits := x.wpermits - p })
  else s1

def slotChbind (g : Guard) (n : BitVec 7) (ra rd : BitVec 6) (k : Nat) (s : State) : SlotOut :=
  let c := s.ctx k
  let r := c.s ra
  let sg := c.sg n
  let ch := regKey r
  let res := bindResult s k n ch
  guarded g c { sResult k rd 1 (sUse ra) (BitVec.ofNat 64 res) with
    trap := (absentTrap c n).or ((regTrap r).or
      ((if sg.feed == 3 && sg.rate == 255 then none else some (cause 0x01)).or
        (if !isRemote s r && regDie r == dieOf k && chanUsable s k r then none else some (chanTrap r))))
    accept := if res = 0 then bindReader k n ch else id }

/-- Make a member the writer (R353). -/
def bindWriter (ch : Nat) (w : Nat × Nat) (s : State) : State :=
  s.updChan ch fun x =>
    { x with wbound := true, writer := some w, remote := false, wpkg := 0, state := if x.state == 2 then 1 else x.state }

/-- A request of this form is that of a bundle: of its code, the continuation code or the other. -/
def RemoteWait.asks (c : Ctx) (stat : Bool) (r : Word) (w : RemoteWait) : Bool :=
  w.stat == stat && w.reg == r && w.cont == c.bud.incont

/-- The reply that a held remote request of this form has received. -/
def remoteReply (c : Ctx) (stat : Bool) (r : Word) : Option Word :=
  (c.wait.remote.find? (RemoteWait.asks c stat r)).bind (·.reply)

/-- Send the request of a held CHBIND.w or CHSTAT once (R485, R495). DESIGN CHOICE (log 135): continuation code sends one of
its own. -/
def sendRequest (k : Nat) (stat : Bool) (r : Word) (s : State) : State :=
  let c := s.ctx k
  if c.wait.remote.any (RemoteWait.asks c stat r) then s
  else
    let (tag, s1) := s.newTag
    let st := s.stepKey k
    let m := s.memberNo k
    let q : Req := ⟨tag, regPkg r, st, (s.step1 st).uid, m, if stat then .stat else .bind⟩
    let body := if stat then [] else leBytes 4 ((s.step1 st).task % 4096 + m * 4096) ++ leBytes 4 0
    (({ s1 with fab.reqs := s1.fab.reqs ++ [q] } : State).updCtx k fun c =>
      { c with wait.remote := c.wait.remote ++ [⟨tag, c.bud.incont, stat, r, none⟩] }).send (dieOf k) 4
        (if stat then 5 else 1) 0 (regPkg r) (regDie r) r tag body

/-- A request on a remote channel has no answer to wait for: its proxy has faulted, or its package is lost (R492). -/
def remoteLost (s : State) (k : Nat) (r : Word) : Bool :=
  ((s.proxy k r).any fun p => p.fault) || (s.peer (regPkg r)).lost

/-- The bundle has taken the reply. -/
def clearRemote (k : Nat) (stat : Bool) (r : Word) (s : State) : State :=
  s.updCtx k fun c => { c with wait.remote := c.wait.remote.filter fun w => !w.asks c stat r }

def slotChbindW (g : Guard) (ra rd : BitVec 6) (k : Nat) (s : State) : SlotOut :=
  let c := s.ctx k
  let r := c.s ra
  let ch := regKey r
  if isRemote s r then
    let reply := remoteReply c false r
    let lost := remoteLost s k r
    let wait := (regTrap r).isNone && !lost && reply.isNone
    guarded g c { sResult k rd 1 (sUse ra) (reply.getD 0) with
      hold := if wait then .outside else .free
      onHold := if wait then sendRequest k false r else id
      trap := (regTrap r).or (if lost then some (chanTrap r) else none)
      accept := clearRemote k false r }
  else
    let ok := !(s.chan ch).wbound && !(s.chan ch).devwriter
    guarded g c { sResult k rd 1 (sUse ra) (if ok then 0 else 1) with
      trap := (regTrap r).or (if chanUsable s k r then none else some (chanTrap r))
      accept := if ok then bindWriter ch (s.stepKey k, s.memberNo k) else id }

/-! CHCLOSE and CHSTAT (R358, R366, R485). -/

def slotChclose (g : Guard) (ra rd : BitVec 6) (k : Nat) (s : State) : SlotOut :=
  let c := s.ctx k
  let r := c.s ra
  let ch := regKey r
  let mine := !isRemote s r && (s.chan ch).rbound &&
    match (s.chan ch).reader with
    | some x => x.1 == s.stepKey k && x.2.1 == s.memberNo k
    | none => false
  guarded g c { sResult k rd 1 (sUse ra) (if mine then 0 else 1) with
    trap := (regTrap r).or (if isRemote s r || chanUsable s k r then none else some (chanTrap r))
    accept := if mine then closeReader ch else id }

def slotChcloseW (g : Guard) (ra rd : BitVec 6) (k : Nat) (s : State) : SlotOut :=
  let c := s.ctx k
  let r := c.s ra
  let ch := regKey r
  let px := s.proxy k r
  if isRemote s r then
    guarded g c { sResult k rd 1 (sUse ra) (if px.isSome then 0 else 1) with
      trap := (regTrap r).or (if px.any fun p => p.fault then some (chanTrap r) else none)
      accept := match px with
        | some p => fun s => closeProxy p s
        | none => id }
  else
    let mine := (s.chan ch).wbound && !(s.chan ch).remote && (s.chan ch).writer == some (s.stepKey k, s.memberNo k)
    guarded g c { sResult k rd 1 (sUse ra) (if mine then 0 else 1) with
      trap := (regTrap r).or (if chanUsable s k r then none else some (chanTrap r))
      accept := if mine then closeWriter ch else id }

/-- The status word of R366. -/
def statusWord (c : Chan) : Word :=
  BitVec.ofNat 64 (min c.wpermits 65535 * 2 ^ 48 + min c.spilled 65535 * 2 ^ 32 + c.quota % 65536 * 2 ^ 16 +
    bit c.spilling * 64 + bit c.raway * 32 + bit c.wbound * 16 + bit c.rbound * 8 + c.state.toNat % 8)

/-- A remote status word with WPERMITS replaced by PCRED (R485). -/
def withPcred (x : Word) (p : Option Proxy) : Word :=
  match p with
  | some p => BitVec.ofNat 64 (x.toNat % 2 ^ 48 + min p.pcred 65535 * 2 ^ 48)
  | none => x

def slotChstat (g : Guard) (ra rd : BitVec 6) (k : Nat) (s : State) : SlotOut :=
  let c := s.ctx k
  let r := c.s ra
  if isRemote s r then
    let reply := remoteReply c true r
    let lost := remoteLost s k r
    let wait := (regTrap r).isNone && !lost && reply.isNone
    guarded g c { sResult k rd 1 (sUse ra) (withPcred (reply.getD 0) (s.proxy k r)) with
      hold := if wait then .outside else .free
      onHold := if wait then sendRequest k true r else id
      trap := (regTrap r).or (if lost then some (chanTrap r) else none)
      accept := clearRemote k true r }
  else
    guarded g c { sResult k rd 1 (sUse ra) (statusWord (s.chan (regKey r))) with
      trap := (regTrap r).or (if chanUsable s k r then none else some (chanTrap r)) }

/-! The detector and the audit (R364, R365). -/

/-- Seats of a die that run a step of a partition. -/
def partSeats (s : State) (d p : Nat) : List Nat :=
  (List.range 128).filterMap fun j =>
    let k := d * 128 + j
    if (s.seat k).step.isSome && s.partOf k == p then some k else none

/-- Everything of a partition that counts as progress. -/
def progressOf (s : State) (d p : Nat) : List Nat :=
  let chans := (s.chans.filter fun e => e.2.part == p).flatMap fun e =>
    [e.2.sent, e.2.deliv, e.2.wpermits + e.2.back, e.2.heldback, e.2.spill.length, e.2.flight.length, e.2.permOut, e.2.roomOut]
  let seats := (partSeats s d p).flatMap fun k =>
    let c := s.ctx k
    c.wait.barriers :: c.eng.taken :: ((c.sig.table.filter fun e => e.2.feed != 0).map fun e => (e.2.fillMark + 1).toNat) ++
      c.eng.handles.flatMap fun e => [e.2.progress.toNat, e.2.state.toNat]
  let proxies := (s.fab.proxies.filter fun x => x.die == d && (s.task (s.step1 x.writer.1).task).part == p).flatMap
    fun x => [x.sent, x.pcred, x.scred]
  chans ++ seats ++ proxies

/-- A sample of a partition is stalled but for progress (R364). -/
def allStuck (s : State) (d p : Nat) : Bool :=
  ((partSeats s d p).all fun k => (s.seat k).phase == .running && (s.ctx k).wait.stuck) &&
  (s.steps.all fun e =>
    let t := s.task e.2.task
    e.1 / 16384 != d || !e.2.present || t.part != p || e.2.parked.isSome ||
      (e.2.ready.isNone && e.2.members.any fun m => match m.place with
        | .onSeat _ => true
        | .unplaced => false
        | .away => false
        | .ended => false))

/-- The partition has a step on the die. -/
def partBusy (s : State) (d p : Nat) : Bool :=
  s.steps.any fun e => e.1 / 16384 == d && e.2.present && (s.task e.2.task).part == p

def canGrow (s : State) (ch : Nat) : Bool :=
  let c := s.chan ch
  decide (c.quota < c.qmax) && poolFree s c.part != 0

def growChan (ch : Nat) (s : State) : State :=
  if canGrow s ch then
    feedProxy ch (s.updChan ch fun x => { x with quota := min (max 1 (2 * x.quota)) x.qmax })
  else s

/-- The sends that hold the seats of a partition. -/
def heldSends (s : State) (d p : Nat) : List Word :=
  ((partSeats s d p).filterMap fun k => (s.ctx k).wait.sendReg).dedup

/-- The detector raises its event, once until the partition progresses. -/
def raiseStall (d p : Nat) (s : State) : State :=
  if (s.die d).detRaised.contains p then s
  else (s.updDie d fun y => { y with detRaised := p :: y.detRaised }).post 6 d p (leBytes 4 p)

def deadlockSample (d p : Nat) (s : State) : State :=
  let x := s.die d
  let now := progressOf s d p
  if !allStuck s d p || !partBusy s d p || x.progress.get [] p != now then
    s.updDie d fun y => { y with progress := y.progress.set [] p now, stalled := y.stalled.set 0 p 0,
                                 detRaised := if y.progress.get [] p != now then y.detRaised.filter (· != p) else y.detRaised }
  else
    let n := x.stalled.get 0 p + 1
    if n < 3 || x.detRaised.contains p then s.updDie d fun y => { y with stalled := y.stalled.set 0 p n }
    else
      let full := heldSends s d p
      let grow := full.filter fun r => isRemote s r || canGrow s (regKey r)
      let s1 := s.updDie d fun y => { y with stalled := y.stalled.set 0 p 0 }
      if grow.isEmpty then raiseStall d p s1
      else grow.foldl (fun s r =>
        if isRemote s r then s.send d 4 7 0 (regPkg r) (regDie r) r 0 [] else growChan (regKey r) s) s1

/-- Ring slots of a channel reader that hold counted samples from index 0 not yet retired. -/
def occupied (g : Sig) : Nat :=
  let low := max 0 ((g.head.toNat : Int) - g.depth.toNat + 1)
  (g.fillMark - low + 1).toNat

/-- The permit count of a bound channel whose reader stands on a seat, with its N (R365). -/
def permitCount (s : State) (ch : Nat) : Option (Nat × Nat) :=
  let c := s.chan ch
  match c.reader with
  | some (st, m, n) =>
    if c.rbound then
      let g := (s.memberCtx st m).sg (BitVec.ofNat 7 n)
      let inFlight := ((c.flight ++ c.spill).filter fun x => permitLive c x).length
      some (c.wpermits + c.back + c.permOut + c.heldback + inFlight + occupied g, g.slots)
    else none
  | none => none

/-- The count of a connected stream (R295): permits at the source, in flight, and on the occupied slots of the
mirror, those of prehistory included. -/
def streamCount (s : State) (x : Stream) : Nat × Nat :=
  let g := (s.ctx x.dst).sg (BitVec.ofNat 7 x.sig)
  let low := g.top - (g.slots : Int)
  (x.permits + bit x.carry.isSome + (g.fillMark - low).toNat, g.slots)

def permitAudit (d : Nat) (s : State) : State :=
  let bad := (s.chans.filter fun e => e.1 / 4096 == d).filter fun e =>
    match permitCount s e.1 with
    | some (x, n) => x != n
    | none => false
  let s1 := bad.foldl (fun s e => s.post 5 d e.2.part (leBytes 4 (e.1 % 4096))) s
  ((s.die d).streams.filter fun x => (streamCount s x).1 != (streamCount s x).2).foldl
    (fun s x => s.post 5 d (s.partOf x.dst) (leBytes 4 x.src ++ leBytes 4 x.dst)) s1

end Sys2Proof.Machine
end

