-- ==== Sys2Proof/Machine/Waybill.lean ====
section
/-!
DEFINITION. The records of the dispatcher: waybill, image, queue record, completion (R27, R145, R146, R317,
R327 to R329, R336).
-/
namespace Sys2Proof.Machine
open Sys2Proof

/-- Put bytes at an offset. -/
def patchBytes (bs : List Byte) (o : Nat) (new : List Byte) : List Byte :=
  bs.take o ++ new ++ bs.drop (o + new.length)

/-! The waybill. -/

def parseWaybill (bs : List Byte) : Waybill :=
  let g := fieldAt bs 0x24 4
  let done := fieldAt bs 0x54 4
  let fl := fieldAt bs 0x58 4
  let par := fieldAt bs 0x60 8
  { entry := BitVec.ofNat 64 (fieldAt bs 0 8)
    table := BitVec.ofNat 64 (fieldAt bs 8 8)
    params := BitVec.ofNat 64 (fieldAt bs 0x10 8)
    walk := (List.range 6).map fun l => fieldAt bs (0x18 + 2 * l) 2
    size := g % 32
    fused := g / 2 ^ 10 % 2 == 1
    seatSel := g / 2 ^ 11 % 4
    share := g / 2 ^ 15 % 32
    ibud := fieldAt bs 0x28 8
    tbud := fieldAt bs 0x30 8
    priv := BitVec.ofNat 3 (fieldAt bs 0x38 8)
    purse := fieldAt bs 0x40 8
    graph := BitVec.ofNat 64 (fieldAt bs 0x48 8)
    convoy := fieldAt bs 0x50 2
    done := if done / 2 ^ 31 = 1 then some (done % 4096) else none
    restart := fl % 2 == 1
    borrowed := fl / 2 % 2 == 1
    parent := if par / 2 ^ 63 = 1 then some (par / 2 ^ 16 % 4, par % 4096) else none }

/-- Steps of a task (R331). -/
def Waybill.count (w : Waybill) : Nat := w.walk.prod

/-- Reserved fields and bits of a waybill are zero. -/
def waybillClean (bs : List Byte) : Bool :=
  let g := fieldAt bs 0x24 4
  let par := fieldAt bs 0x60 8
  fieldAt bs 0 8 < 2 ^ 48 && fieldAt bs 0 8 % 8 == 0 &&
  g < 2 ^ 20 && g / 2 ^ 13 % 4 == 0 && g / 2 ^ 5 % 32 == 0 &&
  fieldAt bs 0x28 8 < 2 ^ 48 && fieldAt bs 0x30 8 < 2 ^ 48 && fieldAt bs 0x38 8 < 8 &&
  fieldAt bs 0x50 4 < 2 ^ 16 && fieldAt bs 0x54 4 / 2 ^ 12 % 2 ^ 19 == 0 && fieldAt bs 0x58 4 < 4 &&
  fieldAt bs 0x5C 4 == 0 && par / 2 ^ 18 % 2 ^ 45 == 0 && par / 2 ^ 12 % 16 == 0 && fieldAt bs 0x68 24 == 0

/-- Check 1 of R329; device says that PARENT and BORROWED may be set. -/
def waybillOk (bs : List Byte) (device : Bool) : Bool :=
  let w := parseWaybill bs
  waybillClean bs && w.table.toNat % 64 == 0 && w.graph.toNat % 64 == 0 &&
  1 ≤ w.size && w.size ≤ 16 && w.seatSel != 3 &&
  (!w.fused || [1, 2, 4, 8, 16].contains w.size) && w.walk.all (1 ≤ ·) &&
  1 ≤ w.ibud && 1 ≤ w.tbud && 1 ≤ w.purse && w.purse ≤ 2 ^ 63 &&
  (device || (fieldAt bs 0x60 8 == 0 && !w.borrowed))

/-! Signal descriptors (R145). -/

def Sig.ofNat (x : Nat) : Sig :=
  { init := fld x 0 1, feed := fld x 1 2, planes := fld x 3 4, format := fld x 7 4, scalesig := fld x 11 7,
    block := fld x 18 8, phase := fld x 26 8, rate := fld x 34 8, ahead := fld x 42 8, width := fld x 50 8,
    depth := fld x 58 16, base := fld x 74 16, lstride := fld x 90 48, estride := fld x 138 48, fill := fld x 186 17,
    head := fld x 203 44 }

def Sig.toNat (g : Sig) : Nat :=
  put 0 g.init + put 1 g.feed + put 3 g.planes + put 7 g.format + put 11 g.scalesig + put 18 g.block + put 26 g.phase +
  put 34 g.rate + put 42 g.ahead + put 50 g.width + put 58 g.depth + put 74 g.base + put 90 g.lstride +
  put 138 g.estride + put 186 g.fill + put 203 g.head

/-- The 127 descriptors of an image (R27, R146). -/
def parseImage (bs : List Byte) : Sparse Sig :=
  (List.range 127).foldl (fun t n => t.set {} n (Sig.ofNat (fieldAt bs (32 * n) 32))) []

/-- A present descriptor meets the limits of R145 and R165. -/
def Sig.legal (g : Sig) : Bool :=
  g.width.toNat ≤ 128 && g.format.toNat ≤ 6 &&
  (if g.isTicked then g.phase.toNat < g.rate.toNat else g.phase == 0) &&
  (if g.format == 4 then 2 ≤ g.planes.toNat && g.planes.toNat ≤ 8 else g.planes == 8) &&
  g.block.toNat / 16 + g.block.toNat % 16 == 6 && (g.feed != 3 || g.rate == 255) && (!g.isTable || g.head == 0)

/-- The image passes R146 for a share of the given units. -/
def imageOk (t : Sparse Sig) (share : Nat) : Bool :=
  t.all fun e => !e.2.present || (e.2.legal && e.2.fits share)

/-! Queues (R317, R342). -/

/-- Entries written and not yet taken. -/
def Queue.left (q : Queue) : Nat := (q.tail - q.live).toNat
def Queue.size (q : Queue) : Nat := 2 ^ q.sizelog
def Queue.full (q : Queue) : Bool := q.size ≤ q.left
/-- The address of entry k. -/
def Queue.slotAddr (q : Queue) (k : BitVec 32) : Nat := q.ring.toNat + 128 * (k.toNat % q.size)

/-- The queue record of R317. -/
def Queue.bytes (q : Queue) : List Byte :=
  padTo 64 (leBytes 8 q.ring.toNat ++ leBytes 4 q.tail.toNat ++ leBytes 4 q.out.toNat ++ leBytes 1 q.sizelog ++
    leBytes 1 (bit q.mapped + 2 * bit q.overrun + 4 * bit q.device) ++ leBytes 1 q.slot ++ leBytes 1 q.part)

/-- A queue error event (R453): the queue with its die, and a value. -/
def queueError (q : Nat) (part value : Nat) (s : State) : State :=
  s.post 3 (q / 65536) part (leBytes 4 q ++ leBytes 4 value)

/-- Write the record of a queue; an update that fails raises a queue error, one that waits is made when its
fault ends (R413). -/
def putQueueRec (q : Nat) (s : State) : State :=
  let x := s.queue q
  match s.agentWrite (q / 65536) x.part (dispRequest 0 q) x.record.toNat x.bytes with
  | (.ok _, s1) => s1.updQueue q fun y => { y with recWait := false, taken := y.out }
  | (.wait, s1) => s1.updQueue q fun y => { y with recWait := true }
  | (.fail, s1) => queueError q x.part x.tail.toNat (s1.updQueue q fun y => { y with recWait := false })

/-- The channel that an entry of a queue names as DONE gets the dispatcher as its writer. -/
def nameDone (q p : Nat) (bs : List Byte) (s : State) : State :=
  match doneOf bs with
  | some c => setDevwriter (q / 65536 * 4096 + c) p s
  | none => s

/-- Write an entry at the tail and advance it (R342, R362, R489); a full ring waits. -/
def putEntry (q : Nat) (bs : List Byte) (o : Origin) (s : State) : XferRes Nat × State :=
  let x := s.queue q
  if x.full then (.wait, s)
  else
    match s.agentWrite (q / 65536) x.part (dispRequest 1 q) (x.slotAddr x.tail) bs with
    | (.wait, s1) => (.wait, s1)
    | (.fail, s1) => (.fail, s1)
    | (.ok _, s1) =>
      (.ok x.tail.toNat, nameDone q x.part bs (putQueueRec q ((s1.wakeDie (q / 65536)).updQueue q fun y =>
        { y with tail := y.tail + 1, pending := y.pending || !y.mapped,
                 origins := y.origins.set .host y.tail.toNat o
                 named := match doneOf bs with
                   | some c => y.named ++ [(y.tail.toNat, c)]
                   | none => y.named })))

/-! Budgets (R336). -/

/-- Add to a reserve, at most 2^64 − 1. -/
def satAdd (x : Word) (n : Nat) : Word := BitVec.ofNat 64 (min (x.toNat + n) (2 ^ 64 - 1))

def addReserve (p i t : Nat) (s : State) : State :=
  s.updPart p fun x => { x with ibud := satAdd x.ibud i, tbud := satAdd x.tbud t }

/-- Draw budgets from a reserve, or nothing. -/
def drawReserve (p i t : Nat) (s : State) : Option State :=
  let x := s.part p
  if i ≤ x.ibud.toNat && t ≤ x.tbud.toNat then
    some (s.updPart p fun x => { x with ibud := x.ibud - BitVec.ofNat 64 i, tbud := x.tbud - BitVec.ofNat 64 t })
  else none

/-- Give a member budget up to 2^47 − 1: the context and what is left over. RUN ends with DUE (R99). -/
def Ctx.giveBudget (c : Ctx) (i t : Nat) : Ctx × Nat × Nat :=
  let roomI := (2 ^ 47 - 1 - c.bud.ibud.toInt).toNat
  let roomT := (2 ^ 47 - 1 - c.bud.tbud.toInt).toNat
  let c1 := { c with bud.ibud := capAdd c.bud.ibud i, bud.tbud := capAdd c.bud.tbud t }
  ({ c1 with bud.run := if c1.due then c1.bud.run else 0 }, i - roomI, t - roomT)

/-- The disposition of a trap is carried out: what has come to the member since counts (R269). -/
def settleOwed (st m : Nat) (s : State) : State :=
  let c := s.memberCtx st m
  if c.bud.owedI = 0 && c.bud.owedT = 0 then s
  else
    let r := c.giveBudget c.bud.owedI c.bud.owedT
    addReserve (s.task (s.step1 st).task).part r.2.1 r.2.2
      (s.updMemberCtx st m fun _ => { r.1 with bud.owedI := 0, bud.owedT := 0 })

/-- The step that launched a task still lives. -/
def originLives (s : State) : Origin → Bool
  | .launch st uid _ _ _ => (s.step1 st).present && (s.step1 st).uid == uid
  | .host => false
  | .reserve _ _ _ => false

/-- Return unused budget: into the launching member, else to the reserve (R336); the budgets of a trapped member do not
rise before its disposition (R269). -/
def returnBudget (p : Nat) (o : Origin) (i t : Nat) (s : State) : State :=
  match o with
  | .launch st _ m _ _ =>
    if originLives s o then
      if memberStuck s st m then s.updMemberCtx st m (Ctx.gain true i t)
      else
      let r := (s.memberCtx st m).giveBudget i t
      addReserve p r.2.1 r.2.2 (s.updMemberCtx st m fun _ => r.1)
    else addReserve p i t s
  | .host => addReserve p i t s
  | .reserve _ _ _ => addReserve p i t s

/-! Completion (R336, R339, R360). -/

def completionRecord (d : Nat) (t : Task) : List Byte :=
  leBytes 1 t.status ++ leBytes 1 (if t.status = 1 then t.code.toNat else 0) ++ leBytes 2 0 ++
  leBytes 4 (d * 65536 + t.queue % 65536) ++ leBytes 8 t.index.toNat ++
  leBytes 8 (if t.status = 1 then t.bundle.toNat else 0) ++ leBytes 4 t.exited ++ leBytes 4 t.restarts

/-- Send the completion record on DONE and free the task record. -/
def finishTask (t : Nat) (s : State) : State :=
  let x := s.task t
  let d := t / 4096
  let s1 := match x.wb.done with
    | none => s
    | some c =>
      let ch := d * 4096 + c
      if (s.chan ch).state != 0 && (s.chan ch).part == x.part then sendDevice ch (completionRecord d x) s
      else queueError x.queue x.part x.index.toNat s
  s1.updTask t fun _ => {}

/-- A task completes: its weight returns first, then the record goes out (R339, R385). -/
def completeTask (t : Nat) (s : State) : State :=
  if (s.task t).wb.graph == 0 then finishTask t s
  else (s.updTask t fun x => { x with finishing := true }).updDie (t / 4096) fun d =>
    { d with returns := d.returns ++ [t] }

/-- The task completes once nothing of it is left. -/
def checkTask (t : Nat) (s : State) : State :=
  let x := s.task t
  if x.present && !x.finishing && x.next == x.steps && x.retired == x.steps then completeTask t s else s

end Sys2Proof.Machine
end

