-- ==== Sys2Proof/Machine/NearMem.lean ====
section
/-!
DEFINITION. Near-memory commands (R390, R430 to R441).
-/
namespace Sys2Proof.Machine
open Sys2Proof

/-! Records (R433, R438). -/

def nmGranules (r : List Byte) : Nat := fieldAt r 0 4
def nmOp (r : List Byte) : Nat := fieldAt r 4 4 % 16
def nmFormat (r : List Byte) : FFmt :=
  match fieldAt r 4 4 / 16 % 16 with
  | 0 => fp32
  | 1 => fp16
  | _ => bf16
def nmDst (r : List Byte) : Nat := fieldAt r 8 8
def nmSrc (r : List Byte) : Nat := fieldAt r 0x10 8
def nmDone (r : List Byte) : Nat := fieldAt r 0x28 8

/-- Check 4 of R432 for NMCMD. -/
def nmRecordOk (r : List Byte) : Bool :=
  let ctl := fieldAt r 4 4
  let op := nmOp r
  let plain := op == 1 || op == 2
  1 ≤ nmGranules r && nmGranules r < 2 ^ 24 && ctl < 2 ^ 11 && op ≤ 3 && ctl / 16 % 16 ≤ 2 &&
  (!plain || (ctl / 16 % 16 == 0 && fieldAt r 0x18 8 == 0)) && (op != 3 || fieldAt r 0x1C 4 == 0) &&
  nmDst r % 64 == 0 && nmSrc r % 64 == 0 && (op != 2 || nmSrc r == 0) && (op == 2 || fieldAt r 0x20 8 == 0) &&
  nmDone r % 16 == 0 && fieldAt r 0x30 16 == 0

def atOp (r : List Byte) : Nat := fieldAt r 0 4 % 16
def atSize (r : List Byte) : Nat := if fieldAt r 0 4 / 16 % 2 = 1 then 8 else 4
def atAddr (r : List Byte) : Nat := fieldAt r 8 8
def atResult (r : List Byte) : Nat := fieldAt r 0x20 8

/-- Check 4 of R432 for NMATOM. -/
def atRecordOk (r : List Byte) : Bool :=
  let ctl := fieldAt r 0 4
  atOp r ≤ 2 && ctl < 2 ^ 11 && ctl / 32 % 8 == 0 && fieldAt r 4 4 == 0 && atAddr r % atSize r == 0 &&
  (atOp r == 2 || fieldAt r 0x18 8 == 0) && atResult r % 8 == 0 && fieldAt r 0x28 24 == 0

/-- Address fields, in the order of the record. -/
def nmAddrs (atomic : Bool) (r : List Byte) : List Nat :=
  if atomic then [atAddr r, atResult r] else [nmDst r, nmSrc r, nmDone r]

/-! NMCMD, NMATOM (R430 to R432, R437). -/

/-- The command with its records as operands. -/
def nmAccept (atomic : Bool) (k : Nat) (sig : BitVec 7) (h : BitVec 4) (rs : List (List Byte)) (s : State) : State :=
  let st := s.stepKey k
  let c := s.ctx k
  let hd : Handle :=
    { total := BitVec.ofNat 32 (if atomic then rs.length else (rs.map nmGranules).sum), signal := sig,
      opcode := if atomic then 0x12 else 0x10, state := 1 }
  let cmd : NmCmd :=
    { seat := k, step := st, uid := (s.step1 st).uid, member := s.memberNo k, h := h, die := dieOf k, part := s.partOf k,
      atomic := atomic, records := rs, seq := c.eng.nextSeq }
  { s.updCtx k (takeHandle h hd) with near := s.near ++ [cmd] }

def nmSlot (atomic : Bool) (g : Guard) (sig : BitVec 7) (ra : BitVec 6) (h : BitVec 4) (k : Nat) (s : State) : SlotOut :=
  let c := s.ctx k
  let n := (c.s ra).toNat
  let t := { resolve c sig 0 with off := 0 }
  let us := List.range (min (2 * n) t.g.width.toNat)
  let rs := (List.range (us.length / 2)).map fun j => unitsBytes s k c t [2 * j, 2 * j + 1]
  let ok := if atomic then atRecordOk else nmRecordOk
  let high := (rs.flatMap (nmAddrs atomic)).find? fun a => a ≥ 2 ^ 48
  guarded g c
    { uses := sUse ra ++ [.sample sig.toNat t.idx]
      hold := if t.g.present && t.unfilled s k c then .unfilled else if handleHold c h then .outside else .free
      listed := true
      other := handleHold c h
      trap := (absentTrap c sig).or ((if 1 ≤ n && 2 * n ≤ t.g.width.toNat then none else some (cause 0x01)).or
        ((unitsTrap s k c t us).or ((if rs.all ok then none else some (cause 0x01)).or
          (high.map fun a => ⟨0x0B, BitVec.ofNat 64 a, handleDetail h⟩))))
      accept := nmAccept atomic k sig h rs
      traffic := if atomic then 2 * n else n + (rs.map nmGranules).sum
      units := if t.live then us.map (s.unitOf k t.g t.slot) else [] }

def slotNmcmd := nmSlot false
def slotNmatom := nmSlot true

/-! The unit (R435 to R437, R439). -/

def State.setNm (s : State) (i : Nat) (x : NmCmd) : State := { s with near := modifyAt (fun _ => x) s.near i }

/-- An update to the handle of a command; one whose step is gone has none. -/
def onNmHandle (x : NmCmd) (f : Handle → Handle) (s : State) : State :=
  if (s.step1 x.step).uid == x.uid then s.updMemberCtx x.step x.member fun c => c.updHandle x.h.toNat f else s

/-- The traffic class of the current record (R433, R438). -/
def NmCmd.tcls (x : NmCmd) : BitVec 3 :=
  match x.records[x.rno]? with
  | some r => BitVec.ofNat 3 (fieldAt r (if x.atomic then 0 else 4) 4 / 256)
  | none => 0

/-- Translate for a command (R405, R406, R437): its place; or it joins a walk or a fault, or fails. -/
def nmXlate (x : NmCmd) (va : Nat) (w : Want) (s : State) : Option Nat × State :=
  let a := BitVec.ofNat 64 va
  let me : Waiter := ⟨.copy x.step x.member x.h, a, w.code⟩
  if va ≥ 2 ^ 48 then (none, failWaiter x.die x.part s me)
  else
    match cached s none x.die x.part va agentNear w with
    | some y => (some (y.pa va), s)
    | none =>
      if (openFault s x.die x.part a).isSome then
        (none, holdWaiter (recordFault x.die x.part a 1 w.code agentNear 0 0 false x.tcls [me] s) me)
      else (none, enqueueWalk x.die ⟨x.part, a, w.writes, w.code, agentNear, x.tcls, [me], s.cycle⟩ s)

/-- Elements of a granule in a format. -/
def elemsOf (f : FFmt) : Nat → List Byte → List Nat
  | 0, _ => []
  | n + 1, bs => leNat (bs.take (f.width / 8)) :: elemsOf f n (bs.drop (f.width / 8))

/-- α × w − β × g, or w + α × g, rounded once (R434). -/
def nmElem (f : FFmt) (op : Nat) (al be : FVal) (w g : Nat) : Nat :=
  let r := if op = 0 then
      let p := mulV al (f.decode w)
      let q := mulV be (f.decode g)
      let t := addV 0 p.1 q.1.neg
      (t.1, p.2 || q.2 || t.2)
    else
      let q := mulV al (f.decode g)
      let t := addV 0 (f.decode w) q.1
      (t.1, q.2 || t.2)
  (f.finish 0 r).1

/-- The new bytes of a granule. -/
def nmApply (r dst src : List Byte) : List Byte :=
  let f := nmFormat r
  let n := 64 * 8 / f.width
  match nmOp r with
  | 1 => src
  | 2 => (List.range 8).flatMap fun _ => leBytes 8 (fieldAt r 0x20 8)
  | op =>
    let al := fp32.decode (fieldAt r 0x18 4)
    let be := fp32.decode (fieldAt r 0x1C 4)
    (List.zipWith (nmElem f op al be) (elemsOf f n dst) (elemsOf f n src)).flatMap fun x => leBytes (f.width / 8) x

/-- The command ends: failed where a completion record could not be written, however it ended else (R436, R437). -/
def nmEnd (i : Nat) (x : NmCmd) (s : State) : State :=
  let s1 := onNmHandle x (fun h => { h with
    first := BitVec.ofNat 44 x.skipped
    state := if x.lost then 6 else if x.cancelled then 7 else if x.stopped then 6 else 5 }) s
  { s1 with near := s1.near.eraseIdx i }

/-- The completion record of a command record (R436): status, done, skipped, stop granule. -/
def nmCompletion (c : Nat × Nat × Nat × Nat) : List Byte :=
  leBytes 4 (c.1 * 2 ^ 24 + c.2.1) ++ leBytes 4 c.2.2.1 ++ leBytes 4 c.2.2.2 ++ leBytes 4 0

/-- A record closes with its completion record due. -/
def nmClose (i : Nat) (x : NmCmd) (status done skipped stopat : Nat) (s : State) : State :=
  s.setNm i { x with
    closing := some (status, done, skipped, stopat)
    skipped := x.skipped + skipped
    stopped := x.stopped || status != 0
    failed := false }

/-- The next record. -/
def NmCmd.advance (x : NmCmd) : NmCmd := { x with closing := none, rno := x.rno + 1, gno := 0 }

def nmPut (i : Nat) (x : NmCmd) (c : Nat × Nat × Nat × Nat) (r : List Byte) (s : State) : State :=
  if nmDone r = 0 then s.setNm i x.advance
  else if x.failed then s.setNm i { x.advance with failed := false, stopped := true, lost := true }
  else
    match nmXlate x (nmDone r) .update s with
    | (some pa, s1) => (nmWrite pa (nmCompletion c) s1 x.tcls).setNm i x.advance
    | (none, s1) => s1

/-- Poison found by a command. -/
def nmPoison (x : NmCmd) (s : State) : State := onNmHandle x (fun h => { h with poison := true }) s

/-- One granule update, or the stop that it meets. -/
def nmGranule (i : Nat) (x : NmCmd) (r : List Byte) (s : State) : State :=
  let q := x.gno
  let n := nmGranules r
  let op := nmOp r
  match nmXlate x (nmDst r + 64 * q) .update s with
  | (none, s1) => s1
  | (some dst, s1) =>
    match if op = 2 then (some dst, s1) else nmXlate x (nmSrc r + 64 * q) .update s1 with
    | (none, s2) => s2
    | (some src, s2) =>
      let h := homeDie dst
      let a := if op = 2 then ([], false, s2) else nmFetch h src 64 s2 x.tcls
      let b := if op = 0 || op = 3 then nmFetch h dst 64 a.2.2 x.tcls else ([], false, a.2.2)
      if a.2.1 || b.2.1 then nmClose i x 1 q (n - q - 1) q (nmPoison x b.2.2)
      else
        let s3 := onNmHandle x (fun h => { h with progress := h.progress + 1 }) (nmWrite dst (nmApply r b.1 a.1) b.2.2 x.tcls)
        if q + 1 = n then nmClose i x 0 n 0 0xFFFFFFFF s3 else s3.setNm i { x with gno := q + 1 }

/-- An earlier near-memory command of the seat is open, or a release fence still holds it (R390). -/
def nmHeld (s : State) (x : NmCmd) : Bool :=
  let c := s.memberCtx x.step x.member
  (s.near.any fun y => y.step == x.step && y.member == x.member && decide (y.seq < x.seq)) ||
  (x.rno == 0 && x.gno == 0 && c.eng.fences.any fun f =>
    f.nm && decide (f.seq < x.seq) && f.holdsWrites s x.die c)

/-- One step of the n-th command of the package. -/
def nmStep (i : Nat) (x : NmCmd) (s : State) : State :=
  match x.closing, x.records[x.rno]? with
  | some c, some r => nmPut i x c r s
  | _, none => nmEnd i x s
  | none, some r =>
    let n := nmGranules r
    if x.stopped then nmClose i x 2 0 n 0xFFFFFFFF s
    else if x.failed then nmClose i x 3 x.gno (n - x.gno) x.gno s
    else if x.cancelled then nmClose i x 4 x.gno (n - x.gno) x.gno s
    else nmGranule i x r s

/-- A cancelled command still writes its completion records, each in its place behind what holds it (R390, R436). -/
def nearMemoryGranule (n : Nat) (s : State) : State :=
  match s.near[n]? with
  | none => s
  | some x =>
    if x.atomic || x.suspended || nmHeld s x then s
    else pruneFences x.step x.member (nmStep n x s)

/-- The addresses at which a command is. -/
def NmCmd.places (x : NmCmd) : List Nat :=
  match x.closing, x.records[x.rno]? with
  | _, none => []
  | some _, some r => [nmDone r]
  | none, some r =>
    if x.atomic then [atAddr r, atResult r]
    else (nmDst r + 64 * x.gno) :: (if nmOp r = 2 then [] else [nmSrc r + 64 * x.gno])

/-- A near-memory unit of the die has work for a command: it is the command's die, or the home of a granule at which
the command is (R368). -/
def nmUses (s : State) (x : NmCmd) (d : Nat) : Bool :=
  x.die == d || x.places.any fun va =>
    (cached s none x.die x.part va agentNear .update).any fun y => homeDie (y.pa va) == d

/-! NMATOM. -/

/-- The new value, none for a CAS that fails. -/
def atNew (r : List Byte) (old : Nat) : Option Nat :=
  let z := atSize r
  let x := fieldAt r 0x10 8 % 2 ^ (8 * z)
  match atOp r with
  | 0 => some ((old + x) % 2 ^ (8 * z))
  | 1 => some (if signedOf (8 * z) old < signedOf (8 * z) x then x else old)
  | _ => if old = fieldAt r 0x18 8 % 2 ^ (8 * z) then some x else none

/-- One read-modify-write at its home, the result, and the count. -/
def atPerform (i : Nat) (x : NmCmd) (r : List Byte) (pa : Nat) (res : Option Nat) (s : State) : State :=
  let z := atSize r
  let a := nmFetch (homeDie pa) pa z s x.tcls
  if a.2.1 then
    nmEnd i { x with stopped := true, skipped := x.records.length - x.rno - 1 } (nmPoison x a.2.2)
  else
    let old := leNat a.1
    let s1 := match atNew r old with
      | some y => nmWrite pa (leBytes z y) a.2.2 x.tcls
      | none => a.2.2
    let s2 := match res with
      | some q => nmWrite q (leBytes 8 old) (applySeen (homeDie q) (pa / 64) s1) x.tcls
      | none => s1
    onNmHandle x (fun h => { h with progress := h.progress + 1 }) (s2.setNm i x.advance)

def atStep (i : Nat) (x : NmCmd) (s : State) : State :=
  match x.records[x.rno]? with
  | none => nmEnd i x s
  | some r =>
    if x.failed then nmEnd i { x with stopped := true, skipped := x.records.length - x.rno } s
    else if x.cancelled then nmEnd i { x with skipped := x.records.length - x.rno } s
    else
      match nmXlate x (atAddr r) .update s with
      | (none, s1) => s1
      | (some pa, s1) =>
        if atResult r = 0 then atPerform i x r pa none s1
        else
          match nmXlate x (atResult r) .update s1 with
          | (none, s2) => s2
          | (some q, s2) => atPerform i x r pa (some q) s2

def nmAtomicRecord (n : Nat) (s : State) : State :=
  match s.near[n]? with
  | none => s
  | some x =>
    if !x.atomic || x.suspended || (nmHeld s x && !x.cancelled) then s
    else pruneFences x.step x.member (atStep n x s)

end Sys2Proof.Machine
end

