-- ==== Sys2Proof/Machine/Scalar.lean ====
section
/-!
DEFINITION. The S class without the signal group: arithmetic, immediates, predicates, spill store,
CSRs, scalar FP32 (R113 to R140).
-/
namespace Sys2Proof.Machine
open Sys2Proof

/-- Two source registers and one result (R115). -/
def bin (f : Word → Word → Word) (lat : Nat) (g : Guard) (rd ra rb : BitVec 6) (k : Nat) (s : State) :
    SlotOut :=
  let c := s.ctx k
  guarded g c (sResult k rd lat (sUse ra ++ sUse rb) (f (c.s ra) (c.s rb)))

def un (f : Word → Word) (lat : Nat) (g : Guard) (rd ra : BitVec 6) (k : Nat) (s : State) : SlotOut :=
  let c := s.ctx k
  guarded g c (sResult k rd lat (sUse ra) (f (c.s ra)))

def mulHigh (a b : Word) : Word := BitVec.ofInt 64 (a.toInt * b.toInt / 2 ^ 64)
def mulHighU (a b : Word) : Word := BitVec.ofNat 64 (a.toNat * b.toNat / 2 ^ 64)
/-- DIV, DIVU and REM of R116. -/
def divS (a b : Word) : Word := if b = 0 then -1 else BitVec.ofInt 64 (a.toInt.tdiv b.toInt)
def divU (a b : Word) : Word := if b = 0 then -1 else BitVec.ofNat 64 (a.toNat / b.toNat)
def remS (a b : Word) : Word := if b = 0 then a else BitVec.ofInt 64 (a.toInt.tmod b.toInt)
/-- Shifts by a full register (R117). -/
def shl64 (a b : Word) : Word := if b.toNat < 64 then a <<< b.toNat else 0
def shr64 (a b : Word) : Word := if b.toNat < 64 then a >>> b.toNat else 0
def sar64 (a b : Word) : Word := a.sshiftRight (if b.toNat < 64 then b.toNat else 64)
def minS (a b : Word) : Word := if a.toInt ≤ b.toInt then a else b
def maxS (a b : Word) : Word := if a.toInt ≤ b.toInt then b else a
def minU (a b : Word) : Word := if a.toNat ≤ b.toNat then a else b
def maxU (a b : Word) : Word := if a.toNat ≤ b.toNat then b else a
/-- Leading zeros of 64 bits, 64 for zero (R115). -/
def clz64 (a : Word) : Word := if a = 0 then 64 else BitVec.ofNat 64 (63 - Nat.log2 a.toNat)
def popc64 (a : Word) : Word :=
  BitVec.ofNat 64 ((List.range 64).foldl (fun n i => n + bit (a.getLsbD i)) 0)

def slotAdd := bin (· + ·) 1
def slotSub := bin (· - ·) 1
def slotMul := bin (· * ·) 3
def slotMulh := bin mulHigh 3
def slotMulhu := bin mulHighU 3
def slotDiv := bin divS 24
def slotDivu := bin divU 24
def slotRem := bin remS 24
def slotAnd := bin (· &&& ·) 1
def slotOr := bin (· ||| ·) 1
def slotXor := bin (· ^^^ ·) 1
def slotAndn := bin (fun a b => a &&& ~~~b) 1
def slotShl := bin shl64 1
def slotShr := bin shr64 1
def slotSar := bin sar64 1
def slotMin := bin minS 1
def slotMax := bin maxS 1
def slotMinu := bin minU 1
def slotMaxu := bin maxU 1
def slotClz := un clz64 1
def slotPopc := un popc64 1

/-- SEL takes sa where its predicate holds, else sb (R115). -/
def slotSel (g : Guard) (rd ra rb : BitVec 6) (p : BitVec 4) (k : Nat) (s : State) : SlotOut :=
  let c := s.ctx k
  guarded g c (sResult k rd 1 (predUse p ++ sUse ra ++ sUse rb) (if c.p p then c.s ra else c.s rb))

/-- Immediates are sign-extended from 35 bits (R39, R118). -/
def immS (i : BitVec 35) : Word := i.signExtend 64

def slotAddi (g : Guard) (rd ra : BitVec 6) (i : BitVec 35) := un (· + immS i) 1 g rd ra
def slotAndi (g : Guard) (rd ra : BitVec 6) (i : BitVec 35) := un (· &&& immS i) 1 g rd ra
def slotOri (g : Guard) (rd ra : BitVec 6) (i : BitVec 35) := un (· ||| immS i) 1 g rd ra
def slotXori (g : Guard) (rd ra : BitVec 6) (i : BitVec 35) := un (· ^^^ immS i) 1 g rd ra
def slotShli (g : Guard) (rd ra : BitVec 6) (n : BitVec 6) := un (· <<< n.toNat) 1 g rd ra
def slotShri (g : Guard) (rd ra : BitVec 6) (n : BitVec 6) := un (· >>> n.toNat) 1 g rd ra
def slotSari (g : Guard) (rd ra : BitVec 6) (n : BitVec 6) := un (fun a => a.sshiftRight n.toNat) 1 g rd ra

def slotMovi (g : Guard) (rd : BitVec 6) (i : BitVec 35) (k : Nat) (s : State) : SlotOut :=
  guarded g (s.ctx k) (sResult k rd 1 [] (immS i))

def slotMovhi (g : Guard) (rd ra : BitVec 6) (i : BitVec 32) :=
  un (fun a => (i.zeroExtend 64 <<< 32) ||| (a &&& 0xFFFFFFFF)) 1 g rd ra

/-- The conditions of R120. -/
def cond (c : Cond) (a b : Word) : Bool :=
  match c with
  | .eq => a == b
  | .ne => a != b
  | .lt => a.toInt < b.toInt
  | .le => a.toInt ≤ b.toInt
  | .ltu => a.toNat < b.toNat
  | .leu => a.toNat ≤ b.toNat

def slotCmp (g : Guard) (pd : BitVec 4) (cc : Cond) (ra rb : BitVec 6) (k : Nat) (s : State) : SlotOut :=
  let c := s.ctx k
  guarded g c (pResult k pd 1 (sUse ra ++ sUse rb) (cond cc (c.s ra) (c.s rb)))

def slotCmpi (g : Guard) (pd : BitVec 4) (cc : Cond) (ra : BitVec 6) (i : BitVec 34) (k : Nat) (s : State) :
    SlotOut :=
  let c := s.ctx k
  guarded g c (pResult k pd 1 (sUse ra) (cond cc (c.s ra) (i.signExtend 64)))

def pbin (f : Bool → Bool → Bool) (g : Guard) (pd pa pb : BitVec 4) (k : Nat) (s : State) : SlotOut :=
  let c := s.ctx k
  guarded g c (pResult k pd 1 (predUse pa ++ predUse pb) (f (c.p pa) (c.p pb)))

def slotPand := pbin (· && ·)
def slotPor := pbin (· || ·)
def slotPxor := pbin (· != ·)
def slotPandn := pbin fun a b => a && !b
def slotPset (g : Guard) (pd : BitVec 4) (ra : BitVec 6) (k : Nat) (s : State) : SlotOut :=
  let c := s.ctx k
  guarded g c (pResult k pd 1 (sUse ra) (c.s ra != 0))

def slotSpld (g : Guard) (rd : BitVec 6) (n : BitVec 9) (k : Nat) (s : State) : SlotOut :=
  let c := s.ctx k
  guarded g c (sResult k rd 1 [.spill n.toNat] (c.spill n))

def slotSpst (g : Guard) (ra : BitVec 6) (n : BitVec 9) (k : Nat) (s : State) : SlotOut :=
  let c := s.ctx k
  guarded g c { uses := sUse ra, defs := [(.spill n.toNat, 1)],
                write := fun s => s.updCtx k fun x => x.setSpill n (c.s ra) }

/-! Control and status registers (R124 to R132, R69 to R73). -/

def bstat (c : Ctx) : Word :=
  BitVec.ofNat 64 (put 32 c.bud.run + bit c.bud.evlost * 2 ^ 7 + put 4 c.bud.ycause +
    bit c.bud.incont * 2 ^ 3 + bit c.bud.recallBit * 2 ^ 2 + bit c.bud.toppriv * 2 + bit c.due)

/-- The value of a CSR on seat k. -/
def csrRead (s : State) (k : Nat) (c : Ctx) (n : Nat) : Word :=
  match n with
  | 0x001 => c.csr.now
  | 0x002 => c.csr.cycles
  | 0x010 => c.bud.ibud.signExtend 64
  | 0x011 => c.bud.tbud.signExtend 64
  | 0x013 => bstat c
  | 0x014 => c.bud.maxrun.zeroExtend 64
  | 0x018 => c.csr.contpc
  | 0x019 => if c.bud.incont then c.saved.pc &&& 0x0000FFFFFFFFFFF8 else 0
  | 0x01A => c.csr.tapwait.zeroExtend 64
  | 0x020 => c.csr.fpst.zeroExtend 64
  | 0x021 => c.csr.rm.zeroExtend 64
  | 0x022 => c.csr.gfloor.signExtend 64
  | 0x030 => BitVec.ofNat 64 (k % 2)
  | 0x031 => BitVec.ofNat 64 (k / 2 % 64)
  | 0x032 => BitVec.ofNat 64 (k / 8 % 16)
  | 0x033 => BitVec.ofNat 64 (k / 128)
  | 0x034 => s.pkgid.zeroExtend 64
  | 0x035 => c.csr.member.zeroExtend 64
  | 0x036 => c.csr.groupsz.zeroExtend 64
  | 0x040 => c.csr.evpend.zeroExtend 64
  | 0x050 => c.csr.trapcause.zeroExtend 64
  | _ => 0

/-- A write to a CSR under its access codes (R5, R71, R72, R127 to R130). FPST is cleared with the
flags of the bundle (R128). DESIGN CHOICE (log 111): a write that clears EVLOST clears it too where an event was dropped in
the same bundle or cycle. -/
def csrWrite (n : Nat) (x : Word) (c : Ctx) : Ctx :=
  match n with
  | 0x013 => { c with bud.evlost := c.bud.evlost && !x.getLsbD 7 }
  | 0x014 =>
    let v := x.toNat % 2 ^ 17
    if v = 0 ∨ v > 65536 ∨ v > c.bud.maxrun.toNat then c
    else { c with bud.maxrun := BitVec.ofNat 17 v }
  | 0x018 => { c with csr.contpc := x &&& 0x0000FFFFFFFFFFF8 }
  | 0x01A => if x.toNat % 2 ^ 32 = 0 then c else { c with csr.tapwait := x.setWidth 32 }
  | 0x021 => { c with csr.rm := x.setWidth 2 }
  | 0x022 => if -126 ≤ x.toInt ∧ x.toInt ≤ 0 then { c with csr.gfloor := x.setWidth 8 } else c
  | 0x040 => { c with csr.evpend := c.csr.evpend &&& ~~~(x.setWidth 16 &&& ~~~c.csr.evNew) }
  | _ => c

def slotCsrr (g : Guard) (rd : BitVec 6) (n : BitVec 12) (k : Nat) (s : State) : SlotOut :=
  let c := s.ctx k
  guarded g c { sResult k rd 1 [] (csrRead s k c n.toNat) with
    hold := if n.toNat = 0x020 ∧ c.mx.pend ≠ [] then .own else .free }

def slotCsrw (g : Guard) (ra : BitVec 6) (n : BitVec 12) (k : Nat) (s : State) : SlotOut :=
  let c := s.ctx k
  guarded g c
    { uses := sUse ra
      clearFpst := if n.toNat = 0x020 then (c.s ra).setWidth 6 else 0
      write := fun s => s.updCtx k (csrWrite n.toNat (c.s ra)) }

def slotLidx (g : Guard) (rd : BitVec 6) (l : BitVec 3) (k : Nat) (s : State) : SlotOut :=
  let c := s.ctx k
  guarded g c (sResult k rd 1 [] (c.loopIndex l.toNat))

/-! Scalar FP32 (R135 to R140): operands in bits 31:0, results zero-extended. -/

def f32 (x : Word) : FVal := fp32.decode (x.toNat % 2 ^ 32)
def sF32 (k : Nat) (rd : BitVec 6) (uses : List Res) (r : Nat × Flags) : SlotOut :=
  { sResult k rd 4 uses (BitVec.ofNat 64 r.1) with flags := r.2 }

def fbin (f : RM → FVal → FVal → Nat × Flags) (g : Guard) (rd ra rb : BitVec 6) (k : Nat) (s : State) :
    SlotOut :=
  let c := s.ctx k
  guarded g c (sF32 k rd (sUse ra ++ sUse rb) (f c.csr.rm (f32 (c.s ra)) (f32 (c.s rb))))

def slotFadd := fbin fp32.add
def slotFsub := fbin fp32.sub
def slotFmul := fbin fp32.mul
def slotFfma (g : Guard) (rd ra rb : BitVec 6) (k : Nat) (s : State) : SlotOut :=
  let c := s.ctx k
  guarded g c (sF32 k rd (sUse ra ++ sUse rb ++ sUse rd)
    (fp32.fma c.csr.rm (f32 (c.s ra)) (f32 (c.s rb)) (f32 (c.s rd))))
def fmm (isMax : Bool) (g : Guard) (rd ra rb : BitVec 6) (k : Nat) (s : State) : SlotOut :=
  let c := s.ctx k
  guarded g c (sF32 k rd (sUse ra ++ sUse rb)
    (fp32.minmax isMax ((c.s ra).toNat % 2 ^ 32) ((c.s rb).toNat % 2 ^ 32)))
def slotFmin := fmm false
def slotFmax := fmm true

def slotFcmp (g : Guard) (pd : BitVec 4) (cc : Cond) (ra rb : BitVec 6) (k : Nat) (s : State) : SlotOut :=
  let c := s.ctx k
  let r := fcmp cc (f32 (c.s ra)) (f32 (c.s rb))
  guarded g c { pResult k pd 2 (sUse ra ++ sUse rb) r.1 with flags := r.2 }

def slotFcvti (g : Guard) (rd ra : BitVec 6) (k : Nat) (s : State) : SlotOut :=
  let c := s.ctx k
  let r := roundInt c.csr.rm 64 (f32 (c.s ra))
  guarded g c { sResult k rd 4 (sUse ra) (BitVec.ofInt 64 r.1) with flags := r.2 }

def slotIcvtf (g : Guard) (rd ra : BitVec 6) (k : Nat) (s : State) : SlotOut :=
  let c := s.ctx k
  guarded g c (sF32 k rd (sUse ra) (fp32.round c.csr.rm (FVal.ofInt (c.s ra).toInt)))

end Sys2Proof.Machine
end

