-- ==== Sys2Proof/Machine/Context.lean ====
section
/-!
DEFINITION. The seat context as bytes (R216, R217, R240, R265, R278, R279), and back (R281).
-/
namespace Sys2Proof.Machine
open Sys2Proof

def wordBytes (x : Word) : List Byte := leBytes 8 x.toNat

/-- Six loop positions of 32 bytes. -/
def loopBytes (ls : List Loop) : List Byte :=
  padTo 192 (ls.flatMap fun l => wordBytes l.start ++ wordBytes l.stop ++ wordBytes l.remaining ++ wordBytes l.index)

/-- The trap record (R265). -/
def TrapRec.bytes (t : TrapRec) : List Byte :=
  [t.info, t.bundle, t.ptarget, t.savepc, t.sptarget, t.slotcause, t.detail0, t.detail1].flatMap wordBytes ++
  padTo 64 (t.syll.flatMap wordBytes) ++ loopBytes t.loops ++ loopBytes t.sloops

/-- The position word: bits 39:24 of INFO, and INCONT in bit 9. -/
def positionWord (c : Ctx) : Nat :=
  (trapInfo c false { code := 0, bundle := 0 }).toNat / 2 ^ 24 % 2 ^ 16 * 2 ^ 24 + bit c.bud.incont * 2 ^ 9

/-- The CSR words of R279, then a zero word. -/
def csrBytes (c : Ctx) : List Byte :=
  ([c.csr.now, c.csr.cycles, c.bud.ibud.signExtend 64, c.bud.tbud.signExtend 64, bstat c, c.bud.maxrun.zeroExtend 64,
    c.csr.contpc, c.csr.tapwait.zeroExtend 64, c.csr.fpst.zeroExtend 64, c.csr.rm.zeroExtend 64,
    c.csr.gfloor.signExtend 64, c.csr.evpend.zeroExtend 64, c.csr.trapcause.zeroExtend 64,
    c.bud.recalled.signExtend 64, c.csr.evHeld.zeroExtend 64, 0] : List Word).flatMap wordBytes

/-- A handle (R216). -/
def Handle.bytes (h : Handle) : List Byte :=
  leBytes 16 (h.state.toNat + bit h.poison * 2 ^ 4 + h.opcode.toNat * 2 ^ 5 + h.signal.toNat * 2 ^ 13 +
    h.first.toNat * 2 ^ 20 + h.progress.toNat * 2 ^ 64 + h.total.toNat * 2 ^ 96)

/-- A nest descriptor (R217). -/
def Nest.bytes (n : Nest) : List Byte :=
  ((List.range 6).flatMap fun l => leBytes 2 (n.count.get 0 l).toNat ++ leBytes 6 (n.stride.get 0 l).toNat) ++
  leBytes 16 (n.format.toNat + n.pack.toNat * 2 ^ 4)

/-- The pending asynchronous cause that comes first: its code, and whether it has a DETAIL1. -/
def pendingWord (c : Ctx) : Nat :=
  match c.causes with
  | [] => 0
  | x :: xs =>
    let y := xs.foldl (fun (a b : Cause) => if b.code.toNat < a.code.toNat then b else a) x
    y.code.toNat + bit (y.detail1 != 0) * 2 ^ 8

/-- Units of the image (R146, R147). -/
def imageExtent (t : Sparse Sig) : Nat :=
  (t.map fun e => if e.2.present then e.2.base.toNat + e.2.slots * e.2.width.toNat else 0).foldl max 0

/-- The control area (R279) for a share. -/
def controlBytes (c : Ctx) (share : Nat) : List Byte :=
  padTo 4096 (
    c.trap.bytes ++ ((List.range 64).flatMap fun r => wordBytes (c.s (BitVec.ofNat 6 r))) ++
    leBytes 8 (c.regs.p.toNat % 2 ^ 13 / 2 * 2) ++ wordBytes c.pos.pc ++ leBytes 8 (positionWord c) ++
    wordBytes (pendTarget c.pos.pend) ++ loopBytes c.pos.loops ++
    wordBytes (if c.bud.incont then c.saved.pc else 0) ++ wordBytes (pendTarget c.saved.pend) ++
    loopBytes c.saved.loops ++ csrBytes c ++ ((List.range 16).flatMap fun h => (c.handle h).bytes) ++
    ((List.range 16).flatMap fun d => (c.eng.nests.get {} d).bytes) ++ leBytes 8 (pendingWord c) ++
    leBytes 4 share ++ leBytes 4 (imageExtent c.sig.table))

def spillBytes (c : Ctx) : List Byte := (Sparse.getMany 0 c.regs.spill 0 512).flatMap wordBytes
def vectorBytes (c : Ctx) : List Byte := (Sparse.getMany 0 c.regs.v 0 32).flatMap fun x => leBytes 256 x.toNat
def tableBytes (c : Ctx) : List Byte := (Sparse.getMany {} c.sig.table 0 128).flatMap fun g => leBytes 32 g.toNat

/-- Bytes 0 to 0x3FFF of a context. -/
def headBytes (c : Ctx) (share : Nat) : List Byte := controlBytes c share ++ spillBytes c ++ vectorBytes c

/-- The first signal of a table whose ring covers a share unit. -/
def coverOf (t : Sparse Sig) (p : Nat) : Option (Nat × Sig) :=
  t.find? fun e => e.2.present && decide (e.2.base.toNat ≤ p) &&
    decide (p < e.2.base.toNat + e.2.slots * e.2.width.toNat)

/-- The mark bits of a share unit: written in bit 0, poison in bit 1. DESIGN CHOICE (log 112): where rings overlap they are
those of the first signal of the table that covers it. -/
def unitMarks (c : Ctx) (p : Nat) : Nat :=
  match coverOf c.sig.table p with
  | some e =>
    let o := p - e.2.base.toNat
    let n := BitVec.ofNat 7 e.1
    bit (c.written n (o / e.2.width.toNat) (o % e.2.width.toNat)) +
      2 * bit (c.poisoned n (o / e.2.width.toNat) (o % e.2.width.toNat))
  | none => 0

def markBytes (c : Ctx) : List Byte :=
  (List.range 8192).map fun b => BitVec.ofNat 8 (((List.range 4).map fun j => unitMarks c (4 * b + j) * 4 ^ j).sum)

def pairBytes (p : Pair) : List Byte := leBytes 4 p.off.toNat ++ leBytes 4 p.gain.toNat
def accBytes (c : Ctx) : List Byte :=
  ((Sparse.getMany {} c.mx.tiles 0 49152) ++ (Sparse.getMany {} c.mx.carries 0 768)).flatMap pairBytes

/-- Bytes of a context with a share. -/
def ctxSize (share : Nat) : Nat := 428032 + 32 * share

/-- The whole context. -/
def ctxBytes (c : Ctx) (line : Sparse UnitW) (share : Nat) : List Byte :=
  headBytes c share ++ tableBytes c ++ markBytes c ++ accBytes c ++
  (Sparse.getMany 0 line 0 share).flatMap fun x => leBytes 32 x.toNat

/-! What a patch buffer supplies (R270, R452). -/

def patchS (bs : List Byte) (c : Ctx) : Ctx :=
  (List.range 64).foldl (fun c r => c.setS (BitVec.ofNat 6 r) (BitVec.ofNat 64 (fieldAt bs (0x200 + 8 * r) 8))) c
def patchP (bs : List Byte) (c : Ctx) : Ctx :=
  { c with regs.p := BitVec.ofNat 16 (fieldAt bs 0x400 2 % 2 ^ 13 / 2 * 2) }
def patchSpill (bs : List Byte) (c : Ctx) : Ctx :=
  (List.range 512).foldl (fun c n => c.setSpill (BitVec.ofNat 9 n) (BitVec.ofNat 64 (fieldAt bs (0x1000 + 8 * n) 8))) c
def patchV (bs : List Byte) (c : Ctx) : Ctx :=
  (List.range 32).foldl (fun c r => c.setV (BitVec.ofNat 5 r) (BitVec.ofNat 2048 (fieldAt bs (0x2000 + 256 * r) 256))) c

/-- s1 to s63, p1 to p12, the spill slots and v0 to v31 of a context image. -/
def patchCtx (bs : List Byte) (c : Ctx) : Ctx := patchV bs (patchSpill bs (patchP bs (patchS bs c)))

/-! A context that is read back from its bytes (R281). What the layout has no place for stays with the step. -/

def wordAt (bs : List Byte) (o : Nat) : Word := BitVec.ofNat 64 (fieldAt bs o 8)

def loopsAt (bs : List Byte) (o n : Nat) : List Loop :=
  (List.range n).map fun i =>
    ⟨wordAt bs (o + 32 * i), wordAt bs (o + 32 * i + 8), wordAt bs (o + 32 * i + 16), wordAt bs (o + 32 * i + 24)⟩

def pendAt (target : Word) (left : Nat) (old : Option Pend) : Option Pend :=
  if left = 0 then none
  else match old with
    | some p => some { p with left := left, target := if target = 0 && p.target.isNone then none else some target }
    | none => some { target := some target, left := left }

/-- The position, the saved position and INCONT. -/
def loadPos (bs : List Byte) (c : Ctx) : Ctx :=
  let w := fieldAt bs 0x410 8
  let inc := w / 2 ^ 9 % 2 == 1
  let c1 := { c with
    pos.pc := wordAt bs 0x408
    pos.residue := BitVec.ofNat 6 (w / 2 ^ 34)
    pos.pend := pendAt (wordAt bs 0x418) (w / 2 ^ 24 % 4) c.pos.pend
    pos.loops := loopsAt bs 0x420 (w / 2 ^ 26 % 8)
    bud.incont := inc }
  if inc then
    { c1 with
      saved.pc := wordAt bs 0x4E0
      saved.pend := pendAt (wordAt bs 0x4E8) (w / 2 ^ 32 % 4) c.saved.pend
      saved.loops := loopsAt bs 0x4F0 (w / 2 ^ 29 % 8) }
  else c1

/-- The CSR words. -/
def loadCsrs (bs : List Byte) (c : Ctx) : Ctx :=
  let f := fun (i : Nat) => wordAt bs (0x5B0 + 8 * i)
  let st := f 4
  { c with
    csr.now := f 0
    csr.cycles := f 1
    bud.ibud := (f 2).setWidth 48
    bud.tbud := (f 3).setWidth 48
    bud.run := BitVec.ofNat 17 (st.toNat / 2 ^ 32)
    bud.evlost := st.getLsbD 7
    bud.ycause := BitVec.ofNat 2 (st.toNat / 2 ^ 4)
    bud.recallBit := st.getLsbD 2
    bud.toppriv := st.getLsbD 1
    bud.maxrun := (f 5).setWidth 17
    csr.contpc := f 6
    csr.tapwait := (f 7).setWidth 32
    csr.fpst := (f 8).setWidth _
    csr.rm := (f 9).setWidth _
    csr.gfloor := (f 10).setWidth 8
    csr.evpend := (f 11).setWidth 16
    csr.trapcause := (f 12).setWidth 8
    bud.recalled := (f 13).setWidth 48
    csr.evHeld := (f 14).setWidth 16 }

def Handle.ofNat (x : Nat) : Handle :=
  { state := fld x 0 4, poison := x / 2 ^ 4 % 2 == 1, opcode := fld x 5 8, signal := fld x 13 7, first := fld x 20 44,
    progress := fld x 64 32, total := fld x 96 32 }

def Nest.ofBytes (bs : List Byte) : Nest :=
  { count := (List.range 6).foldl (fun m l => m.set 0 l (BitVec.ofNat 16 (fieldAt bs (8 * l) 2))) []
    stride := (List.range 6).foldl (fun m l => m.set 0 l (BitVec.ofNat 48 (fieldAt bs (8 * l + 2) 6))) []
    format := fld (fieldAt bs 48 16) 0 4
    pack := fld (fieldAt bs 48 16) 4 16 }

/-- Handles and nest descriptors. -/
def loadEngine (bs : List Byte) (c : Ctx) : Ctx :=
  { c with
    eng.handles := (List.range 16).foldl (fun m h => m.set {} h (Handle.ofNat (fieldAt bs (0x630 + 16 * h) 16))) []
    eng.nests := (List.range 16).foldl (fun m d =>
      m.set {} d (Nest.ofBytes ((bs.drop (0x730 + 64 * d)).take 64))) [] }

/-- The signal table with the marks of its slots. A unit's mark pair is that of the first signal whose ring covers it; the
other signals that cover it keep their marks with the step (R161). -/
def loadSignals (bs : List Byte) (c : Ctx) : Ctx :=
  let table := parseImage (bs.drop 0x4000)
  let mark := fun (p j : Nat) => fieldAt bs (0x5000 + p / 4) 1 / 2 ^ (2 * (p % 4) + j) % 2
  let own := fun (m : Sparse (BitVec 128)) (n t u p j : Nat) =>
    if (coverOf table p).any fun e => e.1 == n then mark p j
    else bit ((m.get 0 (markKey (BitVec.ofNat 7 n) t)).getLsbD u)
  let marks := fun (old : Sparse (BitVec 128)) (j : Nat) => (table.filter fun e => e.2.present).foldl (fun (m : Sparse (BitVec 128)) e =>
    (List.range e.2.slots).foldl (fun m t =>
      m.set 0 (markKey (BitVec.ofNat 7 e.1) t) (BitVec.ofNat 128 (((List.range e.2.width.toNat).map fun u =>
        own old e.1 t u (e.2.base.toNat + t * e.2.width.toNat + u) j * 2 ^ u).sum))) m) []
  { c with sig.table := table, sig.written := marks c.sig.written 0, sig.poison := marks c.sig.poison 1 }

def pairAt (bs : List Byte) (o : Nat) : Pair := ⟨BitVec.ofNat 32 (fieldAt bs (o + 4) 4), BitVec.ofNat 32 (fieldAt bs o 4)⟩

/-- Tiles and carries. -/
def loadPairs (bs : List Byte) (c : Ctx) : Ctx :=
  { c with
    mx.tiles := (List.range 49152).foldl (fun m i => m.set {} i (pairAt bs (0x7000 + 8 * i))) []
    mx.carries := (List.range 768).foldl (fun m i => m.set {} i (pairAt bs (0x7000 + 8 * (49152 + i)))) [] }

/-- The context that the bytes give; v registers, scalars, predicates and spill slots stand as in a patch. -/
def loadCtx (bs : List Byte) (c : Ctx) : Ctx :=
  loadPairs bs (loadSignals bs (loadEngine bs (loadCsrs bs (loadPos bs (patchCtx bs c)))))

/-- What has come to a context since it was written out belongs to it (R87, R89, R277, R336): events, dropped events,
final states of handles, budgets. was is the context as it was written, now as it stands. -/
def Ctx.mergeSince (was now c : Ctx) : Ctx :=
  let more := fun (x y : BitVec 48) => (y.toInt - x.toInt).toNat
  { c with
    csr.evpend := c.csr.evpend ||| (now.csr.evpend &&& ~~~was.csr.evpend)
    csr.evHeld := c.csr.evHeld ||| (now.csr.evHeld &&& ~~~was.csr.evHeld)
    bud.evlost := c.bud.evlost || (now.bud.evlost && !was.bud.evlost)
    bud.ibud := capAdd c.bud.ibud (more was.bud.ibud now.bud.ibud)
    bud.tbud := capAdd c.bud.tbud (more was.bud.tbud now.bud.tbud)
    eng.handles := (List.range 16).foldl (fun m h =>
      if now.handle h = was.handle h then m else m.set {} h (now.handle h)) c.eng.handles }

/-- The share that the bytes give. -/
def loadLine (bs : List Byte) (share : Nat) : Sparse UnitW :=
  (List.range share).foldl (fun m u => m.set 0 u (BitVec.ofNat 256 (fieldAt bs (0x68800 + 32 * u) 32))) []

end Sys2Proof.Machine
end

