-- ==== Sys2Proof/Machine/Launch.lean ====
section
/-!
DEFINITION. LAUNCH, WSEND and the writing of launched entries (R330, R338, R340 to R342, R486 to R488).
-/
namespace Sys2Proof.Machine
open Sys2Proof

/-! Near-memory adds of the dispatcher (R337, R338, R339). -/

/-- Read n bytes of a granule at its home for a request of the dispatcher; poison fails (R413). -/
def nearRead (d p id : Nat) (va n : Nat) (w : Want) (s : State) : XferRes (Nat × Nat) × State :=
  match agentXlate d p (BitVec.ofNat 64 va) id w s with
  | (.wait, s1) => (.wait, s1)
  | (.fail, s1) => (.fail, s1)
  | (.ok pa _, s1) =>
    let r := nmFetch (homeDie pa) pa n s1
    if r.2.1 then (.fail, r.2.2) else (.ok (pa, leNat r.1), applySeen d (pa / 64) r.2.2)

/-- One atomic update of n bytes at their home; the new value is returned. A fault waits or fails, and a poisoned
granule fails (R413, R439). -/
def nearUpdate (d p id : Nat) (va n : Nat) (f : Nat → Nat) (s : State) : XferRes Nat × State :=
  match nearRead d p id va n .update s with
  | (.wait, s1) => (.wait, s1)
  | (.fail, s1) => (.fail, s1)
  | (.ok x, s1) => (.ok (f x.2), nmWrite x.1 (leBytes n (f x.2)) s1)

/-- Add to the eight bytes at an address of a partition; the sum is returned. -/
def nearAdd (d p id : Nat) (va n : Nat) (s : State) : XferRes Nat × State :=
  nearUpdate d p id va 8 (fun x => (x + n) % 2 ^ 64) s

/-! The waybill that LAUNCH and WSEND read (R341, R342, R487). -/

/-- The sample at lag 0, or entry 0 of a table, as an operand of whole units. -/
def waybillTap (c : Ctx) (sig : BitVec 7) : Tap := { resolve c sig 0 with off := 0 }
def waybillBytes (s : State) (k : Nat) (c : Ctx) (sig : BitVec 7) : List Byte :=
  unitsBytes s k c (waybillTap c sig) [0, 1, 2, 3]

/-- The traps of the signal: WIDTH below 4, then the tap codes. -/
def waybillTrap (s : State) (k : Nat) (c : Ctx) (sig : BitVec 7) : Option Cause :=
  if (c.sg sig).width.toNat < 4 then some (cause 0x01) else unitsTrap s k c (waybillTap c sig) [0, 1, 2, 3]

def waybillUnits (s : State) (k : Nat) (c : Ctx) (sig : BitVec 7) : List Nat :=
  let t := waybillTap c sig
  if t.live then (List.range (min 4 t.g.width.toNat)).map (s.unitOf k t.g t.slot) else []

/-- PRIV after the AND with the launching step's bits (R330). -/
def maskPriv (bs : List Byte) (p : BitVec 3) : List Byte :=
  patchBytes bs 0x38 (leBytes 8 ((parseWaybill bs).priv &&& p).toNat)

/-- The handle of an accepted LAUNCH or WSEND. -/
def workHandle (op : Nat) (sig : BitVec 7) (first : Nat) : Handle :=
  { total := 1, first := BitVec.ofNat 44 first, signal := sig, opcode := BitVec.ofNat 8 op, state := 1 }

/-! LAUNCH. -/

/-- The weight that a LAUNCH takes at its commit: the child's, and what the task keeps; none where the child
is borrowed at the graph (R338). -/
def takePurse (p r : Nat) : Option (Nat × Nat) := if r ≥ 2 then some (min p (r - 1), r - min p (r - 1)) else none

/-- What LAUNCH does at its commit (R342), in the order of the commits. -/
def launchCommit (k : Nat) (sig : BitVec 7) (q : Nat) (h : BitVec 4) (bs : List Byte) (s : State) : State :=
  let st := s.stepKey k
  let m := s.memberNo k
  let t := (s.step1 st).task
  let x := s.task t
  let w := parseWaybill bs
  let n := w.count
  let graph := x.wb.graph != 0
  let cut := if graph then takePurse w.purse x.purse else none
  let child := (cut.map (·.1)).getD 0
  let b1 := patchBytes (maskPriv bs x.wb.priv) 0x48 (leBytes 8 x.wb.graph.toNat)
  let b2 := patchBytes b1 0x60 (leBytes 8 (2 ^ 63 + dieOf k * 2 ^ 16 + t % 4096))
  let e := (s.queue q).tail + (s.queue q).reserved
  let l : Launch :=
    { step := st, uid := (s.step1 st).uid, member := m, handle := h, die := q / 65536, queue := q,
      gen := (s.queue q).gen, part := x.part, task := t, order := x.order, seat := k, clk := s.clk k, k := e, bytes := b2,
      ibud := w.ibud * n, tbud := w.tbud * n, child := child, borrowed := graph && cut.isNone,
      seq := (s.ctx k).eng.nextSeq }
  let s1 := (s.updQueue q fun y => { y with reserved := y.reserved + 1 }).updTask t fun y =>
    { y with purse := (cut.map (·.2)).getD y.purse }
  ((nameDone q x.part b2 s1).updCtx k fun c =>
    { takeHandle h (workHandle 0x20 sig e.toNat) c with
      bud.ibud := c.bud.ibud - BitVec.ofNat 48 (w.ibud * n)
      bud.tbud := c.bud.tbud - BitVec.ofNat 48 (w.tbud * n) }).updDie (dieOf k) fun d =>
    { d with launches := d.launches ++ [l] }

/-- The handle of a launch of a seat names its entry. -/
def Launch.rename (l : Launch) (s : State) : State :=
  s.updCtx l.seat fun c => c.updHandle l.handle.toNat fun h => { h with first := BitVec.ofNat 44 l.k.toNat }

/-- The launch b of seat 0 comes before the launch a of seat 1 that has committed in the same cycle (R346): entries of
one queue and the weight of one task are taken in that order. -/
def orderLaunches (a b : Launch) (s : State) : State :=
  let swap := a.queue == b.queue
  let own := a.task == b.task && fieldAt a.bytes 0x48 8 != 0
  let a1 := if swap then { a with k := b.k } else a
  let b1 := if swap then { b with k := a.k } else b
  let ask := fun (l : Launch) => fieldAt l.bytes 0x40 8
  let r := (s.task a.task).purse + a.child + b.child
  let x := takePurse (ask b) r
  let left := (x.map (·.2)).getD r
  let y := takePurse (ask a) left
  let b2 := if own then { b1 with child := (x.map (·.1)).getD 0, borrowed := x.isNone } else b1
  let a2 := if own then { a1 with child := (y.map (·.1)).getD 0, borrowed := y.isNone } else a1
  let s1 := if own then s.updTask a.task fun t => { t with purse := (y.map (·.2)).getD left } else s
  a2.rename (b2.rename (s1.updDie (dieOf a.seat) fun d =>
    { d with launches := d.launches.map fun l => if l == a then a2 else if l == b then b2 else l }))

/-- The effects at commit, seat 0 before seat 1 of a core in one cycle. -/
def launchAccept (k : Nat) (sig : BitVec 7) (q : Nat) (h : BitVec 4) (bs : List Byte) (s : State) : State :=
  let s1 := launchCommit k sig q h bs s
  let ls := (s1.die (dieOf k)).launches
  let other := ls.find? fun l => l.seat == k + 1 && l.clk == s.clk k
  match if k % 2 = 0 then other else none, ls.getLast? with
  | some a, some b => orderLaunches a b s1
  | _, _ => s1

/-- The queue exists, is a device queue and belongs to the partition. -/
def launchQueue (s : State) (q p : Nat) : Bool :=
  (s.queue q).present && (s.queue q).device && (s.queue q).part == p

/-- Check 7 of R341. -/
def launchAfford (c : Ctx) (w : Waybill) : Bool :=
  decide ((w.ibud * w.count : Nat) < c.bud.ibud.toInt) && decide ((w.tbud * w.count + 2 : Nat) ≤ c.bud.tbud.toInt)

def slotLaunch (g : Guard) (sig : BitVec 7) (ra : BitVec 6) (h : BitVec 4) (k : Nat) (s : State) : SlotOut :=
  let c := s.ctx k
  let r := (c.s ra).toNat
  let t := waybillTap c sig
  let bs := waybillBytes s k c sig
  guarded g c
    { uses := sUse ra ++ [.sample sig.toNat t.idx]
      hold := if t.g.present && t.unfilled s k c then .unfilled else if handleHold c h then .outside else .free
      listed := handleHold c h
      other := handleHold c h
      trap := (absentTrap c sig).or
        ((if (s.waybill k).priv.getLsbD 1 then none else some (cause 0x0A)).or
        ((if r < 2 ^ 18 then none else some (cause 0x01)).or
        ((if launchQueue s r (s.partOf k) then none else some (cause 0x0A)).or
        ((waybillTrap s k c sig).or
        ((if waybillOk bs false then none else some (cause 0x01)).or
        (if launchAfford c (parseWaybill bs) then none else some (cause 0x09)))))))
      accept := launchAccept k sig r h bs
      traffic := 2
      units := waybillUnits s k c sig }

/-! The dispatcher's side of a LAUNCH. -/

/-- The launching member still waits for the handle. -/
def launchLives (s : State) (l : Launch) : Bool := (s.step1 l.step).uid == l.uid && (s.step1 l.step).present

def onLaunchHandle (l : Launch) (f : Handle → Handle) (s : State) : State :=
  if launchLives s l then s.updMemberCtx l.step l.member fun c => c.updHandle l.handle.toNat f else s

/-- The queue of a launch has not been destroyed (R342). -/
def launchQueueLives (s : State) (l : Launch) : Bool := (s.queue l.queue).present && (s.queue l.queue).gen == l.gen

/-- Take a launch off its die; the entries after it in its queue move up by one. -/
def dropLaunch (d n : Nat) (failed : Bool) (l : Launch) (s : State) : State :=
  let s0 := s.updDie d fun x => { x with launches := x.launches.eraseIdx n }
  let s1 := if launchQueueLives s l then s0.updQueue l.queue fun x => { x with reserved := x.reserved - 1 } else s0
  if !failed then s1
  else
    let behind := fun (y : Launch) => y.queue == l.queue && y.gen == l.gen && decide ((y.k - l.k).toNat < 2 ^ 31) && y.k != l.k
    let later := (s1.dies.flatMap fun e => e.2.launches).filter behind
    let s2 := later.foldl (fun s y => onLaunchHandle y (fun h => { h with first := BitVec.ofNat 44 (y.k - 1).toNat }) s) s1
    { s2 with dies := s2.dies.map fun e =>
        (e.1, { e.2 with launches := e.2.launches.map fun y => if behind y then { y with k := y.k - 1 } else y }) }

/-- The dispatcher's request for a launch, by its member and handle. -/
def Launch.request (l : Launch) : Nat := dispRequest 5 ((l.step * 16 + l.member) * 16 + l.handle.toNat)

/-- The handle ends failed; the budgets and the weight return (R342). -/
def failLaunch (d n : Nat) (l : Launch) (s0 : State) : State :=
  let s := dropRequests d (· == l.request) s0
  let x := s.task l.task
  let s1 := if x.present && x.order == l.order then s.updTask l.task fun x => { x with purse := x.purse + l.child } else s
  dropLaunch d n true l (returnBudget l.part (.launch l.step l.uid l.member l.ibud l.tbud) l.ibud l.tbud
    (onLaunchHandle l (fun h => { h with state := 6 }) s1))

/-- The entry as it is written: PURSE and BORROWED of R338. -/
def Launch.entry (l : Launch) : List Byte :=
  if fieldAt l.bytes 0x48 8 = 0 then l.bytes
  else
    let b := patchBytes l.bytes 0x40 (leBytes 8 l.child)
    if l.borrowed then patchBytes b 0x58 (leBytes 4 (fieldAt b 0x58 4 % 2 + 2)) else b

/-- Borrow weight at the graph, where that is still to do (R338): the launch with its child, or it waits or
fails. -/
def borrow (d p : Nat) (l : Launch) (s : State) : XferRes Launch × State :=
  if !l.borrowed || l.child != 0 then (.ok l, s)
  else
    let g := fieldAt l.bytes 0x48 8
    match nearRead d p l.request g 8 .update s with
    | (.wait, s1) => (.wait, s1)
    | (.fail, s1) => (.fail, s1)
    | (.ok issued, s1) =>
      let child := min (fieldAt l.bytes 0x40 8) (2 ^ 64 - 1 - issued.2)
      if child = 0 then (.fail, s1)
      else
        match nearAdd d p l.request g child s1 with
        | (.ok _, s2) => (.ok { l with child := child }, s2)
        | (.wait, s2) => (.wait, s2)
        | (.fail, s2) => (.fail, s2)

/-- The dispatcher makes the release of its n-th LAUNCH, borrows, waits for a free entry and writes it
(R338, R342). -/
def launchEntryWrite (d n : Nat) (s : State) : State :=
  match (s.die d).launches[n]? with
  | none => s
  | some l =>
    let q := s.queue l.queue
    if launchLives s l && releaseOpen s d (s.memberCtx l.step l.member) l.seq 3 0xFF then s
    else if !launchQueueLives s l then failLaunch d n l s
    else
      match borrow d q.part l s with
      | (.wait, s1) => s1
      | (.fail, s1) => failLaunch d n l s1
      | (.ok l1, s1) =>
        let s2 := s1.updDie d fun x => { x with launches := modifyAt (fun _ => l1) x.launches n }
        if (s2.queue l.queue).tail != l.k then s2
        else
          match putEntry l.queue l1.entry (.launch l.step l.uid l.member l.ibud l.tbud) s2 with
          | (.wait, s3) => s3
          | (.fail, s3) => failLaunch d n l1 s3
          | (.ok _, s3) =>
            dropLaunch d n false l1 (onLaunchHandle l1 (fun h => { h with progress := 1, state := 5 }) s3)

/-! WSEND. -/

/-- The effects at commit: the waybill goes out once its release is complete (R488). -/
def wsendAccept (k : Nat) (sig : BitVec 7) (r : Word) (h : BitVec 4) (bs : List Byte) (s : State) : State :=
  let st := s.stepKey k
  let m := s.memberNo k
  let pkg : BitVec 18 := BitVec.ofNat 18 (r.toNat / 2 ^ 18)
  let (tag, s1) := s.newTag
  let w : Wire := ⟨1, 0, 0, mkEnd s.pkgid (dieOf k), mkEnd pkg (r.toNat / 2 ^ 16 % 4), 0, r, s.epoch, tag,
    maskPriv bs (s.waybill k).priv, r.toNat / 2 ^ 16 % 4⟩
  let req : Req := ⟨tag, pkg, st, (s.step1 st).uid, m, .work h⟩
  let s2 := s1.updCtx k fun c => takeHandle h (workHandle 0x21 sig 0) c
  { s2 with
    fab.reqs := s2.fab.reqs ++ [req]
    fab.deferred := s2.fab.deferred ++ [(w, st, m, (s.ctx k).eng.nextSeq)] }

def slotWsend (g : Guard) (sig : BitVec 7) (ra : BitVec 6) (h : BitVec 4) (k : Nat) (s : State) : SlotOut :=
  let c := s.ctx k
  let r := c.s ra
  let t := waybillTap c sig
  let bs := waybillBytes s k c sig
  guarded g c
    { uses := sUse ra ++ [.sample sig.toNat t.idx]
      hold := if t.g.present && t.unfilled s k c then .unfilled else if handleHold c h then .outside else .free
      listed := handleHold c h
      other := handleHold c h
      trap := (absentTrap c sig).or
        ((if (s.waybill k).priv.getLsbD 2 then none else some (cause 0x0A)).or
        ((if r.toNat < 2 ^ 36 then none else some (cause 0x01)).or
        ((waybillTrap s k c sig).or
        (if waybillOk bs false && (parseWaybill bs).graph == 0 then none else some (cause 0x01)))))
      accept := wsendAccept k sig r h bs
      traffic := 2
      units := waybillUnits s k c sig }

end Sys2Proof.Machine
end

