-- ==== Sys2Proof/Machine/Matrix.lean ====
section
/-!
DEFINITION. The M class: latches, matrix products, affine maps, scans (R190, R239 to R258, R287).
-/
namespace Sys2Proof.Machine
open Sys2Proof

/-! Rows of the tiles and carries. A pair stands with its poison mark. -/

abbrev PairP := Pair × BitVec 2

def tileRow (t r : Nat) : Nat := t * 24576 + r * 192
def one32 : BitVec 32 := 0x3F800000

def Ctx.tilePairs (c : Ctx) (t r : Nat) : List PairP :=
  (Sparse.getMany {} c.mx.tiles (tileRow t r) 192).zip (Sparse.getMany 0 c.mx.tilePoison (tileRow t r) 192)
def Ctx.setTilePairs (c : Ctx) (t r : Nat) (xs : List PairP) : Ctx :=
  { c with mx.tiles := Sparse.putRange {} c.mx.tiles (tileRow t r) (xs.map (·.1)),
           mx.tilePoison := Sparse.putRange 0 c.mx.tilePoison (tileRow t r) (xs.map (·.2)) }
def Ctx.carryPairs (c : Ctx) (n : Nat) : List PairP :=
  (Sparse.getMany {} c.mx.carries (n * 192) 192).zip (Sparse.getMany 0 c.mx.carryPoison (n * 192) 192)
def Ctx.setCarryPairs (c : Ctx) (n : Nat) (xs : List PairP) : Ctx :=
  { c with mx.carries := Sparse.putRange {} c.mx.carries (n * 192) (xs.map (·.1)),
           mx.carryPoison := Sparse.putRange 0 c.mx.carryPoison (n * 192) (xs.map (·.2)) }
def Ctx.latch (c : Ctx) (l : BitVec 1) : Latch := if l = 0 then c.mx.latch0 else c.mx.latch1
def Ctx.setLatch (c : Ctx) (l : BitVec 1) (x : Latch) : Ctx :=
  if l = 0 then { c with mx.latch0 := x } else { c with mx.latch1 := x }

/-- Write consecutive rows. -/
def Ctx.setTileRows (c : Ctx) (t r : Nat) : List (List PairP) → Ctx
  | [] => c
  | x :: xs => (c.setTilePairs t r x).setTileRows t (r + 1) xs

def MRows.n (r : MRows) : Nat := if r.rows = 0 then 128 else r.rows.toNat
def MRows.base (r : MRows) : Nat := r.off.toNat

/-! Operands (R242, R243). -/

def MKind.planes : MKind → Option Nat
  | .ni8 p => some (p.toNat + 1)
  | .bf16 => none
  | .fp16 => none
def MKind.fmt : MKind → Fmt
  | .ni8 _ => .ni8
  | .bf16 => .bf16
  | .fp16 => .fp16
/-- The same kind; plane counts may differ (R243). -/
def MKind.same (a b : MKind) : Bool := MKind.fmt a == MKind.fmt b

/-- The exact values of n elements of a row. -/
def rowValues (s : State) (k : Nat) (c : Ctx) (t : Tap) (pl : Option Nat) (n : Nat) : List FVal :=
  (t.span n).map fun e => if laneZero c t pl e then .num false 0 0 else elemValue s k c t pl e

/-- The 192 elements of a row converted to FP32 (R243). -/
def rowF32 (s : State) (k : Nat) (c : Ctx) (t : Tap) : List (Nat × Flags) :=
  (t.span 192).map (tapLane s k c t none .fp32)

/-- The absence checks of R257 for a tap that is read. DESIGN CHOICE (log 118): a signal of FORMAT NI8 counts as an NI8 read
whatever type the syllable names, so that an absent scale signal (0x08) comes before the FORMAT mismatch (0x01). -/
def mAbsent (c : Ctx) (t : Tap) : Option Cause :=
  if !t.g.present then some (sigCause 0x08 t.n none)
  else if t.g.fmt == .ni8 then
    match scaleTap c t with
    | some sc => if sc.g.present then none else some (sigCause 0x08 sc.n none)
    | none => none
  else none

/-- Faults of the scale arrangement (R181). DESIGN CHOICE (log 127): a sample with no scale signal has none. -/
def mScale (c : Ctx) (t : Tap) : Option Cause :=
  if t.g.fmt == .ni8 then
    match scaleTap c t with
    | some sc => if (scalePre t sc).any (·.code == 0x01) then some (cause 0x01) else none
    | none => none
  else none

/-- What every command that reads a tap shares: rows of elems elements, illegal the check of order 3 of
R257 beside the scale arrangement, last the cycle in which its last row is final (R248). -/
def mReadOut (s : State) (k : Nat) (c : Ctx) (t : Tap) (rows elems : Nat) (pl : Option Nat)
    (illegal : Bool) (last : Nat) : SlotOut :=
  let ts := (List.range rows).map fun j => t.row rows j
  { uses := ts.flatMap (tapSamples c)
    hold := if ts.any (tapHold s k c) then .unfilled else .free
    trap := (mAbsent c t).or <| (if illegal then some (cause 0x01) else none).or <| (mScale c t).or <|
      ts.findSome? fun r => tapTrap s k c r pl (r.span elems)
    units := ts.flatMap fun r => tapUnits s k r pl (r.span elems)
    marks := (ts.flatMap (tapSamples c)).map fun x => (x, true, last) }

/-! Pending work (R246, R247). -/

/-- A pending write of the result is not final by cycle u. -/
def Ctx.late (c : Ctx) (r : Res) (u : Nat) : Bool :=
  c.ready.any fun x => x.res == r && !x.use && decide (u < x.final)

/-- Something pending writes or reads the result at or after cycle f. -/
def Ctx.clash (c : Ctx) (r : Res) (f : Nat) : Bool :=
  c.ready.any fun x => x.res == r && decide (f ≤ x.final)

/-- Conditions 2 and 3 of R247 for reads and writes at cycles after t. -/
def mHeld (c : Ctx) (t : Nat) (reads writes : List (Res × Nat)) : Bool :=
  (reads.any fun x => c.late x.1 (t + x.2)) || (writes.any fun x => c.clash x.1 (t + x.2))

/-- The scoreboard entries of reads and writes. -/
def mMarks (reads writes : List (Res × Nat)) : List (Res × Bool × Nat) :=
  reads.map (fun x => (x.1, true, x.2)) ++ writes.map (fun x => (x.1, false, x.2))

/-- The pipes of R245 and their occupancy. -/
inductive Pipe
  | array (n : Nat)
  | loader
  | affine (n : Nat)
deriving DecidableEq, Repr

/-- The first cycle in which a pipe takes a command of seat k. -/
def Pipe.free (s : State) (k : Nat) : Pipe → Nat
  | .array _ => (s.core (coreOf k)).arrayFree
  | .loader => (s.core (coreOf k)).loaderFree
  | .affine _ => (s.ctx k).mx.affineFree

def Pipe.take (k : Nat) (p : Pipe) (s : State) : State :=
  let t := s.clk k
  match p with
  | .array n => s.updCore (coreOf k) fun c => { c with arrayFree := t + n }
  | .loader => s.updCore (coreOf k) fun c => { c with loaderFree := t + 64 }
  | .affine n => s.updCtx k fun c => { c with mx.affineFree := t + n }

/-- The flags of rows become due when the rows are final (R244); the last entry also marks the end of
the command. -/
def pendRows (k : Nat) (fs : List (Nat × Flags)) (s : State) : State :=
  let t := s.clk k
  let n := fs.length
  s.updCtx k fun c => { c with mx.pend := c.mx.pend ++
    (fs.zipIdx.filter fun x => x.1.2 != 0 || x.2 + 1 == n).map fun x => ⟨t + x.1.1, x.1.2⟩ }

/-- An M command over its operands o: its pipe, its reads and writes, its effect and the flags of its
rows. -/
def mOut (s : State) (k : Nat) (o : SlotOut) (p : Pipe) (reads writes : List (Res × Nat)) (toll : Nat)
    (eff : State → State) (flags : List (Nat × Flags)) : SlotOut :=
  let t := s.clk k
  let own := decide (t < p.free s k) || mHeld (s.ctx k) t reads writes
  { o with
    hold := o.hold.join (if own then .own else .free)
    other := own
    marks := o.marks ++ mMarks reads writes
    toll := toll
    write := fun s => pendRows k flags (p.take k (eff s)) }

def rowsRes (f : Nat → Nat → Res) (tile : BitVec 1) (r : MRows) (cyc : Nat → Nat) : List (Res × Nat) :=
  (List.range (MRows.n r)).map fun i => (f tile.toNat (MRows.base r + i), cyc i)

/-! Latches (R249). -/

/-- Elements of the latch in row order, from the rows of the tap. -/
def latchElems {α : Type} (transpose : Bool) (d : α) (rows : List (List α)) : List α :=
  if transpose then
    (List.range 64).flatMap fun k => rows.map fun r => r.getD k d
  else rows.flatMap id

def latchOut (transpose : Bool) (g : Guard) (l : BitVec 1) (n lag : BitVec 7) (kd : MKind) (k : Nat)
    (s : State) : SlotOut :=
  let c := s.ctx k
  let t := resolve c n lag.toNat
  let rows := if transpose then 192 else 64
  let cols := if transpose then 64 else 192
  let o := mReadOut s k c t rows cols (MKind.planes kd) (t.g.fmt != MKind.fmt kd) 64
  let vals := latchElems transpose (.num false 0 0) <|
    (List.range rows).map fun j => rowValues s k c (t.row rows j) (MKind.planes kd) cols
  let busy := c.ready.any fun x => x.res == .latch l.toNat && x.use && decide (s.clk k < x.final)
  guarded g c <|
    let m := mOut s k o .loader [] [(.latch l.toNat, 64)] 64
      (fun s => s.updCtx k fun c => c.setLatch l
        ⟨some kd, Sparse.putRange (.num false 0 0) [] 0 vals, []⟩) [(64, 0)]
    { m with hold := m.hold.join (if busy then .own else .free), other := m.other || busy }

def slotLatch := latchOut false
def slotLatcht := latchOut true

/-! Matrix products (R190, R250, R251). -/

/-- The special cases of a K-step that its finite products do not show. -/
structure KSpec where
  snan : Bool := false
  nan : Bool := false
  zinf : Bool := false
  pinf : Bool := false
  ninf : Bool := false

def KSpec.add (z : KSpec) (a b : FVal) : KSpec :=
  let z := { z with snan := z.snan || a.isSnan || b.isSnan }
  match mulV a b with
  | (.nan _, inv) => { z with nan := true, zinf := z.zinf || (inv && !a.isNan && !b.isNan) }
  | (.inf n, _) => if n then { z with ninf := true } else { z with pinf := true }
  | (.num _ _ _, _) => z

/-- The exact sum of the finite products. -/
def sumFinite (ps : List (FVal × FVal)) : FVal :=
  ps.foldl (fun acc p => match mulV p.1 p.2 with
    | (.num n m e, _) => (addV 0 acc (.num n m e)).1
    | _ => acc) (.num false 0 0)

/-- KStep of R190 on the offset b, products given as pairs. -/
def kStep (b : FVal) (ps : List (FVal × FVal)) : Nat × Flags :=
  let z : KSpec := ps.foldl (fun z p => KSpec.add z p.1 p.2) {}
  let nv := Flags.when (z.snan || b.isSnan) Flags.nv
  if z.nan then (fp32.nan, nv ||| Flags.when z.zinf Flags.nv)
  else if z.pinf && z.ninf then (fp32.nan, Flags.nv)
  else if z.pinf || z.ninf then
    if b == .inf z.pinf then (fp32.nan, Flags.nv) else (fp32.inf z.ninf, nv)
  else if b.isNan then (fp32.nan, nv)
  else
    let p := sumFinite ps
    let r := if p.isZero && b.isZero then (b, false) else addV 0 b p
    let y := fp32.round 0 r.1
    (y.1, nv ||| y.2)

/-- Cycles per row in quarters (R251). -/
def MKind.quarters : MKind → Nat
  | .ni8 p => if p.toNat + 1 = 2 then 1 else if p.toNat + 1 ≤ 4 then 2 else 4
  | .bf16 => 8
  | .fp16 => 8

/-- One row of MMA or MMAZ: the pairs of the row after it and its flags. DESIGN CHOICE (log 117): with an empty latch no
product is formed, so that a signaling NaN of the A row sets no NV. -/
def mmaRow (zero : Bool) (cols : List (List FVal × Bool)) (empty : Bool) (a : List FVal) (row : List PairP) :
    List PairP × Flags :=
  let xs := (row.zip cols).map fun x =>
    let base : PairP := if zero then (⟨one32, 0⟩, 0) else x.1
    let y := kStep (fp32.decode base.1.off.toNat) (if empty then [] else a.zip x.2.1)
    (((⟨base.1.gain, BitVec.ofNat 32 y.1⟩, if base.2 != 0 || x.2.2 then 3 else 0) : PairP), y.2)
  (xs.map (·.1), xs.foldl (fun f x => f ||| x.2) 0)

def mmaOut (zero : Bool) (g : Guard) (tile l : BitVec 1) (n lag : BitVec 7) (r : MRows) (kd : MKind)
    (k : Nat) (s : State) : SlotOut :=
  let c := s.ctx k
  let t := resolve c n lag.toNat
  let la := c.latch l
  let rows := MRows.n r
  let q := MKind.quarters kd
  let busy := (rows * q + 3) / 4
  let cyc := fun i => i * q / 4
  let illegal := t.g.fmt != MKind.fmt kd || la.kind.any fun x => !MKind.same x kd
  let o := mReadOut s k c t rows 64 (MKind.planes kd) illegal (cyc (rows - 1) + 24)
  let cols := (List.range 192).map fun j =>
    ((List.range 64).map fun i => la.elems.get (.num false 0 0) (i * 192 + j),
     la.poison.any fun e => e.1 % 192 == j)
  let out := (List.range rows).map fun j =>
    mmaRow zero cols la.kind.isNone (rowValues s k c (t.row rows j) (MKind.planes kd) 64)
      (c.tilePairs tile.toNat (MRows.base r + j))
  let reads := if zero then [] else rowsRes .off tile r fun i => cyc i + 23
  let writes := rowsRes .off tile r (fun i => cyc i + 24) ++
    if zero then rowsRes .gain tile r fun i => cyc i + 24 else []
  guarded g c <|
    let m := mOut s k o (.array busy) ((.latch l.toNat, 0) :: reads) writes busy
      (fun s => s.updCtx k fun c => c.setTileRows tile.toNat (MRows.base r) (out.map (·.1)))
      ((out.map (·.2)).zipIdx.map fun x => (cyc x.2 + 24, x.1))
    { m with marks := m.marks ++ [(.latch l.toNat, true, busy)] }

def slotMma := mmaOut false
def slotMmaz := mmaOut true

/-! Loading, evaluating and reading maps (R252, R253). -/

def asetOut (gain : BitVec 32) (g : Guard) (tile : BitVec 1) (r : MRows) (k : Nat) (s : State) : SlotOut :=
  guarded g (s.ctx k) <|
    mOut s k {} (.affine 1) [] (rowsRes .gain tile r (fun _ => 2) ++ rowsRes .off tile r fun _ => 2) 0
      (fun s => s.updCtx k fun c => c.setTileRows tile.toNat (MRows.base r)
        (List.replicate (MRows.n r) (List.replicate 192 (⟨gain, 0⟩, 0)))) [(2, 0)]

def slotAsetId := asetOut one32
def slotAsetZero := asetOut 0

/-- AGAIN, AOFF and APPLY: f gives a pair from the old one and the element. -/
def mapOut (f : PairP → Nat → PairP × Flags) (reads writes : List (Nat → Nat → Res)) (g : Guard)
    (tile : BitVec 1) (n lag : BitVec 7) (r : MRows) (k : Nat) (s : State) : SlotOut :=
  let c := s.ctx k
  let t := resolve c n lag.toNat
  let rows := MRows.n r
  let o := mReadOut s k c t rows 192 none false (rows + 3)
  let out := (List.range rows).map fun j =>
    let xs := ((c.tilePairs tile.toNat (MRows.base r + j)).zip (rowF32 s k c (t.row rows j))).map fun x =>
      let y := f x.1 x.2.1
      (y.1, y.2 ||| x.2.2)
    (xs.map (·.1), xs.foldl (fun f x => f ||| x.2) 0)
  guarded g c <|
    mOut s k o (.affine rows) (reads.flatMap fun h => rowsRes h tile r (· + 3))
      (writes.flatMap fun h => rowsRes h tile r (· + 4)) rows
      (fun s => s.updCtx k fun c => c.setTileRows tile.toNat (MRows.base r) (out.map (·.1)))
      ((out.map (·.2)).zipIdx.map fun x => (x.2 + 4, x.1))

def slotAgain := mapOut (fun p x => ((⟨BitVec.ofNat 32 x, p.1.off⟩, p.2 &&& 1), 0)) [] [.gain]
def slotAoff := mapOut (fun p x => ((⟨p.1.gain, BitVec.ofNat 32 x⟩, p.2 &&& 2), 0)) [] [.off]
def slotApply := mapOut (fun p x =>
    let y := fp32.fma 0 (fp32.decode p.1.gain.toNat) (fp32.decode x) (fp32.decode p.1.off.toNat)
    ((⟨0, BitVec.ofNat 32 y.1⟩, 0), y.2)) [.gain, .off] [.gain, .off]

/-- The checks of a destination of ARD and CYGET in the order of R257. -/
def mDestTrap (t : Tap) (rows : List Tap) : Option Cause :=
  if !t.g.present then some (sigCause 0x08 t.n none)
  else if t.g.feed != 0 then some (sigCause 0x07 t.n (some t.idx))
  else if t.g.fmt == .ni8 then some (cause 0x01)
  else rows.findSome? writeTrap

/-- Write a row of FP32 patterns with their poison (R243, R287). -/
def putRow (k : Nat) (t : Tap) (xs : List (BitVec 32 × Bool)) (s : State) : State :=
  let s1 := tapWrite k t .fp32 0 (xs.map (·.1.toNat)) s
  if t.prehistory then s1
  else
    let bad := (t.span xs.length).zip xs |>.filter fun x => x.2.2 && decide (x.1 < t.g.elems)
    let us := (bad.map fun x => x.1 * t.g.fmt.size / 32).dedup
    us.foldl (fun s u => s.updCtx k fun c => c.markPoison t.n t.slot u true) s1

/-- The flags of a row's conversions on writing. -/
def putRowFlags (t : Tap) (xs : List (BitVec 32 × Bool)) : Flags :=
  if t.prehistory then 0 else (toFormat t .fp32 0 (xs.map (·.1.toNat))).2

def mWriteOut (s : State) (k : Nat) (t : Tap) (rows : List Tap) : SlotOut :=
  { trap := mDestTrap t rows
    units := rows.flatMap fun r => tapUnits s k r none (r.span 192) }

def ardOut (gain : Bool) (g : Guard) (tile : BitVec 1) (n lag : BitVec 7) (r : MRows) (k : Nat)
    (s : State) : SlotOut :=
  let c := s.ctx k
  let t := resolve c n lag.toNat
  let rows := MRows.n r
  let ts := (List.range rows).map fun j => t.row rows j
  let vals := (List.range rows).map fun j =>
    (c.tilePairs tile.toNat (MRows.base r + j)).map fun p =>
      (if gain then p.1.gain else p.1.off, p.2 != 0)
  let reads := rowsRes (if gain then .gain else .off) tile r (· + 1)
  let writes := ts.zipIdx.map fun x => (Res.sample n.toNat x.1.idx, x.2 + 8)
  guarded g c <|
    mOut s k (mWriteOut s k t ts) (.affine rows) reads writes rows
      (fun s => (ts.zip vals).foldl (fun s x => putRow k x.1 x.2 s) s)
      ((ts.zip vals).zipIdx.map fun x => (x.2 + 8, putRowFlags x.1.1 x.1.2))

def slotArdOff := ardOut false
def slotArdGain := ardOut true

def slotCyset (g : Guard) (cy : BitVec 2) (n lag : BitVec 7) (k : Nat) (s : State) : SlotOut :=
  let c := s.ctx k
  let t := resolve c n lag.toNat
  let o := mReadOut s k c t 1 192 none false 2
  let xs := rowF32 s k c (t.row 1 0)
  guarded g c <|
    mOut s k o (.affine 1) [] [(.carry cy.toNat, 2)] 0
      (fun s => s.updCtx k fun c => c.setCarryPairs cy.toNat (xs.map fun x => (⟨0, BitVec.ofNat 32 x.1⟩, 0)))
      [(2, (collect xs).2)]

def slotCysetId (g : Guard) (cy : BitVec 2) (k : Nat) (s : State) : SlotOut :=
  guarded g (s.ctx k) <|
    mOut s k {} (.affine 1) [] [(.carry cy.toNat, 2)] 0
      (fun s => s.updCtx k fun c => c.setCarryPairs cy.toNat (List.replicate 192 (⟨one32, 0⟩, 0)))
      [(2, 0)]

def slotCyget (g : Guard) (cy : BitVec 2) (n lag : BitVec 7) (k : Nat) (s : State) : SlotOut :=
  let c := s.ctx k
  let t := (resolve c n lag.toNat).row 1 0
  let xs := (c.carryPairs cy.toNat).map fun p => (p.1.off, p.2 != 0)
  guarded g c <|
    mOut s k (mWriteOut s k t [t]) (.affine 1) [(.carry cy.toNat, 1)] [(.sample n.toNat t.idx, 2)] 0
      (putRow k t xs) [(2, putRowFlags t xs)]

/-! Scan (R254, R255). -/

/-- A map as two FP32 patterns. -/
abbrev AMap := Nat × Nat

/-- |x| < 2^f for a finite x. -/
def belowPow (x : FVal) (f : Int) : Bool :=
  match x with
  | .num _ m e => m == 0 || log2F m e < f
  | .inf _ => false
  | .nan _ => false

/-- Compose of R254: the map of x2 after x1, with its flags. -/
def compose (floor : Int) (x2 x1 : AMap) : AMap × Flags :=
  let g2 := fp32.decode x2.1
  let gp := mulV g2 (fp32.decode x1.1)
  let g := fp32.finish 0 gp
  let b := fp32.fma 0 g2 (fp32.decode x1.2) (fp32.decode x2.2)
  let cut : Bool := match gp.1 with
    | .num _ m _ => m != 0 && belowPow (fp32.decode g.1) floor
    | .inf _ => false
    | .nan _ => false
  let gv := if cut then bit gp.1.signNeg * fp32.signBit else g.1
  ((gv, b.1), g.2 ||| b.2 ||| Flags.when cut Flags.cut)

/-- The maps of one block after its local prefixes, with the flags raised on the way. -/
def prefixes (floor : Int) (p : AMap) : List AMap → List (AMap × Flags)
  | [] => []
  | x :: xs =>
    let y := compose floor x p
    y :: prefixes floor y.1 xs

def chunks4 {α : Type} : Nat → List α → List (List α)
  | 0, _ => []
  | n + 1, xs => if xs.isEmpty then [] else xs.take 4 :: chunks4 n (xs.drop 4)

/-- The blocks of a column after the carry: the final maps with the flags of each row, and the carry;
the flags of the block aggregate go with the block's last row. -/
def scanBlocks (floor : Int) (cy : AMap) : List (List AMap) → List (AMap × Flags) × AMap
  | [] => ([], cy)
  | b :: bs =>
    let ls := prefixes floor (one32.toNat, 0) b
    let fs := ls.map fun l =>
      let y := compose floor l.1 cy
      (y.1, l.2 ||| y.2)
    let agg := compose floor ((ls.getLast?.map (·.1)).getD (one32.toNat, 0)) cy
    let rest := scanBlocks floor agg.1 bs
    (fs ++ rest.1, rest.2)

def scanColumn (floor : Int) (cy : AMap) (xs : List AMap) : List (AMap × Flags) × AMap :=
  scanBlocks floor cy (chunks4 xs.length xs)

def PairP.map (p : PairP) : AMap := (p.1.gain.toNat, p.1.off.toNat)
def mkPair (m : AMap) (bad : Bool) : PairP :=
  (⟨BitVec.ofNat 32 m.1, BitVec.ofNat 32 m.2⟩, if bad then 3 else 0)

/-- A running or of the poison of a column. -/
def runBad (b : Bool) : List PairP → List Bool
  | [] => []
  | x :: xs => (b || x.2 != 0) :: runBad (b || x.2 != 0) xs

def scanOut (upd : Bool) (g : Guard) (tile : BitVec 1) (cy : BitVec 2) (r : MRows) (k : Nat) (s : State) :
    SlotOut :=
  let c := s.ctx k
  let rows := MRows.n r
  let floor := c.csr.gfloor.toInt
  let old := (List.range rows).map fun j => c.tilePairs tile.toNat (MRows.base r + j)
  let carry := c.carryPairs cy.toNat
  let cols := (List.range 192).map fun n =>
    let col := old.map fun row => row.getD n (⟨0, 0⟩, 0)
    let cp := carry.getD n (⟨0, 0⟩, 0)
    let z := scanColumn floor (PairP.map cp) (col.map PairP.map)
    let bads := runBad (cp.2 != 0) col
    ((z.1.zip bads).map (fun x => (mkPair x.1.1 x.2, x.1.2)), mkPair z.2 ((bads.getLast?).getD (cp.2 != 0)))
  let out := (List.range rows).map fun j =>
    let xs := cols.map fun cl => cl.1.getD j ((⟨0, 0⟩, 0), 0)
    (xs.map (·.1), xs.foldl (fun f x => f ||| x.2) 0)
  let reads := (.carry cy.toNat, 0) :: (rowsRes .gain tile r id ++ rowsRes .off tile r id)
  let writes := rowsRes .gain tile r (· + 16) ++ rowsRes .off tile r (· + 16) ++
    if upd then [(.carry cy.toNat, rows + 15)] else []
  guarded g c <|
    mOut s k {} (.affine rows) reads writes rows
      (fun s => s.updCtx k fun c =>
        let c1 := c.setTileRows tile.toNat (MRows.base r) (out.map (·.1))
        if upd then c1.setCarryPairs cy.toNat (cols.map (·.2)) else c1)
      ((out.map (·.2)).zipIdx.map fun x => (x.2 + 16, x.1))

def slotScan := scanOut false
def slotScanUpd := scanOut true

end Sys2Proof.Machine
end

