-- ==== Sys2Proof/Machine/Control.lean ====
section
/-!
DEFINITION. The C class without TICK and ADV (R74 to R94, R106 to R112, R302 to R310). What a fused block
decides once is read from its leader (R306).
-/
namespace Sys2Proof.Machine
open Sys2Proof

/-- The span of a block, 1 for a seat alone. -/
def Fuse.span : Fuse → Nat
  | .alone => 1
  | .fused n => n
  | .decoupled n => n

def Fuse.isFused : Fuse → Bool
  | .fused _ => true
  | .alone => false
  | .decoupled _ => false

/-- The member numbers of the block of seat k (R303). -/
def blockMembers (s : State) (k : Nat) : List Nat :=
  let n := (s.ctx k).fuse.span
  (List.range n).map (s.memberNo k / n * n + ·)

/-- The seats of the block that are placed. -/
def blockSeats (s : State) (k : Nat) : List Nat := (blockMembers s k).filterMap (memberSeat s (s.stepKey k))

/-- The seat that decides control for seat k. -/
def leaderSeat (s : State) (k : Nat) : Nat :=
  if (s.ctx k).fuse.isFused then (memberSeat s (s.stepKey k) (s.memberNo k / (s.ctx k).fuse.span *
    (s.ctx k).fuse.span)).getD k else k

def State.lead (s : State) (k : Nat) : Ctx := s.ctx (leaderSeat s k)

/-- A displacement in bundles from the own bundle (R77). -/
def dispTarget (c : Ctx) (d : Int) : Word := c.pos.pc + BitVec.ofInt 64 (8 * d)

def slotNop (g : Guard) (k : Nat) (s : State) : SlotOut := guarded g (s.ctx k) {}

def slotBr (g : Guard) (disp : BitVec 32) (k : Nat) (s : State) : SlotOut :=
  let c := s.lead k
  guarded g c { ctl := .jump (dispTarget c disp.toInt) true }

/-- The first test that holds wins (R79). -/
def slotBrm (ts : List BrmTest) (k : Nat) (s : State) : SlotOut :=
  let c := s.lead k
  { uses := ts.flatMap fun t => predUse t.pred
    ctl := match ts.find? fun t => Guard.holds ⟨t.neg, t.pred⟩ c with
      | some t => .jump (dispTarget c t.disp.toInt) true
      | none => .fall }

/-- A register target: misaligned ones trap in the own bundle (R77). -/
def targetTrap (t : Word) : Option Cause := if t.toNat % 8 = 0 then none else some (addrCause 0x13 t)

def slotJr (g : Guard) (ra : BitVec 6) (k : Nat) (s : State) : SlotOut :=
  let c := s.lead k
  guarded g c { uses := sUse ra, trap := targetTrap (c.s ra), ctl := .jump (c.s ra) true }

/-- CALL and CALLR write s62 with the address after their delay bundles (R79). -/
def slotCall (g : Guard) (disp : BitVec 32) (k : Nat) (s : State) : SlotOut :=
  let c := s.lead k
  guarded g c { defs := [(.s 62, 1)], ctl := .call (dispTarget c disp.toInt) }

def slotCallr (g : Guard) (ra : BitVec 6) (k : Nat) (s : State) : SlotOut :=
  let c := s.lead k
  guarded g c { uses := sUse ra, defs := [(.s 62, 1)], trap := targetTrap (c.s ra), ctl := .call (c.s ra) }

def slotRet (g : Guard) (k : Nat) (s : State) : SlotOut :=
  let c := s.lead k
  guarded g c { uses := [.s 62], trap := targetTrap (c.s 62), ctl := .jump (c.s 62) false }

/-- R80: depth and nesting first, whatever the count; then entry or skip (R82). -/
def loopOut (g : Guard) (count : Word) (uses : List Res) (last : BitVec 16) (k : Nat) (s : State) : SlotOut :=
  let c := s.lead k
  let stop := c.pos.pc + BitVec.ofNat 64 (8 * last.toNat)
  let beyond : Bool := match c.pos.loops.getLast? with
    | some l => l.stop.toNat < stop.toNat
    | none => false
  guarded g c
    { uses := uses
      trap := if c.pos.loops.length ≥ 6 then some (cause 0x10)
        else if beyond then some (cause 0x03) else none
      ctl := if count = 0 then .skip stop else .loop stop count }

def slotLoop (g : Guard) (count last : BitVec 16) := loopOut g (count.zeroExtend 64) [] last
def slotLoopr (g : Guard) (ra : BitVec 6) (last : BitVec 16) (k : Nat) (s : State) : SlotOut :=
  loopOut g ((s.lead k).s ra) (sUse ra) last k s

/-- The innermost loop with remaining count 1 (R85). -/
def lastTurn : List Loop → List Loop
  | [] => []
  | [l] => [{ l with remaining := 1 }]
  | l :: ls => l :: lastTurn ls

def slotLexit (g : Guard) (k : Nat) (s : State) : SlotOut :=
  guarded g (s.lead k)
    { write := fun s => s.updCtx k fun c => { c with pos.loops := lastTurn c.pos.loops } }

def slotYpt (g : Guard) (k : Nat) (s : State) : SlotOut := guarded g (s.lead k) { ctl := .point }

def slotYield (g : Guard) (k : Nat) (s : State) : SlotOut :=
  guarded g (s.lead k)
    { trap := if (s.lead k).bud.incont then some (cause 0x0A) else none, ctl := .yield }

/-- CONT: displacement 0 removes the continuation (R109). -/
def slotCont (g : Guard) (disp : BitVec 32) (k : Nat) (s : State) : SlotOut :=
  let c := s.lead k
  guarded g c
    { write := fun s => s.updCtx k fun x =>
        { x with csr.contpc := if disp = 0 then 0 else dispTarget c disp.toInt &&& 0x0000FFFFFFFFFFF8 } }

def slotResume (g : Guard) (k : Nat) (s : State) : SlotOut :=
  guarded g (s.lead k)
    { trap := if (s.lead k).bud.incont then none else some (cause 0x0A), ctl := .resume }

/-- Budget that a request adds: min(a, reserve, room) of R106. -/
def topupAdd (amount budget reserve : Int) : Int := min (min amount reserve) (2 ^ 47 - 1 - budget)

/-- TOPUP at commit, on the reserve as it then stands. -/
def topupEffect (k : Nat) (tbud : Bool) (amount : Nat) (s : State) : State :=
  let p := s.partOf k
  let b := (s.ctx k).bud
  let old : Int := if tbud then b.tbud.toInt else b.ibud.toInt
  let res : Nat := if tbud then (s.part p).tbud.toNat else (s.part p).ibud.toNat
  let n := topupAdd amount old res
  let s1 := s.updPart p fun x =>
    if tbud then { x with tbud := x.tbud - BitVec.ofInt 64 n } else { x with ibud := x.ibud - BitVec.ofInt 64 n }
  s1.updCtx k fun c =>
    let new := BitVec.ofInt 48 (old + n)
    if tbud then { c with bud.tbud := new }
    else { c with bud.ibud := new, bud.run := if new.toInt > 0 then 0 else c.bud.run }

def slotTopup (g : Guard) (ra : BitVec 6) (tbud : Bool) (k : Nat) (s : State) : SlotOut :=
  let c := s.ctx k
  guarded g (s.lead k)
    { uses := sUse ra
      trap := if c.bud.toppriv then none else some (cause 0x0A)
      write := topupEffect k tbud (c.s ra).toNat }

/-- Handles that hold an EXIT: every incomplete command but an open CSUB (R93). DESIGN CHOICE (log 110): a CSUB that is
suspended on a translation fault, in state 2, is not open and holds. -/
def exitHandles (c : Ctx) : Bool :=
  c.eng.handles.any fun e => e.2.busy && !(e.2.opcode == 0x0B && e.2.state == 1)

/-- A message of the seat is neither counted at its destination nor in the cistern; on a remote channel,
not acknowledged (R93, R484). -/
def sentPending (s : State) (k : Nat) : Bool :=
  let w := (s.stepKey k, s.memberNo k)
  (s.chans.any fun e => e.2.flight.any fun m => match m.after with
    | some (st, j, _) => (st, j) == w
    | none => false) ||
  s.fab.proxies.any fun p => p.die == dieOf k && p.writer == w && proxyPending s p

def slotExit (g : Guard) (k : Nat) (s : State) : SlotOut :=
  let c := s.ctx k
  guarded g (s.lead k)
    { hold := if !c.mx.pend.isEmpty || exitHandles c || sentPending s k then .outside else .free
      ctl := .exit }

def slotTrap (g : Guard) (_code : BitVec 16) (k : Nat) (s : State) : SlotOut :=
  guarded g (s.ctx k) { trap := some (cause 0x0F) }

/-- WAITEV (R86). -/
def slotWaitev (g : Guard) (mask : BitVec 16) (k : Nat) (s : State) : SlotOut :=
  let c := s.ctx k
  guarded g c { hold := if c.csr.evpend &&& mask = 0 then .outside else .free, listed := true }

/-- The member that an event addresses: its step record and member number (R88), where the addressed
seat runs a step of the issuing partition (R89). -/
def evTarget (s : State) (k : Nat) (sc : Scope) (target : Nat) : Option (Nat × Nat) :=
  let seat := match sc with
    | .core => some (k / 2 * 2 + target % 2)
    | .quad => some (k / 8 * 8 + target % 8)
    | .die => none
    | .pkg => none
    | .pod => none
    | .sys => none
  match seat with
  | some t =>
    (match (s.seat t).step with
     | some (st, m) => if (s.task (s.step1 st).task).part == s.partOf k then some (st, m) else none
     | none => none)
  | none =>
    let st := s.step1 (s.stepKey k)
    (match st.members[target]? with
     | some m => if m.place == .ended || m.place == .unplaced then none else some (s.stepKey k, target)
     | none => none)

/-- SIGEV: the event goes on its way, or is lost (R89). -/
def sigevEffect (k : Nat) (sc : Scope) (target : Nat) (ev : BitVec 4) (s : State) : State :=
  match evTarget s k sc target with
  | some (st, m) => { s with events := s.events ++ [⟨st, (s.step1 st).uid, m, ev, s.stepKey k * 16 + s.memberNo k⟩] }
  | none => s.updCtx k fun c => { c with bud.evlost := true }

def slotSigev (g : Guard) (sc : Scope) (target : BitVec 6) (ev : BitVec 4) (k : Nat) (s : State) : SlotOut :=
  guarded g (s.ctx k) { write := sigevEffect k sc target.toNat ev }

def Scope.num : Scope → Nat
  | .core => 0 | .quad => 1 | .die => 2 | .pkg => 3 | .pod => 4 | .sys => 5

/-- A release FENCE of the seat still holds writes back: a BAR arrives after it (R385), by DESIGN CHOICE (log 88). -/
def fenceOpen (s : State) (k : Nat) : Bool :=
  (s.ctx k).eng.fences.any fun f => !f.nm && f.holdsWrites s (dieOf k) (s.ctx k)

def slotBar (g : Guard) (sc : Scope) (id : BitVec 6) (k : Nat) (s : State) : SlotOut :=
  guarded g (s.ctx k) { hold := if fenceOpen s k then .outside else .free, ctl := .bar (Scope.num sc) id.toNat }

/-- The checks of R304. -/
def fuseTrap (s : State) (k : Nat) (span : Nat) : Option Cause :=
  let c := s.ctx k
  if c.fuse != .alone then some ⟨0x11, 0, memberDetail (s.memberNo k)⟩
  else if span = 1 || ((s.waybill k).fused && span ≤ c.csr.groupsz.toNat) then none
  else some ⟨0x11, 0, memberDetail (s.memberNo k)⟩

def slotFuse (g : Guard) (code : BitVec 3) (k : Nat) (s : State) : SlotOut :=
  let span := 2 ^ code.toNat
  guarded g (s.lead k) { trap := fuseTrap s k span, ctl := if span = 1 then .next else .fuse span }

def slotDecouple (g : Guard) (k : Nat) (s : State) : SlotOut :=
  guarded g (s.lead k) { ctl := if (s.ctx k).fuse.isFused then .decouple else .next }

def slotRejoin (g : Guard) (k : Nat) (s : State) : SlotOut :=
  guarded g (s.lead k)
    { trap := if (s.ctx k).fuse = .alone then some ⟨0x11, 0, memberDetail (s.memberNo k)⟩ else none
      ctl := match (s.ctx k).fuse with
        | .decoupled _ => .rejoin
        | .alone => .next
        | .fused _ => .next }

end Sys2Proof.Machine
end

