-- ==== Sys2Proof/Machine/Barrier.lean ====
section
/-!
DEFINITION. Barriers (R90 to R92, R312, R490) and arrivals at FUSE and REJOIN (R304, R310, R315).
-/
namespace Sys2Proof.Machine
open Sys2Proof

/-! Barriers of scopes core to pkg. -/

/-- The core, quad, die or package of a seat. -/
def instanceOf (sc k : Nat) : Nat :=
  match sc with
  | 0 => k / 2
  | 1 => k / 8
  | 2 => k / 128
  | _ => 0

/-- Where a member stands, or last stood (R92). -/
def Member.spot (m : Member) : Option Nat :=
  match m.place with
  | .onSeat k => some k
  | .away => some m.lastSeat
  | .unplaced => none
  | .ended => none

/-- The participants of one instance of a scope. -/
def barMembers (s : State) (st sc inst : Nat) : List Nat :=
  ((s.step1 st).members.zipIdx.filter fun x => x.1.spot.any fun k => instanceOf sc k == inst).map (·.2)

def arrivalAt (sc id : Nat) : Option Arrival → Bool
  | some (.bar a b _ _) => a == sc && b == id
  | some (.fuse _) => false
  | some .rejoin => false
  | none => false

/-- An arrival that has been released counts no more (R90). -/
def waitsAt (sc id : Nat) : Option Arrival → Bool
  | some (.bar a b rel _) => a == sc && b == id && !rel
  | some (.fuse _) => false
  | some .rejoin => false
  | none => false

def atBar (s : State) (st sc id m : Nat) : Bool := waitsAt sc id (s.memberCtx st m).wait.arrival

/-- A released arrival. -/
def Arrival.go : Arrival → Arrival
  | .bar sc id _ rep => .bar sc id true rep
  | .fuse n => .fuse n
  | .rejoin => .rejoin
def Arrival.report : Arrival → Arrival
  | .bar sc id rel _ => .bar sc id rel true
  | .fuse n => .fuse n
  | .rejoin => .rejoin

def onArrival (f : Arrival → Arrival) (st m : Nat) (s : State) : State :=
  s.updMemberCtx st m fun c => { c with wait.arrival := c.wait.arrival.map f }

/-- Release the barrier if every participant has arrived. -/
def tryRelease (st sc inst id : Nat) (s : State) : State :=
  let ms := barMembers s st sc inst
  if ms.all (atBar s st sc id) then ms.foldl (fun s m => onArrival .go st m s) s else s

/-- Look again at every barrier on which members of a step wait: after an end or a new placement (R92). -/
def recheckBars (st : Nat) (s : State) : State :=
  (s.step1 st).members.zipIdx.foldl (fun s x =>
    match (s.memberCtx st x.2).wait.arrival, x.1.spot with
    | some (.bar sc id false _), some k => if sc ≤ 3 then tryRelease st sc (instanceOf sc k) id s else s
    | _, _ => s) s

/-! Barriers of scopes pod and sys (R490). -/

def podOf (p : BitVec 18) : Nat := p.toNat / 2 ^ 10

/-- Packages that valid KIND 10 windows of a partition name. -/
def windowPkgs (s : State) (p : Nat) : List (BitVec 18) :=
  ((s.part p).windows.filter fun e => e.2.v && e.2.kind == 2).map fun e => e.2.pkg

/-- The barrier set. -/
def barSet (s : State) (p sc : Nat) : List (BitVec 18) :=
  (s.pkgid :: (windowPkgs s p).filter fun q => sc == 5 || podOf q == podOf s.pkgid).dedup

/-- The lowest identity of the set. -/
def barRoot (s : State) (p sc : Nat) : BitVec 18 :=
  (barSet s p sc).foldl (fun a b => if b.toNat < a.toNat then b else a) s.pkgid

def PodBar.names (b : PodBar) (p sc id : Nat) : Bool := b.part == p && b.scope == sc && b.id == id

def findBar (s : State) (p sc id : Nat) : Option PodBar := s.fab.bars.find? fun b => b.names p sc id
def updBar (p sc id : Nat) (f : PodBar → PodBar) (s : State) : State :=
  { s with fab.bars := s.fab.bars.map fun b => if b.names p sc id then f b else b }
/-- Have an entry; serial number 0 says that no group of this package has arrived. -/
def needBar (p sc id : Nat) (s : State) : State :=
  if (findBar s p sc id).isSome then s
  else { s with fab.bars := s.fab.bars ++ [⟨p, sc, id, 0, 0, false, [], false⟩] }

def barTarget (sc id : Nat) : Word := BitVec.ofNat 64 (sc + id * 256)

/-- Commit every held seat of the barrier; one whose set has lost a package never releases (R490, R492). -/
def releasePod (p sc id : Nat) (s : State) : State :=
  match findBar s p sc id with
  | none => s
  | some b =>
    if b.broken then s else
    let s1 := { s with fab.bars := s.fab.bars.filter fun x => !x.names p sc id }
    if (s1.step1 b.step).uid != b.uid then s1
    else ((List.range (s1.step1 b.step).members.length).filter (atBar s1 b.step sc id)).foldl
      (fun s m => onArrival .go b.step m s) s1

/-- The root counts the arrival of a package, and releases the set once each has arrived; a set with a lost package is
not released (R490, R492). -/
def rootArrival (pkg : BitVec 18) (p sc id : Nat) (s : State) : State :=
  let s1 := updBar p sc id (fun b =>
    if b.arrived.contains pkg.toNat then b else { b with arrived := b.arrived ++ [pkg.toNat] }) (needBar p sc id s)
  let set := barSet s1 p sc
  match findBar s1 p sc id with
  | some b =>
    if !b.broken && set.all fun q => b.arrived.contains q.toNat && !(s1.peer q).lost then
      releasePod p sc id ((set.filter (· != s1.pkgid)).foldl (fun s q =>
        s.send 0 4 0x0A 0 q 0 (barTarget sc id) 0 (leBytes 4 s.pkgid.toNat ++ leBytes 4 0)) s1)
    else s1
  | none => s1

/-- The package has arrived: tell the root. -/
def reportBar (p sc id : Nat) (s : State) : State :=
  match findBar s p sc id with
  | none => s
  | some b =>
    let n := (s.step1 b.step).members.length
    if b.uid = 0 || b.reported || !((List.range n).all (atBar s b.step sc id)) then s
    else
      let s1 := (List.range n).foldl (fun s m => onArrival .report b.step m s)
        (updBar p sc id (fun b => { b with reported := true }) s)
      let root := barRoot s1 p sc
      if root = s1.pkgid then rootArrival root p sc id s1
      else s1.send (b.step / 16384) 4 9 0 root 0 (barTarget sc id) 0 (leBytes 4 root.toNat ++ leBytes 4 0)

/-- Arrival at a pod or sys barrier: the first group of the partition that arrives takes part. -/
def podArrive (k sc id : Nat) (s : State) : State :=
  let p := s.partOf k
  let st := s.stepKey k
  let s1 := updBar p sc id (fun b =>
    if b.uid = 0 then { b with step := st, uid := (s.step1 st).uid } else b) (needBar p sc id s)
  reportBar p sc id s1

/-- A package is lost: a barrier whose set contains it never releases (R490, R492). -/
def breakBars (pkg : BitVec 18) (s : State) : State :=
  let hit := fun (b : PodBar) => (barSet s b.part b.scope).contains pkg
  { s with fab.bars := s.fab.bars.map fun b => if hit b then { b with broken := true, arrived := [] } else b }

/-- A group that ends or restarts gives up a barrier that its package has not reported, or that never releases. -/
def leavePod (st : Nat) (s : State) : State :=
  let drop := fun (b : PodBar) =>
    if b.step == st && b.uid == (s.step1 st).uid && (!b.reported || b.broken) then
      { b with uid := 0, reported := false, broken := false } else b
  let live := fun (b : PodBar) => b.uid != 0 || !b.arrived.isEmpty
  { s with fab.bars := (s.fab.bars.map drop).filter live }

/-- A seat arrives at the barrier of its bundle (R90). -/
def arriveBar (k sc id : Nat) (s : State) : State :=
  if arrivalAt sc id (s.ctx k).wait.arrival then s
  else
    let s1 := s.updCtx k fun c => { c with wait.arrival := some (.bar sc id false false) }
    if sc ≤ 3 then tryRelease (s.stepKey k) sc (instanceOf sc k) id s1 else podArrive k sc id s1

def barReleased (c : Ctx) : Bool :=
  match c.wait.arrival with
  | some (.bar _ _ rel _) => rel
  | some (.fuse _) => false
  | some .rejoin => false
  | none => false

/-- The hold of a reported pod or sys barrier is no pre-emption point (R490). -/
def barReported (c : Ctx) : Bool :=
  match c.wait.arrival with
  | some (.bar _ _ _ rep) => rep
  | some (.fuse _) => false
  | some .rejoin => false
  | none => false

/-! FUSE and REJOIN. -/

/-- The members of the block of member m at a span. -/
def blockOf (span m : Nat) : List Nat := (List.range span).map (m / span * span + ·)

/-- The block with which a member has arrived at FUSE or REJOIN. -/
def waitBlock (s : State) (st m : Nat) : Option (List Nat) :=
  let c := s.memberCtx st m
  match c.wait.arrival with
  | some (.fuse n) => some (blockOf n m)
  | some .rejoin => some (blockOf c.fuse.span m)
  | some (.bar _ _ _ _) => none
  | none => none

/-- The members of a step that wait at FUSE or REJOIN in a block that holds member m. -/
def fuseWaiters (s : State) (st m : Nat) : List Nat :=
  (List.range (s.step1 st).members.length).filter fun j => (waitBlock s st j).any fun b => b.contains m

def arrivedAs (s : State) (st : Nat) (a : Arrival) (m : Nat) : Bool := (s.memberCtx st m).wait.arrival == some a

/-- The saved position is the target of a pending RESUME (R65, R112). -/
def sameReturn (a b : Ctx) : Bool :=
  a.saved.pc == b.saved.pc && a.saved.loops == b.saved.loops && a.saved.pend == b.saved.pend

/-- What R304 compares: the address, the loop stack and the pending transfer with its target. -/
def samePlace (a b : Ctx) : Bool :=
  a.pos.pc == b.pos.pc && a.pos.loops == b.pos.loops && a.pos.pend == b.pos.pend &&
    (!(a.pos.pend.any fun p => p.ret) || sameReturn a b)

/-- How an arrival at FUSE or REJOIN ends. -/
inductive Meet
  | wait
  /-- every member of the block commits -/
  | join (members : List Nat)
  /-- these members take trap 0x11 -/
  | clash (members : List Nat)
deriving DecidableEq, Repr

/-- The members of the step that have arrived at FUSE with another span in a block that shares a member
with the block of m. -/
def spanClash (s : State) (st m span : Nat) : List Nat :=
  (List.range (s.step1 st).members.length).filter fun j =>
    match (s.memberCtx st j).wait.arrival with
    | some (.fuse n) => n != span && ((blockOf span m).contains j || (blockOf n j).contains m)
    | some .rejoin => false
    | some (.bar _ _ _ _) => false
    | none => false

/-- The state of a block once member m has arrived. -/
def meet (s : State) (st m span : Nat) (a : Arrival) : Meet :=
  let bl := blockOf span m
  let other := spanClash s st m span
  let here := bl.filter (arrivedAs s st a)
  if a != .rejoin && !other.isEmpty then
    .clash ((here ++ other ++ other.flatMap fun j => (fuseWaiters s st j)).dedup)
  else if !bl.all (arrivedAs s st a) then .wait
  else if bl.all fun j => samePlace (s.memberCtx st j) (s.memberCtx st m) then .join bl
  else .clash bl

end Sys2Proof.Machine
end

