-- ==== Sys2Proof/Machine/Retire.lean ====
section
/-!
DEFINITION. The end of a member, of a step and of a task, and the return of a step to its slot (R93, R271 to
R273, R299, R301, R313, R325, R331, R336, R360).
-/
namespace Sys2Proof.Machine
open Sys2Proof

/-- The next number of a die: steps become ready, tasks are taken and seats are placed in its order. -/
def nextOrder (d : Nat) (s : State) : Nat × State :=
  ((s.die d).order, s.updDie d fun x => { x with order := x.order + 1 })

/-! Streams at the end of a seat's run. -/

def touchesSeat (k : Nat) (x : Stream) : Bool := x.src == k || x.dst == k

/-- Tear down the streams of a seat; a sample under way counts as not taken (R299). -/
def dropStreams (k : Nat) (s : State) : State :=
  if (s.die (dieOf k)).streams.isEmpty then s
  else s.updDie (dieOf k) fun d => { d with streams := d.streams.filter fun x => !touchesSeat k x }

/-- The mirrors of a member are away no more. -/
def dropGhosts (d st m : Nat) (p : Ghost → Bool) (s : State) : State :=
  if (s.die d).ghosts.isEmpty then s
  else s.updDie d fun x => { x with ghosts := x.ghosts.filter fun y => !(y.step == st && y.member == m && p y) }

/-- A member has left its step for good: neither its mirrors nor its sources count. -/
def forgetGhosts (d st m : Nat) (s : State) : State :=
  if (s.die d).ghosts.isEmpty then s
  else s.updDie d fun x => { x with ghosts := x.ghosts.filter fun y => !(y.step == st && (y.member == m || y.src == m)) }

/-- The streams of a seat that yields: their sources keep the samples that the mirrors have not taken (R299). -/
def yieldStreams (k : Nat) (s : State) : State :=
  let mine := (s.die (dieOf k)).streams.filter (touchesSeat k)
  let away := mine.map fun x =>
    (⟨s.stepKey k, s.memberNo x.src, s.memberNo x.dst, x.sig,
      ((s.ctx x.dst).sg (BitVec.ofNat 7 x.sig)).fillMark⟩ : Ghost)
  let s1 := dropStreams k s
  if away.isEmpty then s1 else s1.updDie (dieOf k) fun d => { d with ghosts := d.ghosts ++ away }

/-- Write a carried sample whole into its mirror and count it. -/
def landStream (x : Stream) (i : Nat) (poison : BitVec 128) (s : State) : State :=
  let n := BitVec.ofNat 7 x.sig
  let w := ((s.ctx x.dst).sg n).width.toNat
  landMessage x.dst n i ((x.units ++ List.replicate w 0).take w) poison s

/-- The streams of a seat complete what they carry as poison, and end (R313). -/
def poisonStreams (k : Nat) (s : State) : State :=
  dropStreams k (((s.die (dieOf k)).streams.filter (touchesSeat k)).foldl (fun s x =>
    match x.carry with
    | some i => landStream x i (BitVec.allOnes 128) s
    | none => s) s)

/-! Ending commands (R234, R271). -/

/-- Perform the n-th access of the engine, where it is a write that its target has not taken: after what stands before it
at the port, which may perform it itself (R419). -/
def settleAccess (n : Nat) (s : State) : State :=
  match s.accs[n]? with
  | none => s
  | some a =>
    if !a.write || a.phase == .served then s
    else
      match a.target with
      | .dram pa =>
        let s1 := settlePort (dieOf a.seat) pa a.size s a.tcls
        if s1.accs[n]?.any fun b => b.phase == .served then s1 else serveAcc n s1
      | .host bus => (hostAccess a bus s).2.2
      | .remote _ _ _ => s

/-- Every access of a seat in flight is performed, and none is left. -/
def settleSeat (k : Nat) (s : State) : State :=
  let mine := (List.range s.accs.length).filter fun n => s.accs[n]?.any fun a => a.seat == k
  let s1 := mine.foldl (fun s n => settleAccess n s) s
  { s1 with accs := s1.accs.filter fun a => a.seat != k }

/-- Every command of a member is ended as CCANCEL and CUNSUB end it. -/
def cancelAll (st m : Nat) (s : State) : State := (List.range 16).foldl (fun s h => cancelHandle st m h s) s

/-- End every command of a member, with its accesses. -/
def endCommands (st m : Nat) (s : State) : State :=
  let s1 := cancelAll st m s
  let s2 := match memberSeat s1 st m with
    | some k => settleSeat k s1
    | none => s1
  (List.range 16).foldl (fun s h =>
    let c := s.memberCtx st m
    if (c.handle h).state == 4 then
      freeStackCtx (c.copy h) (s.updMemberCtx st m fun c =>
        if isCopyOp (c.copy h).op && (c.copy h).op != 6 && (c.copy h).perSample != 0 then
          c.finishCopy (memberStuck s st m) h
        else (c.dropCopy h).updHandle h fun x => { x with state := 7 })
    else s) s2

/-! Members. -/

/-- The seat becomes idle; while a convoy waits it is reserved for it (R334), unless it was recalled for a
candidate (R326). -/
def freeSeat (k : Nat) (s : State) : State :=
  let s1 := s.setSeat k {}
  match (s1.die (dieOf k)).convoy.filter fun _ => !((s1.die (dieOf k)).resv.any fun r => r.seats.contains k) with
  | some r => s1.updDie (dieOf k) fun d => { d with convoy := some { r with seats := insertNat k r.seats } }
  | none => s1

/-- A seat held at FUSE or REJOIN takes trap 0x11 at that bundle, with the faulting member (R304, R315). -/
def fuseTrapAt (k m : Nat) (s : State) : State :=
  let c := s.ctx k
  match fetch k c.pos.pc s with
  | (.bundle ws, s1) => takeTrap k
      { code := 0x11, mask := 1, slots := [(0, 0x11)], bundle := c.pos.pc, detail1 := memberDetail m,
        syll := ws.map (BitVec.ofNat 64) } s1
  | (_, s1) => takeTrap k { code := 0x11, bundle := c.pos.pc, detail1 := memberDetail m } s1

/-- Members that wait at FUSE or REJOIN for a member that ends. -/
def endFuseWaits (st m : Nat) (s : State) : State :=
  (fuseWaiters s st m).foldl (fun s j =>
    match memberSeat s st j with
    | some k => if j == m then s else fuseTrapAt k m s
    | none => s) s

/-- A member leaves the step for good; its context stays with the step for its budgets. -/
def leaveMember (k : Nat) (s : State) : State :=
  let st := s.stepKey k
  let m := s.memberNo k
  let c := s.ctx k
  let s1 := forgetGhosts (dieOf k) st m (dropStreams k (closeBindings st m s))
  let s2 := s1.updMember st m fun x => { x with place := .ended, ctx := { c with wait := {} }, lastSeat := k }
  recheckBars st (endFuseWaits st m (freeSeat k s2))

/-! Steps. -/

def allEnded (x : Step) : Bool := x.members.all fun m => m.place == .ended
def noneOnSeat (x : Step) : Bool := x.members.all fun m => m.place == .ended || m.place == .away

/-- Unused budget of a step (R336). -/
def stepBudget (x : Step) (t : Task) : Nat × Nat :=
  x.members.foldl (fun a m =>
    (a.1 + m.ctx.bud.ibud.toInt.toNat + m.ctx.bud.recalled.toNat, a.2 + m.ctx.bud.tbud.toInt.toNat))
    (t.excessI, t.excessT)

/-- A step retires (R336). -/
def retireStep (st : Nat) (exited : Bool) (s : State) : State :=
  let x := s.step1 st
  let t := s.task x.task
  let b := stepBudget x t
  let s1 := leavePod st (returnBudget t.part t.origin b.1 b.2 s)
  let s2 := (s1.updStep st fun _ => {}).updTask x.task fun y =>
    { y with retired := y.retired + 1, exited := y.exited + bit exited }
  checkTask x.task s2

/-- The step becomes ready (R325); the reservation of a wait-table entry ends. -/
def readyStep (st : Nat) (s : State) : State :=
  let (n, s1) := nextOrder (st / 16384) s
  s1.updStep st fun x => { x with ready := some n, parked := none }

/-- After a member has ended or yielded: the step retires, or becomes ready when no member is on a seat
(R331, R336). A parked step waits for its condition. -/
def afterLeave (st : Nat) (s : State) : State :=
  let x := s.step1 st
  if !x.present then s
  else if allEnded x then retireStep st true s
  else if noneOnSeat x && x.ready.isNone && x.parked.isNone then readyStep st s
  else s

/-- The member of a seat ends by EXIT: open subscriptions close first (R93). -/
def exitMember (k : Nat) (s : State) : State :=
  let st := s.stepKey k
  let m := s.memberNo k
  let subs := (s.ctx k).eng.handles.filter fun e => e.2.busy && e.2.opcode == 0x0B
  afterLeave st (leaveMember k (subs.foldl (fun s e => cancelOne st m e.1 s) s))

end Sys2Proof.Machine
end

