-- ==== Sys2Proof/Machine/Approx.lean ====
section
/-!
DEFINITION. VRCP, VRSQ, VEXP2 and VLOG2 (R209, R210): tables by their formulas, exact interpolation,
one rounding.
-/
namespace Sys2Proof.Machine
open Sys2Proof

/-- The greatest n below 2^bits with p n, p holding on an initial segment that contains 0. -/
def greatest (p : Nat → Bool) : Nat → Nat → Nat
  | 0, n => n
  | b + 1, n => greatest p b (if p (n + 2 ^ b) then n + 2 ^ b else n)

/-- NearInt(a / b), ties to even. -/
def nearDiv (a b : Nat) : Nat :=
  let q := a / b
  let r := a % b
  if 2 * r > b ∨ (2 * r = b ∧ q % 2 = 1) then q + 1 else q

/-- Binary digits of log2 x for x = m / 2^96 in [1, 2), by repeated squaring. -/
def log2Digits : Nat → Nat → Nat → Nat
  | 0, _, acc => acc
  | n + 1, m, acc =>
    let m2 := m * m / 2 ^ 96
    if m2 ≥ 2 ^ 97 then log2Digits n (m2 / 2) (2 * acc + 1) else log2Digits n m2 (2 * acc)

def tblRcp (j : Nat) : Nat := nearDiv (2 ^ 32) (256 + j)
/-- 2^24 / √node: the n with (2n − 1)² node ≤ 2^50 greatest. -/
def tblRsq (j : Nat) : Nat :=
  greatest (fun n => if j ≤ 128 then (2 * n - 1) ^ 2 * (128 + j) ≤ 2 ^ 57 else (2 * n - 1) ^ 2 * j ≤ 2 ^ 56)
    25 0
def tblExp2 (j : Nat) : Nat := greatest (fun n => (2 * n - 1) ^ 256 ≤ 2 ^ (25 * 256 + j)) 26 0
def tblLog2 (j : Nat) : Nat :=
  if j = 256 then 2 ^ 24 else (log2Digits 40 ((256 + j) * 2 ^ 88) 0 + 2 ^ 15) / 2 ^ 16

/-- Which approximation. -/
inductive ApFn | rcp | rsq | exp2 | log2
deriving DecidableEq, Repr

/-- y = (T(j) × 2^b + (T(j + 1) − T(j)) × r) / 2^(24 + b) with q = r / 2^b, exact, as a signed number
and the exponent −(24 + b). -/
def interp (tbl : Nat → Nat) (j r b : Nat) : Int × Int :=
  ((tbl j : Int) * 2 ^ b + ((tbl (j + 1) : Int) - tbl j) * r, -(24 + b : Nat))

/-- The fraction bits of f = m / 2^top (1 ≤ f < 2) below its top n bits, and those bits. -/
def splitFrac (m top n : Nat) : Nat × Nat × Nat :=
  let fr := m - 2 ^ top
  if n ≤ top then (fr / 2 ^ (top - n), fr % 2 ^ (top - n), top - n) else (fr * 2 ^ (n - top), 0, 0)

/-- Approx of R209 on a finite nonzero value that R210 does not decide. -/
def approx (fn : ApFn) (f : FFmt) (mode : RM) (neg : Bool) (m : Nat) (ex : Int) : Nat × Flags :=
  let top := Nat.log2 m
  let e : Int := (top : Int) + ex
  match fn with
  | .rcp =>
    let (j, r, b) := splitFrac m top 8
    let (y, q) := interp tblRcp j r b
    f.round mode (.num neg y.natAbs (q - e))
  | .rsq =>
    let (j7, r, b) := splitFrac m top 7
    if e % 2 = 0 then
      let (y, q) := interp tblRsq j7 r b
      f.round mode (.num false y.natAbs (q - e / 2))
    else
      let (y, q) := interp tblRsq (j7 + 128) r b
      f.round mode (.num false y.natAbs (q - (e - 1) / 2))
  | .log2 =>
    let (j, r, b) := splitFrac m top 8
    let (y, q) := interp tblLog2 j r b
    let v := y + e * 2 ^ (24 + b)
    if v = 0 then (0, 0) else f.round mode (.num (v < 0) v.natAbs q)
  | .exp2 =>
    -- x = ± m × 2^ex; floor and fraction with sh fraction bits
    let sh := (-ex).toNat
    let x : Int := if ex ≥ 0 then (m * 2 ^ ex.toNat : Nat) else (m : Nat)
    let x := if neg then -x else x
    let g := x / (2 ^ sh : Nat)
    let z := (x % (2 ^ sh : Nat)).toNat
    let (j, r, b) := if 8 ≤ sh then (z / 2 ^ (sh - 8), z % 2 ^ (sh - 8), sh - 8)
      else (z * 2 ^ (8 - sh), 0, 0)
    let (y, q) := interp tblExp2 j r b
    -- beyond every exponent of the formats the result overflows or is below half the least subnormal
    let g := if g > 300 then 300 else if g < -300 then -300 else g
    f.round mode (.num false y.natAbs (q + g))

/-- One lane (R209, R210). -/
def approxLane (fn : ApFn) (f : FFmt) (mode : RM) (x : Nat) : Nat × Flags :=
  match f.decode x with
  | .nan s => (f.nan, Flags.when s Flags.nv)
  | .inf neg =>
    match fn with
    | .rcp => (bit neg * f.signBit, 0)
    | .rsq => if neg then (f.nan, Flags.nv) else (0, 0)
    | .exp2 => if neg then (0, 0) else (f.inf false, 0)
    | .log2 => if neg then (f.nan, Flags.nv) else (f.inf false, 0)
  | .num neg m e =>
    if m = 0 then
      match fn with
      | .rcp => (f.inf neg, Flags.dz)
      | .rsq => (f.inf neg, Flags.dz)
      | .exp2 => (f.eTop / 2 * 2 ^ (f.p - 1), 0)
      | .log2 => (f.inf true, Flags.dz)
    else if neg then
      match fn with
      | .rcp => approx fn f mode neg m e
      | .exp2 => approx fn f mode neg m e
      | .rsq => (f.nan, Flags.nv)
      | .log2 => (f.nan, Flags.nv)
    else approx fn f mode neg m e

end Sys2Proof.Machine
end

