-- ==== Sys2Proof/Machine/Vector.lean ====
section
/-!
DEFINITION. The V class (R192 to R214).
-/
namespace Sys2Proof.Machine
open Sys2Proof

/-- Lane pairs with their flags. -/
def zipLanes (f : Nat → Nat → Nat × Flags) (a b : List Nat) : List Nat × Flags :=
  collect (List.zipWith f a b)

/-- The parts that every V slot shares: sources (in the order of R213), destination, rounding mode of
the conversion on writing, latency; vals are the result lanes with the flags of the arithmetic. -/
def vOut (s : State) (k : Nat) (c : Ctx) (srcs : List (VOp × VTy)) (d : VOp) (ty : VTy) (mode : RM)
    (lat : Nat) (vals : List Nat × Flags) : SlotOut :=
  { uses := srcs.flatMap fun x => vUses c x.1
    defs := match d with
      | .vreg r => [(.v r.toNat, lat)]
      | .tap n lag => [(.sample n.toNat (resolve c n lag.toNat).idx, lat)]
      | .sreg _ => []
      | .imm _ => []
    hold := if srcs.any fun x => vHold s k c x.1 then .unfilled else .free
    trap := match srcs.findSome? fun x => vTrap s k c x.2 x.1 with
      | some t => some t
      | none => vDestTrap c d
    write := vWrite k c ty mode vals.1 d
    flags := vals.2 ||| vWriteFlags c ty mode vals.1 d
    units := srcs.flatMap (fun x => vUnits s k c x.2 x.1) ++ vUnits s k c ty d }

/-- Element-wise with two sources. -/
def vbin (f : RM → VTy → Nat → Nat → Nat × Flags) (lat : Nat) (g : Guard) (t : VTy) (d a b : VOp)
    (rm : RM) (k : Nat) (s : State) : SlotOut :=
  let c := s.ctx k
  let x := vRead s k c t a
  let y := vRead s k c t b
  let r := zipLanes (f rm t) x.1 y.1
  guarded g c (vOut s k c [(a, t), (b, t)] d t rm lat (r.1, r.2 ||| x.2 ||| y.2))

/-- Element-wise with two sources and the destination. -/
def vtri (f : RM → VTy → Nat → Nat → Nat → Nat × Flags) (lat : Nat) (g : Guard) (t : VTy) (d a b : VOp)
    (rm : RM) (k : Nat) (s : State) : SlotOut :=
  let c := s.ctx k
  let x := vRead s k c t a
  let y := vRead s k c t b
  let z := vRead s k c t d
  let r := collect (List.zipWith (fun p q => f rm t p.1 p.2 q) (x.1.zip y.1) z.1)
  guarded g c (vOut s k c [(a, t), (b, t), (d, t)] d t rm lat (r.1, r.2 ||| x.2 ||| y.2 ||| z.2))

/-- Element-wise with one source. -/
def vun (f : RM → VTy → Nat → Nat × Flags) (lat : Nat) (g : Guard) (t : VTy) (d a : VOp) (rm : RM)
    (k : Nat) (s : State) : SlotOut :=
  let c := s.ctx k
  let x := vRead s k c t a
  let r := collect (x.1.map (f rm t))
  guarded g c (vOut s k c [(a, t)] d t rm lat (r.1, r.2 ||| x.2))

def VTy.ff : VTy → FFmt
  | .fp32 => Machine.fp32 | .fp16 => Machine.fp16 | .bf16 => Machine.bf16 | .int32 => Machine.fp32

def wrap32 (v : Int) : Nat × Flags := (unsignedOf 32 v, 0)
def i32 (x : Nat) : Int := signedOf 32 x

/-- R196: floating and INT32 sides of one operation. -/
def lane2 (ff : FFmt → RM → FVal → FVal → Nat × Flags) (fi : Int → Int → Int) (rm : RM) (t : VTy)
    (x y : Nat) : Nat × Flags :=
  match t with
  | .int32 => wrap32 (fi (i32 x) (i32 y))
  | .fp32 => ff (VTy.ff t) rm ((VTy.ff t).decode x) ((VTy.ff t).decode y)
  | .fp16 => ff (VTy.ff t) rm ((VTy.ff t).decode x) ((VTy.ff t).decode y)
  | .bf16 => ff (VTy.ff t) rm ((VTy.ff t).decode x) ((VTy.ff t).decode y)

def laneFma (negate : Bool) (rm : RM) (t : VTy) (x y z : Nat) : Nat × Flags :=
  match t with
  | .int32 => wrap32 (if negate then i32 z - i32 x * i32 y else i32 x * i32 y + i32 z)
  | _ =>
    let f := VTy.ff t
    f.fma rm (if negate then (f.decode x).neg else f.decode x) (f.decode y) (f.decode z)

def laneMm (isMax : Bool) (_ : RM) (t : VTy) (x y : Nat) : Nat × Flags :=
  match t with
  | .int32 => (if (decide (i32 x ≤ i32 y)) != isMax then x else y, 0)
  | _ => (VTy.ff t).minmax isMax x y

/-- VABS and VNEG (R198). -/
def laneSign (isAbs : Bool) (_ : RM) (t : VTy) (x : Nat) : Nat × Flags :=
  match t with
  | .int32 => wrap32 (if isAbs then (if i32 x < 0 then -i32 x else i32 x) else -i32 x)
  | _ =>
    let f := VTy.ff t
    match f.decode x with
    | .nan sn => (f.nan, Flags.when sn Flags.nv)
    | _ => if isAbs then (x % f.signBit, 0) else ((x + f.signBit) % (2 * f.signBit), 0)

def laneCmp (cc : Cond) (_ : RM) (t : VTy) (x y : Nat) : Nat × Flags :=
  let ones := 2 ^ VTy.width t - 1
  match t with
  | .int32 =>
    let r : Bool := match cc with
      | .eq => x == y
      | .lt => i32 x < i32 y
      | _ => i32 x ≤ i32 y
    (if r then ones else 0, 0)
  | _ =>
    let r := fcmp cc ((VTy.ff t).decode x) ((VTy.ff t).decode y)
    (if r.1 then ones else 0, r.2)

def slotVadd := vbin (lane2 FFmt.add (· + ·)) 2
def slotVsub := vbin (lane2 FFmt.sub (· - ·)) 2
def slotVmul := vbin (lane2 FFmt.mul (· * ·)) 4
def slotVfma := vtri (laneFma false) 4
def slotVfms := vtri (laneFma true) 4
def slotVmin (g : Guard) (t : VTy) (d a b : VOp) := vbin (laneMm false) 2 g t d a b 0
def slotVmax (g : Guard) (t : VTy) (d a b : VOp) := vbin (laneMm true) 2 g t d a b 0
def slotVabs (g : Guard) (t : VTy) (d a : VOp) := vun (laneSign true) 2 g t d a 0
def slotVneg (g : Guard) (t : VTy) (d a : VOp) := vun (laneSign false) 2 g t d a 0
def slotVcmpeq (g : Guard) (t : VTy) (d a b : VOp) := vbin (laneCmp .eq) 2 g t d a b 0
def slotVcmplt (g : Guard) (t : VTy) (d a b : VOp) := vbin (laneCmp .lt) 2 g t d a b 0
def slotVcmple (g : Guard) (t : VTy) (d a b : VOp) := vbin (laneCmp .le) 2 g t d a b 0
/-- R202: a nonzero lane of the destination selects a. -/
def slotVsel (g : Guard) (t : VTy) (d a b : VOp) :=
  vtri (fun _ _ x y z => (if z = 0 then y else x, 0)) 2 g t d a b 0
def slotVmov (g : Guard) (t : VTy) (d a : VOp) := vun (fun _ _ x => (x, 0)) 2 g t d a 0

/-- R203: the lane index of VBCAST and VSLIDE. -/
def scalarIndex (c : Ctx) : VOp → Int
  | .sreg r => (c.s r).toInt
  | .imm i => i.toInt
  | .tap _ _ => 0
  | .vreg _ => 0

/-- A lane of a list, zero outside (R203). -/
def laneAt (xs : List Nat) (i : Int) : Nat := if i < 0 then 0 else xs.getD i.toNat 0

def slotVbcast (g : Guard) (t : VTy) (d a b : VOp) (k : Nat) (s : State) : SlotOut :=
  let c := s.ctx k
  let x := vRead s k c t a
  let j := scalarIndex c b
  guarded g c (vOut s k c [(a, t), (b, t)] d t 0 2
    (List.replicate (VTy.lanes t) (laneAt x.1 j), x.2))

def slotVslide (g : Guard) (t : VTy) (d a b : VOp) (k : Nat) (s : State) : SlotOut :=
  let c := s.ctx k
  let x := vRead s k c t a
  let n := scalarIndex c b
  guarded g c (vOut s k c [(a, t), (b, t)] d t 0 3
    ((List.range (VTy.lanes t)).map fun (i : Nat) => laneAt x.1 ((i : Int) + n), x.2))

/-- An index lane of VPERM and VTAPX (R204): none for a NaN or an infinity. -/
def indexLane (t : VTy) (x : Nat) : Option Int × Flags :=
  match t with
  | .int32 => (some (i32 x), 0)
  | _ =>
    match (VTy.ff t).decode x with
    | .nan sn => (none, Flags.when sn Flags.nv)
    | .inf _ => (none, 0)
    | .num neg m e =>
      let n : Int := ((roundTo 1 neg m e 0).1 : Nat)
      (some (if neg then -n else n), 0)

def slotVperm (g : Guard) (t : VTy) (d a b : VOp) (k : Nat) (s : State) : SlotOut :=
  let c := s.ctx k
  let x := vRead s k c t a
  let y := vRead s k c t b
  let r := collect (y.1.map fun i =>
    let ix := indexLane t i
    (match ix.1 with
      | some j => laneAt x.1 j
      | none => 0, ix.2))
  guarded g c (vOut s k c [(a, t), (b, t)] d t 0 3 (r.1, r.2 ||| x.2 ||| y.2))

/-- R199. DESIGN CHOICE (log 128): an exact zero sum has the sign that R197 gives it in mode 00. -/
def slotViota (g : Guard) (t : VTy) (d a : VOp) (k : Nat) (s : State) : SlotOut :=
  let c := s.ctx k
  let x := vRead s k c t a
  let one (i : Nat) (v : Nat) : Nat × Flags :=
    match t with
    | .int32 => wrap32 (i32 v + i)
    | _ => (VTy.ff t).add 0 ((VTy.ff t).decode v) (FVal.ofInt i)
  let r := collect (x.1.zipIdx.map fun p => one p.2 p.1)
  guarded g c (vOut s k c [(a, t)] d t 0 3 (r.1, r.2 ||| x.2))

/-- R205: the gathered elements are the ones read. DESIGN CHOICE (log 119): where the index tap b traps itself, the elements
of a that are checked before it are those that the slot of b names as it stands. -/
def slotVtapx (g : Guard) (t : VTy) (d a b : VOp) (k : Nat) (s : State) : SlotOut :=
  let c := s.ctx k
  let y := vRead s k c t b
  match a with
  | .tap n lag =>
    let tp := resolve c n lag.toNat
    let es := y.1.map fun i =>
      match (indexLane t i).1 with
      | some j =>
        if 0 ≤ j ∧ j < tp.g.elems ∧ tp.off + j < tp.g.elems then some (tp.off + j).toNat else none
      | none => none
    let fi := y.1.foldl (fun f i => f ||| (indexLane t i).2) 0
    let r := collect (es.map fun e =>
      match e with
      | some e => tapLane s k c tp none (VTy.fmt t) e
      | none => (0, 0))
    let o := vOut s k c [(b, t)] d t 0 3 (r.1, r.2 ||| fi ||| y.2)
    let got := es.filterMap id
    guarded g c { o with
      uses := vUses c a ++ o.uses
      hold := if tapHold s k c tp || vHold s k c b then .unfilled else .free
      trap := match tapTrap s k c tp none got with
        | some x => some x
        | none => o.trap
      units := tapUnits s k tp none got ++ o.units }
  | .vreg _ => guarded g c {}
  | .sreg _ => guarded g c {}
  | .imm _ => guarded g c {}

/-- VSCALE of R200: n is the clamped exponent, none for a NaN. -/
def scaleBy (f : FFmt) (rm : RM) (x : Nat) (n : Option Int) (tSnan : Bool) : Nat × Flags :=
  match f.decode x, n with
  | .nan sn, _ => (f.nan, Flags.when (sn || tSnan) Flags.nv)
  | .inf neg, some _ => (f.inf neg, 0)
  | .inf _, none => (f.nan, Flags.when tSnan Flags.nv)
  | .num neg m e, some n => if m = 0 then (x, 0) else f.round rm (.num neg m (e + n))
  | .num _ _ _, none => (f.nan, Flags.when tSnan Flags.nv)

def clamp512 (n : Int) : Int := if n > 512 then 512 else if n < -512 then -512 else n

def slotVscale (g : Guard) (t : VTy) (d a b : VOp) (rm : RM) (k : Nat) (s : State) : SlotOut :=
  let c := s.ctx k
  let f := VTy.ff t
  let x := vRead s k c t a
  let y := vRead s k c t b
  let one (v w : Nat) : Nat × Flags :=
    match b with
    | .imm i => scaleBy f rm v (some (clamp512 i.toInt)) false
    | _ =>
      match f.decode w with
      | .nan sn => scaleBy f rm v none sn
      | .inf neg => scaleBy f rm v (some (if neg then -512 else 512)) false
      | .num neg m e =>
        -- a value at or beyond 2^10 is clamped whatever its digits
        let n : Int := if log2F m e ≥ 10 ∧ m ≠ 0 then 512 else ((roundTo 1 neg m e 0).1 : Nat)
        scaleBy f rm v (some (clamp512 (if neg then -n else n))) false
  let r := zipLanes one x.1 y.1
  guarded g c (vOut s k c [(a, t), (b, t)] d t rm 4 (r.1, r.2 ||| x.2 ||| y.2))

/-- R206: the source lanes in the source type, L(t) of them. -/
def vcvtSource (s : State) (k : Nat) (c : Ctx) (t src : VTy) (a : VOp) : List Nat × Flags :=
  match a with
  | .tap n lag =>
    let tp := resolve c n lag.toNat
    collect ((tp.span (VTy.lanes t)).map (tapLane s k c tp none (VTy.fmt src)))
  | .vreg r =>
    let xs := unpack src (c.v r)
    ((xs ++ List.replicate 128 0).take (VTy.lanes t), 0)
  | .sreg r => (List.replicate (VTy.lanes t) ((c.s r).toNat % 2 ^ VTy.width src), 0)
  | .imm i => (List.replicate (VTy.lanes t) (immLane src i), 0)

def slotVcvt (g : Guard) (t : VTy) (d a : VOp) (src : VTy) (rm : RM) (k : Nat) (s : State) : SlotOut :=
  let c := s.ctx k
  let x := vcvtSource s k c t src a
  let r := collect (x.1.map (convert rm (VTy.fmt src) (VTy.fmt t)))
  let o := vOut s k c [(a, t)] d t rm 4 (r.1, r.2 ||| x.2)
  -- register lanes 64 to 127 from a 64-lane source are zero, not converted: 0 converts to 0
  guarded g c o

def slotVrcp := vun (fun rm t => approxLane .rcp (VTy.ff t) rm) 6
def slotVrsq := vun (fun rm t => approxLane .rsq (VTy.ff t) rm) 6
def slotVexp2 := vun (fun rm t => approxLane .exp2 (VTy.ff t) rm) 6
def slotVlog2 := vun (fun rm t => approxLane .log2 (VTy.ff t) rm) 6

/-- The pairwise tree of R208 over 2^n lanes. -/
def tree (op : Nat → Nat → Nat × Flags) : Nat → List Nat × Flags → List Nat × Flags
  | 0, r => r
  | n + 1, (xs, fl) =>
    let r := zipLanes op (xs.take (2 ^ n)) (xs.drop (2 ^ n))
    tree op n (r.1, r.2 ||| fl)

def vreduce (op : RM → VTy → Nat → Nat → Nat × Flags) (g : Guard) (t : VTy) (d a : VOp) (rm : RM) (k : Nat)
    (s : State) : SlotOut :=
  let c := s.ctx k
  let x := vRead s k c t a
  let r := tree (op rm t) (if VTy.lanes t = 64 then 6 else 7) (x.1, 0)
  guarded g c (vOut s k c [(a, t)] d t rm 8
    (List.replicate (VTy.lanes t) (r.1.headD 0), r.2 ||| x.2))

def slotVrsum := vreduce (lane2 FFmt.add (· + ·))
def slotVrmax (g : Guard) (t : VTy) (d a : VOp) := vreduce (laneMm true) g t d a 0

/-- R207. -/
def laneBits (f : BitVec 32 → BitVec 32 → BitVec 32) (_ : RM) (_ : VTy) (x y : Nat) : Nat × Flags :=
  ((f (BitVec.ofNat 32 x) (BitVec.ofNat 32 y)).toNat, 0)

def vbits (f : BitVec 32 → BitVec 32 → BitVec 32) (g : Guard) (d a b : VOp) :=
  vbin (laneBits f) 2 g .int32 d a b 0

def slotVand := vbits (· &&& ·)
def slotVor := vbits (· ||| ·)
def slotVxor := vbits (· ^^^ ·)
def slotVshl := vbits fun x n => if n.toNat < 32 then x <<< n.toNat else 0
def slotVshr := vbits fun x n => if n.toNat < 32 then x >>> n.toNat else 0
def slotVsar := vbits fun x n => x.sshiftRight (if n.toNat < 32 then n.toNat else 32)

end Sys2Proof.Machine
end

