-- ==== Sys2Proof/Machine/SlotTable.lean ====
section
/-!
DEFINITION. What each instruction is as a slot of a bundle: its guard, its meaning, its destinations (R33 to
R55, R75).
-/
namespace Sys2Proof.Machine
open Sys2Proof

/-- The guard of a slot; BRM and the steps of the machine have none. -/
def Instr.guard : Instr → Guard
  | .nop g => g
  | .br g _ => g
  | .brm _ => .always
  | .jr g _ => g
  | .call g _ => g
  | .callr g _ => g
  | .ret g => g
  | .loop g _ _ => g
  | .loopr g _ _ => g
  | .lexit g => g
  | .tick g _ => g
  | .adv g _ _ => g
  | .ypt g => g
  | .yield g => g
  | .cont g _ => g
  | .resume g => g
  | .topup g _ _ => g
  | .exit g => g
  | .trap g _ => g
  | .waitev g _ => g
  | .sigev g _ _ _ => g
  | .bar g _ _ => g
  | .fuse g _ => g
  | .decouple g => g
  | .rejoin g => g
  | .add g _ _ _ => g
  | .sub g _ _ _ => g
  | .mul g _ _ _ => g
  | .mulh g _ _ _ => g
  | .mulhu g _ _ _ => g
  | .div g _ _ _ => g
  | .divu g _ _ _ => g
  | .rem g _ _ _ => g
  | .and g _ _ _ => g
  | .or g _ _ _ => g
  | .xor g _ _ _ => g
  | .andn g _ _ _ => g
  | .shl g _ _ _ => g
  | .shr g _ _ _ => g
  | .sar g _ _ _ => g
  | .min g _ _ _ => g
  | .max g _ _ _ => g
  | .minu g _ _ _ => g
  | .maxu g _ _ _ => g
  | .clz g _ _ => g
  | .popc g _ _ => g
  | .sel g _ _ _ _ => g
  | .addi g _ _ _ => g
  | .andi g _ _ _ => g
  | .ori g _ _ _ => g
  | .xori g _ _ _ => g
  | .shli g _ _ _ => g
  | .shri g _ _ _ => g
  | .sari g _ _ _ => g
  | .movi g _ _ => g
  | .movhi g _ _ _ => g
  | .cmp g _ _ _ _ => g
  | .cmpi g _ _ _ _ => g
  | .pand g _ _ _ => g
  | .por g _ _ _ => g
  | .pxor g _ _ _ => g
  | .pandn g _ _ _ => g
  | .pset g _ _ => g
  | .spld g _ _ => g
  | .spst g _ _ => g
  | .csrr g _ _ => g
  | .csrw g _ _ => g
  | .lidx g _ _ => g
  | .fadd g _ _ _ => g
  | .fsub g _ _ _ => g
  | .fmul g _ _ _ => g
  | .ffma g _ _ _ => g
  | .fmin g _ _ _ => g
  | .fmax g _ _ _ => g
  | .fcmp g _ _ _ _ => g
  | .fcvti g _ _ => g
  | .icvtf g _ _ => g
  | .sigset g _ _ _ _ => g
  | .sigget g _ _ _ _ => g
  | .sigclr g _ => g
  | .fillmk g _ _ => g
  | .waitfill g _ _ _ => g
  | .taprd g _ _ _ => g
  | .tapwr g _ _ _ => g
  | .vadd g _ _ _ _ _ => g
  | .vsub g _ _ _ _ _ => g
  | .vmul g _ _ _ _ _ => g
  | .vfma g _ _ _ _ _ => g
  | .vfms g _ _ _ _ _ => g
  | .vmin g _ _ _ _ => g
  | .vmax g _ _ _ _ => g
  | .vabs g _ _ _ => g
  | .vneg g _ _ _ => g
  | .vcmpeq g _ _ _ _ => g
  | .vcmplt g _ _ _ _ => g
  | .vcmple g _ _ _ _ => g
  | .vsel g _ _ _ _ => g
  | .vmov g _ _ _ => g
  | .vbcast g _ _ _ _ => g
  | .vrsum g _ _ _ _ => g
  | .vrmax g _ _ _ => g
  | .vrcp g _ _ _ _ => g
  | .vrsq g _ _ _ _ => g
  | .vexp2 g _ _ _ _ => g
  | .vlog2 g _ _ _ _ => g
  | .vscale g _ _ _ _ _ => g
  | .vcvt g _ _ _ _ _ => g
  | .vperm g _ _ _ _ => g
  | .vslide g _ _ _ _ => g
  | .viota g _ _ _ => g
  | .vtapx g _ _ _ _ => g
  | .vand g _ _ _ => g
  | .vor g _ _ _ => g
  | .vxor g _ _ _ => g
  | .vshl g _ _ _ => g
  | .vshr g _ _ _ => g
  | .vsar g _ _ _ => g
  | .mma g _ _ _ _ _ _ => g
  | .mmaz g _ _ _ _ _ _ => g
  | .latch g _ _ _ _ => g
  | .latcht g _ _ _ _ => g
  | .asetId g _ _ => g
  | .asetZero g _ _ => g
  | .again g _ _ _ _ => g
  | .aoff g _ _ _ _ => g
  | .apply g _ _ _ _ => g
  | .ardOff g _ _ _ _ => g
  | .ardGain g _ _ _ _ => g
  | .scan g _ _ _ => g
  | .scanUpd g _ _ _ => g
  | .cyset g _ _ _ => g
  | .cysetId g _ => g
  | .cyget g _ _ _ => g
  | .cld g _ => g
  | .cst g _ => g
  | .clda g _ => g
  | .cstr g _ => g
  | .cgath g _ => g
  | .cscat g _ => g
  | .scacc g _ => g
  | .ccancel g _ => g
  | .cwait g _ => g
  | .dset g _ _ _ => g
  | .fence g _ _ _ => g
  | .csub g _ => g
  | .cpull g _ => g
  | .cunsub g _ => g
  | .nmcmd g _ _ _ => g
  | .nmfence g _ _ _ => g
  | .nmatom g _ _ _ => g
  | .chsend g _ _ _ => g
  | .chsendTry g _ _ _ => g
  | .chbind g _ _ _ => g
  | .chbindW g _ _ => g
  | .chclose g _ _ => g
  | .chcloseW g _ _ => g
  | .chstat g _ _ => g
  | .launch g _ _ _ => g
  | .wsend g _ _ _ => g
  | .heldBundleRelease _ => .always
  | .eventLatch _ => .always
  | .barrierRelease _ => .always
  | .stallToll _ => .always
  | .maxrunOverrun _ => .always
  | .tapDeadlock _ => .always
  | .fuseTimeout _ => .always
  | .mResultFinal _ => .always
  | .takeTrap _ => .always
  | .asynchronousCause _ _ => .always
  | .trapDisposition _ => .always
  | .recall _ => .always
  | .yieldTaken _ => .always
  | .contextSave _ => .always
  | .contextRestore _ => .always
  | .spareMap _ => .always
  | .mirrorSourceSearch _ _ => .always
  | .streamSampleSend _ _ => .always
  | .streamSampleArrival _ _ => .always
  | .copyElementIssue _ _ => .always
  | .copyAccessComplete _ _ _ => .always
  | .scaccWindow _ _ => .always
  | .loaderSamplePush _ _ => .always
  | .storerSampleWrite _ _ => .always
  | .combinerFlush _ _ => .always
  | .announcementApply _ _ => .always
  | .translationWalk _ _ => .always
  | .faultTimeout _ _ => .always
  | .stackRead _ => .always
  | .stackWrite _ => .always
  | .bankRefresh _ _ _ _ => .always
  | .retryReissue _ => .always
  | .rowPrecharge _ _ _ => .always
  | .rowOpenLimit _ _ _ => .always
  | .patrolScrub _ _ => .always
  | .stackLost _ => .always
  | .nearMemoryGranule _ => .always
  | .nmAtomicRecord _ => .always
  | .timetableVisit _ => .always
  | .reservedPlacement _ => .always
  | .convoyPlacement _ => .always
  | .graphReturn _ _ => .always
  | .launchEntryWrite _ _ => .always
  | .groupPark _ _ => .always
  | .groupWake _ _ => .always
  | .waitExamination _ => .always
  | .messageDelivery _ _ => .always
  | .messageSpill _ _ => .always
  | .cisternDrain _ _ => .always
  | .triggerFire _ _ => .always
  | .deadlockSample _ _ => .always
  | .permitAudit _ => .always
  | .doorbellTailWrite _ _ _ => .always
  | .ctailWrite _ => .always
  | .pheadWrite _ => .always
  | .eheadWrite _ => .always
  | .ltrWrite _ => .always
  | .resetctlWrite _ => .always
  | .slotmapWrite _ _ => .always
  | .configRegisterWrite _ _ => .always
  | .hostWrite _ _ _ _ => .always
  | .hostRead _ _ _ => .always
  | .identify _ => .always
  | .attest _ => .always
  | .fwStage _ => .always
  | .partCreate _ => .always
  | .partDestroy _ => .always
  | .partXlat _ => .always
  | .partWindow _ => .always
  | .partInval _ => .always
  | .partSwapOut _ => .always
  | .partSwapIn _ => .always
  | .partReserve _ => .always
  | .trapPolicy _ => .always
  | .trapDisposeRetry _ => .always
  | .trapDisposeMaskedRetry _ => .always
  | .trapDisposeEnd _ => .always
  | .trapDisposeRestart _ => .always
  | .trapRead _ => .always
  | .shareRelease _ => .always
  | .faultResolveRetry _ => .always
  | .faultResolveFail _ => .always
  | .aperture _ => .always
  | .queueCreate _ => .always
  | .queueDestroy _ => .always
  | .queueAssign _ => .always
  | .taskEnd _ => .always
  | .slotSet _ => .always
  | .rowSet _ => .always
  | .chanCreate _ => .always
  | .chanDestroy _ => .always
  | .chanSet _ => .always
  | .codeLoad _ => .always
  | .coreRetire _ => .always
  | .powerCap _ => .always
  | .reset _ => .always
  | .unknownOpcode _ _ => .always
  | .coldReset => .always
  | .warmReset _ => .always
  | .boot => .always
  | .linkDown _ => .always
  | .powerSample _ _ _ _ => .always
  | .powerStateEntry _ => .always
  | .wakeEvent _ => .always
  | .flitReceive _ _ => .always
  | .replayTimeout _ => .always
  | .portDown _ _ => .always
  | .portTraining _ _ _ _ => .always
  | .flowResend _ => .always
  | .packageLost _ => .always
  | .msg _ => .always
  | .close _ => .always
  | .waybill _ => .always
  | .loss _ => .always
  | .refused _ => .always
  | .xfault _ => .always
  | .read _ => .always
  | .readresp _ => .always
  | .write _ => .always
  | .writeack _ => .always
  | .ack _ => .always
  | .bindreq _ => .always
  | .bindreply _ => .always
  | .grant _ => .always
  | .drained _ => .always
  | .statreq _ => .always
  | .statreply _ => .always
  | .grow _ => .always
  | .fault _ => .always
  | .bararr _ => .always
  | .barrel _ => .always
  | .workdone _ => .always
  | .linkstate _ => .always
  | .refuse _ => .always
  | .powerLoss => .always

/-- The outcome of a slot on seat k; a step of the machine is no slot and does nothing. -/
def slotOf (i : Instr) (k : Nat) (s : State) : SlotOut :=
  match i with
  | .nop g => slotNop g k s
  | .br g disp => slotBr g disp k s
  | .brm tests => slotBrm tests k s
  | .jr g ra => slotJr g ra k s
  | .call g disp => slotCall g disp k s
  | .callr g ra => slotCallr g ra k s
  | .ret g => slotRet g k s
  | .loop g count last => slotLoop g count last k s
  | .loopr g ra last => slotLoopr g ra last k s
  | .lexit g => slotLexit g k s
  | .tick g n => slotTick g n k s
  | .adv g sig n => slotAdv g sig n k s
  | .ypt g => slotYpt g k s
  | .yield g => slotYield g k s
  | .cont g disp => slotCont g disp k s
  | .resume g => slotResume g k s
  | .topup g ra tbud => slotTopup g ra tbud k s
  | .exit g => slotExit g k s
  | .trap g code => slotTrap g code k s
  | .waitev g mask => slotWaitev g mask k s
  | .sigev g sc target ev => slotSigev g sc target ev k s
  | .bar g sc id => slotBar g sc id k s
  | .fuse g span => slotFuse g span k s
  | .decouple g => slotDecouple g k s
  | .rejoin g => slotRejoin g k s
  | .add g rd ra rb => slotAdd g rd ra rb k s
  | .sub g rd ra rb => slotSub g rd ra rb k s
  | .mul g rd ra rb => slotMul g rd ra rb k s
  | .mulh g rd ra rb => slotMulh g rd ra rb k s
  | .mulhu g rd ra rb => slotMulhu g rd ra rb k s
  | .div g rd ra rb => slotDiv g rd ra rb k s
  | .divu g rd ra rb => slotDivu g rd ra rb k s
  | .rem g rd ra rb => slotRem g rd ra rb k s
  | .and g rd ra rb => slotAnd g rd ra rb k s
  | .or g rd ra rb => slotOr g rd ra rb k s
  | .xor g rd ra rb => slotXor g rd ra rb k s
  | .andn g rd ra rb => slotAndn g rd ra rb k s
  | .shl g rd ra rb => slotShl g rd ra rb k s
  | .shr g rd ra rb => slotShr g rd ra rb k s
  | .sar g rd ra rb => slotSar g rd ra rb k s
  | .min g rd ra rb => slotMin g rd ra rb k s
  | .max g rd ra rb => slotMax g rd ra rb k s
  | .minu g rd ra rb => slotMinu g rd ra rb k s
  | .maxu g rd ra rb => slotMaxu g rd ra rb k s
  | .clz g rd ra => slotClz g rd ra k s
  | .popc g rd ra => slotPopc g rd ra k s
  | .sel g rd ra rb p => slotSel g rd ra rb p k s
  | .addi g rd ra imm => slotAddi g rd ra imm k s
  | .andi g rd ra imm => slotAndi g rd ra imm k s
  | .ori g rd ra imm => slotOri g rd ra imm k s
  | .xori g rd ra imm => slotXori g rd ra imm k s
  | .shli g rd ra sh => slotShli g rd ra sh k s
  | .shri g rd ra sh => slotShri g rd ra sh k s
  | .sari g rd ra sh => slotSari g rd ra sh k s
  | .movi g rd imm => slotMovi g rd imm k s
  | .movhi g rd ra imm => slotMovhi g rd ra imm k s
  | .cmp g pd c ra rb => slotCmp g pd c ra rb k s
  | .cmpi g pd c ra imm => slotCmpi g pd c ra imm k s
  | .pand g pd pa pb => slotPand g pd pa pb k s
  | .por g pd pa pb => slotPor g pd pa pb k s
  | .pxor g pd pa pb => slotPxor g pd pa pb k s
  | .pandn g pd pa pb => slotPandn g pd pa pb k s
  | .pset g pd ra => slotPset g pd ra k s
  | .spld g rd slot => slotSpld g rd slot k s
  | .spst g ra slot => slotSpst g ra slot k s
  | .csrr g rd csr => slotCsrr g rd csr k s
  | .csrw g ra csr => slotCsrw g ra csr k s
  | .lidx g rd level => slotLidx g rd level k s
  | .fadd g rd ra rb => slotFadd g rd ra rb k s
  | .fsub g rd ra rb => slotFsub g rd ra rb k s
  | .fmul g rd ra rb => slotFmul g rd ra rb k s
  | .ffma g rd ra rb => slotFfma g rd ra rb k s
  | .fmin g rd ra rb => slotFmin g rd ra rb k s
  | .fmax g rd ra rb => slotFmax g rd ra rb k s
  | .fcmp g pd c ra rb => slotFcmp g pd c ra rb k s
  | .fcvti g rd ra => slotFcvti g rd ra k s
  | .icvtf g rd ra => slotIcvtf g rd ra k s
  | .sigset g ra sig field level => slotSigset g ra sig field level k s
  | .sigget g rd sig field level => slotSigget g rd sig field level k s
  | .sigclr g sig => slotSigclr g sig k s
  | .fillmk g sig lag => slotFillmk g sig lag k s
  | .waitfill g rd sig kd => slotWaitfill g rd sig kd k s
  | .taprd g rd sig lag => slotTaprd g rd sig lag k s
  | .tapwr g ra sig lag => slotTapwr g ra sig lag k s
  | .vadd g t d a b rm => slotVadd g t d a b rm k s
  | .vsub g t d a b rm => slotVsub g t d a b rm k s
  | .vmul g t d a b rm => slotVmul g t d a b rm k s
  | .vfma g t d a b rm => slotVfma g t d a b rm k s
  | .vfms g t d a b rm => slotVfms g t d a b rm k s
  | .vmin g t d a b => slotVmin g t d a b k s
  | .vmax g t d a b => slotVmax g t d a b k s
  | .vabs g t d a => slotVabs g t d a k s
  | .vneg g t d a => slotVneg g t d a k s
  | .vcmpeq g t d a b => slotVcmpeq g t d a b k s
  | .vcmplt g t d a b => slotVcmplt g t d a b k s
  | .vcmple g t d a b => slotVcmple g t d a b k s
  | .vsel g t d a b => slotVsel g t d a b k s
  | .vmov g t d a => slotVmov g t d a k s
  | .vbcast g t d a b => slotVbcast g t d a b k s
  | .vrsum g t d a rm => slotVrsum g t d a rm k s
  | .vrmax g t d a => slotVrmax g t d a k s
  | .vrcp g t d a rm => slotVrcp g t d a rm k s
  | .vrsq g t d a rm => slotVrsq g t d a rm k s
  | .vexp2 g t d a rm => slotVexp2 g t d a rm k s
  | .vlog2 g t d a rm => slotVlog2 g t d a rm k s
  | .vscale g t d a b rm => slotVscale g t d a b rm k s
  | .vcvt g t d a src rm => slotVcvt g t d a src rm k s
  | .vperm g t d a b => slotVperm g t d a b k s
  | .vslide g t d a b => slotVslide g t d a b k s
  | .viota g t d a => slotViota g t d a k s
  | .vtapx g t d a b => slotVtapx g t d a b k s
  | .vand g d a b => slotVand g d a b k s
  | .vor g d a b => slotVor g d a b k s
  | .vxor g d a b => slotVxor g d a b k s
  | .vshl g d a b => slotVshl g d a b k s
  | .vshr g d a b => slotVshr g d a b k s
  | .vsar g d a b => slotVsar g d a b k s
  | .mma g tile latch sig lag r kd => slotMma g tile latch sig lag r kd k s
  | .mmaz g tile latch sig lag r kd => slotMmaz g tile latch sig lag r kd k s
  | .latch g l sig lag kd => slotLatch g l sig lag kd k s
  | .latcht g l sig lag kd => slotLatcht g l sig lag kd k s
  | .asetId g tile r => slotAsetId g tile r k s
  | .asetZero g tile r => slotAsetZero g tile r k s
  | .again g tile sig lag r => slotAgain g tile sig lag r k s
  | .aoff g tile sig lag r => slotAoff g tile sig lag r k s
  | .apply g tile sig lag r => slotApply g tile sig lag r k s
  | .ardOff g tile sig lag r => slotArdOff g tile sig lag r k s
  | .ardGain g tile sig lag r => slotArdGain g tile sig lag r k s
  | .scan g tile cy r => slotScan g tile cy r k s
  | .scanUpd g tile cy r => slotScanUpd g tile cy r k s
  | .cyset g cy sig lag => slotCyset g cy sig lag k s
  | .cysetId g cy => slotCysetId g cy k s
  | .cyget g cy sig lag => slotCyget g cy sig lag k s
  | .cld g o => slotCld g o k s
  | .cst g o => slotCst g o k s
  | .clda g o => slotClda g o k s
  | .cstr g o => slotCstr g o k s
  | .cgath g o => slotCgath g o k s
  | .cscat g o => slotCscat g o k s
  | .scacc g o => slotScacc g o k s
  | .ccancel g h => slotCcancel g h k s
  | .cwait g h => slotCwait g h k s
  | .dset g d field ra => slotDset g d field ra k s
  | .fence g sc kd mask => slotFence g sc kd mask k s
  | .csub g o => slotCsub g o k s
  | .cpull g o => slotCpull g o k s
  | .cunsub g h => slotCunsub g h k s
  | .nmcmd g sig ra h => slotNmcmd g sig ra h k s
  | .nmfence g sc kd mask => slotNmfence g sc kd mask k s
  | .nmatom g sig ra h => slotNmatom g sig ra h k s
  | .chsend g sig ra rd => slotChsend g sig ra rd k s
  | .chsendTry g sig ra rd => slotChsendTry g sig ra rd k s
  | .chbind g sig ra rd => slotChbind g sig ra rd k s
  | .chbindW g ra rd => slotChbindW g ra rd k s
  | .chclose g ra rd => slotChclose g ra rd k s
  | .chcloseW g ra rd => slotChcloseW g ra rd k s
  | .chstat g ra rd => slotChstat g ra rd k s
  | .launch g sig ra h => slotLaunch g sig ra h k s
  | .wsend g sig ra h => slotWsend g sig ra h k s
  | .heldBundleRelease _ => {}
  | .eventLatch _ => {}
  | .barrierRelease _ => {}
  | .stallToll _ => {}
  | .maxrunOverrun _ => {}
  | .tapDeadlock _ => {}
  | .fuseTimeout _ => {}
  | .mResultFinal _ => {}
  | .takeTrap _ => {}
  | .asynchronousCause _ _ => {}
  | .trapDisposition _ => {}
  | .recall _ => {}
  | .yieldTaken _ => {}
  | .contextSave _ => {}
  | .contextRestore _ => {}
  | .spareMap _ => {}
  | .mirrorSourceSearch _ _ => {}
  | .streamSampleSend _ _ => {}
  | .streamSampleArrival _ _ => {}
  | .copyElementIssue _ _ => {}
  | .copyAccessComplete _ _ _ => {}
  | .scaccWindow _ _ => {}
  | .loaderSamplePush _ _ => {}
  | .storerSampleWrite _ _ => {}
  | .combinerFlush _ _ => {}
  | .announcementApply _ _ => {}
  | .translationWalk _ _ => {}
  | .faultTimeout _ _ => {}
  | .stackRead _ => {}
  | .stackWrite _ => {}
  | .bankRefresh _ _ _ _ => {}
  | .retryReissue _ => {}
  | .rowPrecharge _ _ _ => {}
  | .rowOpenLimit _ _ _ => {}
  | .patrolScrub _ _ => {}
  | .stackLost _ => {}
  | .nearMemoryGranule _ => {}
  | .nmAtomicRecord _ => {}
  | .timetableVisit _ => {}
  | .reservedPlacement _ => {}
  | .convoyPlacement _ => {}
  | .graphReturn _ _ => {}
  | .launchEntryWrite _ _ => {}
  | .groupPark _ _ => {}
  | .groupWake _ _ => {}
  | .waitExamination _ => {}
  | .messageDelivery _ _ => {}
  | .messageSpill _ _ => {}
  | .cisternDrain _ _ => {}
  | .triggerFire _ _ => {}
  | .deadlockSample _ _ => {}
  | .permitAudit _ => {}
  | .doorbellTailWrite _ _ _ => {}
  | .ctailWrite _ => {}
  | .pheadWrite _ => {}
  | .eheadWrite _ => {}
  | .ltrWrite _ => {}
  | .resetctlWrite _ => {}
  | .slotmapWrite _ _ => {}
  | .configRegisterWrite _ _ => {}
  | .hostWrite _ _ _ _ => {}
  | .hostRead _ _ _ => {}
  | .identify _ => {}
  | .attest _ => {}
  | .fwStage _ => {}
  | .partCreate _ => {}
  | .partDestroy _ => {}
  | .partXlat _ => {}
  | .partWindow _ => {}
  | .partInval _ => {}
  | .partSwapOut _ => {}
  | .partSwapIn _ => {}
  | .partReserve _ => {}
  | .trapPolicy _ => {}
  | .trapDisposeRetry _ => {}
  | .trapDisposeMaskedRetry _ => {}
  | .trapDisposeEnd _ => {}
  | .trapDisposeRestart _ => {}
  | .trapRead _ => {}
  | .shareRelease _ => {}
  | .faultResolveRetry _ => {}
  | .faultResolveFail _ => {}
  | .aperture _ => {}
  | .queueCreate _ => {}
  | .queueDestroy _ => {}
  | .queueAssign _ => {}
  | .taskEnd _ => {}
  | .slotSet _ => {}
  | .rowSet _ => {}
  | .chanCreate _ => {}
  | .chanDestroy _ => {}
  | .chanSet _ => {}
  | .codeLoad _ => {}
  | .coreRetire _ => {}
  | .powerCap _ => {}
  | .reset _ => {}
  | .unknownOpcode _ _ => {}
  | .coldReset => {}
  | .warmReset _ => {}
  | .boot => {}
  | .linkDown _ => {}
  | .powerSample _ _ _ _ => {}
  | .powerStateEntry _ => {}
  | .wakeEvent _ => {}
  | .flitReceive _ _ => {}
  | .replayTimeout _ => {}
  | .portDown _ _ => {}
  | .portTraining _ _ _ _ => {}
  | .flowResend _ => {}
  | .packageLost _ => {}
  | .msg _ => {}
  | .close _ => {}
  | .waybill _ => {}
  | .loss _ => {}
  | .refused _ => {}
  | .xfault _ => {}
  | .read _ => {}
  | .readresp _ => {}
  | .write _ => {}
  | .writeack _ => {}
  | .ack _ => {}
  | .bindreq _ => {}
  | .bindreply _ => {}
  | .grant _ => {}
  | .drained _ => {}
  | .statreq _ => {}
  | .statreply _ => {}
  | .grow _ => {}
  | .fault _ => {}
  | .bararr _ => {}
  | .barrel _ => {}
  | .workdone _ => {}
  | .linkstate _ => {}
  | .refuse _ => {}
  | .powerLoss => {}

/-- BR, BRM, JR, CALL, CALLR, RET and RESUME, which have delay bundles (R75). -/
def Instr.delays : Instr → Bool
  | .nop _ => false
  | .br _ _ => true
  | .brm _ => true
  | .jr _ _ => true
  | .call _ _ => true
  | .callr _ _ => true
  | .ret _ => true
  | .loop _ _ _ => false
  | .loopr _ _ _ => false
  | .lexit _ => false
  | .tick _ _ => false
  | .adv _ _ _ => false
  | .ypt _ => false
  | .yield _ => false
  | .cont _ _ => false
  | .resume _ => true
  | .topup _ _ _ => false
  | .exit _ => false
  | .trap _ _ => false
  | .waitev _ _ => false
  | .sigev _ _ _ _ => false
  | .bar _ _ _ => false
  | .fuse _ _ => false
  | .decouple _ => false
  | .rejoin _ => false
  | .add _ _ _ _ => false
  | .sub _ _ _ _ => false
  | .mul _ _ _ _ => false
  | .mulh _ _ _ _ => false
  | .mulhu _ _ _ _ => false
  | .div _ _ _ _ => false
  | .divu _ _ _ _ => false
  | .rem _ _ _ _ => false
  | .and _ _ _ _ => false
  | .or _ _ _ _ => false
  | .xor _ _ _ _ => false
  | .andn _ _ _ _ => false
  | .shl _ _ _ _ => false
  | .shr _ _ _ _ => false
  | .sar _ _ _ _ => false
  | .min _ _ _ _ => false
  | .max _ _ _ _ => false
  | .minu _ _ _ _ => false
  | .maxu _ _ _ _ => false
  | .clz _ _ _ => false
  | .popc _ _ _ => false
  | .sel _ _ _ _ _ => false
  | .addi _ _ _ _ => false
  | .andi _ _ _ _ => false
  | .ori _ _ _ _ => false
  | .xori _ _ _ _ => false
  | .shli _ _ _ _ => false
  | .shri _ _ _ _ => false
  | .sari _ _ _ _ => false
  | .movi _ _ _ => false
  | .movhi _ _ _ _ => false
  | .cmp _ _ _ _ _ => false
  | .cmpi _ _ _ _ _ => false
  | .pand _ _ _ _ => false
  | .por _ _ _ _ => false
  | .pxor _ _ _ _ => false
  | .pandn _ _ _ _ => false
  | .pset _ _ _ => false
  | .spld _ _ _ => false
  | .spst _ _ _ => false
  | .csrr _ _ _ => false
  | .csrw _ _ _ => false
  | .lidx _ _ _ => false
  | .fadd _ _ _ _ => false
  | .fsub _ _ _ _ => false
  | .fmul _ _ _ _ => false
  | .ffma _ _ _ _ => false
  | .fmin _ _ _ _ => false
  | .fmax _ _ _ _ => false
  | .fcmp _ _ _ _ _ => false
  | .fcvti _ _ _ => false
  | .icvtf _ _ _ => false
  | .sigset _ _ _ _ _ => false
  | .sigget _ _ _ _ _ => false
  | .sigclr _ _ => false
  | .fillmk _ _ _ => false
  | .waitfill _ _ _ _ => false
  | .taprd _ _ _ _ => false
  | .tapwr _ _ _ _ => false
  | .vadd _ _ _ _ _ _ => false
  | .vsub _ _ _ _ _ _ => false
  | .vmul _ _ _ _ _ _ => false
  | .vfma _ _ _ _ _ _ => false
  | .vfms _ _ _ _ _ _ => false
  | .vmin _ _ _ _ _ => false
  | .vmax _ _ _ _ _ => false
  | .vabs _ _ _ _ => false
  | .vneg _ _ _ _ => false
  | .vcmpeq _ _ _ _ _ => false
  | .vcmplt _ _ _ _ _ => false
  | .vcmple _ _ _ _ _ => false
  | .vsel _ _ _ _ _ => false
  | .vmov _ _ _ _ => false
  | .vbcast _ _ _ _ _ => false
  | .vrsum _ _ _ _ _ => false
  | .vrmax _ _ _ _ => false
  | .vrcp _ _ _ _ _ => false
  | .vrsq _ _ _ _ _ => false
  | .vexp2 _ _ _ _ _ => false
  | .vlog2 _ _ _ _ _ => false
  | .vscale _ _ _ _ _ _ => false
  | .vcvt _ _ _ _ _ _ => false
  | .vperm _ _ _ _ _ => false
  | .vslide _ _ _ _ _ => false
  | .viota _ _ _ _ => false
  | .vtapx _ _ _ _ _ => false
  | .vand _ _ _ _ => false
  | .vor _ _ _ _ => false
  | .vxor _ _ _ _ => false
  | .vshl _ _ _ _ => false
  | .vshr _ _ _ _ => false
  | .vsar _ _ _ _ => false
  | .mma _ _ _ _ _ _ _ => false
  | .mmaz _ _ _ _ _ _ _ => false
  | .latch _ _ _ _ _ => false
  | .latcht _ _ _ _ _ => false
  | .asetId _ _ _ => false
  | .asetZero _ _ _ => false
  | .again _ _ _ _ _ => false
  | .aoff _ _ _ _ _ => false
  | .apply _ _ _ _ _ => false
  | .ardOff _ _ _ _ _ => false
  | .ardGain _ _ _ _ _ => false
  | .scan _ _ _ _ => false
  | .scanUpd _ _ _ _ => false
  | .cyset _ _ _ _ => false
  | .cysetId _ _ => false
  | .cyget _ _ _ _ => false
  | .cld _ _ => false
  | .cst _ _ => false
  | .clda _ _ => false
  | .cstr _ _ => false
  | .cgath _ _ => false
  | .cscat _ _ => false
  | .scacc _ _ => false
  | .ccancel _ _ => false
  | .cwait _ _ => false
  | .dset _ _ _ _ => false
  | .fence _ _ _ _ => false
  | .csub _ _ => false
  | .cpull _ _ => false
  | .cunsub _ _ => false
  | .nmcmd _ _ _ _ => false
  | .nmfence _ _ _ _ => false
  | .nmatom _ _ _ _ => false
  | .chsend _ _ _ _ => false
  | .chsendTry _ _ _ _ => false
  | .chbind _ _ _ _ => false
  | .chbindW _ _ _ => false
  | .chclose _ _ _ => false
  | .chcloseW _ _ _ => false
  | .chstat _ _ _ => false
  | .launch _ _ _ _ => false
  | .wsend _ _ _ _ => false
  | .heldBundleRelease _ => false
  | .eventLatch _ => false
  | .barrierRelease _ => false
  | .stallToll _ => false
  | .maxrunOverrun _ => false
  | .tapDeadlock _ => false
  | .fuseTimeout _ => false
  | .mResultFinal _ => false
  | .takeTrap _ => false
  | .asynchronousCause _ _ => false
  | .trapDisposition _ => false
  | .recall _ => false
  | .yieldTaken _ => false
  | .contextSave _ => false
  | .contextRestore _ => false
  | .spareMap _ => false
  | .mirrorSourceSearch _ _ => false
  | .streamSampleSend _ _ => false
  | .streamSampleArrival _ _ => false
  | .copyElementIssue _ _ => false
  | .copyAccessComplete _ _ _ => false
  | .scaccWindow _ _ => false
  | .loaderSamplePush _ _ => false
  | .storerSampleWrite _ _ => false
  | .combinerFlush _ _ => false
  | .announcementApply _ _ => false
  | .translationWalk _ _ => false
  | .faultTimeout _ _ => false
  | .stackRead _ => false
  | .stackWrite _ => false
  | .bankRefresh _ _ _ _ => false
  | .retryReissue _ => false
  | .rowPrecharge _ _ _ => false
  | .rowOpenLimit _ _ _ => false
  | .patrolScrub _ _ => false
  | .stackLost _ => false
  | .nearMemoryGranule _ => false
  | .nmAtomicRecord _ => false
  | .timetableVisit _ => false
  | .reservedPlacement _ => false
  | .convoyPlacement _ => false
  | .graphReturn _ _ => false
  | .launchEntryWrite _ _ => false
  | .groupPark _ _ => false
  | .groupWake _ _ => false
  | .waitExamination _ => false
  | .messageDelivery _ _ => false
  | .messageSpill _ _ => false
  | .cisternDrain _ _ => false
  | .triggerFire _ _ => false
  | .deadlockSample _ _ => false
  | .permitAudit _ => false
  | .doorbellTailWrite _ _ _ => false
  | .ctailWrite _ => false
  | .pheadWrite _ => false
  | .eheadWrite _ => false
  | .ltrWrite _ => false
  | .resetctlWrite _ => false
  | .slotmapWrite _ _ => false
  | .configRegisterWrite _ _ => false
  | .hostWrite _ _ _ _ => false
  | .hostRead _ _ _ => false
  | .identify _ => false
  | .attest _ => false
  | .fwStage _ => false
  | .partCreate _ => false
  | .partDestroy _ => false
  | .partXlat _ => false
  | .partWindow _ => false
  | .partInval _ => false
  | .partSwapOut _ => false
  | .partSwapIn _ => false
  | .partReserve _ => false
  | .trapPolicy _ => false
  | .trapDisposeRetry _ => false
  | .trapDisposeMaskedRetry _ => false
  | .trapDisposeEnd _ => false
  | .trapDisposeRestart _ => false
  | .trapRead _ => false
  | .shareRelease _ => false
  | .faultResolveRetry _ => false
  | .faultResolveFail _ => false
  | .aperture _ => false
  | .queueCreate _ => false
  | .queueDestroy _ => false
  | .queueAssign _ => false
  | .taskEnd _ => false
  | .slotSet _ => false
  | .rowSet _ => false
  | .chanCreate _ => false
  | .chanDestroy _ => false
  | .chanSet _ => false
  | .codeLoad _ => false
  | .coreRetire _ => false
  | .powerCap _ => false
  | .reset _ => false
  | .unknownOpcode _ _ => false
  | .coldReset => false
  | .warmReset _ => false
  | .boot => false
  | .linkDown _ => false
  | .powerSample _ _ _ _ => false
  | .powerStateEntry _ => false
  | .wakeEvent _ => false
  | .flitReceive _ _ => false
  | .replayTimeout _ => false
  | .portDown _ _ => false
  | .portTraining _ _ _ _ => false
  | .flowResend _ => false
  | .packageLost _ => false
  | .msg _ => false
  | .close _ => false
  | .waybill _ => false
  | .loss _ => false
  | .refused _ => false
  | .xfault _ => false
  | .read _ => false
  | .readresp _ => false
  | .write _ => false
  | .writeack _ => false
  | .ack _ => false
  | .bindreq _ => false
  | .bindreply _ => false
  | .grant _ => false
  | .drained _ => false
  | .statreq _ => false
  | .statreply _ => false
  | .grow _ => false
  | .fault _ => false
  | .bararr _ => false
  | .barrel _ => false
  | .workdone _ => false
  | .linkstate _ => false
  | .refuse _ => false
  | .powerLoss => false

/-- LOOP and LOOPR, the other transfers. -/
def Instr.loops : Instr → Bool
  | .nop _ => false
  | .br _ _ => false
  | .brm _ => false
  | .jr _ _ => false
  | .call _ _ => false
  | .callr _ _ => false
  | .ret _ => false
  | .loop _ _ _ => true
  | .loopr _ _ _ => true
  | .lexit _ => false
  | .tick _ _ => false
  | .adv _ _ _ => false
  | .ypt _ => false
  | .yield _ => false
  | .cont _ _ => false
  | .resume _ => false
  | .topup _ _ _ => false
  | .exit _ => false
  | .trap _ _ => false
  | .waitev _ _ => false
  | .sigev _ _ _ _ => false
  | .bar _ _ _ => false
  | .fuse _ _ => false
  | .decouple _ => false
  | .rejoin _ => false
  | .add _ _ _ _ => false
  | .sub _ _ _ _ => false
  | .mul _ _ _ _ => false
  | .mulh _ _ _ _ => false
  | .mulhu _ _ _ _ => false
  | .div _ _ _ _ => false
  | .divu _ _ _ _ => false
  | .rem _ _ _ _ => false
  | .and _ _ _ _ => false
  | .or _ _ _ _ => false
  | .xor _ _ _ _ => false
  | .andn _ _ _ _ => false
  | .shl _ _ _ _ => false
  | .shr _ _ _ _ => false
  | .sar _ _ _ _ => false
  | .min _ _ _ _ => false
  | .max _ _ _ _ => false
  | .minu _ _ _ _ => false
  | .maxu _ _ _ _ => false
  | .clz _ _ _ => false
  | .popc _ _ _ => false
  | .sel _ _ _ _ _ => false
  | .addi _ _ _ _ => false
  | .andi _ _ _ _ => false
  | .ori _ _ _ _ => false
  | .xori _ _ _ _ => false
  | .shli _ _ _ _ => false
  | .shri _ _ _ _ => false
  | .sari _ _ _ _ => false
  | .movi _ _ _ => false
  | .movhi _ _ _ _ => false
  | .cmp _ _ _ _ _ => false
  | .cmpi _ _ _ _ _ => false
  | .pand _ _ _ _ => false
  | .por _ _ _ _ => false
  | .pxor _ _ _ _ => false
  | .pandn _ _ _ _ => false
  | .pset _ _ _ => false
  | .spld _ _ _ => false
  | .spst _ _ _ => false
  | .csrr _ _ _ => false
  | .csrw _ _ _ => false
  | .lidx _ _ _ => false
  | .fadd _ _ _ _ => false
  | .fsub _ _ _ _ => false
  | .fmul _ _ _ _ => false
  | .ffma _ _ _ _ => false
  | .fmin _ _ _ _ => false
  | .fmax _ _ _ _ => false
  | .fcmp _ _ _ _ _ => false
  | .fcvti _ _ _ => false
  | .icvtf _ _ _ => false
  | .sigset _ _ _ _ _ => false
  | .sigget _ _ _ _ _ => false
  | .sigclr _ _ => false
  | .fillmk _ _ _ => false
  | .waitfill _ _ _ _ => false
  | .taprd _ _ _ _ => false
  | .tapwr _ _ _ _ => false
  | .vadd _ _ _ _ _ _ => false
  | .vsub _ _ _ _ _ _ => false
  | .vmul _ _ _ _ _ _ => false
  | .vfma _ _ _ _ _ _ => false
  | .vfms _ _ _ _ _ _ => false
  | .vmin _ _ _ _ _ => false
  | .vmax _ _ _ _ _ => false
  | .vabs _ _ _ _ => false
  | .vneg _ _ _ _ => false
  | .vcmpeq _ _ _ _ _ => false
  | .vcmplt _ _ _ _ _ => false
  | .vcmple _ _ _ _ _ => false
  | .vsel _ _ _ _ _ => false
  | .vmov _ _ _ _ => false
  | .vbcast _ _ _ _ _ => false
  | .vrsum _ _ _ _ _ => false
  | .vrmax _ _ _ _ => false
  | .vrcp _ _ _ _ _ => false
  | .vrsq _ _ _ _ _ => false
  | .vexp2 _ _ _ _ _ => false
  | .vlog2 _ _ _ _ _ => false
  | .vscale _ _ _ _ _ _ => false
  | .vcvt _ _ _ _ _ _ => false
  | .vperm _ _ _ _ _ => false
  | .vslide _ _ _ _ _ => false
  | .viota _ _ _ _ => false
  | .vtapx _ _ _ _ _ => false
  | .vand _ _ _ _ => false
  | .vor _ _ _ _ => false
  | .vxor _ _ _ _ => false
  | .vshl _ _ _ _ => false
  | .vshr _ _ _ _ => false
  | .vsar _ _ _ _ => false
  | .mma _ _ _ _ _ _ _ => false
  | .mmaz _ _ _ _ _ _ _ => false
  | .latch _ _ _ _ _ => false
  | .latcht _ _ _ _ _ => false
  | .asetId _ _ _ => false
  | .asetZero _ _ _ => false
  | .again _ _ _ _ _ => false
  | .aoff _ _ _ _ _ => false
  | .apply _ _ _ _ _ => false
  | .ardOff _ _ _ _ _ => false
  | .ardGain _ _ _ _ _ => false
  | .scan _ _ _ _ => false
  | .scanUpd _ _ _ _ => false
  | .cyset _ _ _ _ => false
  | .cysetId _ _ => false
  | .cyget _ _ _ _ => false
  | .cld _ _ => false
  | .cst _ _ => false
  | .clda _ _ => false
  | .cstr _ _ => false
  | .cgath _ _ => false
  | .cscat _ _ => false
  | .scacc _ _ => false
  | .ccancel _ _ => false
  | .cwait _ _ => false
  | .dset _ _ _ _ => false
  | .fence _ _ _ _ => false
  | .csub _ _ => false
  | .cpull _ _ => false
  | .cunsub _ _ => false
  | .nmcmd _ _ _ _ => false
  | .nmfence _ _ _ _ => false
  | .nmatom _ _ _ _ => false
  | .chsend _ _ _ _ => false
  | .chsendTry _ _ _ _ => false
  | .chbind _ _ _ _ => false
  | .chbindW _ _ _ => false
  | .chclose _ _ _ => false
  | .chcloseW _ _ _ => false
  | .chstat _ _ _ => false
  | .launch _ _ _ _ => false
  | .wsend _ _ _ _ => false
  | .heldBundleRelease _ => false
  | .eventLatch _ => false
  | .barrierRelease _ => false
  | .stallToll _ => false
  | .maxrunOverrun _ => false
  | .tapDeadlock _ => false
  | .fuseTimeout _ => false
  | .mResultFinal _ => false
  | .takeTrap _ => false
  | .asynchronousCause _ _ => false
  | .trapDisposition _ => false
  | .recall _ => false
  | .yieldTaken _ => false
  | .contextSave _ => false
  | .contextRestore _ => false
  | .spareMap _ => false
  | .mirrorSourceSearch _ _ => false
  | .streamSampleSend _ _ => false
  | .streamSampleArrival _ _ => false
  | .copyElementIssue _ _ => false
  | .copyAccessComplete _ _ _ => false
  | .scaccWindow _ _ => false
  | .loaderSamplePush _ _ => false
  | .storerSampleWrite _ _ => false
  | .combinerFlush _ _ => false
  | .announcementApply _ _ => false
  | .translationWalk _ _ => false
  | .faultTimeout _ _ => false
  | .stackRead _ => false
  | .stackWrite _ => false
  | .bankRefresh _ _ _ _ => false
  | .retryReissue _ => false
  | .rowPrecharge _ _ _ => false
  | .rowOpenLimit _ _ _ => false
  | .patrolScrub _ _ => false
  | .stackLost _ => false
  | .nearMemoryGranule _ => false
  | .nmAtomicRecord _ => false
  | .timetableVisit _ => false
  | .reservedPlacement _ => false
  | .convoyPlacement _ => false
  | .graphReturn _ _ => false
  | .launchEntryWrite _ _ => false
  | .groupPark _ _ => false
  | .groupWake _ _ => false
  | .waitExamination _ => false
  | .messageDelivery _ _ => false
  | .messageSpill _ _ => false
  | .cisternDrain _ _ => false
  | .triggerFire _ _ => false
  | .deadlockSample _ _ => false
  | .permitAudit _ => false
  | .doorbellTailWrite _ _ _ => false
  | .ctailWrite _ => false
  | .pheadWrite _ => false
  | .eheadWrite _ => false
  | .ltrWrite _ => false
  | .resetctlWrite _ => false
  | .slotmapWrite _ _ => false
  | .configRegisterWrite _ _ => false
  | .hostWrite _ _ _ _ => false
  | .hostRead _ _ _ => false
  | .identify _ => false
  | .attest _ => false
  | .fwStage _ => false
  | .partCreate _ => false
  | .partDestroy _ => false
  | .partXlat _ => false
  | .partWindow _ => false
  | .partInval _ => false
  | .partSwapOut _ => false
  | .partSwapIn _ => false
  | .partReserve _ => false
  | .trapPolicy _ => false
  | .trapDisposeRetry _ => false
  | .trapDisposeMaskedRetry _ => false
  | .trapDisposeEnd _ => false
  | .trapDisposeRestart _ => false
  | .trapRead _ => false
  | .shareRelease _ => false
  | .faultResolveRetry _ => false
  | .faultResolveFail _ => false
  | .aperture _ => false
  | .queueCreate _ => false
  | .queueDestroy _ => false
  | .queueAssign _ => false
  | .taskEnd _ => false
  | .slotSet _ => false
  | .rowSet _ => false
  | .chanCreate _ => false
  | .chanDestroy _ => false
  | .chanSet _ => false
  | .codeLoad _ => false
  | .coreRetire _ => false
  | .powerCap _ => false
  | .reset _ => false
  | .unknownOpcode _ _ => false
  | .coldReset => false
  | .warmReset _ => false
  | .boot => false
  | .linkDown _ => false
  | .powerSample _ _ _ _ => false
  | .powerStateEntry _ => false
  | .wakeEvent _ => false
  | .flitReceive _ _ => false
  | .replayTimeout _ => false
  | .portDown _ _ => false
  | .portTraining _ _ _ _ => false
  | .flowResend _ => false
  | .packageLost _ => false
  | .msg _ => false
  | .close _ => false
  | .waybill _ => false
  | .loss _ => false
  | .refused _ => false
  | .xfault _ => false
  | .read _ => false
  | .readresp _ => false
  | .write _ => false
  | .writeack _ => false
  | .ack _ => false
  | .bindreq _ => false
  | .bindreply _ => false
  | .grant _ => false
  | .drained _ => false
  | .statreq _ => false
  | .statreply _ => false
  | .grow _ => false
  | .fault _ => false
  | .bararr _ => false
  | .barrel _ => false
  | .workdone _ => false
  | .linkstate _ => false
  | .refuse _ => false
  | .powerLoss => false

/-- A transfer instruction (R75). -/
def Instr.transfer (i : Instr) : Bool := Instr.delays i || Instr.loops i

/-- Destinations as the encoded fields name them (R55). A bundle has one M slot, so that tiles, carries and
latches never overlap. -/
inductive Dest
  | s (r : Nat)
  | v (r : Nat)
  | p (r : Nat)
  | csr (n : Nat)
  | spill (n : Nat)
  | field (sig f level : Nat)
  | head (sig : Nat)
  | fill (sig : Nat)
  | sample (sig : Nat) (lag : Nat)
deriving DecidableEq, Repr

def vDest : VOp → List Dest
  | .vreg r => [.v r.toNat]
  | .tap n lag => [.sample n.toNat lag.toNat]
  | .sreg _ => []
  | .imm _ => []

/-- SIGSET names its field, with the level of fields 12 and 13, and FILL and HEAD where it changes them. -/
def sigsetDest (n f l : Nat) : List Dest :=
  .field n f (if f = 12 || f = 13 then l else 0) ::
    ((if f ≤ 4 || f = 10 || f = 14 then [.fill n] else []) ++ (if f = 4 then [.head n] else []))

def Instr.dests : Instr → List Dest
  | .nop _ => []
  | .br _ _ => []
  | .brm _ => []
  | .jr _ _ => []
  | .call _ _ => [.s 62]
  | .callr _ _ => [.s 62]
  | .ret _ => []
  | .loop _ _ _ => []
  | .loopr _ _ _ => []
  | .lexit _ => []
  | .tick _ _ => [.csr 0x001]
  | .adv _ _ _ => []
  | .ypt _ => []
  | .yield _ => []
  | .cont _ _ => [.csr 0x018]
  | .resume _ => []
  | .topup _ _ tbud => [.csr (if tbud then 0x011 else 0x010)]
  | .exit _ => []
  | .trap _ _ => []
  | .waitev _ _ => []
  | .sigev _ _ _ _ => []
  | .bar _ _ _ => []
  | .fuse _ _ => []
  | .decouple _ => []
  | .rejoin _ => []
  | .add _ rd _ _ => [.s rd.toNat]
  | .sub _ rd _ _ => [.s rd.toNat]
  | .mul _ rd _ _ => [.s rd.toNat]
  | .mulh _ rd _ _ => [.s rd.toNat]
  | .mulhu _ rd _ _ => [.s rd.toNat]
  | .div _ rd _ _ => [.s rd.toNat]
  | .divu _ rd _ _ => [.s rd.toNat]
  | .rem _ rd _ _ => [.s rd.toNat]
  | .and _ rd _ _ => [.s rd.toNat]
  | .or _ rd _ _ => [.s rd.toNat]
  | .xor _ rd _ _ => [.s rd.toNat]
  | .andn _ rd _ _ => [.s rd.toNat]
  | .shl _ rd _ _ => [.s rd.toNat]
  | .shr _ rd _ _ => [.s rd.toNat]
  | .sar _ rd _ _ => [.s rd.toNat]
  | .min _ rd _ _ => [.s rd.toNat]
  | .max _ rd _ _ => [.s rd.toNat]
  | .minu _ rd _ _ => [.s rd.toNat]
  | .maxu _ rd _ _ => [.s rd.toNat]
  | .clz _ rd _ => [.s rd.toNat]
  | .popc _ rd _ => [.s rd.toNat]
  | .sel _ rd _ _ _ => [.s rd.toNat]
  | .addi _ rd _ _ => [.s rd.toNat]
  | .andi _ rd _ _ => [.s rd.toNat]
  | .ori _ rd _ _ => [.s rd.toNat]
  | .xori _ rd _ _ => [.s rd.toNat]
  | .shli _ rd _ _ => [.s rd.toNat]
  | .shri _ rd _ _ => [.s rd.toNat]
  | .sari _ rd _ _ => [.s rd.toNat]
  | .movi _ rd _ => [.s rd.toNat]
  | .movhi _ rd _ _ => [.s rd.toNat]
  | .cmp _ pd _ _ _ => [.p pd.toNat]
  | .cmpi _ pd _ _ _ => [.p pd.toNat]
  | .pand _ pd _ _ => [.p pd.toNat]
  | .por _ pd _ _ => [.p pd.toNat]
  | .pxor _ pd _ _ => [.p pd.toNat]
  | .pandn _ pd _ _ => [.p pd.toNat]
  | .pset _ pd _ => [.p pd.toNat]
  | .spld _ rd _ => [.s rd.toNat]
  | .spst _ _ slot => [.spill slot.toNat]
  | .csrr _ rd _ => [.s rd.toNat]
  | .csrw _ _ csr => [.csr csr.toNat]
  | .lidx _ rd _ => [.s rd.toNat]
  | .fadd _ rd _ _ => [.s rd.toNat]
  | .fsub _ rd _ _ => [.s rd.toNat]
  | .fmul _ rd _ _ => [.s rd.toNat]
  | .ffma _ rd _ _ => [.s rd.toNat]
  | .fmin _ rd _ _ => [.s rd.toNat]
  | .fmax _ rd _ _ => [.s rd.toNat]
  | .fcmp _ pd _ _ _ => [.p pd.toNat]
  | .fcvti _ rd _ => [.s rd.toNat]
  | .icvtf _ rd _ => [.s rd.toNat]
  | .sigset _ _ sig field level => sigsetDest sig.toNat field.toNat level.toNat
  | .sigget _ rd _ _ _ => [.s rd.toNat]
  | .sigclr _ sig => [.head sig.toNat, .fill sig.toNat]
  | .fillmk _ sig _ => [.fill sig.toNat]
  | .waitfill _ rd _ _ => [.s rd.toNat]
  | .taprd _ rd _ _ => [.s rd.toNat]
  | .tapwr _ _ sig lag => [.sample sig.toNat lag.toNat]
  | .vadd _ _ d _ _ _ => vDest d
  | .vsub _ _ d _ _ _ => vDest d
  | .vmul _ _ d _ _ _ => vDest d
  | .vfma _ _ d _ _ _ => vDest d
  | .vfms _ _ d _ _ _ => vDest d
  | .vmin _ _ d _ _ => vDest d
  | .vmax _ _ d _ _ => vDest d
  | .vabs _ _ d _ => vDest d
  | .vneg _ _ d _ => vDest d
  | .vcmpeq _ _ d _ _ => vDest d
  | .vcmplt _ _ d _ _ => vDest d
  | .vcmple _ _ d _ _ => vDest d
  | .vsel _ _ d _ _ => vDest d
  | .vmov _ _ d _ => vDest d
  | .vbcast _ _ d _ _ => vDest d
  | .vrsum _ _ d _ _ => vDest d
  | .vrmax _ _ d _ => vDest d
  | .vrcp _ _ d _ _ => vDest d
  | .vrsq _ _ d _ _ => vDest d
  | .vexp2 _ _ d _ _ => vDest d
  | .vlog2 _ _ d _ _ => vDest d
  | .vscale _ _ d _ _ _ => vDest d
  | .vcvt _ _ d _ _ _ => vDest d
  | .vperm _ _ d _ _ => vDest d
  | .vslide _ _ d _ _ => vDest d
  | .viota _ _ d _ => vDest d
  | .vtapx _ _ d _ _ => vDest d
  | .vand _ d _ _ => vDest d
  | .vor _ d _ _ => vDest d
  | .vxor _ d _ _ => vDest d
  | .vshl _ d _ _ => vDest d
  | .vshr _ d _ _ => vDest d
  | .vsar _ d _ _ => vDest d
  | .mma _ _ _ _ _ _ _ => []
  | .mmaz _ _ _ _ _ _ _ => []
  | .latch _ _ _ _ _ => []
  | .latcht _ _ _ _ _ => []
  | .asetId _ _ _ => []
  | .asetZero _ _ _ => []
  | .again _ _ _ _ _ => []
  | .aoff _ _ _ _ _ => []
  | .apply _ _ _ _ _ => []
  | .ardOff _ _ sig lag _ => [.sample sig.toNat lag.toNat]
  | .ardGain _ _ sig lag _ => [.sample sig.toNat lag.toNat]
  | .scan _ _ _ _ => []
  | .scanUpd _ _ _ _ => []
  | .cyset _ _ _ _ => []
  | .cysetId _ _ => []
  | .cyget _ _ sig lag => [.sample sig.toNat lag.toNat]
  | .cld _ _ => []
  | .cst _ _ => []
  | .clda _ _ => []
  | .cstr _ _ => []
  | .cgath _ _ => []
  | .cscat _ _ => []
  | .scacc _ _ => []
  | .ccancel _ _ => []
  | .cwait _ _ => []
  | .dset _ _ _ _ => []
  | .fence _ _ _ _ => []
  | .csub _ _ => []
  | .cpull _ _ => []
  | .cunsub _ _ => []
  | .nmcmd _ _ _ _ => []
  | .nmfence _ _ _ _ => []
  | .nmatom _ _ _ _ => []
  | .chsend _ _ _ rd => [.s rd.toNat]
  | .chsendTry _ _ _ rd => [.s rd.toNat]
  | .chbind _ _ _ rd => [.s rd.toNat]
  | .chbindW _ _ rd => [.s rd.toNat]
  | .chclose _ _ rd => [.s rd.toNat]
  | .chcloseW _ _ rd => [.s rd.toNat]
  | .chstat _ _ rd => [.s rd.toNat]
  | .launch _ _ _ _ => []
  | .wsend _ _ _ _ => []
  | .heldBundleRelease _ => []
  | .eventLatch _ => []
  | .barrierRelease _ => []
  | .stallToll _ => []
  | .maxrunOverrun _ => []
  | .tapDeadlock _ => []
  | .fuseTimeout _ => []
  | .mResultFinal _ => []
  | .takeTrap _ => []
  | .asynchronousCause _ _ => []
  | .trapDisposition _ => []
  | .recall _ => []
  | .yieldTaken _ => []
  | .contextSave _ => []
  | .contextRestore _ => []
  | .spareMap _ => []
  | .mirrorSourceSearch _ _ => []
  | .streamSampleSend _ _ => []
  | .streamSampleArrival _ _ => []
  | .copyElementIssue _ _ => []
  | .copyAccessComplete _ _ _ => []
  | .scaccWindow _ _ => []
  | .loaderSamplePush _ _ => []
  | .storerSampleWrite _ _ => []
  | .combinerFlush _ _ => []
  | .announcementApply _ _ => []
  | .translationWalk _ _ => []
  | .faultTimeout _ _ => []
  | .stackRead _ => []
  | .stackWrite _ => []
  | .bankRefresh _ _ _ _ => []
  | .retryReissue _ => []
  | .rowPrecharge _ _ _ => []
  | .rowOpenLimit _ _ _ => []
  | .patrolScrub _ _ => []
  | .stackLost _ => []
  | .nearMemoryGranule _ => []
  | .nmAtomicRecord _ => []
  | .timetableVisit _ => []
  | .reservedPlacement _ => []
  | .convoyPlacement _ => []
  | .graphReturn _ _ => []
  | .launchEntryWrite _ _ => []
  | .groupPark _ _ => []
  | .groupWake _ _ => []
  | .waitExamination _ => []
  | .messageDelivery _ _ => []
  | .messageSpill _ _ => []
  | .cisternDrain _ _ => []
  | .triggerFire _ _ => []
  | .deadlockSample _ _ => []
  | .permitAudit _ => []
  | .doorbellTailWrite _ _ _ => []
  | .ctailWrite _ => []
  | .pheadWrite _ => []
  | .eheadWrite _ => []
  | .ltrWrite _ => []
  | .resetctlWrite _ => []
  | .slotmapWrite _ _ => []
  | .configRegisterWrite _ _ => []
  | .hostWrite _ _ _ _ => []
  | .hostRead _ _ _ => []
  | .identify _ => []
  | .attest _ => []
  | .fwStage _ => []
  | .partCreate _ => []
  | .partDestroy _ => []
  | .partXlat _ => []
  | .partWindow _ => []
  | .partInval _ => []
  | .partSwapOut _ => []
  | .partSwapIn _ => []
  | .partReserve _ => []
  | .trapPolicy _ => []
  | .trapDisposeRetry _ => []
  | .trapDisposeMaskedRetry _ => []
  | .trapDisposeEnd _ => []
  | .trapDisposeRestart _ => []
  | .trapRead _ => []
  | .shareRelease _ => []
  | .faultResolveRetry _ => []
  | .faultResolveFail _ => []
  | .aperture _ => []
  | .queueCreate _ => []
  | .queueDestroy _ => []
  | .queueAssign _ => []
  | .taskEnd _ => []
  | .slotSet _ => []
  | .rowSet _ => []
  | .chanCreate _ => []
  | .chanDestroy _ => []
  | .chanSet _ => []
  | .codeLoad _ => []
  | .coreRetire _ => []
  | .powerCap _ => []
  | .reset _ => []
  | .unknownOpcode _ _ => []
  | .coldReset => []
  | .warmReset _ => []
  | .boot => []
  | .linkDown _ => []
  | .powerSample _ _ _ _ => []
  | .powerStateEntry _ => []
  | .wakeEvent _ => []
  | .flitReceive _ _ => []
  | .replayTimeout _ => []
  | .portDown _ _ => []
  | .portTraining _ _ _ _ => []
  | .flowResend _ => []
  | .packageLost _ => []
  | .msg _ => []
  | .close _ => []
  | .waybill _ => []
  | .loss _ => []
  | .refused _ => []
  | .xfault _ => []
  | .read _ => []
  | .readresp _ => []
  | .write _ => []
  | .writeack _ => []
  | .ack _ => []
  | .bindreq _ => []
  | .bindreply _ => []
  | .grant _ => []
  | .drained _ => []
  | .statreq _ => []
  | .statreply _ => []
  | .grow _ => []
  | .fault _ => []
  | .bararr _ => []
  | .barrel _ => []
  | .workdone _ => []
  | .linkstate _ => []
  | .refuse _ => []
  | .powerLoss => []

/-- The samples that a slot writes, by their effective indices, whatever its guard (R55). -/
def tapDest (c : Ctx) : VOp → List (Nat × Int)
  | .tap n lag => [(n.toNat, (resolve c n lag.toNat).idx)]
  | .vreg _ => []
  | .sreg _ => []
  | .imm _ => []

def rowDests (c : Ctx) (n : BitVec 7) (lag rows : Nat) : List (Nat × Int) :=
  (List.range rows).map fun j => (n.toNat, ((resolve c n lag).row rows j).idx)

def Instr.sampleDests (c : Ctx) : Instr → List (Nat × Int)
  | .nop _ => []
  | .br _ _ => []
  | .brm _ => []
  | .jr _ _ => []
  | .call _ _ => []
  | .callr _ _ => []
  | .ret _ => []
  | .loop _ _ _ => []
  | .loopr _ _ _ => []
  | .lexit _ => []
  | .tick _ _ => []
  | .adv _ _ _ => []
  | .ypt _ => []
  | .yield _ => []
  | .cont _ _ => []
  | .resume _ => []
  | .topup _ _ _ => []
  | .exit _ => []
  | .trap _ _ => []
  | .waitev _ _ => []
  | .sigev _ _ _ _ => []
  | .bar _ _ _ => []
  | .fuse _ _ => []
  | .decouple _ => []
  | .rejoin _ => []
  | .add _ _ _ _ => []
  | .sub _ _ _ _ => []
  | .mul _ _ _ _ => []
  | .mulh _ _ _ _ => []
  | .mulhu _ _ _ _ => []
  | .div _ _ _ _ => []
  | .divu _ _ _ _ => []
  | .rem _ _ _ _ => []
  | .and _ _ _ _ => []
  | .or _ _ _ _ => []
  | .xor _ _ _ _ => []
  | .andn _ _ _ _ => []
  | .shl _ _ _ _ => []
  | .shr _ _ _ _ => []
  | .sar _ _ _ _ => []
  | .min _ _ _ _ => []
  | .max _ _ _ _ => []
  | .minu _ _ _ _ => []
  | .maxu _ _ _ _ => []
  | .clz _ _ _ => []
  | .popc _ _ _ => []
  | .sel _ _ _ _ _ => []
  | .addi _ _ _ _ => []
  | .andi _ _ _ _ => []
  | .ori _ _ _ _ => []
  | .xori _ _ _ _ => []
  | .shli _ _ _ _ => []
  | .shri _ _ _ _ => []
  | .sari _ _ _ _ => []
  | .movi _ _ _ => []
  | .movhi _ _ _ _ => []
  | .cmp _ _ _ _ _ => []
  | .cmpi _ _ _ _ _ => []
  | .pand _ _ _ _ => []
  | .por _ _ _ _ => []
  | .pxor _ _ _ _ => []
  | .pandn _ _ _ _ => []
  | .pset _ _ _ => []
  | .spld _ _ _ => []
  | .spst _ _ _ => []
  | .csrr _ _ _ => []
  | .csrw _ _ _ => []
  | .lidx _ _ _ => []
  | .fadd _ _ _ _ => []
  | .fsub _ _ _ _ => []
  | .fmul _ _ _ _ => []
  | .ffma _ _ _ _ => []
  | .fmin _ _ _ _ => []
  | .fmax _ _ _ _ => []
  | .fcmp _ _ _ _ _ => []
  | .fcvti _ _ _ => []
  | .icvtf _ _ _ => []
  | .sigset _ _ _ _ _ => []
  | .sigget _ _ _ _ _ => []
  | .sigclr _ _ => []
  | .fillmk _ _ _ => []
  | .waitfill _ _ _ _ => []
  | .taprd _ _ _ _ => []
  | .tapwr _ _ sig lag => [(sig.toNat, (resolve c sig lag.toNat).idx)]
  | .vadd _ _ d _ _ _ => tapDest c d
  | .vsub _ _ d _ _ _ => tapDest c d
  | .vmul _ _ d _ _ _ => tapDest c d
  | .vfma _ _ d _ _ _ => tapDest c d
  | .vfms _ _ d _ _ _ => tapDest c d
  | .vmin _ _ d _ _ => tapDest c d
  | .vmax _ _ d _ _ => tapDest c d
  | .vabs _ _ d _ => tapDest c d
  | .vneg _ _ d _ => tapDest c d
  | .vcmpeq _ _ d _ _ => tapDest c d
  | .vcmplt _ _ d _ _ => tapDest c d
  | .vcmple _ _ d _ _ => tapDest c d
  | .vsel _ _ d _ _ => tapDest c d
  | .vmov _ _ d _ => tapDest c d
  | .vbcast _ _ d _ _ => tapDest c d
  | .vrsum _ _ d _ _ => tapDest c d
  | .vrmax _ _ d _ => tapDest c d
  | .vrcp _ _ d _ _ => tapDest c d
  | .vrsq _ _ d _ _ => tapDest c d
  | .vexp2 _ _ d _ _ => tapDest c d
  | .vlog2 _ _ d _ _ => tapDest c d
  | .vscale _ _ d _ _ _ => tapDest c d
  | .vcvt _ _ d _ _ _ => tapDest c d
  | .vperm _ _ d _ _ => tapDest c d
  | .vslide _ _ d _ _ => tapDest c d
  | .viota _ _ d _ => tapDest c d
  | .vtapx _ _ d _ _ => tapDest c d
  | .vand _ d _ _ => tapDest c d
  | .vor _ d _ _ => tapDest c d
  | .vxor _ d _ _ => tapDest c d
  | .vshl _ d _ _ => tapDest c d
  | .vshr _ d _ _ => tapDest c d
  | .vsar _ d _ _ => tapDest c d
  | .mma _ _ _ _ _ _ _ => []
  | .mmaz _ _ _ _ _ _ _ => []
  | .latch _ _ _ _ _ => []
  | .latcht _ _ _ _ _ => []
  | .asetId _ _ _ => []
  | .asetZero _ _ _ => []
  | .again _ _ _ _ _ => []
  | .aoff _ _ _ _ _ => []
  | .apply _ _ _ _ _ => []
  | .ardOff _ _ sig lag r => rowDests c sig lag.toNat (MRows.n r)
  | .ardGain _ _ sig lag r => rowDests c sig lag.toNat (MRows.n r)
  | .scan _ _ _ _ => []
  | .scanUpd _ _ _ _ => []
  | .cyset _ _ _ _ => []
  | .cysetId _ _ => []
  | .cyget _ _ sig lag => [(sig.toNat, (resolve c sig lag.toNat).idx)]
  | .cld _ _ => []
  | .cst _ _ => []
  | .clda _ _ => []
  | .cstr _ _ => []
  | .cgath _ _ => []
  | .cscat _ _ => []
  | .scacc _ _ => []
  | .ccancel _ _ => []
  | .cwait _ _ => []
  | .dset _ _ _ _ => []
  | .fence _ _ _ _ => []
  | .csub _ _ => []
  | .cpull _ _ => []
  | .cunsub _ _ => []
  | .nmcmd _ _ _ _ => []
  | .nmfence _ _ _ _ => []
  | .nmatom _ _ _ _ => []
  | .chsend _ _ _ _ => []
  | .chsendTry _ _ _ _ => []
  | .chbind _ _ _ _ => []
  | .chbindW _ _ _ => []
  | .chclose _ _ _ => []
  | .chcloseW _ _ _ => []
  | .chstat _ _ _ => []
  | .launch _ _ _ _ => []
  | .wsend _ _ _ _ => []
  | .heldBundleRelease _ => []
  | .eventLatch _ => []
  | .barrierRelease _ => []
  | .stallToll _ => []
  | .maxrunOverrun _ => []
  | .tapDeadlock _ => []
  | .fuseTimeout _ => []
  | .mResultFinal _ => []
  | .takeTrap _ => []
  | .asynchronousCause _ _ => []
  | .trapDisposition _ => []
  | .recall _ => []
  | .yieldTaken _ => []
  | .contextSave _ => []
  | .contextRestore _ => []
  | .spareMap _ => []
  | .mirrorSourceSearch _ _ => []
  | .streamSampleSend _ _ => []
  | .streamSampleArrival _ _ => []
  | .copyElementIssue _ _ => []
  | .copyAccessComplete _ _ _ => []
  | .scaccWindow _ _ => []
  | .loaderSamplePush _ _ => []
  | .storerSampleWrite _ _ => []
  | .combinerFlush _ _ => []
  | .announcementApply _ _ => []
  | .translationWalk _ _ => []
  | .faultTimeout _ _ => []
  | .stackRead _ => []
  | .stackWrite _ => []
  | .bankRefresh _ _ _ _ => []
  | .retryReissue _ => []
  | .rowPrecharge _ _ _ => []
  | .rowOpenLimit _ _ _ => []
  | .patrolScrub _ _ => []
  | .stackLost _ => []
  | .nearMemoryGranule _ => []
  | .nmAtomicRecord _ => []
  | .timetableVisit _ => []
  | .reservedPlacement _ => []
  | .convoyPlacement _ => []
  | .graphReturn _ _ => []
  | .launchEntryWrite _ _ => []
  | .groupPark _ _ => []
  | .groupWake _ _ => []
  | .waitExamination _ => []
  | .messageDelivery _ _ => []
  | .messageSpill _ _ => []
  | .cisternDrain _ _ => []
  | .triggerFire _ _ => []
  | .deadlockSample _ _ => []
  | .permitAudit _ => []
  | .doorbellTailWrite _ _ _ => []
  | .ctailWrite _ => []
  | .pheadWrite _ => []
  | .eheadWrite _ => []
  | .ltrWrite _ => []
  | .resetctlWrite _ => []
  | .slotmapWrite _ _ => []
  | .configRegisterWrite _ _ => []
  | .hostWrite _ _ _ _ => []
  | .hostRead _ _ _ => []
  | .identify _ => []
  | .attest _ => []
  | .fwStage _ => []
  | .partCreate _ => []
  | .partDestroy _ => []
  | .partXlat _ => []
  | .partWindow _ => []
  | .partInval _ => []
  | .partSwapOut _ => []
  | .partSwapIn _ => []
  | .partReserve _ => []
  | .trapPolicy _ => []
  | .trapDisposeRetry _ => []
  | .trapDisposeMaskedRetry _ => []
  | .trapDisposeEnd _ => []
  | .trapDisposeRestart _ => []
  | .trapRead _ => []
  | .shareRelease _ => []
  | .faultResolveRetry _ => []
  | .faultResolveFail _ => []
  | .aperture _ => []
  | .queueCreate _ => []
  | .queueDestroy _ => []
  | .queueAssign _ => []
  | .taskEnd _ => []
  | .slotSet _ => []
  | .rowSet _ => []
  | .chanCreate _ => []
  | .chanDestroy _ => []
  | .chanSet _ => []
  | .codeLoad _ => []
  | .coreRetire _ => []
  | .powerCap _ => []
  | .reset _ => []
  | .unknownOpcode _ _ => []
  | .coldReset => []
  | .warmReset _ => []
  | .boot => []
  | .linkDown _ => []
  | .powerSample _ _ _ _ => []
  | .powerStateEntry _ => []
  | .wakeEvent _ => []
  | .flitReceive _ _ => []
  | .replayTimeout _ => []
  | .portDown _ _ => []
  | .portTraining _ _ _ _ => []
  | .flowResend _ => []
  | .packageLost _ => []
  | .msg _ => []
  | .close _ => []
  | .waybill _ => []
  | .loss _ => []
  | .refused _ => []
  | .xfault _ => []
  | .read _ => []
  | .readresp _ => []
  | .write _ => []
  | .writeack _ => []
  | .ack _ => []
  | .bindreq _ => []
  | .bindreply _ => []
  | .grant _ => []
  | .drained _ => []
  | .statreq _ => []
  | .statreply _ => []
  | .grow _ => []
  | .fault _ => []
  | .bararr _ => []
  | .barrel _ => []
  | .workdone _ => []
  | .linkstate _ => []
  | .refuse _ => []
  | .powerLoss => []

/-- The sample that a WAITFILL awaits (R170, R343). -/
def Instr.waitsFor (c : Ctx) : Instr → List (BitVec 7 × Int)
  | .nop _ => []
  | .br _ _ => []
  | .brm _ => []
  | .jr _ _ => []
  | .call _ _ => []
  | .callr _ _ => []
  | .ret _ => []
  | .loop _ _ _ => []
  | .loopr _ _ _ => []
  | .lexit _ => []
  | .tick _ _ => []
  | .adv _ _ _ => []
  | .ypt _ => []
  | .yield _ => []
  | .cont _ _ => []
  | .resume _ => []
  | .topup _ _ _ => []
  | .exit _ => []
  | .trap _ _ => []
  | .waitev _ _ => []
  | .sigev _ _ _ _ => []
  | .bar _ _ _ => []
  | .fuse _ _ => []
  | .decouple _ => []
  | .rejoin _ => []
  | .add _ _ _ _ => []
  | .sub _ _ _ _ => []
  | .mul _ _ _ _ => []
  | .mulh _ _ _ _ => []
  | .mulhu _ _ _ _ => []
  | .div _ _ _ _ => []
  | .divu _ _ _ _ => []
  | .rem _ _ _ _ => []
  | .and _ _ _ _ => []
  | .or _ _ _ _ => []
  | .xor _ _ _ _ => []
  | .andn _ _ _ _ => []
  | .shl _ _ _ _ => []
  | .shr _ _ _ _ => []
  | .sar _ _ _ _ => []
  | .min _ _ _ _ => []
  | .max _ _ _ _ => []
  | .minu _ _ _ _ => []
  | .maxu _ _ _ _ => []
  | .clz _ _ _ => []
  | .popc _ _ _ => []
  | .sel _ _ _ _ _ => []
  | .addi _ _ _ _ => []
  | .andi _ _ _ _ => []
  | .ori _ _ _ _ => []
  | .xori _ _ _ _ => []
  | .shli _ _ _ _ => []
  | .shri _ _ _ _ => []
  | .sari _ _ _ _ => []
  | .movi _ _ _ => []
  | .movhi _ _ _ _ => []
  | .cmp _ _ _ _ _ => []
  | .cmpi _ _ _ _ _ => []
  | .pand _ _ _ _ => []
  | .por _ _ _ _ => []
  | .pxor _ _ _ _ => []
  | .pandn _ _ _ _ => []
  | .pset _ _ _ => []
  | .spld _ _ _ => []
  | .spst _ _ _ => []
  | .csrr _ _ _ => []
  | .csrw _ _ _ => []
  | .lidx _ _ _ => []
  | .fadd _ _ _ _ => []
  | .fsub _ _ _ _ => []
  | .fmul _ _ _ _ => []
  | .ffma _ _ _ _ => []
  | .fmin _ _ _ _ => []
  | .fmax _ _ _ _ => []
  | .fcmp _ _ _ _ _ => []
  | .fcvti _ _ _ => []
  | .icvtf _ _ _ => []
  | .sigset _ _ _ _ _ => []
  | .sigget _ _ _ _ _ => []
  | .sigclr _ _ => []
  | .fillmk _ _ _ => []
  | .waitfill _ _ n d => [(n, (if (c.sg n).isTable then 0 else ((c.sg n).head.toNat : Int)) + d.toInt)]
  | .taprd _ _ _ _ => []
  | .tapwr _ _ _ _ => []
  | .vadd _ _ _ _ _ _ => []
  | .vsub _ _ _ _ _ _ => []
  | .vmul _ _ _ _ _ _ => []
  | .vfma _ _ _ _ _ _ => []
  | .vfms _ _ _ _ _ _ => []
  | .vmin _ _ _ _ _ => []
  | .vmax _ _ _ _ _ => []
  | .vabs _ _ _ _ => []
  | .vneg _ _ _ _ => []
  | .vcmpeq _ _ _ _ _ => []
  | .vcmplt _ _ _ _ _ => []
  | .vcmple _ _ _ _ _ => []
  | .vsel _ _ _ _ _ => []
  | .vmov _ _ _ _ => []
  | .vbcast _ _ _ _ _ => []
  | .vrsum _ _ _ _ _ => []
  | .vrmax _ _ _ _ => []
  | .vrcp _ _ _ _ _ => []
  | .vrsq _ _ _ _ _ => []
  | .vexp2 _ _ _ _ _ => []
  | .vlog2 _ _ _ _ _ => []
  | .vscale _ _ _ _ _ _ => []
  | .vcvt _ _ _ _ _ _ => []
  | .vperm _ _ _ _ _ => []
  | .vslide _ _ _ _ _ => []
  | .viota _ _ _ _ => []
  | .vtapx _ _ _ _ _ => []
  | .vand _ _ _ _ => []
  | .vor _ _ _ _ => []
  | .vxor _ _ _ _ => []
  | .vshl _ _ _ _ => []
  | .vshr _ _ _ _ => []
  | .vsar _ _ _ _ => []
  | .mma _ _ _ _ _ _ _ => []
  | .mmaz _ _ _ _ _ _ _ => []
  | .latch _ _ _ _ _ => []
  | .latcht _ _ _ _ _ => []
  | .asetId _ _ _ => []
  | .asetZero _ _ _ => []
  | .again _ _ _ _ _ => []
  | .aoff _ _ _ _ _ => []
  | .apply _ _ _ _ _ => []
  | .ardOff _ _ _ _ _ => []
  | .ardGain _ _ _ _ _ => []
  | .scan _ _ _ _ => []
  | .scanUpd _ _ _ _ => []
  | .cyset _ _ _ _ => []
  | .cysetId _ _ => []
  | .cyget _ _ _ _ => []
  | .cld _ _ => []
  | .cst _ _ => []
  | .clda _ _ => []
  | .cstr _ _ => []
  | .cgath _ _ => []
  | .cscat _ _ => []
  | .scacc _ _ => []
  | .ccancel _ _ => []
  | .cwait _ _ => []
  | .dset _ _ _ _ => []
  | .fence _ _ _ _ => []
  | .csub _ _ => []
  | .cpull _ _ => []
  | .cunsub _ _ => []
  | .nmcmd _ _ _ _ => []
  | .nmfence _ _ _ _ => []
  | .nmatom _ _ _ _ => []
  | .chsend _ _ _ _ => []
  | .chsendTry _ _ _ _ => []
  | .chbind _ _ _ _ => []
  | .chbindW _ _ _ => []
  | .chclose _ _ _ => []
  | .chcloseW _ _ _ => []
  | .chstat _ _ _ => []
  | .launch _ _ _ _ => []
  | .wsend _ _ _ _ => []
  | .heldBundleRelease _ => []
  | .eventLatch _ => []
  | .barrierRelease _ => []
  | .stallToll _ => []
  | .maxrunOverrun _ => []
  | .tapDeadlock _ => []
  | .fuseTimeout _ => []
  | .mResultFinal _ => []
  | .takeTrap _ => []
  | .asynchronousCause _ _ => []
  | .trapDisposition _ => []
  | .recall _ => []
  | .yieldTaken _ => []
  | .contextSave _ => []
  | .contextRestore _ => []
  | .spareMap _ => []
  | .mirrorSourceSearch _ _ => []
  | .streamSampleSend _ _ => []
  | .streamSampleArrival _ _ => []
  | .copyElementIssue _ _ => []
  | .copyAccessComplete _ _ _ => []
  | .scaccWindow _ _ => []
  | .loaderSamplePush _ _ => []
  | .storerSampleWrite _ _ => []
  | .combinerFlush _ _ => []
  | .announcementApply _ _ => []
  | .translationWalk _ _ => []
  | .faultTimeout _ _ => []
  | .stackRead _ => []
  | .stackWrite _ => []
  | .bankRefresh _ _ _ _ => []
  | .retryReissue _ => []
  | .rowPrecharge _ _ _ => []
  | .rowOpenLimit _ _ _ => []
  | .patrolScrub _ _ => []
  | .stackLost _ => []
  | .nearMemoryGranule _ => []
  | .nmAtomicRecord _ => []
  | .timetableVisit _ => []
  | .reservedPlacement _ => []
  | .convoyPlacement _ => []
  | .graphReturn _ _ => []
  | .launchEntryWrite _ _ => []
  | .groupPark _ _ => []
  | .groupWake _ _ => []
  | .waitExamination _ => []
  | .messageDelivery _ _ => []
  | .messageSpill _ _ => []
  | .cisternDrain _ _ => []
  | .triggerFire _ _ => []
  | .deadlockSample _ _ => []
  | .permitAudit _ => []
  | .doorbellTailWrite _ _ _ => []
  | .ctailWrite _ => []
  | .pheadWrite _ => []
  | .eheadWrite _ => []
  | .ltrWrite _ => []
  | .resetctlWrite _ => []
  | .slotmapWrite _ _ => []
  | .configRegisterWrite _ _ => []
  | .hostWrite _ _ _ _ => []
  | .hostRead _ _ _ => []
  | .identify _ => []
  | .attest _ => []
  | .fwStage _ => []
  | .partCreate _ => []
  | .partDestroy _ => []
  | .partXlat _ => []
  | .partWindow _ => []
  | .partInval _ => []
  | .partSwapOut _ => []
  | .partSwapIn _ => []
  | .partReserve _ => []
  | .trapPolicy _ => []
  | .trapDisposeRetry _ => []
  | .trapDisposeMaskedRetry _ => []
  | .trapDisposeEnd _ => []
  | .trapDisposeRestart _ => []
  | .trapRead _ => []
  | .shareRelease _ => []
  | .faultResolveRetry _ => []
  | .faultResolveFail _ => []
  | .aperture _ => []
  | .queueCreate _ => []
  | .queueDestroy _ => []
  | .queueAssign _ => []
  | .taskEnd _ => []
  | .slotSet _ => []
  | .rowSet _ => []
  | .chanCreate _ => []
  | .chanDestroy _ => []
  | .chanSet _ => []
  | .codeLoad _ => []
  | .coreRetire _ => []
  | .powerCap _ => []
  | .reset _ => []
  | .unknownOpcode _ _ => []
  | .coldReset => []
  | .warmReset _ => []
  | .boot => []
  | .linkDown _ => []
  | .powerSample _ _ _ _ => []
  | .powerStateEntry _ => []
  | .wakeEvent _ => []
  | .flitReceive _ _ => []
  | .replayTimeout _ => []
  | .portDown _ _ => []
  | .portTraining _ _ _ _ => []
  | .flowResend _ => []
  | .packageLost _ => []
  | .msg _ => []
  | .close _ => []
  | .waybill _ => []
  | .loss _ => []
  | .refused _ => []
  | .xfault _ => []
  | .read _ => []
  | .readresp _ => []
  | .write _ => []
  | .writeack _ => []
  | .ack _ => []
  | .bindreq _ => []
  | .bindreply _ => []
  | .grant _ => []
  | .drained _ => []
  | .statreq _ => []
  | .statreply _ => []
  | .grow _ => []
  | .fault _ => []
  | .bararr _ => []
  | .barrel _ => []
  | .workdone _ => []
  | .linkstate _ => []
  | .refuse _ => []
  | .powerLoss => []

/-- The event mask of a WAITEV. -/
def Instr.eventMask : Instr → BitVec 16
  | .nop _ => 0
  | .br _ _ => 0
  | .brm _ => 0
  | .jr _ _ => 0
  | .call _ _ => 0
  | .callr _ _ => 0
  | .ret _ => 0
  | .loop _ _ _ => 0
  | .loopr _ _ _ => 0
  | .lexit _ => 0
  | .tick _ _ => 0
  | .adv _ _ _ => 0
  | .ypt _ => 0
  | .yield _ => 0
  | .cont _ _ => 0
  | .resume _ => 0
  | .topup _ _ _ => 0
  | .exit _ => 0
  | .trap _ _ => 0
  | .waitev _ mask => mask
  | .sigev _ _ _ _ => 0
  | .bar _ _ _ => 0
  | .fuse _ _ => 0
  | .decouple _ => 0
  | .rejoin _ => 0
  | .add _ _ _ _ => 0
  | .sub _ _ _ _ => 0
  | .mul _ _ _ _ => 0
  | .mulh _ _ _ _ => 0
  | .mulhu _ _ _ _ => 0
  | .div _ _ _ _ => 0
  | .divu _ _ _ _ => 0
  | .rem _ _ _ _ => 0
  | .and _ _ _ _ => 0
  | .or _ _ _ _ => 0
  | .xor _ _ _ _ => 0
  | .andn _ _ _ _ => 0
  | .shl _ _ _ _ => 0
  | .shr _ _ _ _ => 0
  | .sar _ _ _ _ => 0
  | .min _ _ _ _ => 0
  | .max _ _ _ _ => 0
  | .minu _ _ _ _ => 0
  | .maxu _ _ _ _ => 0
  | .clz _ _ _ => 0
  | .popc _ _ _ => 0
  | .sel _ _ _ _ _ => 0
  | .addi _ _ _ _ => 0
  | .andi _ _ _ _ => 0
  | .ori _ _ _ _ => 0
  | .xori _ _ _ _ => 0
  | .shli _ _ _ _ => 0
  | .shri _ _ _ _ => 0
  | .sari _ _ _ _ => 0
  | .movi _ _ _ => 0
  | .movhi _ _ _ _ => 0
  | .cmp _ _ _ _ _ => 0
  | .cmpi _ _ _ _ _ => 0
  | .pand _ _ _ _ => 0
  | .por _ _ _ _ => 0
  | .pxor _ _ _ _ => 0
  | .pandn _ _ _ _ => 0
  | .pset _ _ _ => 0
  | .spld _ _ _ => 0
  | .spst _ _ _ => 0
  | .csrr _ _ _ => 0
  | .csrw _ _ _ => 0
  | .lidx _ _ _ => 0
  | .fadd _ _ _ _ => 0
  | .fsub _ _ _ _ => 0
  | .fmul _ _ _ _ => 0
  | .ffma _ _ _ _ => 0
  | .fmin _ _ _ _ => 0
  | .fmax _ _ _ _ => 0
  | .fcmp _ _ _ _ _ => 0
  | .fcvti _ _ _ => 0
  | .icvtf _ _ _ => 0
  | .sigset _ _ _ _ _ => 0
  | .sigget _ _ _ _ _ => 0
  | .sigclr _ _ => 0
  | .fillmk _ _ _ => 0
  | .waitfill _ _ _ _ => 0
  | .taprd _ _ _ _ => 0
  | .tapwr _ _ _ _ => 0
  | .vadd _ _ _ _ _ _ => 0
  | .vsub _ _ _ _ _ _ => 0
  | .vmul _ _ _ _ _ _ => 0
  | .vfma _ _ _ _ _ _ => 0
  | .vfms _ _ _ _ _ _ => 0
  | .vmin _ _ _ _ _ => 0
  | .vmax _ _ _ _ _ => 0
  | .vabs _ _ _ _ => 0
  | .vneg _ _ _ _ => 0
  | .vcmpeq _ _ _ _ _ => 0
  | .vcmplt _ _ _ _ _ => 0
  | .vcmple _ _ _ _ _ => 0
  | .vsel _ _ _ _ _ => 0
  | .vmov _ _ _ _ => 0
  | .vbcast _ _ _ _ _ => 0
  | .vrsum _ _ _ _ _ => 0
  | .vrmax _ _ _ _ => 0
  | .vrcp _ _ _ _ _ => 0
  | .vrsq _ _ _ _ _ => 0
  | .vexp2 _ _ _ _ _ => 0
  | .vlog2 _ _ _ _ _ => 0
  | .vscale _ _ _ _ _ _ => 0
  | .vcvt _ _ _ _ _ _ => 0
  | .vperm _ _ _ _ _ => 0
  | .vslide _ _ _ _ _ => 0
  | .viota _ _ _ _ => 0
  | .vtapx _ _ _ _ _ => 0
  | .vand _ _ _ _ => 0
  | .vor _ _ _ _ => 0
  | .vxor _ _ _ _ => 0
  | .vshl _ _ _ _ => 0
  | .vshr _ _ _ _ => 0
  | .vsar _ _ _ _ => 0
  | .mma _ _ _ _ _ _ _ => 0
  | .mmaz _ _ _ _ _ _ _ => 0
  | .latch _ _ _ _ _ => 0
  | .latcht _ _ _ _ _ => 0
  | .asetId _ _ _ => 0
  | .asetZero _ _ _ => 0
  | .again _ _ _ _ _ => 0
  | .aoff _ _ _ _ _ => 0
  | .apply _ _ _ _ _ => 0
  | .ardOff _ _ _ _ _ => 0
  | .ardGain _ _ _ _ _ => 0
  | .scan _ _ _ _ => 0
  | .scanUpd _ _ _ _ => 0
  | .cyset _ _ _ _ => 0
  | .cysetId _ _ => 0
  | .cyget _ _ _ _ => 0
  | .cld _ _ => 0
  | .cst _ _ => 0
  | .clda _ _ => 0
  | .cstr _ _ => 0
  | .cgath _ _ => 0
  | .cscat _ _ => 0
  | .scacc _ _ => 0
  | .ccancel _ _ => 0
  | .cwait _ _ => 0
  | .dset _ _ _ _ => 0
  | .fence _ _ _ _ => 0
  | .csub _ _ => 0
  | .cpull _ _ => 0
  | .cunsub _ _ => 0
  | .nmcmd _ _ _ _ => 0
  | .nmfence _ _ _ _ => 0
  | .nmatom _ _ _ _ => 0
  | .chsend _ _ _ _ => 0
  | .chsendTry _ _ _ _ => 0
  | .chbind _ _ _ _ => 0
  | .chbindW _ _ _ => 0
  | .chclose _ _ _ => 0
  | .chcloseW _ _ _ => 0
  | .chstat _ _ _ => 0
  | .launch _ _ _ _ => 0
  | .wsend _ _ _ _ => 0
  | .heldBundleRelease _ => 0
  | .eventLatch _ => 0
  | .barrierRelease _ => 0
  | .stallToll _ => 0
  | .maxrunOverrun _ => 0
  | .tapDeadlock _ => 0
  | .fuseTimeout _ => 0
  | .mResultFinal _ => 0
  | .takeTrap _ => 0
  | .asynchronousCause _ _ => 0
  | .trapDisposition _ => 0
  | .recall _ => 0
  | .yieldTaken _ => 0
  | .contextSave _ => 0
  | .contextRestore _ => 0
  | .spareMap _ => 0
  | .mirrorSourceSearch _ _ => 0
  | .streamSampleSend _ _ => 0
  | .streamSampleArrival _ _ => 0
  | .copyElementIssue _ _ => 0
  | .copyAccessComplete _ _ _ => 0
  | .scaccWindow _ _ => 0
  | .loaderSamplePush _ _ => 0
  | .storerSampleWrite _ _ => 0
  | .combinerFlush _ _ => 0
  | .announcementApply _ _ => 0
  | .translationWalk _ _ => 0
  | .faultTimeout _ _ => 0
  | .stackRead _ => 0
  | .stackWrite _ => 0
  | .bankRefresh _ _ _ _ => 0
  | .retryReissue _ => 0
  | .rowPrecharge _ _ _ => 0
  | .rowOpenLimit _ _ _ => 0
  | .patrolScrub _ _ => 0
  | .stackLost _ => 0
  | .nearMemoryGranule _ => 0
  | .nmAtomicRecord _ => 0
  | .timetableVisit _ => 0
  | .reservedPlacement _ => 0
  | .convoyPlacement _ => 0
  | .graphReturn _ _ => 0
  | .launchEntryWrite _ _ => 0
  | .groupPark _ _ => 0
  | .groupWake _ _ => 0
  | .waitExamination _ => 0
  | .messageDelivery _ _ => 0
  | .messageSpill _ _ => 0
  | .cisternDrain _ _ => 0
  | .triggerFire _ _ => 0
  | .deadlockSample _ _ => 0
  | .permitAudit _ => 0
  | .doorbellTailWrite _ _ _ => 0
  | .ctailWrite _ => 0
  | .pheadWrite _ => 0
  | .eheadWrite _ => 0
  | .ltrWrite _ => 0
  | .resetctlWrite _ => 0
  | .slotmapWrite _ _ => 0
  | .configRegisterWrite _ _ => 0
  | .hostWrite _ _ _ _ => 0
  | .hostRead _ _ _ => 0
  | .identify _ => 0
  | .attest _ => 0
  | .fwStage _ => 0
  | .partCreate _ => 0
  | .partDestroy _ => 0
  | .partXlat _ => 0
  | .partWindow _ => 0
  | .partInval _ => 0
  | .partSwapOut _ => 0
  | .partSwapIn _ => 0
  | .partReserve _ => 0
  | .trapPolicy _ => 0
  | .trapDisposeRetry _ => 0
  | .trapDisposeMaskedRetry _ => 0
  | .trapDisposeEnd _ => 0
  | .trapDisposeRestart _ => 0
  | .trapRead _ => 0
  | .shareRelease _ => 0
  | .faultResolveRetry _ => 0
  | .faultResolveFail _ => 0
  | .aperture _ => 0
  | .queueCreate _ => 0
  | .queueDestroy _ => 0
  | .queueAssign _ => 0
  | .taskEnd _ => 0
  | .slotSet _ => 0
  | .rowSet _ => 0
  | .chanCreate _ => 0
  | .chanDestroy _ => 0
  | .chanSet _ => 0
  | .codeLoad _ => 0
  | .coreRetire _ => 0
  | .powerCap _ => 0
  | .reset _ => 0
  | .unknownOpcode _ _ => 0
  | .coldReset => 0
  | .warmReset _ => 0
  | .boot => 0
  | .linkDown _ => 0
  | .powerSample _ _ _ _ => 0
  | .powerStateEntry _ => 0
  | .wakeEvent _ => 0
  | .flitReceive _ _ => 0
  | .replayTimeout _ => 0
  | .portDown _ _ => 0
  | .portTraining _ _ _ _ => 0
  | .flowResend _ => 0
  | .packageLost _ => 0
  | .msg _ => 0
  | .close _ => 0
  | .waybill _ => 0
  | .loss _ => 0
  | .refused _ => 0
  | .xfault _ => 0
  | .read _ => 0
  | .readresp _ => 0
  | .write _ => 0
  | .writeack _ => 0
  | .ack _ => 0
  | .bindreq _ => 0
  | .bindreply _ => 0
  | .grant _ => 0
  | .drained _ => 0
  | .statreq _ => 0
  | .statreply _ => 0
  | .grow _ => 0
  | .fault _ => 0
  | .bararr _ => 0
  | .barrel _ => 0
  | .workdone _ => 0
  | .linkstate _ => 0
  | .refuse _ => 0
  | .powerLoss => 0

end Sys2Proof.Machine
end

