-- ==== Sys2Proof/Machine/Issue.lean ====
section
/-!
DEFINITION. The issue of a bundle: checks, holds, commit, control flow, tolls and pre-emption points (R51 to
R64, R75 to R85, R95 to R112, R155, R262, R263, R303 to R310).
-/
namespace Sys2Proof.Machine
open Sys2Proof

/-- A bundle with its address. -/
structure Fetched where
  addr : Word
  syll : List Word
  slots : List Slot
deriving DecidableEq, Repr

def Fetched.size (b : Fetched) : Word := BitVec.ofNat 64 (8 * b.syll.length)
/-- The address of the next bundle in memory. -/
def Fetched.next (b : Fetched) : Word := b.addr + b.size
/-- The position of the C syllable, which stands first. -/
def Fetched.transfer (b : Fetched) : Bool := b.slots.any fun x => Instr.transfer x.instr

/-! Trap inputs. -/

/-- A trap of the syllables of a mask that all show one code (R262). -/
def Fetched.trapAll (b : Fetched) (code mask : Nat) : TrapIn :=
  { code := BitVec.ofNat 8 code, mask := mask, bundle := b.addr, syll := b.syll
    slots := ((List.range 8).filter fun i => mask / 2 ^ i % 2 == 1).map (·, code) }

/-- A trap of no syllable (R263). -/
def Fetched.trapNone (b : Fetched) (code mask : Nat) (d0 d1 : Word) : TrapIn :=
  { code := BitVec.ofNat 8 code, mask := mask, bundle := b.addr, syll := b.syll, detail0 := d0, detail1 := d1 }

/-! Steps 2 to 4 of R56. -/

def complementary (a b : Guard) : Bool := a.pred == b.pred && a.neg != b.neg

/-- The mask of the slots that share a destination without complementary guards. -/
def overlapMask {α : Type} [DecidableEq α] (xs : List (Nat × Guard × List α)) : Nat :=
  let meets := fun (x y : Nat × Guard × List α) =>
    x.1 != y.1 && !complementary x.2.1 y.2.1 && x.2.2.any y.2.2.contains
  ((xs.filter fun x => xs.any (meets x)).map fun x => 2 ^ x.1).sum

def staticOverlap (b : Fetched) : Nat :=
  overlapMask (b.slots.map fun x => (x.idx, Instr.guard x.instr, Instr.dests x.instr))

def sampleOverlap (c : Ctx) (b : Fetched) : Nat :=
  overlapMask (b.slots.map fun x => (x.idx, Instr.guard x.instr, Instr.sampleDests c x.instr))

/-- The length in bytes of the bundle at an address, or the trap that fetching it raises with its DETAIL0. -/
def delimitAt (k : Nat) (a : Word) (s : State) : Except Nat Nat × State :=
  match fetch k a s with
  | (.bundle ws, s1) => (.ok (8 * ws.length), s1)
  | (.noEnd _, s1) => (.error 0x02, s1)
  | (.untranslatable, s1) => (.error 0x0B, s1)
  | (.poisoned _, s1) => (.error 0x0C, s1)

/-- The bundle is one of the last three of the innermost body (R84). -/
def nearLoopEnd (k : Nat) (b : Fetched) (s : State) : Bool × State :=
  match (s.ctx k).pos.loops.getLast? with
  | none => (false, s)
  | some l =>
    if b.addr == l.stop then (true, s)
    else if b.addr.toNat < l.start.toNat || l.stop.toNat < b.addr.toNat then (false, s)
    else if b.next == l.stop then (true, s)
    else if l.stop.toNat - b.next.toNat > 64 then (false, s)
    else match delimitAt k b.next s with
      | (.ok n, s1) => (b.next + BitVec.ofNat 64 n == l.stop, s1)
      | (.error _, s1) => (false, s1)

/-- Steps 2 to 4 and the check of R84: they depend on the syllables and on the control state only. -/
def staticFault (k : Nat) (b : Fetched) (s : State) : Option TrapIn × State :=
  let bad := ((b.slots.filter fun x => !x.instr.wf).map fun x => 2 ^ x.idx).sum
  let cmask := ((b.slots.filter fun x => Instr.transfer x.instr).map fun x => 2 ^ x.idx).sum
  let age := (s.ctx k).pos.xferAge
  if bad ≠ 0 then (some (b.trapAll 0x01 bad), s)
  else
    let r := if b.slots.any fun x => Instr.delays x.instr then nearLoopEnd k b s else (false, s)
    if r.1 then (some (b.trapNone 0x03 cmask 0 0), r.2)
    else if b.transfer && age != 0 then (some (b.trapAll 0x03 cmask), r.2)
    else if staticOverlap b ≠ 0 then (some (b.trapAll 0x02 (staticOverlap b)), r.2)
    else (none, r.2)

/-! The slots of a bundle on a seat. -/

/-- A syllable that a masked retry names: as if its guard did not hold; a BRM takes no target (R270). -/
def maskedSlot : Instr → SlotOut
  | .brm _ => { ctl := .fall }
  | _ => {}

/-- One slot on seat k. -/
def evalSlot (x : Slot) (k : Nat) (s : State) : SlotOut :=
  if (s.ctx k).maskOnce.getLsbD x.idx then maskedSlot x.instr else slotOf x.instr k s

/-- A slot with what its advances meet in the descriptors of a later state. -/
def SlotOut.settle (s : State) (o : SlotOut) : SlotOut := { o with trap := o.trap.or (o.late s) }

/-- The slots on seat k: each reads the state before the bundle (R53), but HEAD is advanced from where a SIGSET of the
bundle puts it (R152). -/
def evalSlots (b : Fetched) (k : Nat) (s : State) : List (Nat × SlotOut) :=
  let os := b.slots.map fun x => (x.idx, evalSlot x k s)
  let s1 := os.foldl (fun s o => o.2.desc s) s
  os.map fun o => (o.1, o.2.settle s1)

/-- The control decision of a bundle: that of its C slot. -/
def ctlOf (os : List (Nat × SlotOut)) : Ctl :=
  match os with
  | [] => .next
  | o :: rest => if o.2.ctl = .next then ctlOf rest else o.2.ctl

def tollOf (os : List (Nat × SlotOut)) : Nat := 1 + (os.map fun o => o.2.toll).sum
def trafficOf (os : List (Nat × SlotOut)) : Nat := (os.map fun o => o.2.traffic).sum

/-- The scoreboard holds a slot (R58, R248). -/
def scoreHold (c : Ctx) (clk : Nat) (o : SlotOut) : Bool :=
  c.ready.any fun e => decide (clk < e.final) &&
    ((!e.use && (o.uses.contains e.res || o.defs.any fun d => d.1 == e.res)) ||
     (e.use && (o.retires.contains e.res || (o.defs.any fun d => d.1 == e.res) ||
       o.marks.any fun m => !m.2.1 && m.1 == e.res && m.1.isSample)))

/-! The merge of two seats (R61, R64). -/

def bankOf (unit : Nat) : Nat := unit % 16

/-- Syllables by class, C and CE together. -/
def classCounts (b : Fetched) : List (Nat × Nat) :=
  [0, 1, 2, 3, 4].map fun c => (c, (b.syll.filter fun w => classOf w.toNat == c).length)

def banksOf (os : List (Nat × SlotOut)) : List Nat := ((os.flatMap fun o => o.2.units).map bankOf).dedup

/-- The second vector unit is missing and the bundle has two V syllables (R64). -/
def splits (c : Core) (b : Fetched) : Bool :=
  c.slotmap.toNat / 2 ^ 6 % 4 == 3 && (b.syll.filter fun w => classOf w.toNat == 2).length ≥ 2

/-- The other seat of the core. -/
def otherSeat (k : Nat) : Nat := k / 2 * 2 + (1 - k % 2)

/-- What the other seat has issued in this cycle, or issues in its second cycle, leaves no room for the bundle. -/
def mergeHold (s : State) (b : Fetched) (k : Nat) (os : List (Nat × SlotOut)) : Bool :=
  (s.seat (otherSeat k)).split.isSome ||
  match (s.core (coreOf k)).issued with
  | none => false
  | some q =>
    q.seat != k && (q.split || splits (s.core (coreOf k)) b || (banksOf os).any q.banks.contains ||
      (classCounts b).any fun x => decide (classCount x.1 < x.2 + ((q.counts.find? fun y => y.1 == x.1).getD (0, 0)).2))

/-- The accesses of the copy engine in this cycle that occupy a bank which the bundle needs (R59). -/
def bankConflicts (s : State) (k : Nat) (os : List (Nat × SlotOut)) : List Nat :=
  (s.core (coreOf k)).busy.filter (banksOf os).contains

/-- Firmware gates the issue of M syllables on the die (R464). -/
def gateHold (s : State) (b : Fetched) (k : Nat) : Bool :=
  s.fw.gated.contains (dieOf k) && (b.syll.any fun w => classOf w.toNat == 3) && Config.gate s.cycle

/-- The hold of a seat's bundle, other than its barrier and bank conflicts with the copy engine. -/
def seatWait (s : State) (b : Fetched) (k : Nat) (os : List (Nat × SlotOut)) : Hold :=
  let c := s.ctx k
  let own := (os.any fun o => scoreHold c (s.clk k) o.2) || mergeHold s b k os || gateHold s b k ||
    (s.seat k).phase != .running || (s.seat k).split.isSome
  os.foldl (fun h o => h.join o.2.hold) (if own then .own else if c.wait.exam then .outside else .free)

/-- The hold of a seat's bundle, other than its barrier. -/
def seatHold (s : State) (b : Fetched) (k : Nat) (os : List (Nat × SlotOut)) : Hold :=
  (seatWait s b k os).join (if (bankConflicts s k os).isEmpty then .free else .own)

/-! Step 5 of R56 (R262). -/

def step5 (c : Ctx) (b : Fetched) (os : List (Nat × SlotOut)) : Option TrapIn :=
  let m := sampleOverlap c b
  if m ≠ 0 then some (b.trapAll 0x02 m)
  else
    let fs := os.filterMap fun o => o.2.trap.map (o.1, ·)
    match fs with
    | [] => none
    | f :: _ => some
        { code := f.2.code, mask := (fs.map fun x => 2 ^ x.1).sum, slots := fs.map fun x => (x.1, x.2.code.toNat)
          bundle := b.addr, detail0 := f.2.detail0, detail1 := f.2.detail1, syll := b.syll }

/-- The bundles that a CALL or a skipping LOOP must delimit (R79, R82): the address that follows them, or the
trap with the address of the bundle that fails. -/
def ahead (k : Nat) (b : Fetched) (ctl : Ctl) (s : State) : Except TrapIn Word × State :=
  let cmask := ((b.slots.filter fun x => Instr.transfer x.instr).map fun x => 2 ^ x.idx).sum
  let fail : Nat → Word → TrapIn := fun code a => b.trapNone code cmask a 0
  match ctl with
  | .call _ =>
    (match delimitAt k b.next s with
     | (.error e, s1) => (.error (fail e b.next), s1)
     | (.ok n, s1) =>
       let a := b.next + BitVec.ofNat 64 n
       match delimitAt k a s1 with
       | (.error e, s2) => (.error (fail e a), s2)
       | (.ok n2, s2) => (.ok (a + BitVec.ofNat 64 n2), s2))
  | .skip stop =>
    (match delimitAt k stop s with
     | (.error e, s1) => (.error (fail e stop), s1)
     | (.ok n, s1) => (.ok (stop + BitVec.ofNat 64 n), s1))
  | _ => (.ok b.next, s)

/-! Control flow (R75 to R85, R112). -/

/-- R81 on positions held innermost first. -/
def endRev (addr next : Word) : List Loop → Word × List Loop
  | [] => (next, [])
  | l :: ls =>
    if l.stop ≠ addr then (next, l :: ls)
    else if 1 < l.remaining.toNat then
      (l.start, { l with remaining := l.remaining - 1, index := l.index + 1 } :: ls)
    else endRev addr next ls

/-- Loop-end processing of a bundle at addr with the next address next. -/
def loopEnd (addr next : Word) (ls : List Loop) : Word × List Loop :=
  let r := endRev addr next ls.reverse
  (r.1, r.2.reverse)

/-- The pops of a taken BR, BRM or JR (R83). -/
def popLoops (t : Word) (ls : List Loop) : List Loop :=
  (ls.reverse.dropWhile fun l => t.toNat < l.start.toNat || l.stop.toNat < t.toNat).reverse

/-- The bundle is a pre-emption point of kind 1 or 2 (R101). -/
def isPoint (c : Ctx) (b : Fetched) (ctl : Ctl) : Bool :=
  let inner := fun (a : Word) => match c.pos.loops.getLast? with
    | some l => l.stop == a
    | none => false
  match ctl with
  | .point => true
  | .skip stop => inner stop
  | _ => inner b.addr

/-- The pending transfer that a bundle starts. -/
def newPend : Ctl → Option Pend
  | .jump t pops => some ⟨some t, 2, false, pops⟩
  | .call t => some ⟨some t, 2, false, false⟩
  | .fall => some ⟨none, 2, false, false⟩
  | .resume => some ⟨none, 2, true, false⟩
  | _ => none

/-- How long ago a transfer issued, in issue order, after this bundle (R76). -/
def newAge (b : Fetched) (old : Nat) : Nat := if b.transfer then 1 else if old = 1 then 2 else 0

/-- The position after a bundle has committed. after is the address that follows what the bundle delimits. -/
def flow (b : Fetched) (ctl : Ctl) (after : Word) (c : Ctx) : Ctx :=
  let p := c.pos
  let r := match ctl with
    | .skip stop => loopEnd stop after p.loops
    | .loop stop n => loopEnd b.addr b.next (p.loops ++ [({ start := b.next, stop := stop, remaining := n, index := 0 } : Loop)])
    | _ => loopEnd b.addr b.next p.loops
  let age := newAge b p.xferAge
  match p.pend with
  | none => { c with pos := { p with pc := r.1, loops := r.2, pend := newPend ctl, xferAge := age } }
  | some x =>
    if 1 < x.left then { c with pos := { p with pc := r.1, loops := r.2, pend := some { x with left := x.left - 1 }, xferAge := age } }
    else if x.ret then
      { c with pos := { p with pc := c.saved.pc, loops := c.saved.loops, pend := c.saved.pend, xferAge := c.saved.xferAge }
               maskOnce := c.saved.mask
               saved := {}
               bud.incont := false }
    else match x.target with
      | none => { c with pos := { p with pc := r.1, loops := r.2, pend := newPend ctl, xferAge := age } }
      | some t => { c with pos := { p with
          pc := t, loops := if x.pops then popLoops t r.2 else r.2, pend := none, xferAge := 0 } }

/-! Commit (R54, R95, R97, R99, R152). -/

/-- The scoreboard after a bundle: what is still open, then the results and uses of its slots. -/
def newReady (c : Ctx) (clk : Nat) (os : List (Nat × SlotOut)) : List Ready :=
  (c.ready.filter fun e => decide (clk < e.final)) ++
  (os.flatMap fun o => o.2.defs.map fun d => Ready.mk d.1 (clk + d.2) false) ++
  (os.flatMap fun o => o.2.marks.map fun m => Ready.mk m.1 (clk + m.2.2) m.2.1)

/-- A run count saturates (R70). -/
def addRun (r : BitVec 17) (n : Nat) : BitVec 17 := BitVec.ofNat 17 (min (r.toNat + n) 131071)

/-- The charges of a bundle. -/
def charge (toll traffic : Nat) (c : Ctx) : Ctx :=
  { c with
    bud.run := if c.due then addRun c.bud.run toll else 0
    bud.ibud := c.bud.ibud - BitVec.ofNat 48 toll
    bud.tbud := c.bud.tbud - BitVec.ofNat 48 traffic }

/-- The effects of the slots in the order of R152, and of one step in slot order. DESIGN CHOICE (log 111): a CSRW that
clears EVLOST comes after a SIGEV of its bundle that sets it, so that the clear stands. -/
def effects (os : List (Nat × SlotOut)) (s : State) : State :=
  let s1 := os.foldl (fun s o => o.2.write s) s
  let s2 := os.foldl (fun s o => o.2.desc s) s1
  let s3 := os.foldl (fun s o => o.2.tick s) s2
  os.foldl (fun s o => o.2.accept s) s3

/-- Cycles that a bundle adds before the next can issue: the bubble of R82. -/
def bubbleOf (ctl : Ctl) : Nat :=
  match ctl with
  | .skip _ => 2
  | _ => 0

/-- The record of a bundle in the core's cycle. -/
def issuedAs (b : Fetched) (os : List (Nat × SlotOut)) (k : Nat) (split : Bool) (old : Option Issued) : Issued :=
  { seat := k, counts := classCounts b, banks := banksOf os, split := split
    units := (os.flatMap fun o => o.2.units) ++ ((old.map Issued.units).getD []) }

/-- A bundle has used the core of seat k in this cycle; on the core of a fused follower the other seat meets it in
that core's next cycle (R307). -/
def useCore (b : Fetched) (os : List (Nat × SlotOut)) (k lead : Nat) (split : Bool) (s : State) : State :=
  s.updCore (coreOf k) fun x =>
    if coreOf k = coreOf lead then { x with issued := some (issuedAs b os k split x.issued) }
    else { x with lent := some (issuedAs b os k split none) }

/-- One member of a bundle commits; lead is the seat in whose turn it does. -/
def commitSeat (b : Fetched) (ctl : Ctl) (after : Word) (os : List (Nat × SlotOut)) (lead k : Nat) (s : State) :
    State :=
  let clk := s.clk k
  let clear := os.foldl (fun f o => f ||| o.2.clearFpst) 0
  let flags := os.foldl (fun f o => f ||| o.2.flags) 0
  let one := fun (c : Ctx) =>
    let c1 := { c with
      csr.fpst := (c.csr.fpst &&& ~~~clear) ||| flags
      ready := newReady c clk os
      wait := { remote := c.wait.remote, bubble := bubbleOf ctl, barriers := c.wait.barriers + bit (barReleased c) }
      maskOnce := 0 }
    let c2 := match ctl with
      | .call _ => c1.setS 62 after
      | _ => c1
    flow b ctl after (charge (tollOf os) (trafficOf os) c2)
  useCore b os k lead (splits (s.core (coreOf k)) b) ((effects os s).updCtx k one)

/-- The fusion state that a bundle leaves (R304, R309, R310). -/
def Ctl.fused (ctl : Ctl) (f : Fuse) : Fuse :=
  match ctl with
  | .fuse n => .fused n
  | .rejoin => .fused f.span
  | .decouple => .decoupled f.span
  | _ => f

/-- The members that run yield as one (R307). -/
def yieldBlock (ks : List Nat) (ycause : BitVec 2) (s : State) : State :=
  ks.foldl (fun s k => if (s.seat k).phase = .running then beginYield k ycause s else s) s

/-- What follows the commit of a bundle: the end of the step, or a yield (R93, R102, R105, R107, R307); incont is
INCONT once its pending transfer has been applied. -/
def afterCommit (ks : List Nat) (ctl : Ctl) (point incont : Bool) (s : State) : State :=
  match ctl with
  | .exit => ks.foldl (fun s k => exitMember k s) s
  | _ =>
    if incont then s
    else if point && ks.any fun k => (s.ctx k).due then yieldBlock ks 1 s
    else if ctl = .yield then yieldBlock ks 3 s
    else s

/-- Control and continuation state are the leader's, and every member of a fused block holds a copy (R306). -/
def Ctx.follow (lead c : Ctx) : Ctx :=
  { c with
    pos := { lead.pos with residue := c.pos.residue }
    saved := lead.saved
    bud.incont := lead.bud.incont
    csr.contpc := lead.csr.contpc }

/-- The followers of a fused block take the leader's copy. -/
def followLead (ks : List Nat) (s : State) : State :=
  let lead := s.ctx (ks.headD 0)
  if lead.fuse.isFused then (ks.drop 1).foldl (fun s k => s.updCtx k lead.follow) s else s

/-- Every member of a bundle commits. ev holds the slots of each member. -/
def commitBlock (b : Fetched) (ctl : Ctl) (after : Word) (ev : List (Nat × List (Nat × SlotOut))) (s : State) : State :=
  let ks := ev.map (·.1)
  let lead := s.ctx (ks.headD 0)
  let s1 := ev.foldl (fun s x => commitSeat b ctl after x.2 (ks.headD 0) x.1 s) s
  let s2 := ks.foldl (fun s k => s.updCtx k fun c => { c with fuse := ctl.fused c.fuse }) s1
  let s3 := followLead ks s2
  afterCommit ks ctl (isPoint lead b ctl) (s3.ctx (ks.headD 0)).bud.incont s3

/-! Split bundles (R64). -/

/-- The first of the two cycles of a split bundle: the seats keep what its slots read, and commit nothing. -/
def firstCycle (b : Fetched) (after : Word) (ev : List (Nat × List (Nat × SlotOut))) (s : State) : State :=
  let ks := ev.map (·.1)
  ev.foldl (fun s x =>
    useCore b x.2 x.1 (ks.headD 0) true (s.updSeat x.1 fun y => { y with
      split := some ⟨b.addr, b.syll, after, ks, y.ctx, (s.core (coreOf x.1)).line, s.chans, s.fab.proxies⟩
      ctx.bud.run := if y.ctx.due then addRun y.ctx.bud.run 1 else y.ctx.bud.run })) s

/-- A bundle that has passed every check commits, over two cycles where a vector unit is missing on a core. -/
def finish (b : Fetched) (ctl : Ctl) (after : Word) (ev : List (Nat × List (Nat × SlotOut))) (s : State) : State :=
  if ev.any fun x => splits (s.core (coreOf x.1)) b then firstCycle b after ev s else commitBlock b ctl after ev s

/-- The seat, its line memory, the channels and the proxies as its split bundle read them. -/
def readsOf (k : Nat) (s : State) : State :=
  match (s.seat k).split with
  | none => s
  | some x =>
    let s1 := (s.updCtx k fun _ => x.reads).updCore (coreOf k) fun c => { c with line := x.line }
    { s1 with chans := x.chans, fab.proxies := x.proxies }

/-- The second cycle: everything that the bundle does commits. -/
def secondCycle (k : Nat) (s : State) : State :=
  match (s.seat k).split with
  | none => s
  | some x =>
    match decodeBundle (x.syll.map BitVec.toNat) with
    | .error _ => s
    | .ok y =>
      let b : Fetched := ⟨x.addr, x.syll, y.slots⟩
      let old := x.group.foldl (fun s q => readsOf q s) s
      let ev := x.group.map fun q => (q, evalSlots b q old)
      commitBlock b (ctlOf ((ev.map (·.2)).headD [])) x.after ev
        (x.group.foldl (fun s q => s.updSeat q fun y => { y with split := none }) s)

/-! Traps of a block (R308). -/

/-- The faulting members record their causes, the others a fusion fault that names the lowest of them. -/
def trapBlock (b : Fetched) (ks : List Nat) (fs : List (Nat × TrapIn)) (s : State) : State :=
  let low := (fs.map fun f => s.memberNo f.1).foldl min 15
  (ks.filter fun k => (s.seat k).phase == .running).foldl (fun s k =>
    match fs.find? fun f => f.1 == k with
    | some f => takeTrap k f.2 s
    | none => takeTrap k (b.trapNone 0x11 0 0 (memberDetail low)) s) s

/-! Held bundles (R100 to R103, R155, R305). -/

/-- One held cycle of a seat: residue and toll, run count, the counts of the hold. DESIGN CHOICE (log 134): the held cycles
that R343 counts are consecutive cycles held on a sample or from outside, and what the seat is held on is asked when the
group is parked. -/
def stallSeat (h : Hold) (stuck : Bool) (send : Option Word) (taps : List Nat) (c : Ctx) : Ctx :=
  let full := c.pos.residue = 63
  { c with
    pos.residue := c.pos.residue + 1
    bud.run := if c.due then addRun c.bud.run 1 else 0
    bud.ibud := if full then c.bud.ibud - 1 else c.bud.ibud
    wait.tapCount := if h = .unfilled || c.wait.tapCount != 0 then c.wait.tapCount + 1 else 0
    wait.fuseCount := if h = .fuse then c.wait.fuseCount + 1 else 0
    wait.held := if h = .unfilled || h = .outside then c.wait.held + 1 else 0
    wait.stuck := stuck
    wait.sendReg := send
    wait.taps := taps }

/-- The sample of a result is awaited: its signal is engine-fed and has not filled it, or an SCACC is at work on it. -/
def openSample (c : Ctx) : Res → List (BitVec 7 × Int)
  | .sample n i =>
    let g := c.sg (BitVec.ofNat 7 n)
    if (g.feed != 0 && decide (i > g.fillMark)) || c.scaccBusy (BitVec.ofNat 7 n) then [(BitVec.ofNat 7 n, i)] else []
  | _ => []

/-- The samples that a slot awaits on engine-fed signals (R155, R266, R343). -/
def slotAwaits (b : Fetched) (c : Ctx) (o : Nat × SlotOut) : List (BitVec 7 × Int) :=
  (o.2.uses ++ o.2.retires ++ o.2.marks.map (·.1)).flatMap (openSample c) ++
    (if o.2.hold = .free then []
     else ((b.slots.filter fun x => x.idx == o.1).flatMap fun x => Instr.waitsFor c x.instr).filter fun x =>
       decide (x.2 > (c.sg x.1).fillMark))

/-- The samples that a bundle awaits on engine-fed signals. -/
def awaited (b : Fetched) (k : Nat) (os : List (Nat × SlotOut)) (s : State) : List (BitVec 7 × Int) :=
  os.flatMap (slotAwaits b (s.ctx k))

/-- The bundle is held on something that the deadlock detector counts: a CHSEND, WAITEV or CWAIT, an unfilled sample of an
engine-fed signal, a BAR (R364). -/
def isStuck (b : Fetched) (s : State) (k : Nat) (os : List (Nat × SlotOut)) : Bool :=
  let c := s.ctx k
  (os.any fun o => o.2.hold != .free && o.2.listed) ||
  ((awaited b k os s).any fun x => (c.sg x.1).feed != 0 && decide (x.2 > (c.sg x.1).fillMark)) ||
  (match c.wait.arrival with
    | some (.bar _ _ released _) => !released
    | some (.fuse _) => false
    | some .rejoin => false
    | none => false)

/-- The tap deadlock of a seat (R155, R263, R266): it marks the syllables that hold on unfilled samples, and names the
first of those samples. -/
def deadlockTrap (b : Fetched) (k : Nat) (os : List (Nat × SlotOut)) (s : State) : TrapIn :=
  let mask := ((os.filter fun o => o.2.hold == .unfilled).map fun o => 2 ^ o.1).sum
  let d := match os.flatMap fun o => slotAwaits b (s.ctx k) o ++ o.2.lacks with
    | x :: _ => sigDetail x.1 (some x.2)
    | [] => 0
  b.trapNone 0x0E mask 0 d

def overrunTrap (b : Fetched) : TrapIn := b.trapNone 0x09 0 0 0

/-- A FUSE hold that reaches TAPWAIT.LIMIT traps every arrived member of the block (R305). -/
def fuseExpire (k : Nat) (s : State) : State :=
  let st := s.stepKey k
  let m := s.memberNo k
  match (s.ctx k).wait.arrival with
  | some (.fuse n) => (blockOf n m).foldl (fun s j =>
      if arrivedAs s st (.fuse n) j then
        match memberSeat s st j with
        | some q => fuseTrapAt q j s
        | none => s
      else s) s
  | _ => s

/-- Charge a held cycle to every member that runs; the budgets of a trapped one stand still (R269). A hold of one member
holds its block (R306, R364). -/
def stallBlock (b : Fetched) (holds : List (Nat × Hold)) (ev : List (Nat × List (Nat × SlotOut))) (s : State) : State :=
  let stuck := ev.any fun x => isStuck b s x.1 x.2
  ev.foldl (fun s x =>
    let h := ((holds.find? fun y => y.1 == x.1).map (·.2)).getD .own
    let send := (x.2.filterMap fun o => o.2.sendReg).head?
    if (s.seat x.1).phase = .running then s.updCtx x.1 (stallSeat h stuck send (if h = .unfilled then
      (awaited b x.1 x.2 s).map fun y => y.1.toNat else [])) else s) s

/-- What the counts of a held bundle bring about: a deadlock, a yield at a point of kind 3, an overrun. -/
def holdOutcome (b : Fetched) (h : Hold) (holds : List (Nat × Hold)) (ev : List (Nat × List (Nat × SlotOut)))
    (s : State) : State :=
  let ks := ev.map (·.1)
  let dead := ev.filter fun x => ((holds.find? fun y => y.1 == x.1).map (·.2)) == some .unfilled &&
    decide ((s.ctx x.1).csr.tapwait.toNat ≤ (s.ctx x.1).wait.tapCount)
  let incont := (s.ctx (ks.headD 0)).bud.incont
  let late := ks.filter fun k => (s.ctx k).due && decide ((s.ctx k).bud.maxrun.toNat < (s.ctx k).bud.run.toNat)
  if !dead.isEmpty then trapBlock b ks (dead.map fun x => (x.1, deadlockTrap b x.1 x.2 s)) s
  else if h = .fuse && ks.any fun k => decide ((s.ctx k).csr.tapwait.toNat ≤ (s.ctx k).wait.fuseCount) then
    fuseExpire (ks.headD 0) s
  else if (h = .unfilled || h = .outside) && !incont && ks.any fun k => (s.ctx k).due then
    yieldBlock ks 1 s
  else if !late.isEmpty then trapBlock b ks (late.map fun k => (k, overrunTrap b)) s
  else s

/-- A held cycle of a bundle: what its holding slots do, the charges, what follows. -/
def heldCycle (b : Fetched) (h : Hold) (holds : List (Nat × Hold)) (ev : List (Nat × List (Nat × SlotOut)))
    (s : State) : State :=
  let s1 := (ev.flatMap (·.2)).foldl (fun s o => if o.2.hold = .free then s else o.2.onHold s) s
  holdOutcome b h holds ev (stallBlock b holds ev s1)

/-! The verdict on a bundle in a cycle. -/

inductive Verdict
  | fault (fs : List (Nat × TrapIn))
  | held (h : Hold) (holds : List (Nat × Hold))
  /-- a traffic shortfall yields (R103) -/
  | short
  /-- every check has passed -/
  | go (after : Word)

/-- Checks of R103 once step 5 has passed; no point is exempt in continuation code. -/
def budgetVerdict (b : Fetched) (ctl : Ctl) (after : Word) (ev : List (Nat × List (Nat × SlotOut))) (s : State) : Verdict :=
  let lead := s.ctx ((ev.map (·.1)).headD 0)
  let low := ev.filter fun x => decide ((s.ctx x.1).bud.tbud.toInt < (trafficOf x.2 : Nat))
  let point := isPoint lead b ctl
  let late := ev.filter fun x =>
    let c := s.ctx x.1
    c.due && (!point || c.bud.incont) && decide (c.bud.maxrun.toNat < c.bud.run.toNat + tollOf x.2)
  if !low.isEmpty then
    if lead.bud.incont then .fault (low.map fun x => (x.1, overrunTrap b)) else .short
  else if !late.isEmpty then .fault (late.map fun x => (x.1, overrunTrap b))
  else .go after

/-- A member meets others at FUSE or REJOIN: that is a hold, which R105 puts before step 5, and only the instruction's own
check comes before it (R304, R310). -/
def meets (os : List (Nat × SlotOut)) : Bool :=
  os.any fun o => o.2.trap.isNone && match o.2.ctl with
    | .fuse _ => true
    | .rejoin => true
    | _ => false

/-- Everything before the barrier: static checks, holds, step 5, budgets (R56, R105). DESIGN CHOICE (log 62): the bundles
that a CALL or a skipping LOOP delimits are checked between the last two. -/
def verdict (b : Fetched) (ks : List Nat) (ev : List (Nat × List (Nat × SlotOut))) (s : State) : Verdict × State :=
  let k := ks.headD 0
  let r := staticFault k b s
  match r.1 with
  | some t => (.fault (ks.map fun k => (k, t)), r.2)
  | none =>
    let holds := ev.map fun x => (x.1, seatHold s b x.1 x.2)
    let h := holds.foldl (fun h x => h.join x.2) .free
    if h ≠ .free then (.held h holds, r.2)
    else if meets ((ev.map (·.2)).headD []) then (.go b.next, r.2)
    else
      let fs := ev.filterMap fun x => (step5 (s.ctx x.1) b x.2).map (x.1, ·)
      if !fs.isEmpty then (.fault fs, r.2)
      else
        let ctl := ctlOf ((ev.map (·.2)).headD [])
        match ahead k b ctl r.2 with
        | (.error t, s1) => (.fault (ks.map fun k => (k, t)), s1)
        | (.ok after, s1) => (budgetVerdict b ctl after ev s1, s1)

/-! Barriers, FUSE and REJOIN once the checks have passed (R90, R304, R310). -/

/-- The barrier that a member's C slot names. -/
def barOf (os : List (Nat × SlotOut)) : Option (Nat × Nat) :=
  match ctlOf os with
  | .bar sc id => some (sc, id)
  | _ => none

/-- Every member with a barrier is released. -/
def barsFree (ev : List (Nat × List (Nat × SlotOut))) (s : State) : Bool :=
  ev.all fun x => (barOf x.2).isNone || barReleased (s.ctx x.1)

/-- A barrier hold: a point of kind 3 until a pod or sys barrier has been reported. -/
def barHold (ev : List (Nat × List (Nat × SlotOut))) (s : State) : Hold :=
  if ev.any fun x => barReported (s.ctx x.1) then .own else .outside

/-- Members wait at the barrier of the bundle. -/
def barCycle (b : Fetched) (ev : List (Nat × List (Nat × SlotOut))) (s : State) : State :=
  let h := barHold ev s
  heldCycle b h (ev.map fun x => (x.1, h)) ev s

/-- What a bundle commits on which members have met. -/
def Arrival.ctl : Arrival → Ctl
  | .bar sc id _ _ => .bar sc id
  | .fuse n => .fuse n
  | .rejoin => .rejoin

/-- What follows the hold of a member at FUSE or REJOIN: step 5 and the checks of R103 (R105). -/
def joinVerdict (b : Fetched) (a : Arrival) (s : State) (x : Nat × List (Nat × SlotOut)) : Verdict :=
  match step5 (s.ctx x.1) b x.2 with
  | some t => .fault [(x.1, t)]
  | none => budgetVerdict b a.ctl b.next [x] s

def Verdict.isGo : Verdict → Bool
  | .go _ => true
  | .fault _ => false
  | .held _ _ => false
  | .short => false

/-- A member that fails those checks traps or yields. -/
def joinFail (b : Fetched) (a : Arrival) (x : Nat × List (Nat × SlotOut)) (s : State) : State :=
  match joinVerdict b a s x with
  | .fault fs => trapBlock b [x.1] fs s
  | .short => yieldBlock [x.1] 2 s
  | .held _ _ => s
  | .go _ => s

/-- Every member of a block commits its FUSE or REJOIN once each has passed every check. DESIGN CHOICE (log 46): where one
traps or yields, the others, seat k among them, are held on. -/
def joinBlock (b : Fetched) (k : Nat) (a : Arrival) (st : Nat) (ms : List Nat) (h : Hold) (s : State) : State :=
  let ev := (ms.filterMap (memberSeat s st)).map fun q => (q, evalSlots b q s)
  let bad := ev.filter fun x => !(joinVerdict b a s x).isGo
  if bad.isEmpty then finish b a.ctl b.next ev s
  else
    let s1 := bad.foldl (fun s x => joinFail b a x s) s
    if bad.any fun x => x.1 == k then s1
    else heldCycle b h [(k, h)] (ev.filter fun x => x.1 == k) s1

/-- The members of a block trap. DESIGN CHOICE (log 115): DETAIL1.MEMBER of each names itself. -/
def clashBlock (st : Nat) (ms : List Nat) (s : State) : State :=
  (ms.filterMap fun j => (memberSeat s st j).map (·, j)).foldl (fun s x => fuseTrapAt x.1 x.2 s) s

/-- Cycles until the wired-AND line of a block has settled (R305). -/
def lineDelay (span : Nat) : Nat := if span ≤ 4 then 0 else 2

/-- A member alone or decoupled arrives at FUSE or REJOIN. -/
def meetAt (b : Fetched) (k : Nat) (a : Arrival) (span : Nat) (ev : List (Nat × List (Nat × SlotOut)))
    (h : Hold) (s : State) : State :=
  let st := s.stepKey k
  let s1 := s.updCtx k fun c => { c with wait.arrival := some a }
  match meet s1 st (s.memberNo k) span a with
  | .wait => heldCycle b h [(k, h)] ev s1
  | .join ms =>
    if lineDelay span = 0 then joinBlock b k a st ms h s1
    else heldCycle b h [(k, h)] ev (s1.updCtx k fun c => { c with wait.line := lineDelay span })
  | .clash ms => clashBlock st ms s1

/-- A held cycle at FUSE or REJOIN: the last arriver waits for the line to settle, then all commit. -/
def lineCycle (b : Fetched) (k : Nat) (a : Arrival) (span : Nat) (ev : List (Nat × List (Nat × SlotOut)))
    (h : Hold) (s : State) : State :=
  let st := s.stepKey k
  match (s.ctx k).wait.line with
  | 0 => heldCycle b h [(k, h)] ev s
  | n + 1 =>
    let s1 := s.updCtx k fun c => { c with wait.line := n }
    if n = 0 then
      match meet s1 st (s.memberNo k) span a with
      | .wait => heldCycle b h [(k, h)] ev s1
      | .join ms => joinBlock b k a st ms h s1
      | .clash ms => clashBlock st ms s1
    else heldCycle b h [(k, h)] ev s1

/-- The bundle has passed every check but its barrier. -/
def passBlock (b : Fetched) (after : Word) (ev : List (Nat × List (Nat × SlotOut))) (s : State) : State :=
  let ks := ev.map (·.1)
  let k := ks.headD 0
  match ctlOf ((ev.map (·.2)).headD []) with
  | .fuse n => meetAt b k (.fuse n) n ev .fuse s
  | .rejoin => meetAt b k .rejoin (s.ctx k).fuse.span ev .outside s
  | ctl =>
    let s1 := ev.foldl (fun s x => match barOf x.2 with
      | some (sc, id) => arriveBar x.1 sc id s
      | none => s) s
    if barsFree ev s1 then finish b ctl after ev s1 else barCycle b ev s1

/-- The members wait already: each one that the bundle sends to a barrier has arrived. One that a trap has withdrawn
arrives anew (R90, R270, R312). -/
def waiting (ev : List (Nat × List (Nat × SlotOut))) (s : State) : Bool :=
  (ev.any fun x => (s.ctx x.1).wait.arrival.isSome) &&
    ev.all fun x => (barOf x.2).isNone || (s.ctx x.1).wait.arrival.isSome

/-- The cycle of members that have arrived: a released barrier commits with no further check (R90). -/
def waitCycle (b : Fetched) (ev : List (Nat × List (Nat × SlotOut))) (s : State) : State :=
  let k := (ev.map (·.1)).headD 0
  match (s.ctx k).wait.arrival with
  | some (.fuse n) => lineCycle b k (.fuse n) n ev .fuse s
  | some .rejoin => lineCycle b k .rejoin (s.ctx k).fuse.span ev .outside s
  | _ =>
    if barsFree ev s then finish b (ctlOf ((ev.map (·.2)).headD [])) b.next ev s
    else barCycle b ev s

/-- A bundle that only bank conflicts with the copy engine hold waits one cycle for each of them (R59). -/
def bankDelay (b : Fetched) (ev : List (Nat × List (Nat × SlotOut))) (s : State) : State :=
  if ev.any fun x => seatWait s b x.1 x.2 != .free then s
  else ev.foldl (fun s x =>
    let more := (bankConflicts s x.1 x.2).drop 1
    if more.isEmpty then s else s.updCore (coreOf x.1) fun c => { c with later := c.later ++ more }) s

/-- The units that a trapping bundle has read (R144). -/
def meetUnits (ev : List (Nat × List (Nat × SlotOut))) (s : State) : State :=
  ev.foldl (fun s x => s.updCore (coreOf x.1) fun c => c.readUnits (x.2.flatMap fun o => o.2.units)) s

/-- One cycle of a bundle on the members ks, the leader first. -/
def issueBlock (b : Fetched) (ks : List Nat) (s : State) : State :=
  let ev := ks.map fun k => (k, evalSlots b k s)
  if waiting ev s then waitCycle b ev s
  else
    match verdict b ks ev s with
    | (.fault fs, s1) => trapBlock b ks fs (meetUnits ev s1)
    | (.held h holds, s1) => heldCycle b h holds ev (bankDelay b ev s1)
    | (.short, s1) => yieldBlock ks 2 s1
    | (.go after, s1) => passBlock b after ev s1

/-- The seats on which the bundle of seat k issues: its block while fused (R306). -/
def issueSeats (k : Nat) (s : State) : List Nat := if (s.ctx k).fuse.isFused then blockSeats s k else [k]

/-! Fetch. -/

/-- A trap of the fetch of the next bundle (R51, R77, R263). -/
def fetchTrap (addr : Word) : Fetch → TrapIn
  | .bundle _ => { code := 0, bundle := addr }
  | .noEnd ws => (⟨addr, ws.map (BitVec.ofNat 64), []⟩ : Fetched).trapAll 0x02 (2 ^ (ws.length - 1))
  | .untranslatable => { code := 0x0B, bundle := addr, detail0 := addr }
  | .poisoned g => { code := 0x0C, bundle := addr, detail0 := BitVec.ofNat 64 g }

/-- What stands at the next bundle address of a seat: a bundle whose slots are decoded, or a trap. -/
def nextBundle (k : Nat) (s : State) : Except TrapIn Fetched × State :=
  let a := (s.ctx k).pos.pc
  match fetch k a s with
  | (.bundle ws, s1) =>
    let sy := ws.map (BitVec.ofNat 64)
    (match decodeBundle ws with
     | .ok x => (.ok ⟨a, sy, x.slots⟩, s1)
     | .error f => (.error ((⟨a, sy, []⟩ : Fetched).trapAll f.code f.mask), s1))
  | (f, s1) => (.error (fetchTrap a f), s1)

/-- Fetch and issue on seat k. -/
def issueAt (k : Nat) (s : State) : State :=
  let ks := issueSeats k s
  match nextBundle (ks.headD k) s with
  | (.ok b, s1) => issueBlock b ks s1
  | (.error t, s1) => ks.foldl (fun s q => takeTrap q t s) s1

/-! A single instruction as a bundle of its own. -/

/-- The syllables of an instruction with E set in the last. -/
def sealWords : List Nat → List Word
  | [] => []
  | [w] => [BitVec.ofNat 64 (w + 2 ^ 63)]
  | w :: ws => BitVec.ofNat 64 w :: sealWords ws

/-- The bundle that holds the instruction alone at the next address of seat k. -/
def soloBundle (i : Instr) (k : Nat) (s : State) : Fetched := ⟨(s.ctx k).pos.pc, sealWords (encode i), [⟨0, i⟩]⟩

/-- An instruction issues on the current seat as a bundle of its own. -/
def issueOne (i : Instr) (s : State) : Out :=
  if (s.seat s.cur).phase = .running then
    .next (issueBlock (soloBundle i s.cur s) (issueSeats s.cur s) s)
  else .fault .seatIdle

/-! Steps of a held bundle. -/

/-- The bundle of a seat with the slots of its members, where one issues next. -/
def heldBundle (k : Nat) (s : State) : Option (Fetched × List (Nat × List (Nat × SlotOut))) × State :=
  if (s.seat k).phase != .running || (s.seat k).split.isSome then (none, s)
  else
    let ks := issueSeats k s
    match nextBundle (ks.headD k) s with
    | (.ok b, s1) => (some (b, ks.map fun q => (q, evalSlots b q s1)), s1)
    | (.error _, s1) => (none, s1)

/-- The bundle waits: it has arrived somewhere, or its verdict holds it. -/
def stillHeld (b : Fetched) (ev : List (Nat × List (Nat × SlotOut))) (s : State) : Bool :=
  let ks := ev.map (·.1)
  if waiting ev s then
    (match (s.ctx (ks.headD 0)).wait.arrival with
     | some (.bar _ _ _ _) => !barsFree ev s
     | some (.fuse _) => (s.ctx (ks.headD 0)).wait.line != 1
     | some .rejoin => (s.ctx (ks.headD 0)).wait.line != 1
     | none => !barsFree ev s)
  else match (verdict b ks ev s).1 with
    | .held _ _ => true
    | .fault _ => false
    | .short => false
    | .go _ => false

/-- A held bundle whose holds are late issues (R60, R105). -/
def heldBundleRelease (k : Nat) (s : State) : State :=
  match heldBundle k s with
  | (some (b, ev), s1) => if stillHeld b ev s1 then s else issueAt k s
  | (none, _) => s

/-- A seat released from its barrier commits its BAR (R90). -/
def barrierRelease (k : Nat) (s : State) : State :=
  if (s.seat k).phase == .running && barReleased (s.ctx k) then issueAt k s else s

/-- A stalled cycle of a held bundle is counted (R100). -/
def stallToll (k : Nat) (s : State) : State :=
  match heldBundle k s with
  | (some (b, ev), s1) => if stillHeld b ev s1 then issueAt k s else s
  | (none, _) => s

/-- The trap of a held bundle whose run count exceeds MAXRUN and that no yield ends (R103). -/
def maxrunOverrun (k : Nat) (s : State) : State :=
  match heldBundle k s with
  | (some (b, ev), s1) =>
    let ks := ev.map (·.1)
    let late := ks.filter fun q => (s1.ctx q).due && decide ((s1.ctx q).bud.maxrun.toNat < (s1.ctx q).bud.run.toNat)
    if stillHeld b ev s1 && !late.isEmpty then trapBlock b ks (late.map fun q => (q, overrunTrap b)) s1 else s
  | (none, _) => s

/-- The trap of a bundle that has waited TAPWAIT.LIMIT cycles and still holds on an unfilled sample (R155). -/
def tapDeadlock (k : Nat) (s : State) : State :=
  match heldBundle k s with
  | (some (b, ev), s1) =>
    let ks := ev.map (·.1)
    let dead := ev.filter fun x => seatHold s1 b x.1 x.2 == .unfilled &&
      decide ((s1.ctx x.1).csr.tapwait.toNat ≤ (s1.ctx x.1).wait.tapCount)
    if dead.isEmpty || waiting ev s1 then s else trapBlock b ks (dead.map fun x => (x.1, deadlockTrap b x.1 x.2 s1)) s1
  | (none, _) => s

def fuseTimeout (k : Nat) (s : State) : State :=
  let c := s.ctx k
  if (s.seat k).phase == .running && decide (c.csr.tapwait.toNat ≤ c.wait.fuseCount) then fuseExpire k s else s

end Sys2Proof.Machine
end

