-- ==== Sys2Proof/Machine/Streams.lean ====
section
/-!
DEFINITION. Geometry of the quads, mirrors and streams (R290 to R300).
-/
namespace Sys2Proof.Machine
open Sys2Proof

/-! Geometry. -/

/-- The neighbours of a core in the order in which a mirror looks at them (R290, R292). -/
def mirrorCores (c : Nat) : List Nat :=
  let q := c / 4 * 4
  let p := c % 4
  [q + (p ^^^ 1), q + (p ^^^ 2), q + (p ^^^ 3)] ++ (if 16 ≤ c then [c - 16] else []) ++ (if c < 48 then [c + 16] else [])

/-- The seat of the same number on a core of the die of seat k. -/
def seatOnCore (k c : Nat) : Nat := dieOf k * 128 + c * 2 + k % 2

/-! Connection. -/

def exportsOf (s : State) (k sig : Nat) : Nat :=
  ((s.die (dieOf k)).streams.filter fun x => x.src == k && x.sig == sig).length

/-- A seat that can be the source of signal n of mirror seat k (R292, R293). DESIGN CHOICE (log 121): a seat runs a member
while it is in no trap, drain or restore; the search passes over one that is. -/
def canExport (s : State) (k : Nat) (n : BitVec 7) (q : Nat) : Bool :=
  let g := (s.ctx q).sg n
  (s.seat q).phase == .running && (s.seat q).step.isSome && s.stepKey q == s.stepKey k && g.present && g.feed != 2 &&
    decide (exportsOf s q n.toNat < 3)

/-- The mirror has no stream. -/
def unconnected (s : State) (k : Nat) (n : BitVec 7) : Bool :=
  !((s.die (dieOf k)).streams.any fun x => x.dst == k && x.sig == n.toNat)

/-- The oldest live sample of a source, entry 0 of a table. -/
def oldestLive (g : Sig) : Int := if g.isTable then 0 else (g.head.toNat : Int) - g.depth.toNat + 1

def updStream (src dst sig : Nat) (f : Stream → Stream) (s : State) : State :=
  s.updDie (dieOf dst) fun d =>
    { d with streams := d.streams.map fun x => if x.src == src && x.dst == dst && x.sig == sig then f x else x }

/-- Samples below the source's oldest live one are filled at once, as poison, while permits last (R294). -/
def fillOld (src dst : Nat) (n : BitVec 7) : Nat → State → State
  | 0, s => s
  | f + 1, s =>
    let i := ((s.ctx dst).sg n).fillMark + 1
    match (s.die (dieOf dst)).streams.find? fun x => x.src == src && x.dst == dst && x.sig == n.toNat with
    | none => s
    | some x =>
      if i < oldestLive ((s.ctx src).sg n) && x.permits != 0 && x.carry.isNone then
        fillOld src dst n f (landStream x i.toNat (BitVec.allOnes 128)
          (updStream src dst n.toNat (fun x => { x with permits := x.permits - 1 }) s))
      else s

/-- Connect a mirror: all permits stand at the source side less those of the occupied slots (R294, R300). -/
def connectStream (src dst : Nat) (n : BitVec 7) (s : State) : State :=
  let g := (s.ctx dst).sg n
  let x : Stream := { src := src, dst := dst, sig := n.toNat, permits := (g.top - g.fillMark).toNat }
  fillOld src dst n g.slots (s.updDie (dieOf dst) fun d => { d with streams := d.streams ++ [x] })

/-- The member runs on a seat. -/
def memberRuns (s : State) (st m : Nat) : Bool := (memberSeat s st m).any fun k => (s.seat k).phase == .running

/-- A mirror without a source looks for one (R293). A source is held for samples that a mirror has not taken while either
is away (R299): no longer once the mirror has found a source, or both are back and none is found (R300). -/
def mirrorSourceSearch (k : Nat) (n : BitVec 7) (s : State) : State :=
  let g := (s.ctx k).sg n
  if (s.seat k).phase == .running && (s.seat k).step.isSome && g.present && g.feed == 2 && unconnected s k n then
    let st := s.stepKey k
    let drop := fun (p : Ghost → Bool) => dropGhosts (dieOf k) st (s.memberNo k) (fun y => y.sig == n.toNat && p y) s
    match ((mirrorCores (coreOf k % 64)).map (seatOnCore k)).find? (canExport s k n) with
    | some q => connectStream q k n (drop fun _ => true)
    | none => drop fun y => memberRuns s st y.src
  else s

/-- The mirrors of a seat. -/
def mirrorsOf (c : Ctx) : List (BitVec 7) :=
  (c.sig.table.filter fun e => e.2.present && e.2.feed == 2).map fun e => BitVec.ofNat 7 e.1

/-- Every mirror of a seat looks for its source. -/
def searchSeat (k : Nat) (s : State) : State := (mirrorsOf (s.ctx k)).foldl (fun s n => mirrorSourceSearch k n s) s

/-! Samples on the way (R294 to R297). -/

/-- The source's writes to a sample are final. -/
def sampleFinal (s : State) (k : Nat) (n : BitVec 7) (i : Int) : Bool :=
  !((s.ctx k).ready.any fun r => !r.use && r.res == .sample n.toNat i && decide (s.clk k < r.final))

/-- The next sample of a stream starts to travel. -/
def sendSample (x : Stream) (s : State) : State :=
  let n := BitVec.ofNat 7 x.sig
  let c := s.ctx x.src
  let g := c.sg n
  let i := ((s.ctx x.dst).sg n).fillMark + 1
  if x.frozen || x.carry.isSome || x.permits == 0 then s
  else if i < oldestLive g then fillOld x.src x.dst n ((s.ctx x.dst).sg n).slots s
  else if i > g.fillMark || !sampleFinal s x.src n i then s
  else
    let w := min g.width.toNat ((s.ctx x.dst).sg n).width.toNat
    let body := sourceUnits s x.src c ⟨n, g, 0, 0, i⟩ w
    updStream x.src x.dst x.sig (fun y =>
      { y with permits := y.permits - 1, carry := some i.toNat, units := body.1, poison := body.2 }) s

def streamSampleSend (d n : Nat) (s : State) : State :=
  match (s.die d).streams[n]? with
  | some x => sendSample x s
  | none => s

/-- The sample of a stream is whole in the mirror and counted. -/
def streamSampleArrival (d n : Nat) (s : State) : State :=
  match (s.die d).streams[n]? with
  | some x =>
    (match x.carry with
     | some i =>
       if x.frozen then s
       else landStream x i x.poison (updStream x.src x.dst x.sig (fun y =>
         { y with carry := none, units := [], poison := 0 }) s)
     | none => s)
  | none => s

end Sys2Proof.Machine
end

