-- ==== Sys2Proof/Machine/Cycle.lean ====
section
/-!
DEFINITION. What a cycle of a core holds around the issue of its seats: events, matrix results, asynchronous
causes, traps taken (R60, R61, R73, R82, R86 to R89, R126, R128, R244, R261, R267).
-/
namespace Sys2Proof.Machine
open Sys2Proof

/-! Events (R73, R87, R89). -/

def eventBit (e : BitVec 4) : BitVec 16 := (1 : BitVec 16) <<< e.toNat

/-- An event reaches its member: on a seat it latches, away it is kept with the context; one that finds no
such member is lost, and its sender hears of it. -/
def deliverEvent (e : EvMsg) (s : State) : State :=
  let x := s.step1 e.step
  let place := ((x.members[e.member]?).map fun m => m.place).getD .ended
  if !x.present || x.uid != e.uid then
    s.updMemberCtx (e.src / 16) (e.src % 16) fun c => { c with bud.evlost := true }
  else match place with
    | .onSeat k => s.updCtx k fun c => { c with
      csr.evpend := c.csr.evpend ||| eventBit e.ev, csr.evNew := c.csr.evNew ||| eventBit e.ev }
    | .away => s.updMember e.step e.member fun m =>
        { m with ctx.csr.evHeld := m.ctx.csr.evHeld ||| eventBit e.ev }
    | .unplaced => s.updMemberCtx (e.src / 16) (e.src % 16) fun c => { c with bud.evlost := true }
    | .ended => s.updMemberCtx (e.src / 16) (e.src % 16) fun c => { c with bud.evlost := true }

/-- The n-th event on its way latches. -/
def eventLatch (n : Nat) (s : State) : State :=
  match s.events[n]? with
  | some e => deliverEvent e { s with events := s.events.eraseIdx n }
  | none => s

/-- The events for a core's seats latch at the start of its cycle. -/
def latchCore (c : Nat) : Nat → State → State
  | 0, s => s
  | n + 1, s =>
    match takeFirst (fun (e : EvMsg) => ((memberSeat s e.step e.member).map coreOf) == some c) s.events with
    | some (e, rest) => latchCore c n (deliverEvent e { s with events := rest })
    | none => s

/-! Matrix results (R128, R244). -/

/-- The flags of the matrix results of a seat that are final by now. DESIGN CHOICE (log 90): before the bundle of the
cycle writes FPST. -/
def mResultFinal (k : Nat) (s : State) : State :=
  if (s.ctx k).mx.pend.isEmpty then s
  else
    let now := s.clk k
    s.updCtx k fun c =>
      { c with
        csr.fpst := (c.mx.pend.filter fun x => decide (x.final ≤ now)).foldl (fun f x => f ||| x.flags) c.csr.fpst
        mx.pend := c.mx.pend.filter fun x => decide (now < x.final) }

/-- Nothing that earlier bundles issued is pending (R258, R261, R274). -/
def quiet (c : Ctx) (clk : Nat) : Bool :=
  c.mx.pend.isEmpty && c.ready.all fun e => e.use || decide (e.final ≤ clk)

/-! Asynchronous causes (R267). -/

/-- The cause with the lowest code, and the others. -/
def lowestCause (cs : List Cause) : Option (Cause × List Cause) :=
  let low := cs.foldl (fun m x => min m x.code.toNat) 255
  takeFirst (fun x => x.code.toNat == low) cs

/-- A pending cause is taken at a bundle boundary; a bundle that a barrier has released, or that is between its two
cycles, commits first. -/
def takeAsync (k : Nat) (s : State) : State :=
  let c := s.ctx k
  if (s.seat k).phase != .running || barReleased c || (s.seat k).split.isSome then s
  else match lowestCause c.causes with
    | none => s
    | some (x, rest) =>
      takeTrap k { code := x.code, bundle := c.pos.pc, detail0 := x.detail0, detail1 := x.detail1, async := true }
        (s.updCtx k fun c => { c with causes := rest })

/-- A cause arrives at a seat (R267, R268). -/
def asynchronousCause (k : Nat) (x : Cause) (s : State) : State :=
  if (s.seat k).phase == .idle then s
  else takeAsync k (s.updCtx k fun c => { c with causes := c.causes ++ [x] })

/-! Taking a trap (R261). -/

/-- Once every pending result is final the record stands in the trap area and firmware is notified. -/
def takeTrapStep (k : Nat) (s : State) : State :=
  let s1 := mResultFinal k s
  if (s1.seat k).phase == .trapping && quiet (s1.ctx k) (s1.clk k) then
    s1.updSeat k fun x => { x with phase := .trapped, ctx := { x.ctx with ready := [] } }
  else s1

/-! A cycle of a core. -/

/-- The seats of a core, the primary one first (R61). -/
def coreSeats (c : Nat) (s : State) : List Nat :=
  let p := (s.core c).primary % 2
  [2 * c + p, 2 * c + (1 - p)]

/-- CYCLES of a seat that runs (R126). DESIGN CHOICE (log 89): counted before the bundle of the cycle reads it. -/
def countCycle (k : Nat) (s : State) : State :=
  if (s.seat k).phase = .running then s.updCtx k fun c => { c with csr.cycles := c.csr.cycles + 1 } else s

/-- A word of seat state that reads with an error (R268, R286, R287). -/
def meetFlip (k : Nat) (s : State) (f : Flip) : State :=
  let s1 := s.updCore (coreOf k) fun x => { x with cerr := x.cerr.count (f.hard && f.at' != .code) }
  if !f.hard then s1
  else match f.at' with
    | .state code => s1.updCtx k fun c => { c with causes := c.causes ++ [⟨0x14, BitVec.ofNat 64 code, 0⟩] }
    | .tile key => s1.updCtx k fun c => { c with mx.tilePoison := c.mx.tilePoison.set 0 key 3 }
    | .carry key => s1.updCtx k fun c => { c with mx.carryPoison := c.mx.carryPoison.set 0 key 3 }
    | .latch l key => s1.updCtx k fun c =>
        let x := c.latch l
        c.setLatch l { x with poison := x.poison.set 0 key 1 }
    | .code => s1
    | .buffer h n =>
      let mine := fun (a : Access) => a.seat == k && a.h == h && decide (a.elem ≤ n) && decide (n < a.elem + a.count)
      let s2 := { s1 with accs := s1.accs.map fun a => if mine a then { a with poison := true } else a }
      if s1.accs.any fun a => mine a && a.write then
        s2.updCtx k fun c => c.updHandle h.toNat fun x => { x with poison := true }
      else s2

/-- Every error of a seat that is not idle is met; a depot copy meets its own at the resume (R268, R286). -/
def meetFlips (k : Nat) (s : State) : State :=
  if (s.seat k).phase == .idle || (s.seat k).phase == .restoring || (s.ctx k).flips.isEmpty then s
  else ((s.ctx k).flips.foldl (meetFlip k) s).updCtx k fun c => { c with flips := [] }

/-- A sample that is to be readable in the next cycle is written in this one: where the copy engine occupies one of
its banks it is readable one cycle later (R59). -/
def delaySample (s : State) (k : Nat) (r : Ready) : Ready :=
  match r.res with
  | .sample n i =>
    let g := (s.ctx k).sg (BitVec.ofNat 7 n)
    let us := (List.range g.width.toNat).map fun u => s.unitOf k g (g.slotOf i) u % 16
    if !r.use && r.final == s.clk k + 1 && us.any (s.core (coreOf k)).busy.contains then { r with final := r.final + 1 }
    else r
  | _ => r

/-- Conflicts of pending samples with the copy engine. -/
def delaySamples (k : Nat) (s : State) : State :=
  if (s.core (coreOf k)).busy.isEmpty then s
  else s.updCtx k fun c => { c with ready := c.ready.map (delaySample s k) }

/-- A core enters its next cycle: what a fused member has issued on it meanwhile counts as issued in it (R307), and
the banks are occupied that the copy engine has used since (R59). -/
def Core.nextCycle (x : Core) : Core :=
  { x with clk := x.clk + 1, issued := x.lent, lent := none, busy := x.later ++ x.engBanks, later := [], engBanks := [] }

/-- What a seat does before its bundle issues: results, mirrors without a source (R293), errors, causes. -/
def seatStart (s : State) (k : Nat) : State :=
  takeAsync k (meetFlips k (searchSeat k (delaySamples k (mResultFinal k (countCycle k s)))))

/-- The start of a cycle: the clock, deferred messages, events, then the seats. -/
def cycleStart (c : Nat) (s : State) : State :=
  let s1 := (s.flush).updCore c Core.nextCycle
  let s2 := latchCore c s1.events.length s1
  (coreSeats c s2).foldl seatStart s2

/-- The member in whose turn a fused block issues: its first one that runs (R306, R307). -/
def driver (k : Nat) (s : State) : Nat :=
  ((issueSeats k s).find? fun q => (s.seat q).phase == .running).getD k

/-- A fused member issues with its block. -/
def follows (k : Nat) (s : State) : Bool := (s.ctx k).fuse.isFused && driver k s != k

/-- A bubble passes: no stall, but RUN counts it (R70, R82, R100). -/
def bubbleCycle (k : Nat) (s : State) : State :=
  s.updCtx k fun c =>
    { c with wait.bubble := c.wait.bubble - 1, bud.run := if c.due then addRun c.bud.run 1 else c.bud.run }

/-- What a seat does in a cycle. -/
inductive SeatTurn
  | nothing
  | bubble
  /-- the second cycle of a split bundle (R64) -/
  | second
  /-- another member of the block is trapped (R307) -/
  | stalled
  | issue
deriving DecidableEq, Repr

def seatTurn (k : Nat) (s : State) : SeatTurn :=
  match (s.seat k).split with
  | some x => if x.group.headD k = k then .second else .nothing
  | none =>
    if (s.seat k).phase != .running || follows k s then .nothing
    else if (issueSeats k s).any fun q => (s.seat q).phase != .running then .stalled
    else if (issueSeats k s).any fun q => (s.ctx q).wait.bubble != 0 then .bubble
    else .issue

/-- The instruction of a bundle that is one instruction and nothing else. -/
def Fetched.solo (b : Fetched) : Option Instr :=
  match b.slots with
  | [x] => if b.syll == sealWords (encode x.instr) && x.idx == 0 then some x.instr else none
  | _ => none

/-- The seat that leads the issue of seat k. -/
def issueLead (k : Nat) (s : State) : Nat := (issueSeats k s).headD k

/-- A fetch traps every member that issues. -/
def trapIssue (k : Nat) (t : TrapIn) (s : State) (s1 : State) : State :=
  (issueSeats k s).foldl (fun s q => takeTrap q t s) s1

/-- A bubble of seat k passes. -/
def bubbleTurn (k : Nat) (s : State) : State := (issueSeats k s).foldl (fun s q => bubbleCycle q s) s

/-- What holds a member of a block beside another one that is trapped: an unfilled sample, where its bundle would come to
that, counts on (R155). -/
def besideTrap (s : State) (b : Fetched) (x : Nat × List (Nat × SlotOut)) : Hold :=
  if (staticFault x.1 b s).1.isNone && seatHold s b x.1 x.2 == .unfilled then .unfilled else .own

/-- The members of a block that run count a stalled cycle while another one is trapped (R307). -/
def stalledTurn (k : Nat) (s : State) : State :=
  let r := nextBundle (issueLead k s) s
  let b : Fetched := match r.1 with
    | .ok b => b
    | .error _ => ⟨(s.ctx k).pos.pc, [], []⟩
  let ev := ((issueSeats k s).filter fun q => (s.seat q).phase == .running).map fun q => (q, evalSlots b q r.2)
  let holds := ev.map fun x => (x.1, besideTrap r.2 b x)
  holdOutcome b .own holds ev (stallBlock b holds ev r.2)

/-- A core leaves its cycle: errors of the units that it has touched are met (R144). -/
def Core.endCycle (x : Core) : Core :=
  match x.issued with
  | some i => { x.readUnits i.units with issued := none }
  | none => x

/-- An ALERT of a core is reported once (R289, R453). -/
def reportAlert (c : Nat) (s : State) : State :=
  let x := s.core c
  if x.cerr.alert = x.alerted then s
  else
    let s1 := s.updCore c fun y => { y with alerted := x.cerr.alert }
    if x.cerr.alert then coreEvent c s1 else s1

/-- The end of a cycle: events that latched for it can be cleared from now on (R73). -/
def cycleEnd (c : Nat) (s : State) : State :=
  (coreSeats c s).foldl (fun s k =>
    if (s.ctx k).csr.evNew = 0 then s else s.updCtx k fun x => { x with csr.evNew := 0 }) (settleChans (reportAlert c (s.updCore c Core.endCycle)))

end Sys2Proof.Machine
end

