-- ==== Sys2Proof/Machine/Traps.lean ====
section
/-!
DEFINITION. What firmware does with a trapped step (R264, R269 to R273, R308, R313, R314, R335), and recalls
(R104, R326).
-/
namespace Sys2Proof.Machine
open Sys2Proof

/-! Recalls. -/

/-- A recall reaches a seat that runs (R104): budget moves into the context, DUE follows. -/
def recallSeat (k : Nat) (s : State) : State :=
  if (s.seat k).phase = .running then
    s.updCtx k fun c => { c with
      bud.recalled := c.bud.recalled + BitVec.ofNat 48 c.bud.ibud.toInt.toNat
      bud.ibud := 0
      bud.recallBit := true
      bud.recallPend := true }
  else s

/-- The seats of a step. -/
def stepSeats (s : State) (st : Nat) : List Nat := (List.range (s.step1 st).members.length).filterMap (memberSeat s st)

/-- The steps of a task. -/
def taskSteps (s : State) (t : Nat) : List Nat := (s.steps.filter fun e => e.2.present && e.2.task == t).map (·.1)

/-- A step that shares its fate with its whole convoy (R326, R335). -/
def convoySteps (s : State) (st : Nat) : List Nat :=
  let t := (s.step1 st).task
  if (s.task t).wb.convoy = 0 then [st] else taskSteps s t

/-- A recall of a group recalls every member, and that of a group of a convoy the whole convoy (R326, R331). -/
def recallStep (st : Nat) (s : State) : State :=
  ((convoySteps s st).flatMap (stepSeats s)).foldl (fun s k => recallSeat k s) s

def recallAt (k : Nat) (s : State) : State :=
  if (s.seat k).phase = .running ∧ (s.seat k).step.isSome then recallStep (s.stepKey k) s else s

/-- A step that runs again on a core that firmware has retired, or in a partition that it is swapping out, is
recalled (R284, R289). -/
def recallHalted (k : Nat) (s : State) : State :=
  if (s.core (coreOf k)).retired || (s.part (s.partOf k)).swapped.getLsbD (dieOf k) then recallAt k s else s

/-! Dispositions (R264). -/

/-- What the host or firmware may do with a trapped seat. -/
inductive Dispose
  | retry
  | masked
  | finish
  | restart
deriving DecidableEq, Repr

/-- The dispositions of a cause; a fused bundle has no retry (R308). -/
def Dispose.allowed (d : Dispose) (code : Nat) (fused : Bool) : Bool :=
  match d with
  | .retry => !fused && [0x0B, 0x0E, 0x0F].contains code
  | .masked => !fused && code == 0x0F
  | .finish => true
  | .restart => true

def trapCode (c : Ctx) : Nat := c.trap.info.toNat % 256

/-- The seat has trapped in a fused bundle (R308): an async cause comes between bundles (R267). -/
def trapFused (c : Ctx) : Bool := c.fuse.isFused && !c.trap.info.getLsbD 8

/-- The causes that firmware may hold for the host. -/
def mayHold (code : Nat) : Bool := [0x0B, 0x0E, 0x0F, 0x12].contains code

/-! Ending commands and members (R271, R272). -/

/-- A LAUNCH, a WSEND or a near-memory command of the step has no final state yet. -/
def workOpen (s : State) (st : Nat) : Bool :=
  (List.range (s.step1 st).members.length).any fun m =>
    (s.memberCtx st m).eng.handles.any fun e => e.2.busy && [0x10, 0x12, 0x20, 0x21].contains e.2.opcode.toNat

/-- A member ends under R272: commands, bindings, streams. held is the faulted member of a convoy abort, whose share
and trap record stay for firmware (R314). -/
def stopMember (st : Nat) (held : Option Nat) (s : State) (m : Nat) : State :=
  let s1 := settleOwed st m (closeBindings st m (endCommands st m s))
  let s2 := forgetGhosts (st / 16384) st m s1
  match memberSeat s2 st m with
  | some k =>
    let c := s2.ctx k
    let seat := s2.seat k
    let s3 := dropStreams k s2
    (if held = some m && seat.phase.stuck then
      s3.setSeat k { phase := .shareHeld, origin := seat.origin, share := seat.share, ctx := { trap := c.trap } }
    else freeSeat k s3).updMember st m fun x =>
      { x with place := .ended, ctx := { c with wait := {}, causes := [] }, lastSeat := k }
  | none => s2.updMember st m fun x => { x with place := .ended, ctx := { x.ctx with causes := [] } }

/-- The members of a step that have not ended. -/
def liveMembers (s : State) (st : Nat) : List Nat :=
  ((s.step1 st).members.zipIdx.filter fun x => x.1.place != .ended).map (·.2)

/-- Every command of a step is ended (R271): what is not final then is waited for. -/
def cancelStep (s : State) (st : Nat) : State := (liveMembers s st).foldl (fun s m => cancelAll st m s) s

def stopMembers (st : Nat) (held : Option Nat) (s : State) : State := (liveMembers s st).foldl (stopMember st held) s

/-- A step is ended: its budget and, with its task, its weight return (R272, R336). -/
def endStep (st : Nat) (held : Option Nat) (s : State) : State :=
  dropRequests (st / 16384) (fun a => agentCode a == agentDepot && a / 16 / 16 == st) (retireStep st false (stopMembers st held s))

/-- Steps of a task that were never placed are placed no more; a budget carved for them returns (R336). -/
def dropUnplaced (t : Nat) (s : State) : State :=
  let x := s.task t
  let n := x.steps - x.next
  let back := match x.origin with
    | .host => s
    | .launch _ _ _ _ _ => returnBudget x.part x.origin (n * x.wb.ibud) (n * x.wb.tbud) s
    | .reserve _ _ _ => returnBudget x.part x.origin (n * x.wb.ibud) (n * x.wb.tbud) s
  if n = 0 then s
  else back.updTask t fun y => { y with next := y.steps, retired := y.retired + n }

/-! Convoy abort (R313). -/

/-- Every stream of a member completes as poison. -/
def poisonMember (s : State) (x : Nat × Nat) : State :=
  match memberSeat s x.1 x.2 with
  | some k => poisonStreams k s
  | none => s

/-- The abort arrives at a member: on a seat at its next boundary, else with its context. -/
def abortMember (bad : Nat) (s : State) (x : Nat × Nat) : State :=
  match memberSeat s x.1 x.2 with
  | some k => asynchronousCause k ⟨0x0D, 0, memberDetail bad⟩ s
  | none => s.updMember x.1 x.2 fun y => { y with ctx.causes := y.ctx.causes ++ [⟨0x0D, 0, memberDetail bad⟩] }

/-- The members that are placed and have not ended of some steps, but for one. -/
def otherMembers (s : State) (sts : List Nat) (st m : Nat) : List (Nat × Nat) :=
  (sts.flatMap fun g => ((s.step1 g).members.zipIdx.filter fun x =>
    x.1.place != .ended && x.1.place != .unplaced).map fun x => (g, x.2)).filter (· != (st, m))

/-- In one cycle every stream of the stopping members and of the faulted one completes as poison, and the abort
arrives at the others. It does so once for an end or a restart. -/
def convoyAbort (sts : List Nat) (st m : Nat) (s : State) : State :=
  if (s.step1 st).aborted then s
  else
    let others := otherMembers s sts st m
    let s1 := ((st, m) :: others).foldl poisonMember s
    if others.isEmpty then s1
    else (others.foldl (abortMember m) s1).updStep st fun x => { x with aborted := true }

/-- The status that a task keeps is that of its first ended step (R335). -/
def markTask (t status : Nat) (code : BitVec 8) (bundle : Word) (s : State) : State :=
  s.updTask t fun x => if x.status = 0 then { x with status := status, code := code, bundle := bundle } else x

/-- End a step because of its member m, and with it its whole convoy; it waits for the commands of the steps. The
flag tells that it is done. -/
def endFaulted (st m status : Nat) (code : BitVec 8) (bundle : Word) (s : State) : Bool × State :=
  let group := convoySteps s st
  let s1 := group.foldl cancelStep (convoyAbort group st m s)
  if group.any (workOpen s1) then (false, s1)
  else
    let t := (s1.step1 st).task
    let s2 := markTask t status code bundle s1
    let s3 := if (s2.task t).wb.convoy = 0 then s2 else dropUnplaced t s2
    let held := if (s3.step1 st).aborted then some m else none
    (true, (group.filter (· != st)).foldl (fun s g => endStep g none s) (endStep st held s3))

/-- End the step of a trapped seat. -/
def endTrapped (k : Nat) (s : State) : Bool × State :=
  let c := s.ctx k
  endFaulted (s.stepKey k) (s.memberNo k) 1 (BitVec.ofNat 8 (trapCode c)) c.trap.bundle s

/-! Restart (R271). -/

/-- What a restarted member keeps: its budgets with the recalled part, and TRAPCAUSE. -/
def restartCtx (c : Ctx) : Ctx :=
  { bud := { ibud := capAdd c.bud.ibud c.bud.recalled.toNat, tbud := c.bud.tbud }
    csr := { trapcause := c.csr.trapcause } }

/-- Enter the step again: it becomes ready as a fresh one. -/
def restartStep (k : Nat) (s : State) : Bool × State :=
  let st := s.stepKey k
  let m := s.memberNo k
  let s1 := cancelStep (convoyAbort [st] st m s) st
  if workOpen s1 st then (false, s1)
  else
    let held := if (s1.step1 st).aborted then some m else none
    let s2 := leavePod st (stopMembers st held s1)
    let again := fun (m : Member) => { m with place := .unplaced, ctx := restartCtx m.ctx, line := [], bad := [], spilled := none, written := {} }
    let s3 := s2.updStep st fun x =>
      { x with members := x.members.map again, restarts := x.restarts + 1, fresh := true, aborted := false }
    (true, readyStep st (s3.updTask (s3.step1 st).task fun t => { t with restarts := t.restarts + 1 }))

/-- Policy 01: restart a restartable step below the limit, else end it. The first flag tells that it restarted. -/
def mayRestart (k : Nat) (s : State) : Bool :=
  (s.waybill k).restart && decide ((s.step1 (s.stepKey k)).restarts < (s.part (s.partOf k)).restarts.toNat)

def restartOrEnd (k : Nat) (s : State) : Bool × State := if mayRestart k s then restartStep k s else endTrapped k s

/-! Policies (R269, R270). -/

/-- The access of a 0x0B trap: a fetch, else that of the command whose handle the record names. -/
def trapWant (c : Ctx) : Want :=
  if !c.trap.detail1.getLsbD 4 then .fetch
  else
    let op := (c.handle (c.trap.detail1.toNat % 16)).opcode
    if isCopyOp op && !isStoreOp op then .read else .write

/-- The address of a 0x0B trap translates now. -/
def resolvable (k : Nat) (s : State) : Bool × State :=
  let c := s.ctx k
  if trapCode c ≠ 0x0B then (true, s)
  else
    match nowXlate (dieOf k) (s.partOf k) c.trap.detail0 agentFw (trapWant c) s with
    | (some _, s1) => (true, s1)
    | (none, s1) => (false, s1)

/-- The seat continues after its trap, with what its budgets are owed (R269, R270). -/
def resumeTrapped (k : Nat) (mask : BitVec 8) (s : State) : State :=
  recallHalted k (retryTrap k mask (settleOwed (s.stepKey k) (s.memberNo k) s))

/-- The handle of a seat (R450). -/
def trapHandle (k : Nat) : Nat := dieOf k * 2 ^ 16 + k / 2 % 64 * 2 ^ 8 + k % 2

/-- The seat is held and reported (R269, R453). -/
def holdTrapped (k : Nat) (s : State) : State :=
  let c := s.ctx k
  (s.updSeat k fun x => { x with phase := .trapHeld }).post 2 (dieOf k) (s.partOf k)
    (leBytes 4 (trapHandle k) ++ leBytes 4 (trapCode c) ++ wordBytes c.trap.bundle ++ leBytes 4 (s.taskKey k % 4096))

/-- The policy that applies to a trap; in a fused bundle 11 acts as 01. -/
def trapPolicyOf (k : Nat) (s : State) : Nat :=
  let c := s.ctx k
  let p := (Sparse.get 0 (s.part (s.partOf k)).policies (trapCode c)).toNat
  if p = 3 ∧ trapFused c then 1 else p

/-- The member stops for another one, whose step or convoy firmware is ending or restarting. -/
def stopsForOther (k : Nat) (s : State) : Bool :=
  trapCode (s.ctx k) == 0x0D && (convoySteps s (s.stepKey k)).any fun st => (s.step1 st).aborted

/-- Firmware applies the partition's policy to a notified trap; a hold for a cause that allows none is refused, and
the step ends. Every trap in a fused bundle is held (R308). -/
def trapDisposition (k : Nat) (s : State) : State :=
  if (s.seat k).phase ≠ .trapped || stopsForOther k s then s
  else
    match trapPolicyOf k s with
    | 0 => (endTrapped k s).2
    | 2 => if mayHold (trapCode (s.ctx k)) || trapFused (s.ctx k) then holdTrapped k s else (endTrapped k s).2
    | 3 =>
      if Dispose.retry.allowed (trapCode (s.ctx k)) false then
        match resolvable k s with
        | (true, s1) => resumeTrapped k 0 s1
        | (false, s1) => (restartOrEnd k s1).2
      else (restartOrEnd k s).2
    | _ => (restartOrEnd k s).2

/-! The host's disposition of a held seat (R269, R452). -/

/-- The outcome of a firmware command: a status and a result once it is done. -/
abbrev CmdOut := Option (Nat × Word)

def doneWith (status : Nat) (r : Bool × State) : CmdOut × State := (if r.1 then some (status, 0) else none, r.2)

/-- Carry out a disposition on a held seat; a refused one ends the step with status 6. -/
def disposeHeld (k : Nat) (d : Dispose) (mask : BitVec 8) (patch : Option (List Byte)) (s : State) : CmdOut × State :=
  let c := s.ctx k
  if !d.allowed (trapCode c) (trapFused c) then doneWith 6 (endTrapped k s)
  else match d with
    | .finish => doneWith 0 (endTrapped k s)
    | .restart => if mayRestart k s then doneWith 0 (restartStep k s) else doneWith 6 (endTrapped k s)
    | .retry => (some (0, 0), resumeTrapped k 0 (match patch with
      | some bs => s.updCtx k (patchCtx bs)
      | none => s))
    | .masked => (some (0, 0), resumeTrapped k mask (match patch with
      | some bs => s.updCtx k (patchCtx bs)
      | none => s))

/-- Release a share that is held after a convoy abort (R314). -/
def releaseShare (k : Nat) (s : State) : Option State :=
  if (s.seat k).phase = .shareHeld then some (freeSeat k s) else none

end Sys2Proof.Machine
end

