-- ==== Sys2Proof/Machine/Yield.lean ====
section
/-!
DEFINITION. The yield, the save and the restore of a seat context (R102, R108 to R110, R237, R274 to R281, R299,
R361, R392).
-/
namespace Sys2Proof.Machine
open Sys2Proof

/-! Stage 3 (R274, R275). -/

/-- Latches are discarded (R239, R258). -/
def Ctx.dropLatches (c : Ctx) : Ctx := { c with mx.latch0 := {}, mx.latch1 := {}, mx.affineFree := 0, ready := [] }

/-- The yield is taken once every pending result is final: commands suspend, subscriptions and pulls close, streams
stop, the channels of the reader are marked away. -/
def yieldTaken (k : Nat) (s : State) : State :=
  let s1 := mResultFinal k s
  if (s1.seat k).phase == .draining && quiet (s1.ctx k) (s1.clk k) then
    let s2 := (List.range 16).foldl (fun s h => yieldHandle k h s) s1
    let s3 := markAway (s2.stepKey k) (s2.memberNo k) true (yieldStreams k s2)
    s3.updSeat k fun x => { x with phase := .saving, ctx := x.ctx.dropLatches }
  else s1

/-! Stages 4 and 5 (R274, R276, R280). -/

/-- No access of the seat is in flight, every command that has issued all of its elements has ended, and what was
written is visible in the package (R392). -/
def drained (k : Nat) (s : State) : Bool :=
  let c := s.ctx k
  !(s.accs.any fun a => a.seat == k) &&
  (c.eng.handles.all fun e => !isCopyOp e.2.opcode || (e.2.state != 1 && e.2.state != 4)) &&
  visibleAt s (dieOf k) c 3

/-- Size of the depot of a die in bytes. -/
abbrev depotSize := 50331648

/-- Members of the steps of a die whose contexts are kept away from a seat, with their partitions. -/
def keptMembers (s : State) (p : Nat → Bool) : List (Nat × Member) :=
  (s.steps.filter fun e => e.2.present && p e.1).flatMap fun e =>
    (e.2.members.filter fun m => m.place == .away).map fun m => ((s.task e.2.task).part, m)

/-- The context fits in the depot of its die, within the bytes of its partition (R280, R452). -/
def fitsDepot (s : State) (d p size : Nat) : Bool :=
  let inDepot := (keptMembers s fun st => st / 16384 == d).filter fun x => x.2.spilled.isNone
  let used := fun (xs : List (Nat × Member)) => (xs.map fun x => ctxSize x.2.share).sum
  decide (used inDepot + size ≤ depotSize) && decide (used (inDepot.filter fun x => x.1 == p) + size ≤ (s.part p).depotBytes)

/-- The lowest place of the overflow region at which a context fits beside those that are there. -/
def overflowPlace (s : State) (p size : Nat) : Option Nat :=
  let there := (keptMembers s fun _ => true).filterMap fun x =>
    if x.1 = p then x.2.spilled.map fun o => (o, ctxSize x.2.share) else none
  let free := fun (o : Nat) => decide (o + size ≤ (s.part p).overflowLen) &&
    there.all fun y => decide (o + size ≤ y.1) || decide (y.1 + y.2 ≤ o)
  ((0 :: there.map fun y => y.1 + y.2).filter free).foldl (fun b o => match b with
    | none => some o
    | some x => some (min x o)) none

/-- The share of a seat, from its origin. -/
def shareOf (k : Nat) (s : State) : Sparse UnitW :=
  let x := s.seat k
  ((s.core (coreOf k)).line.filter fun e => decide (x.origin ≤ e.1) && decide (e.1 < x.origin + x.share)).map fun e =>
    (e.1 - x.origin, e.2)

/-- The units of a share with an uncorrectable error. -/
def badOf (k : Nat) (s : State) : List Nat :=
  let x := s.seat k
  ((s.core (coreOf k)).lineBad.filter fun u => decide (x.origin ≤ u) && decide (u < x.origin + x.share)).map (· - x.origin)

/-- The context leaves the seat: near-memory commands that are open keep their order (R392). -/
def storeCtx (k : Nat) (place : Option Nat) (s : State) : State :=
  let s := meetFlips k s
  let st := s.stepKey k
  let m := s.memberNo k
  let c := s.ctx k
  let d := dieOf k
  let keep : FenceRec := ⟨c.eng.nextSeq, 3, .acquire, 0xFF, true⟩
  let c1 := if nearOpen s d st m c.eng.nextSeq 3 then { c with eng.fences := c.eng.fences ++ [keep] } else c
  let line := shareOf k s
  let bad := badOf k s
  let s := s.updCore (coreOf k) fun x => x.readUnits ((List.range (s.seat k).share).map ((s.seat k).origin + ·))
  let share := (s.seat k).share
  afterLeave st (freeSeat k (s.updMember st m fun x =>
    { x with
      place := .away, ctx := c1, line := line, bad := bad, lastSeat := k, share := share, spilled := place
      written := if place.isSome then c1 else {} }))

/-- Firmware ends a step one of whose contexts cannot be kept or brought back (R413), with its convoy (R335). -/
def endLost (st m : Nat) (s : State) : State := (endFaulted st m 1 0 0 s).2

/-- The depot engine's request for the member of a seat. -/
def depotRequest (k : Nat) (s : State) : Nat := request agentDepot (s.stepKey k * 16 + s.memberNo k)

/-- The context moves to the depot, or to the overflow region where it does not fit; with no room there either it
waits. -/
def contextSave (k : Nat) (s : State) : State :=
  if (s.seat k).phase ≠ .saving then s
  else
    let s1 := (List.range 16).foldl (fun s h => tryFinish (s.stepKey k) (s.memberNo k) h s) s
    let p := s1.partOf k
    let share := (s1.seat k).share
    if !drained k s1 then s1
    else if fitsDepot s1 (dieOf k) p (ctxSize share) then storeCtx k none s1
    else match overflowPlace s1 p (ctxSize share) with
      | none => s1
      | some o =>
        match s1.agentWrite (dieOf k) p (depotRequest k s1) ((s1.part p).overflow.toNat + o) (ctxBytes (s1.ctx k) (shareOf k s1) share) with
        | (.ok _, s2) => storeCtx k (some o) s2
        | (.wait, s2) => s2
        | (.fail, s2) => endLost (s2.stepKey k) (s2.memberNo k) s2

/-! The restore (R110, R281). -/

/-- Budgets at resume: the recalled part, then the grant; RUN ends with DUE. -/
def Ctx.regrant (c : Ctx) (i t : Nat) : Ctx :=
  let c1 := { c with
    bud.ibud := capAdd (capAdd c.bud.ibud c.bud.recalled.toNat) i
    bud.tbud := capAdd c.bud.tbud t
    bud.recalled := 0 }
  { c1 with bud.run := if c1.due then c1.bud.run else 0 }

/-- Events held while away are in EVPEND. -/
def Ctx.takeEvents (c : Ctx) : Ctx := { c with csr.evpend := c.csr.evpend ||| c.csr.evHeld, csr.evHeld := 0 }

/-- The continuation is entered, where one is declared. What a masked retry has masked belongs to the saved position
(R110, R270). -/
def Ctx.continueAt (c : Ctx) : Ctx :=
  if c.csr.contpc = 0 then c
  else
    { c with
      saved := { pc := c.pos.pc, loops := c.pos.loops, pend := c.pos.pend, xferAge := c.pos.xferAge, mask := c.maskOnce }
      maskOnce := 0
      pos := { c.pos with pc := c.csr.contpc, loops := [], pend := none, xferAge := 0 }
      bud.incont := true }

/-- The units of a saved share are in line memory again. -/
def loadShare (k : Nat) (m : Member) (s : State) : State :=
  let o := (s.seat k).origin
  let n := (s.seat k).share
  s.updCore (coreOf k) fun c =>
    { c with
      line := m.line.foldl (fun l e => l.set 0 (o + e.1) e.2) (c.line.clearRange o n)
      lineBad := (c.lineBad.filter fun u => !(decide (o ≤ u) && decide (u < o + n))) ++ m.bad.map (o + ·)
      lineSoft := c.lineSoft.filter fun u => !(decide (o ≤ u) && decide (u < o + n))
      lineMet := (c.lineMet.filter fun u => !(decide (o ≤ u) && decide (u < o + n))) ++ m.bad.map (o + ·) }

/-- The seat runs again: a kept cause is raised first, mirrors look for their sources. A depot copy with an
uncorrectable word is a cause of its own (R268); correctable ones are corrected. DESIGN CHOICE (log 120): the continuation
is entered before that cause is raised, so that the record's position is CONTPC. -/
def resumeSeat (k : Nat) (poisoned : Bool) (s : State) : State :=
  let st := s.stepKey k
  let mem := s.memberNo k
  let x := s.step1 st
  let m := (x.members[mem]?).getD {}
  let hard := poisoned || (s.ctx k).flips.any (·.hard)
  let why : List Cause := if hard then [⟨0x14, 9, 0⟩] else []
  let s0 := if hard then s.updCore (coreOf k) fun x => { x with cerr := x.cerr.count true } else s
  let s1 := (loadShare k m s0).updSeat k fun y =>
    { y with
      phase := .running
      ctx := ({ y.ctx with causes := y.ctx.causes ++ why, flips := [], wait := y.ctx.wait.leave } : Ctx).takeEvents.regrant x.grantI x.grantT |>.continueAt }
  let s2 := (resumeHandles k s1).updMember st mem fun y => { y with line := [], bad := [], spilled := none, written := {} }
  recallHalted k (searchSeat k (takeAsync k (markAway st mem false s2)))

/-- What was read from the overflow region is the context, with what has come to it since. -/
def takeBytes (k : Nat) (bs : List Byte) (share : Nat) (s : State) : State :=
  let m := ((s.step1 (s.stepKey k)).members[s.memberNo k]?).getD {}
  (s.updCtx k fun c => (loadCtx bs c).mergeSince m.written c).updMember (s.stepKey k) (s.memberNo k) fun m => { m with line := loadLine bs share }

/-- A placed context comes back from the depot or from the overflow region. -/
def contextRestore (k : Nat) (s : State) : State :=
  if (s.seat k).phase ≠ .restoring then s
  else
    let m := ((s.step1 (s.stepKey k)).members[s.memberNo k]?).getD {}
    match m.spilled with
    | none => resumeSeat k false s
    | some o =>
      let p := s.partOf k
      match s.agentRead (dieOf k) p (depotRequest k s) ((s.part p).overflow.toNat + o) (ctxSize m.share) with
      | (.ok (bs, bad), s1) => resumeSeat k bad (takeBytes k bs m.share s1)
      | (.wait, s1) => s1
      | (.fail, s1) => endLost (s1.stepKey k) (s1.memberNo k) s1

end Sys2Proof.Machine
end

