-- ==== Sys2Proof/Machine/Dispatcher.lean ====
section
/-!
DEFINITION. The dispatcher of a die: queues, slots, timetable, the taking of entries, candidates and placement
(R67, R316 to R334, R346, R360).
-/
namespace Sys2Proof.Machine
open Sys2Proof

/-! Slots and queues (R320 to R323). -/

def hwSlot (s : State) (d n : Nat) : HwSlot := (s.die d).slots.get {} n
def updSlot (d n : Nat) (f : HwSlot → HwSlot) (s : State) : State :=
  s.updDie d fun x => { x with slots := x.slots.set {} n (f (x.slots.get {} n)) }

/-- The mapped queue is empty (R323). -/
def Queue.empty (q : Queue) : Bool := q.tail == q.live

/-- Switch-out: TAKEN is written, MAPPED cleared (R320). DESIGN CHOICE (log 131): a queue that leaves with entries still
to take is pending, so that the scan finds it again. -/
def switchOut (d n : Nat) (s : State) : State :=
  match (hwSlot s d n).mapped with
  | none => s
  | some q =>
    let out := fun (y : Queue) => { y with out := y.live, mapped := false, pending := y.pending || !y.empty }
    putQueueRec q (updSlot d n (fun x => { x with mapped := none }) (s.updQueue q out))

/-- Switch-in: the pending bit clears, MAPPED is set (R323). -/
def switchIn (d n q : Nat) (s : State) : State :=
  putQueueRec q (updSlot d n (fun x => { x with mapped := some q, streak := 0 })
    (s.updQueue q fun y => { y with mapped := true, pending := false }))

/-- The next pending queue of the list in round-robin order. -/
def nextPending (s : State) (x : HwSlot) : Option Nat :=
  let order := match x.mapped with
    | some m => (x.queues.dropWhile (· != m)).drop 1 ++ x.queues.takeWhile (· != m)
    | none => x.queues
  order.find? fun q => (s.queue q).pending

/-- The two cases of R323. -/
def switchQueue (d n : Nat) (s : State) : State :=
  let x := hwSlot s d n
  if x.mapped.any fun m => !(s.queue m).empty && decide (x.streak < 16) then s
  else match nextPending s x with
    | some q => switchIn d n q (switchOut d n s)
    | none => s

/-- A doorbell write (R319, R320, R445): what the host has written before it is seen on the die (R321). -/
def doorbellTailWrite (d n : Nat) (t : BitVec 32) (s : State) : State :=
  let q := d * 65536 + n
  let x := s.queue q
  let s := if s.host.resetting then s else (s.wakeDie d).sync d
  if !x.present || s.host.resetting then s
  else if x.device || decide (x.size < (t - x.tail).toNat) || decide (x.size < (t - x.live).toNat) then
    queueError q x.part t.toNat (putQueueRec q (s.updQueue q fun y => { y with overrun := true }))
  else if x.mapped then s.updQueue q fun y => { y with tail := t }
  else putQueueRec q (s.updQueue q fun y => { y with tail := t, pending := true })

/-- What a PROGRESS read returns (R320). -/
def progressRead (s : State) (q : Nat) : BitVec 32 := if (s.queue q).mapped then (s.queue q).live else (s.queue q).taken

/-! The end of a fault (R411, R413). -/

/-- The queue records of a die whose update waits are written again: made, failed, or still waiting. -/
def retryRecords (d : Nat) (s : State) : State :=
  ((s.queues.filter fun e => e.1 / 65536 == d && e.2.present && e.2.recWait).map (·.1)).foldl (fun s q =>
    putQueueRec q s) s

/-- A fault ends: its waiters, then the queue records that wait. -/
def faultEnd (d : Nat) (id : BitVec 32) (retry : Bool) (s : State) : State := retryRecords d (endFault d id retry s)

/-- FTIMEOUT passes for the n-th open fault of a die; 0 sets no limit. -/
def faultTimeout (d n : Nat) (s : State) : State :=
  match (s.die d).faults[n]? with
  | some f => if (s.part f.part).ftimeout == 0 then s else faultEnd d f.id false s
  | none => s

/-! Taking an entry (R316, R329, R331, R336, R360). -/

def freeTask (s : State) (d : Nat) : Option Nat :=
  ((List.range 4096).find? fun t => !(s.task (d * 4096 + t)).present).map (d * 4096 + ·)

/-- The checks of R329 on the bytes of an entry of queue n: its status and the image. -/
def checkEntry (d n : Nat) (q : Queue) (bs : List Byte) (s : State) : XferRes (Nat × Sparse Sig) × State :=
  let w := parseWaybill bs
  if !waybillOk bs q.device then (.ok (3, []), s)
  else if 16 < w.share then (.ok (2, []), s)
  else
    match s.agentRead d q.part (dispRequest 3 n) w.table.toNat 4096 with
    | (.wait, s1) => (.wait, s1)
    | (.fail, s1) => (.ok (2, []), s1)
    | (.ok (b, bad), s1) =>
      if bad || !imageOk (parseImage b) (w.share * 2048) then (.ok (2, []), s1)
      else if w.convoy != 0 && decide (64 < w.count * w.size) then (.ok (4, []), s1)
      else (.ok (0, parseImage b), s1)

/-- The DONECH of a graph record, where it can be read. -/
def graphChan (d p : Nat) (g : Word) (s : State) : Option Nat :=
  if g == 0 then none
  else match (s.fwRead d p (g.toNat + 0x10) 4).1 with
    | some (bs, false) => if leNat bs / 2 ^ 31 = 1 then some (leNat bs / 2 ^ 12 % 4 * 4096 + leNat bs % 4096) else none
    | _ => none

/-- The budget limit of a member (R331). -/
abbrev budgetCap := 2 ^ 47 - 1

/-- What an entry that fails its checks gives back, and its trigger event (R336, R362). -/
def returnEntry (d p status : Nat) (o : Origin) (s : State) : State :=
  match o with
  | .host => s
  | .launch _ _ _ i t => returnBudget p o i t s
  | .reserve i t ch =>
    let s1 := addReserve p i t s
    match ch with
    | some c => s1.post 4 d p (leBytes 4 (c % 4096) ++ leBytes 4 status)
    | none => s1

/-- The entry at the live count becomes task t; one with a status completes at once. -/
def beginTask (d n q t : Nat) (bs : List Byte) (status : Nat) (image : Sparse Sig) (s : State) : State :=
  let x := s.queue q
  let w := parseWaybill bs
  let o := x.origins.get .host x.live.toNat
  let (num, s1) := nextOrder d s
  let past := fun (y : Queue) =>
    { y with live := y.live + 1, origins := y.origins.set .host y.live.toNat .host
             named := y.named.filter fun e => e.1 != y.live.toNat }
  let g := if w.graph.toNat % 64 = 0 then w.graph else 0
  let ch := graphChan d x.part g s1
  let task : Task :=
    { present := true, part := x.part, slot := n, queue := q, index := x.live, wb := { w with graph := g }, image := image
      steps := if status = 0 then w.count else 0, status := status, purse := w.purse, origin := o
      excessI := w.ibud - budgetCap, excessT := w.tbud - budgetCap, order := num, graphCh := ch }
  let s2 := nameDone q x.part bs ((s1.updQueue q past).updTask t fun _ => task)
  let s3 := match ch with
    | some c => setDevwriter c x.part s2
    | none => s2
  if status = 0 then s3 else checkTask t (returnEntry d x.part status o s3)

/-- Take the next entry of a queue: the task, where one has steps to place. -/
def takeEntry (d n q : Nat) (s : State) : Option Nat × State :=
  match freeTask s d with
  | none => (none, s)
  | some t =>
    let x := s.queue q
    match s.agentRead d x.part (dispRequest 2 q) (x.slotAddr x.live) 128 with
    | (.wait, s1) => (none, s1)
    | (.fail, s1) => (none, beginTask d n q t (List.replicate 128 0) 3 [] s1)
    | (.ok (_, true), s1) => (none, beginTask d n q t (List.replicate 128 0) 3 [] s1)
    | (.ok (bs, false), s1) =>
      match checkEntry d q x bs s1 with
      | (.ok (st, image), s2) => (if st = 0 then some t else none, beginTask d n q t bs st image s2)
      | (.wait, s2) => (none, s2)
      | (.fail, s2) => (none, s2)

/-! Candidates (R325). -/

/-- The dispatcher may place steps of a task. -/
def placeable (s : State) (t : Nat) : Bool :=
  let x := s.task t
  x.present && x.status != 5 && !(s.part x.part).swapped.getLsbD (t / 4096)

/-- The key with the lowest number. -/
def leastOf (xs : List (Nat × Nat)) : Option Nat :=
  (xs.foldl (fun b x => match b with
    | none => some x
    | some y => if x.1 < y.1 then some x else some y) (none : Option (Nat × Nat))).map (·.2)

/-- The ready step of a slot that became ready earliest. -/
def earliestReady (s : State) (d n : Nat) : Option Nat :=
  leastOf (s.steps.filterMap fun e => match e.2.ready with
    | some r => if e.2.present && e.1 / 16384 == d && placeable s e.2.task && (s.task e.2.task).slot == n
        then some (r, e.1) else none
    | none => none)

/-- The oldest task of a slot that has an unplaced step. -/
def oldestUnplaced (s : State) (d n : Nat) : Option Nat :=
  leastOf (s.tasks.filterMap fun e =>
    if e.1 / 4096 == d && placeable s e.1 && e.2.slot == n && decide (e.2.next < e.2.steps)
      then some (e.2.order, e.1) else none)

/-- The candidate of a slot, and whether an entry was taken for it. -/
def candidate (d n : Nat) (s : State) : Option (Cand × Bool) × State :=
  match earliestReady s d n, oldestUnplaced s d n with
  | some st, _ => (some (⟨(s.step1 st).task, some st⟩, false), s)
  | none, some t => (some (⟨t, none⟩, false), s)
  | none, none =>
    let s1 := switchQueue d n s
    match (hwSlot s1 d n).mapped with
    | none => (none, s1)
    | some q =>
      if (s1.queue q).empty || (s1.part (s1.queue q).part).swapped.getLsbD d then (none, s1)
      else
        match takeEntry d n q s1 with
        | (some t, s2) => (some (⟨t, none⟩, true), s2)
        | (none, s2) => (none, s2)

/-! Seats for a candidate (R332 to R334). -/

/-- Members to place together: those of a step record, or of a new step. -/
structure Group where
  step : Option Nat
  number : Nat
  members : List Nat
deriving DecidableEq, Repr

/-- The groups of a candidate; a convoy's first placement takes all of its steps (R334). -/
def groupsOf (s : State) (c : Cand) : List Group :=
  let t := s.task c.task
  let fresh := fun (j : Nat) => Group.mk none j (List.range t.wb.size)
  match c.step with
  | some st => [⟨some st, (s.step1 st).number, liveMembers s st⟩]
  | none => if t.wb.convoy = 0 then [fresh t.next] else (List.range (t.steps - t.next)).map fun i => fresh (t.next + i)

/-- The priority class of a task's slot. -/
def classOfTask (s : State) (t : Nat) : Nat := (hwSlot s (t / 4096) (s.task t).slot).cls.toNat

/-- The seat may be given to a candidate of a class (R326, R332, R334). DEDUCED (log 37): what a reservation keeps, after a
recall or for a waiting convoy, is seats. -/
def seatOpen (s : State) (c : Cand) (cls k : Nat) : Bool :=
  let d := s.die (dieOf k)
  let core := s.core (coreOf k)
  (s.seat k).phase == .idle && !core.retired && !core.failed &&
  (d.resv.all fun r => r.cand == c || !r.seats.contains k) &&
  match d.convoy with
  | some r => r.cand == c || decide (cls < r.cls) || !r.seats.contains k
  | none => true

/-- SEAT names the seat number of seat k. -/
def seatNamed (w : Waybill) (k : Nat) : Bool := w.seatSel == 2 || w.seatSel == k % 2

def openSeats (s : State) (d : Nat) (c : Cand) : List Nat :=
  let w := (s.task c.task).wb
  let cls := classOfTask s c.task
  ((List.range 128).map (d * 128 + ·)).filter fun k => seatNamed w k && seatOpen s c cls k

/-- The cores of the fusion shapes of a span, by member (R291). -/
def shapes (span : Nat) : List (List Nat) :=
  match span with
  | 1 => (List.range 64).map fun c => [c]
  | 2 => (List.range 32).map fun i => [2 * i, 2 * i + 1]
  | 4 => (List.range 16).map fun q => (List.range 4).map (4 * q + ·)
  | 8 => (List.range 8).map fun i => (List.range 8).map fun m => (i / 4 * 8 + i % 4 + m / 4 * 4) * 4 + m % 4
  | 16 => (List.range 4).map fun q => (List.range 16).map fun m => (q + m / 4 * 4) * 4 + m % 4
  | _ => []

/-- The core of seat k holds no fused member on its other seat; gone seats count as free. -/
def noFusedBeside (s : State) (gone : List Nat) (k : Nat) : Bool :=
  let o := k / 2 * 2 + (1 - k % 2)
  gone.contains o || (s.seat o).step.isNone || !(s.waybill o).fused

/-- The places of a fused group on the given seats: member and seat. -/
def fusedPlaces (s : State) (d : Nat) (w : Waybill) (seats gone : List Nat) (ms : List Nat) : List (List (Nat × Nat)) :=
  ((shapes w.size).flatMap fun cs => [0, 1].map fun j =>
    ms.map fun m => (m, d * 128 + cs.getD m 0 * 2 + j)).filter fun xs =>
      xs.all fun x => seats.contains x.2 && noFusedBeside s gone x.2

/-- The groups fit on the given seats. The shapes of a span are disjoint, and each takes one group. -/
def fitsOn (s : State) (d : Nat) (w : Waybill) (gs : List Group) (seats gone : List Nat) : Bool :=
  if w.fused then
    let n := ((fusedPlaces s d w seats gone ((gs.map (·.members)).headD [])).map fun xs =>
      (xs.map fun x => coreOf x.2)).dedup.length
    decide (gs.length ≤ n)
  else decide ((gs.map fun g => g.members.length).sum ≤ seats.length)

/-- A choice of the dispatcher among n. -/
def State.choose (s : State) (n : Nat) : Nat × State := (Config.choice s.freeCtr % max 1 n, s.bumpFree)

/-- Choose seats one after another. -/
def chooseSeats : Nat → List Nat → State → Option (List Nat × State)
  | 0, _, s => some ([], s)
  | n + 1, ks, s =>
    let (i, s1) := s.choose ks.length
    match ks[i]? with
    | none => none
    | some k => (chooseSeats n (ks.filter (· != k)) s1).map fun r => (k :: r.1, r.2)

/-- Seats for every group, or none. -/
def assignSeats (d : Nat) (w : Waybill) : List Group → List Nat → State → Option (List (Group × List (Nat × Nat)) × State)
  | [], _, s => some ([], s)
  | g :: gs, ks, s =>
    let pick : Option (List (Nat × Nat) × State) :=
      if w.fused then
        let os := fusedPlaces s d w ks [] g.members
        let (i, s1) := s.choose os.length
        (os[i]?).map fun xs => (xs, s1)
      else (chooseSeats g.members.length ks s).map fun r => (g.members.zip r.1, r.2)
    match pick with
    | none => none
    | some (xs, s1) =>
      let left := ks.filter fun k => !(xs.any fun x => if w.fused then coreOf x.2 == coreOf k else x.2 == k)
      (assignSeats d w gs left s1).map fun r => ((g, xs) :: r.1, r.2)

/-! Placement (R67, R325, R331, R332). -/

/-- The context at step entry (R67, R331). -/
def entryCtx (t : Task) (number m : Nat) (maxrun : BitVec 17) : Ctx :=
  let w := t.wb
  let index := fun (l : Nat) => number / (w.walk.take l).prod % w.walk.getD l 1
  let vals := w.params :: ((List.range 6).map fun l => BitVec.ofNat 64 (index l)) ++ [BitVec.ofNat 64 m]
  { regs := { s := vals.zipIdx.foldl (fun r x => r.set 0 (x.2 + 1) x.1) [] }
    pos := { pc := w.entry }
    bud := { ibud := BitVec.ofNat 48 (min w.ibud budgetCap), tbud := BitVec.ofNat 48 (min w.tbud budgetCap)
             toppriv := w.priv.getLsbD 0, maxrun := maxrun }
    csr := { member := BitVec.ofNat 4 m, groupsz := BitVec.ofNat 5 w.size }
    sig := { table := t.image } }

/-- A restarted member enters with the budgets that it kept (R271) and the grants of its placement (R325). -/
def reentryCtx (t : Task) (number m : Nat) (maxrun : BitVec 17) (i tr : Nat) (old : Ctx) : Ctx :=
  let c := entryCtx t number m maxrun
  ({ c with bud.ibud := old.bud.ibud, bud.tbud := old.bud.tbud, csr.trapcause := old.csr.trapcause } : Ctx).regrant i tr

/-- A member of a step record takes its seat. -/
def placeMember (st i tr m k : Nat) (s : State) : State :=
  let x := s.step1 st
  let t := s.task x.task
  let share := t.wb.share * 2048
  let maxrun := (hwSlot s (st / 16384) t.slot).maxrun
  let old := ((x.members[m]?).getD {}).ctx
  let ctx := if !x.fresh then old
    else if x.restarts = 0 then entryCtx t x.number m maxrun
    else reentryCtx t x.number m maxrun i tr old
  (s.setSeat k { phase := if x.fresh then .running else .restoring, step := some (st, m)
                 origin := if k % 2 = 0 then 0 else 65536 - share, share := share, ctx := ctx }).updMember st m fun y =>
    { y with place := .onSeat k, lastSeat := k, share := share, ctx := {} }

/-- Seat a comes before seat b as the primary one (R332). -/
def primaryOver (s : State) (a b : Nat) : Bool :=
  let key := fun (k : Nat) => (bit !(s.waybill k).fused, classOfTask s (s.taskKey k), (s.step1 (s.stepKey k)).placedAt, k)
  let x := key a
  let y := key b
  if x.1 != y.1 then decide (x.1 < y.1)
  else if x.2.1 != y.2.1 then decide (x.2.1 < y.2.1)
  else if x.2.2.1 != y.2.2.1 then decide (x.2.2.1 < y.2.2.1) else decide (x.2.2.2 ≤ y.2.2.2)

/-- The primary seat of a core after a placement. -/
def setPrimary (c : Nat) (s : State) : State :=
  let on := fun (k : Nat) => (s.seat k).step.isSome
  let p := if !on (2 * c + 1) then 0 else if !on (2 * c) then 1 else if primaryOver s (2 * c) (2 * c + 1) then 0 else 1
  s.updCore c fun x => { x with primary := p }

def freeStep (s : State) (d : Nat) : Option Nat :=
  ((List.range 16384).find? fun n => !(s.step1 (d * 16384 + n)).present).map (d * 16384 + ·)

/-- The record of a group: an existing one, or a new one for the next step of the task. -/
def stepRecord (d t : Nat) (g : Group) (s : State) : Option (Nat × State) :=
  match g.step with
  | some st => some (st, s)
  | none =>
    match freeStep s d with
    | none => none
    | some st =>
      let (u, s1) := nextOrder d s
      let x : Step := { present := true, uid := u + 1, task := t, number := g.number
                        members := List.replicate g.members.length {} }
      some (st, (s1.updStep st fun _ => x).updTask t fun y => { y with next := y.next + 1 })

/-- Place a group on its seats with the grants of the row. -/
def placeGroup (d t i tr : Nat) (s : State) (x : Group × List (Nat × Nat)) : State :=
  match stepRecord d t x.1 s with
  | none => s
  | some (st, s1) =>
    let (num, s2) := nextOrder d s1
    let s3 := x.2.foldl (fun s y => placeMember st i tr y.1 y.2 s) s2
    let s4 := s3.updStep st fun y =>
      { y with ready := none, placedAt := num, fresh := false, grantI := i, grantT := tr }
    (x.2.map fun y => coreOf y.2).foldl (fun s c => setPrimary c s) (recheckBars st s4)

/-- The oldest convoy of a list: the one whose task was taken first (R334). -/
def oldestConvoy (s : State) (rs : List Reserve) : Option Reserve :=
  rs.foldl (fun b r => match b with
    | none => some r
    | some x => if (s.task r.cand.task).order < (s.task x.cand.task).order then some r else some x) none

/-- A placed candidate gives up its reservation, and nobody keeps the seats that it took. The next oldest waiting
convoy reserves what frees from then on (R334). -/
def endReserve (d : Nat) (c : Cand) (ks : List Nat) (s : State) : State :=
  let less := fun (r : Reserve) => { r with seats := r.seats.filter fun k => !ks.contains k }
  let line := (s.die d).convoyLine.filter fun r => r.cand != c
  let own := ((s.die d).convoy.filter fun r => r.cand != c).map less
  let next := own.or (oldestConvoy s line)
  s.updDie d fun x =>
    { x with resv := (x.resv.filter fun r => r.cand != c).map less
             convoy := next
             convoyLine := line.filter fun r => next.all fun y => y.cand != r.cand }

/-- The step records that a candidate needs are free (R316). -/
def recordsFree (s : State) (d : Nat) (gs : List Group) : Bool :=
  let need := (gs.filter fun g => g.step.isNone).length
  need = 0 || decide ((s.steps.filter fun e => e.2.present && e.1 / 16384 == d).length + need ≤ 16384)

/-- Place a candidate, if it can be placed. -/
def place (d : Nat) (c : Cand) (i tr : Nat) (s : State) : Option State :=
  let gs := groupsOf s c
  if !recordsFree s d gs then none
  else match assignSeats d (s.task c.task).wb gs (openSeats s d c) s with
    | none => none
    | some (xs, s1) =>
      some (xs.foldl (placeGroup d c.task i tr) (endReserve d c (xs.flatMap fun x => x.2.map (·.2)) s1))

/-! Recalls and reservations (R326, R334). -/

/-- Every member of the steps of a recall unit that has a seat runs and is not recalled yet, or leaves its seat. -/
def recallable (s : State) (d : Nat) (sts : List Nat) : Bool :=
  sts.all fun st => st / 16384 == d && (liveMembers s st).all fun m =>
    match memberSeat s st m with
    | some k => ((s.seat k).phase == .running && !(s.ctx k).bud.recallPend) ||
        (s.seat k).phase == .draining || (s.seat k).phase == .saving
    | none => true

/-- Steps that may be recalled for a candidate of a class: lowest priority first, the latest placed first. -/
def victims (s : State) (d cls : Nat) : List Nat :=
  let xs := (s.steps.filter fun e => e.2.present && e.1 / 16384 == d && !(stepSeats s e.1).isEmpty &&
    decide (cls < classOfTask s e.2.task) && recallable s d (convoySteps s e.1)).map fun e =>
      (classOfTask s e.2.task * 2 ^ 64 + e.2.placedAt, e.1)
  (xs.mergeSort fun a b => decide (b.1 ≤ a.1)).map (·.2)

/-- Recall steps until the candidate fits; none where it never does. -/
def recallUntil (s : State) (d : Nat) (w : Waybill) (gs : List Group) (free : List Nat) :
    List Nat → List Nat → List Nat → Option (List Nat × List Nat)
  | [], _, _ => none
  | st :: more, picked, gone =>
    let ks := ((convoySteps s st).flatMap (stepSeats s)).filter fun k => !gone.contains k
    let g := gone ++ ks
    if fitsOn s d w gs (free ++ g.filter (seatNamed w)) g then some (st :: picked, g)
    else recallUntil s d w gs free more (st :: picked) g

/-- A convoy waits for cores: the oldest one takes over the reservation, the others stand in line (R334). -/
def reserveConvoy (d : Nat) (c : Cand) (i tr : Nat) (s : State) : State :=
  let mine : Reserve := ⟨c, classOfTask s c.task, [], i, tr⟩
  match (s.die d).convoy with
  | none => s.updDie d fun x => { x with convoy := some mine }
  | some r =>
    if r.cand == c || (s.die d).convoyLine.any fun y => y.cand == c then s
    else if (s.task c.task).order < (s.task r.cand.task).order then
      s.updDie d fun x => { x with convoy := some { mine with seats := r.seats }
                                   convoyLine := { r with seats := [] } :: x.convoyLine }
    else s.updDie d fun x => { x with convoyLine := x.convoyLine ++ [mine] }

/-- A candidate that cannot be placed for want of seats. -/
def wantSeats (d : Nat) (c : Cand) (i tr : Nat) (s : State) : State :=
  let w := (s.task c.task).wb
  let s1 := if w.convoy != 0 && c.step.isNone then reserveConvoy d c i tr s else s
  let gs := groupsOf s1 c
  let cls := classOfTask s1 c.task
  if !recordsFree s1 d gs || (s1.die d).resv.any fun r => r.cand == c then s1
  else match recallUntil s1 d w gs (openSeats s1 d c) (victims s1 d cls) [] [] with
    | none => s1
    | some (sts, ks) =>
      (sts.foldl (fun s st => recallStep st s) s1).updDie d fun x => { x with resv := x.resv ++ [⟨c, cls, ks, i, tr⟩] }

/-- A visit to the next row (R325); a die whose clocks are stopped makes none (R462). DESIGN CHOICE (log 132): the run of
16 placements of R323 counts those of waybills taken at the visit; one of a task taken before ends the run, and a
reserved placement or a visit that places nothing leaves it. -/
def timetableVisit (d : Nat) (s : State) : State :=
  let r := (s.die d).rows.get {} (s.die d).rowPtr
  let n := r.slot.toNat
  let s1 := s.updDie d fun x => { x with rowPtr := (x.rowPtr + 1) % 256 }
  let s1 := retryRecords d s1
  let h := hwSlot s1 d n
  if (s.die d).pstate != 0 then s
  else if !r.valid || !h.valid || r.part != h.part then s1
  else match candidate d n s1 with
    | (none, s2) => s2
    | (some (c, took), s2) =>
      match place d c r.grant.toNat r.tgrant.toNat s2 with
      | some s3 => updSlot d n (fun x => { x with streak := if took then x.streak + 1 else 0 }) s3
      | none => wantSeats d c r.grant.toNat r.tgrant.toNat s2

/-- The candidate of a reservation still waits. -/
def candWaits (s : State) (c : Cand) : Bool :=
  placeable s c.task && match c.step with
    | some st => (s.step1 st).present && (s.step1 st).ready.isSome
    | none => decide ((s.task c.task).next < (s.task c.task).steps)

/-- Place the candidate of a reservation, or drop a reservation whose candidate waits no more. -/
def placeReserved (d : Nat) (s : State) (r : Reserve) : State :=
  if !candWaits s r.cand then endReserve d r.cand [] s
  else if !(hwSlot s d (s.task r.cand.task).slot).valid then s
  else (place d r.cand r.grantI r.grantT s).getD s

/-- Seats recalled for a candidate are free (R326). -/
def reservedPlacement (d : Nat) (s : State) : State := (s.die d).resv.foldl (placeReserved d) s

/-- The seats kept for the oldest waiting convoy fit it (R334). -/
def convoyPlacement (d : Nat) (s : State) : State :=
  match (s.die d).convoy with
  | some r => placeReserved d s r
  | none => s

end Sys2Proof.Machine
end

