-- ==== Sys2Proof/Machine/Parking.lean ====
section
/-!
DEFINITION. The wait table, the return of graph weight, and trigger waybills (R337, R339, R343 to R346, R360, R362).
-/
namespace Sys2Proof.Machine
open Sys2Proof

/-! Parking (R343 to R346). -/

/-- The lowest awaited sample of each signal. -/
def lowestEach (xs : List (BitVec 7 × Int)) : List (Nat × Int) :=
  ((xs.map fun x => x.1.toNat).dedup).map fun n =>
    (n, ((xs.filter fun x => x.1.toNat == n).map (·.2)).foldl min (2 ^ 44 : Int))

/-- A slot holds on nothing but a WAITEV or unfilled samples of engine-fed signals. -/
def parkSlot (b : Fetched) (o : Nat × SlotOut) : Bool :=
  match o.2.hold with
  | .free => true
  | .unfilled => !o.2.other
  | .outside => b.slots.any fun x => x.idx == o.1 && Instr.eventMask x.instr != 0
  | .own => false
  | .fuse => false

/-- What a held member waits for, where it may be parked (R343 step 1). -/
def parkCond (k : Nat) (s : State) : Option ParkCond :=
  let c := s.ctx k
  match (heldBundle k s).1 with
  | none => none
  | some (b, ev) =>
    let os := ((ev.find? fun x => x.1 == k).map (·.2)).getD []
    let aw := awaited b k os s
    let mask := (b.slots.filter fun x => os.any fun o => o.1 == x.idx && o.2.hold == .outside).foldl
      (fun m x => m ||| Instr.eventMask x.instr) (0 : BitVec 16)
    if c.bud.incont || c.bud.recallPend || c.wait.arrival.isSome || !(os.all (parkSlot b)) ||
        (os.all fun o => o.2.hold == .free) || (os.any fun o => scoreHold c (s.clk k) o.2) ||
        aw.any fun x => (c.sg x.1).feed != 3 then none
    else some ⟨mask, lowestEach aw⟩

/-- A recorded sample is counted in the ring or in the cistern (R344). -/
def sampleThere (s : State) (st m : Nat) (x : Nat × Int) : Bool :=
  decide (x.2 ≤ ((s.memberCtx st m).sg (BitVec.ofNat 7 x.1)).fillMark) ||
  s.chans.any fun e => e.2.rbound && e.2.reader == some (st, m, x.1) &&
    e.2.spill.any fun y => decide ((y.k : Int) = x.2 + e.2.base)

/-- The condition of a member holds: an event, a sample, or a cause that waits for it (R344, R346). -/
def condHolds (s : State) (st m : Nat) (p : ParkCond) : Bool :=
  let c := s.memberCtx st m
  !c.causes.isEmpty || (c.csr.evpend ||| c.csr.evHeld) &&& p.mask != 0 || p.sigs.any (sampleThere s st m)

def anyHolds (s : State) (st : Nat) (ps : List ParkCond) : Bool :=
  ps.zipIdx.any fun p => condHolds s st p.2 p.1

/-- Parked steps of a die: the entries in use. -/
def parkedCount (s : State) (d : Nat) : Nat :=
  (s.steps.filter fun e => e.1 / 16384 == d && e.2.present && e.2.parked.isSome).length

/-- Every member of a step stands on a seat where it has been held for long enough: the conditions. -/
def parkConds (st : Nat) (s : State) : Option (List ParkCond) :=
  let x := s.step1 st
  let park := (hwSlot s (st / 16384) (s.task x.task).slot).park.toNat
  if !x.present || x.parked.isSome || park = 0 || x.members.isEmpty then none
  else (List.range x.members.length).mapM fun m =>
    match memberSeat s st m with
    | some k => if (s.seat k).phase = .running ∧ park * 64 ≤ (s.ctx k).wait.held then parkCond k s else none
    | none => none

/-- Park a group, or have it examine its conditions where the table is full (R343, R345). -/
def groupPark (d n : Nat) (s : State) : State :=
  let st := d * 16384 + n
  match parkConds st s with
  | none => s
  | some ps =>
    if anyHolds s st ps then s
    else if 512 ≤ parkedCount s d then
      (stepSeats s st).foldl (fun s k => s.updCtx k fun c => { c with wait.exam := true }) s
    else (stepSeats s st).foldl (fun s k => beginYield k 0 s) (s.updStep st fun x => { x with parked := some ps })

/-- A parked group whose condition holds becomes ready; one that has not left its seats yet becomes so when it
has (R344). -/
def groupWake (d n : Nat) (s : State) : State :=
  let st := d * 16384 + n
  let x := s.step1 st
  match x.parked with
  | none => s
  | some ps =>
    if !anyHolds s st ps then s
    else if noneOnSeat x then readyStep st (s.wakeDie d)
    else s.updStep st fun y => { y with parked := none }

/-- A held member examines its condition, and the dispatcher tries to park its group again (R345). -/
def waitExamination (k : Nat) (s : State) : State :=
  if !(s.ctx k).wait.exam then s
  else
    let free := s.updCtx k fun c => { c with wait.exam := false }
    match parkCond k s with
    | none => free
    | some p =>
      if condHolds s (s.stepKey k) (s.memberNo k) p then free
      else groupPark (dieOf k) (s.stepKey k % 16384) s

/-! Graphs (R337, R339). -/

/-- Set bits of STATE in the graph record of task t; the new value. -/
def orState (d p t g n : Nat) (s : State) : XferRes Nat × State := nearUpdate d p (dispRequest 4 t) (g + 0x14) 4 (· ||| n) s

/-- The message of a graph that is done (R339). DESIGN CHOICE (log 133): a DONECH that names no channel of the partition
gets none, and nothing is reported. -/
def sendGraph (d p g state : Nat) (s : State) : State :=
  match graphChan d p (BitVec.ofNat 64 g) s with
  | some ch => if (s.chan ch).state != 0 && (s.chan ch).part == p then sendDevice ch (leBytes 8 state) s else s
  | none => s

/-- The sum has come back: DONE where it equals ISSUED. -/
def graphSum (d p t g sum : Nat) (s : State) : State :=
  match nearRead d p (dispRequest 4 t) g 8 .read s with
  | (.ok x, s1) =>
    if x.2 ≠ sum then s1
    else match orState d p t g 1 s1 with
      | (.ok x, s2) => sendGraph d p g x s2
      | (.wait, s2) => s2
      | (.fail, s2) => s2
  | (_, s1) => s1

/-- The weight of the n-th task of a die whose completion is due returns; an add that fails leaves ERROR in the
record, where it can be written, and no message (R413). -/
def graphReturn (d n : Nat) (s : State) : State :=
  match (s.die d).returns[n]? with
  | none => s
  | some t =>
    let x := s.task t
    let g := x.wb.graph.toNat
    let fin := fun (s : State) => finishTask t (s.updDie d fun y => { y with returns := y.returns.eraseIdx n })
    let bad := fun (s : State) => match (s.fwRead d x.part (g + 0x14) 4) with
      | (some (bs, false), s1) => fin (s1.fwWrite d x.part (g + 0x14) (leBytes 4 (leNat bs ||| 2))).2
      | (_, s1) => fin s1
    let first := if x.status = 0 then (XferRes.ok 0, s) else orState d x.part t g 2 s
    match first with
    | (.wait, s1) => s1
    | (.fail, s1) => bad s1
    | (.ok _, s1) =>
      match nearAdd d x.part (dispRequest 4 t) (g + 8) x.purse s1 with
      | (.wait, s2) => s2
      | (.fail, s2) => bad s2
      | (.ok sum, s2) => fin (graphSum d x.part t g sum s2)

/-! Triggers (R362). -/

/-- A firing fails: the channel is armed again, the event goes out. -/
def trigFail (ch status : Nat) (s : State) : State :=
  (s.updChan ch fun x => { x with trigPending := false, trigEntry := none, armed := true }).post 4 (ch / 4096)
    (s.chan ch).part (leBytes 4 (ch % 4096) ++ leBytes 4 status)

/-- The budgets of an entry. -/
def entryBudget (bs : List Byte) : Nat × Nat :=
  let w := parseWaybill bs
  (w.ibud * w.count, w.tbud * w.count)

/-- Write the waybill of a firing into TQUEUE; a full ring waits. -/
def trigWrite (ch : Nat) (bs : List Byte) (s : State) : State :=
  let c := s.chan ch
  let q := ch / 4096 * 65536 + c.tqueue
  let x := s.queue q
  let b := entryBudget bs
  let fail := fun (s : State) => trigFail ch 7 (addReserve c.part b.1 b.2 s)
  if !x.present || !x.device || x.part != c.part then fail s
  else if x.reserved != 0 then s
  else match putEntry q bs (.reserve b.1 b.2 (some ch)) s with
    | (.wait, s1) => s1
    | (.fail, s1) => fail s1
    | (.ok _, s1) => s1.updChan ch fun y => { y with trigPending := false, trigEntry := none }

def triggerFire (d n : Nat) (s : State) : State :=
  let ch := d * 4096 + n
  let c := s.chan ch
  if !c.trigPending then s
  else match c.trigEntry with
    | some bs => trigWrite ch bs s
    | none =>
      match s.agentRead d c.part (dispRequest 6 ch) c.trig.toNat 128 with
      | (.wait, s1) => s1
      | (.fail, s1) => trigFail ch 3 s1
      | (.ok (_, true), s1) => trigFail ch 3 s1
      | (.ok (bs, false), s1) =>
        let e := patchBytes bs 0x60 (leBytes 8 0)
        match drawReserve c.part (entryBudget e).1 (entryBudget e).2 s1 with
        | none => trigFail ch 6 s1
        | some s2 => trigWrite ch e (s2.updChan ch fun y => { y with trigEntry := some e })

end Sys2Proof.Machine
end

