-- ==== Sys2Proof/Machine/Stacks.lean ====
section
/-!
DEFINITION. Memory stacks: requests, refresh, scrub and loss; spare cores (R289, R416 to R428).
-/
namespace Sys2Proof.Machine
open Sys2Proof

/-! STACKCFG and STACKERR (R423, R424). -/

def stackCfg (x : Stack) : Word :=
  BitVec.ofNat 64 (x.thresh.toNat * 2 ^ 28 + x.mint.toNat * 2 ^ 20 + x.scrub.toNat * 2 ^ 8 + bit x.predict)

/-- A write to STACKCFG; a field with a value outside its range keeps its value. -/
def writeStackCfg (v : Word) (x : Stack) : Stack :=
  let n := v.toNat
  let th := n / 2 ^ 28 % 2 ^ 12
  let mi := n / 2 ^ 20 % 256
  let sc := n / 2 ^ 8 % 256
  { x with
    thresh := if 256 ≤ th ∧ th ≤ 4094 then BitVec.ofNat 12 th else x.thresh
    mint := if 1 ≤ mi ∧ mi ≤ 50 then BitVec.ofNat 8 mi else x.mint
    scrub := if sc ≤ 168 then BitVec.ofNat 8 sc else x.scrub
    predict := n % 2 == 1 }

/-! Requests (R418, R419). -/

/-- Nothing that came before the n-th access of the package holds it. -/
def unblocked (s : State) (n : Nat) (b : Access) : Bool := !((s.accs.take n).any fun a => blocks a b)

/-- A class-0 request of the same port and stack can go. -/
def class0First (s : State) (b : Access) : Bool :=
  b.tcls != 0 && s.accs.zipIdx.any fun x =>
    x.1.tcls == 0 && x.1.phase == .waiting && dieOf x.1.seat == dieOf b.seat && unblocked s x.2 x.1 &&
    match x.1.target, b.target with
    | .dram p, .dram q => stackOf p == stackOf q
    | _, _ => false

/-- The n-th access is served next at its stack. -/
def stackServe (write : Bool) (n : Nat) (s : State) : State :=
  match s.accs[n]? with
  | none => s
  | some a =>
    match a.target with
    | .dram _ =>
      if a.write != write || a.phase != .waiting || !unblocked s n a || class0First s a then s
      else serveAcc n s
    | .host _ => s
    | .remote _ _ _ => s

def stackRead (n : Nat) (s : State) : State := stackServe false n s
def stackWrite (n : Nat) (s : State) : State := stackServe true n s

/-! Refresh (R420). -/

/-- A bank is refreshed: its row closes, and the requests that meet it are answered with a wait hint. -/
def bankRefresh (n pc bank : Nat) (hint : BitVec 6) (s : State) : State :=
  if hint = 0 || 40 < hint.toNat then s
  else
    let at' := fun (a : Access) => match a.target with
      | .dram pa => stackOf pa == n && (spotOf pa).pc == pc && (spotOf pa).bank == bank
      | .host _ => false
      | .remote _ _ _ => false
    let one := fun (a : Access) => if a.phase == .waiting && at' a then { a with phase := .retry hint.toNat } else a
    let s1 := closeRow n (pc * 64 + bank) false s
    { s1 with accs := s1.accs.map one }

/-- The hint of a retried access has passed. -/
def retryReissue (n : Nat) (s : State) : State :=
  { s with accs := modifyAt (fun (a : Access) => match a.phase with
      | .retry _ => { a with phase := .waiting }
      | _ => a) s.accs n }

/-- The base die precharges a row: an activation counter is read (R421, R422). -/
def rowPrecharge (n pc bank : Nat) (s : State) : State := closeRow n (pc * 64 + bank) false s
/-- A row has been open for 2 µs. -/
def rowOpenLimit (n pc bank : Nat) (s : State) : State := closeRow n (pc * 64 + bank) false s

/-! Scrub and loss (R426, R428). -/

/-- The patrol reads a granule of a stack. -/
def patrolScrub (n g : Nat) (s : State) : State :=
  if (s.stack n).scrub = 0 || 2 ^ 30 ≤ g then s
  else (homeRead (n * 2 ^ 30 + g) s).2.2.updStack n fun x => { x with scrubPos := (g + 1) % 2 ^ 30 }

def stackLost (n : Nat) (s : State) : State :=
  if 8 ≤ n || (s.stack n).lost then s
  else
    let s1 := s.updStack n fun x => { x with lost := true }
    stackEvent n { s1 with host.stackMask := s1.host.stackMask &&& ~~~((1 : BitVec 8) <<< n) }

/-! Cores (R63, R288, R289). -/

/-- A write to CERR: ALERT is cleared by writing 1. -/
def writeCerr (v : Word) (x : Cerr) : Cerr :=
  let th := v.toNat / 2 ^ 48 % 4096
  { x with thresh := if th = 0 then x.thresh else BitVec.ofNat 12 th, alert := x.alert && !v.getLsbD 47 }

/-- The SLOTMAP binds the slots to usable units (R63). -/
def slotmapOk (m : BitVec 32) : Bool :=
  let f := fun (i : Nat) => m.toNat / 4 ^ i % 4
  f 0 != 3 && f 1 != 3 && f 2 != 3 && f 0 != f 1 && f 2 != f 3

/-- A write to SLOTMAP: none after LOCK; a lock over an invalid map keeps the core in reset, and it is reported as
failed and waits for a spare. -/
def slotmapWrite (c : Nat) (v : BitVec 32) (s : State) : State :=
  if (s.core c).slotmap.getLsbD 8 then s
  else
    let m := v &&& 0x1FF
    let bad := m.getLsbD 8 && !slotmapOk m
    let s1 := s.updCore c fun x => { x with slotmap := m, failed := x.failed || bad, retired := x.retired || bad }
    if bad then coreEvent c s1 else s1

/-- No step is on a core. -/
def coreEmpty (s : State) (c : Nat) : Bool := (s.seat (2 * c)).phase == .idle && (s.seat (2 * c + 1)).phase == .idle

/-- A spare takes the logical number of a retired core that holds no step; with none left the core stays retired,
and the host hears of it. -/
def spareMap (c : Nat) (s : State) : State :=
  let x := s.core c
  let d := s.die (c / 64)
  if !x.retired || !coreEmpty s c || 256 ≤ c then s
  else if d.sparesLeft = 0 then
    if x.failed then s else coreEvent c (s.updCore c fun y => { y with failed := true })
  else
    (s.setCore c { clk := x.clk, slotmap := 0x144, phys := 68 - d.sparesLeft }).updDie (c / 64) fun y =>
      { y with sparesLeft := y.sparesLeft - 1 }

/-- Firmware retires a logical core and reports it (R289, R453): its steps are recalled. -/
def retireCore (c : Nat) (s : State) : State :=
  [2 * c, 2 * c + 1].foldl (fun s k => if (s.seat k).step.isSome then recallStep (s.stepKey k) s else s)
    (coreEvent c (s.updCore c fun x => { x with retired := true }))

end Sys2Proof.Machine
end

