-- ==== Sys2Proof/Machine/Fabric.lean ====
section
/-!
DEFINITION. Wayline: loss of packages, flows as they are received, the messages of DATA, WORK, EVENT and BULK, and
those of CONTROL (R474 to R495).
-/
namespace Sys2Proof.Machine
open Sys2Proof

/-- A fabric event of R493. -/
def fabricEvent (d sub port : Nat) (peer : BitVec 18) (target : Word) (s : State) : State :=
  s.post 10 d 0 (leBytes 1 sub ++ leBytes 1 port ++ leBytes 2 0 ++ leBytes 4 peer.toNat ++ leBytes 8 target.toNat)

/-! Seats that a channel fault ends (R365, R485, R492). -/

/-- A request about a remote channel waits for its reply. -/
def RemoteWait.awaits (r : Word) (w : RemoteWait) : Bool := w.reg == r && w.reply.isNone
/-- The member waits for a reply about a remote channel. -/
def awaitsReply (c : Ctx) (r : Word) : Bool := c.wait.remote.any (RemoteWait.awaits r)

/-- A member takes 0x12 about a remote channel, asynchronously and once. -/
def addFault (r : Word) (st m : Nat) (s : State) : State :=
  let why : Cause := ⟨0x12, r, 0⟩
  s.updMemberCtx st m fun c =>
    { c with causes := if c.causes.contains why then c.causes else c.causes ++ [why]
             wait.remote := c.wait.remote.filter fun w => !w.awaits r }

/-- A member held on a remote channel takes 0x12. -/
def faultMember (r : Word) (st m : Nat) (s : State) : State :=
  let c := s.memberCtx st m
  if c.wait.sendReg == some r || awaitsReply c r then addFault r st m s else s

/-- Every request and proxy of a remote channel fails (R480, R492). -/
def faultRemote (r : Word) (s : State) : State :=
  let who := (s.fab.proxies.filter fun p => p.reg == r).map (·.writer) ++
    (s.fab.reqs.filter fun q => awaitsReply (s.memberCtx q.step q.member) r).map fun q => (q.step, q.member)
  let s1 := who.dedup.foldl (fun s w => faultMember r w.1 w.2 s) s
  { s1 with fab.proxies := s1.fab.proxies.map fun p => if p.reg == r then { p with fault := true } else p }

/-! Accesses to other packages (R480, R481, R492). -/

/-- An access in flight ends without data: refused or lost. The units of a read hold undefined data and poison. -/
def refuseAccess (a : Access) (s : State) : State :=
  if a.write then
    endAccess a [] false (s.updCtx a.seat fun c => c.updCopy a.h.toNat fun p => { p with failed := true })
  else endAccess a (freeData s a.size) true { s with freeCtr := s.freeCtr + a.size }

/-- The translation of an access failed at its package (R481): trap 0x0B, with the handle failed. -/
def faultAccess (a : Access) (s : State) : State :=
  let p := (s.ctx a.seat).copy a.h.toNat
  failCopy (s.stepKey a.seat) (s.memberNo a.seat) a.h (p.accAddr a.elem)
    (s.updCtx a.seat fun c => c.updCopy a.h.toNat fun q => { q with flying := q.flying - a.count })

/-- The access that a tag and a package name. -/
def sentTo (pkg : BitVec 18) (tag : Option (BitVec 32)) (a : Access) : Bool :=
  match a.phase, a.target with
  | .sent t, .remote p _ _ => p == pkg.toNat && (tag.isNone || tag == some t)
  | _, _ => false

/-- The answer to a LAUNCH-like request reaches its handle (R488). -/
def onWorkHandle (q : Req) (f : Handle → Handle) (s : State) : State :=
  match q.kind with
  | .work h =>
    if (s.step1 q.step).present && (s.step1 q.step).uid == q.uid then
      s.updMemberCtx q.step q.member fun c => c.updHandle h.toNat f
    else s
  | .bind => s
  | .stat => s

def failHandle (h : Handle) : Handle := { h with state := 6 }

/-! Loss of a package (R491, R492). -/

/-- Packages with which a channel, a window or a flow is shared. -/
def sharers (s : State) : List (BitVec 18) :=
  let xs := s.fab.flows.map (·.peer) ++ (s.parts.flatMap fun e => windowPkgs s e.1) ++
    s.fab.proxies.map (fun p => regPkg p.reg) ++ ((s.chans.filter fun e => e.2.remote).map fun e => e.2.wpkg.setWidth 18)
  (xs.filter fun p => p != s.pkgid && !(s.peer p).lost).dedup

/-- Announce a loss, a reset or FATAL to those who share something (R491, R495). -/
def announce (reason : Nat) (pkg : BitVec 18) (s : State) : State :=
  (sharers s).foldl (fun s q =>
    if q = pkg && reason = 3 then s
    else s.send 0 2 0 7 q 0 0 0 (leBytes 4 reason ++ leBytes 4 pkg.toNat)) s

/-- What depends on a lost package ends (R492). DEDUCED (log 136): a writer binding of it is over, so that its channel can
be destroyed (R452). -/
def endPeer (pkg : BitVec 18) (s0 : State) : State :=
  let s := breakBars pkg s0
  let lostCh := s.chans.filter fun e => e.2.remote && e.2.wpkg.setWidth 18 == pkg
  let s1 := lostCh.foldl (fun s e => faultChan e.1 (s.updChan e.1 fun x =>
    { x with remote := false, writer := none, wbound := false, wpkg := 0, wpermits := x.wpermits + x.permOut, permOut := 0
             roomOut := 0 })) s
  let s1 := (lostCh.map fun e => e.2.part).dedup.foldl (fun s p => feedPool p s) s1
  let regs := ((s1.fab.proxies.map (·.reg)) ++ (s1.fab.reqs.filter fun q => q.pkg == pkg).flatMap fun q =>
    ((s1.memberCtx q.step q.member).wait.remote.map (·.reg))).dedup.filter fun r => regPkg r == pkg
  let s2 := regs.foldl (fun s r => faultRemote r s) s1
  let s3 := (s2.fab.reqs.filter fun q => q.pkg == pkg).foldl (fun s q => onWorkHandle q failHandle s) s2
  let gone := s3.accs.filter (sentTo pkg none)
  let s4 := gone.foldl (fun s a => refuseAccess a s) { s3 with accs := s3.accs.filter fun a => !sentTo pkg none a }
  let from' := fun (w : Wire) => endPkg w.src == pkg
  let to' := fun (w : Wire) => endPkg w.dst == pkg
  let asked := fun (a : Nat) => agentCode a == agentRemote && endPkg (BitVec.ofNat 20 (a / 16 / 2 ^ 32)) == pkg
  let s4 := (List.range 4).foldl (fun s d => dropRequests d asked s) s4
  { s4 with
    fab.reqs := s4.fab.reqs.filter fun q => q.pkg != pkg
    fab.flows := s4.fab.flows.filter fun f => f.peer != pkg
    fab.work := s4.fab.work.filter fun w => !from' w
    fab.waiting := s4.fab.waiting.filter fun w => !from' w
    fab.noPath := s4.fab.noPath.filter fun w => !to' w
    fab.deferred := s4.fab.deferred.filter fun x => !to' x.1
    agenda := s4.agenda.filter fun t => match t with
      | .message w => !(from' w && pkg != s4.pkgid)
      | .cycle _ => true
      | .event _ => true
      | .firmware => true }

/-- Firmware decides that a package is lost. -/
def packageLost (pkg : BitVec 18) (s : State) : State :=
  if pkg = s.pkgid || (s.peer pkg).lost then s
  else
    let s1 := announce 3 pkg (endPeer pkg (s.updPeer pkg fun p => { p with lost := true }))
    fabricEvent 0 3 0xFF pkg 0 s1

/-- A request or an access that was issued to a package after its loss. -/
def owesLost (s : State) : List (BitVec 18) :=
  let pkgs := (s.fab.peers.filter fun e => e.2.lost).map fun e => BitVec.ofNat 18 e.1
  pkgs.filter fun p => (s.fab.reqs.any fun q => q.pkg == p) || s.accs.any (sentTo p none)

/-- What is issued to a lost package ends as well (R492). -/
def endOwed (s : State) : State := (owesLost s).foldl (fun s p => endPeer p s) s

/-- The EPOCH that a package shows: a new one means that it was lost and is back (R491, R492). The flag tells that
its messages are taken. -/
def meetEpoch (pkg : BitVec 18) (e : BitVec 32) (s : State) : Bool × State :=
  if pkg = s.pkgid then (true, s)
  else match (s.peer pkg).epoch with
    | none => (true, s.updPeer pkg fun p => { p with epoch := some e })
    | some old =>
      if old = e then (!(s.peer pkg).lost, s)
      else
        let s1 := (packageLost pkg s).updPeer pkg fun p => { epoch := some e }
        (true, fabricEvent 0 4 0xFF pkg 0 s1)

/-! Layouts (R476, R495). -/

/-- The LENGTH of a response with data: 16 + BYTES of the request that it answers here. -/
def respFits (s : State) (w : Wire) (n : Nat) : Bool :=
  match s.accs.find? fun a => !a.write && sentTo (endPkg w.src) (some w.tag) a with
  | some a => endPkg w.dst != s.pkgid || n == 16 + a.size
  | none => 17 ≤ n && n ≤ 4112

/-- The message has a class and an OP of R495, and n is a LENGTH for them. -/
def Wire.lengthFits (s : State) (w : Wire) (n : Nat) : Bool :=
  match w.cls, w.op with
  | 0, 0 =>
    let c := s.chan (regKey w.target)
    n % 32 == 0 && 64 ≤ n && n ≤ 4128 &&
      (regPkg w.target != s.pkgid || c.state == 0 || n == 32 + 32 * c.width)
  | 0, 1 => n == 8
  | 1, 0 => n == 128
  | 2, 0 => n == 8
  | 2, 1 => n == 8
  | 2, 2 => n == 32
  | 3, 0 => n == 8
  | 3, 1 => if fieldAt w.payload 0 1 = 0 then respFits s w n else n == 16
  | 3, 2 => 9 ≤ n && n ≤ 4104
  | 3, 3 => n == 8
  | 4, 0 => n == 8
  | 4, 1 => n == 8
  | 4, 2 => n == 24
  | 4, 3 => n == 16
  | 4, 4 => n == 8
  | 4, 5 => n == 0
  | 4, 6 => n == 8
  | 4, 7 => n == 0
  | 4, 8 => n == 8
  | 4, 9 => n == 8
  | 4, 10 => n == 8
  | 4, 11 => n == 8
  | 4, 12 => 8 ≤ n && n == 8 + 8 * fieldAt w.payload 4 2
  | 4, 13 => n == 8
  | _, _ => false

def Wire.lengthOk (s : State) (w : Wire) : Bool := w.lengthFits s w.payload.length

/-! Refusals (R480, R482). -/

/-- Answer a message to its sender. -/
def answer (w : Wire) (cls op : Nat) (tcls : BitVec 3) (payload : List Byte) (s : State) : State :=
  s.send (endDie w.dst) cls op tcls (endPkg w.src) (endDie w.src) w.target w.tag payload

/-- The receiver's event and its notice to the sender's firmware. -/
def noteRefusal (w : Wire) (s : State) : State :=
  let s1 := fabricEvent (endDie w.dst) 5 0xFF (endPkg w.src) w.target s
  answer w 2 1 7 (leBytes 1 w.cls ++ leBytes 1 w.op ++ leBytes 2 0 ++ leBytes 4 w.flowseq.toNat) s1

/-- Some valid window of a partition has KIND 10, PKG = S and W = 1. -/
def admits (s : State) (p : Nat) (pkg : BitVec 18) : Bool :=
  (s.part p).windows.any fun e => e.2.v && e.2.kind == 2 && e.2.w && e.2.pkg == pkg

/-- The channel that a message names exists and admits its sender. -/
def chanAdmits (s : State) (w : Wire) : Bool :=
  let c := s.chan (regKey w.target)
  regPkg w.target == s.pkgid && c.state != 0 && admits s c.part (endPkg w.src)

/-- The sender holds the channel's writer binding. -/
def isWriter (s : State) (w : Wire) : Bool :=
  let c := s.chan (regKey w.target)
  regPkg w.target == s.pkgid && c.wbound && c.remote && c.wpkg == w.src.zeroExtend 32

/-- A DATA message that fails its checks: its sender hears of it by REFUSE (R351, R480, R495). -/
def failData (w : Wire) (s : State) : State :=
  answer { w with tag := 0 } 4 0x0D 0 (leBytes 1 w.cls ++ leBytes 1 w.op ++ leBytes 2 0 ++ leBytes 4 w.flowseq.toNat) s

/-- A DATA message passes checks 4 and 5 of R351 at the channel's die. -/
def dataOk (s : State) (w : Wire) : Bool :=
  chanAdmits s w && isWriter s w && (w.op == 1 || (s.chan (regKey w.target)).state == 1)

/-- A DATA message that is taken and fails its checks has no other effect. -/
def turnAway (w : Wire) (s : State) : State :=
  if w.cls != 0 || dataOk s w then s else if chanAdmits s w then failData w s else noteRefusal w (failData w s)

def tellFault (w : Wire) (s : State) : State := answer { w with tag := 0 } 4 8 0 (leBytes 8 3) s

/-! Flows at their destination (R478). -/

/-- Acknowledge the last number taken of a message's flow. -/
def sendAck (w : Wire) (seq : BitVec 32) (s : State) : State :=
  let t := BitVec.ofNat 64 (w.cls + (if w.cls = 4 then 0 else w.target.toNat * 256))
  s.send (endDie w.dst) 4 0 0 (endPkg w.src) (endDie w.src) t 0 (leBytes 4 seq.toNat ++ leBytes 4 0)

/-- The next number of an incoming flow. -/
def nextTaken (s : State) (w : Wire) : BitVec 32 :=
  ((s.fab.flows.find? fun f => f.hits false w.cls (endPkg w.src) w.key).map (·.next)).getD 0

/-- Take a message in its flow: the next number only, which is acknowledged, after the answer to a message that is
turned away. -/
def takeFlow (w : Wire) (s : State) : Bool × State :=
  let p := endPkg w.src
  if !w.ordered || p == s.pkgid then (true, s)
  else
    let e := nextTaken s w
    if w.flowseq = e then
      let flows := if s.fab.flows.any fun f => f.hits false w.cls p w.key then
          s.fab.flows.map fun f => if f.hits false w.cls p w.key then { f with next := e + 1 } else f
        else s.fab.flows ++ [⟨false, w.cls, p, w.key, 1, []⟩]
      (true, sendAck w e (turnAway w { s with fab.flows := flows }))
    else (false, s)

/-! DATA (R484, R485). -/

/-- A channel message reaches its die. One whose permit is void, or that finds no reader bound, is a spilled message from
then on; a permit of the current binding is held back as at a close (R352, R357, R358, R484). -/
def actMsg (w : Wire) (s : State) : State :=
  let ch := regKey w.target
  if !dataOk s w then s
  else
    let b := w.payload
    let ring := fieldAt b 8 1 = 0
    let binds := BitVec.ofNat 32 (fieldAt b 0x0C 4)
    let live := ring && binds == (s.chan ch).binds
    let keep := live && (s.chan ch).rbound
    let m : ChMsg := ⟨fieldAt b 0 8, binds, unitsOf (s.chan ch).width (b.drop 0x20), BitVec.ofNat 128 (fieldAt b 0x10 16),
      keep, none, false⟩
    let s1 := s.updChan ch fun x =>
      { x with
        sent := x.sent + 1, flight := x.flight ++ [m], spilling := x.spilling || !keep
        heldback := x.heldback + bit (live && !keep)
        permOut := if live then x.permOut - 1 else x.permOut
        roomOut := if ring then x.roomOut else x.roomOut - 1 }
    feedProxy ch (if (s1.chan ch).rbound then s1 else armTrigger ch s1)

/-- The writer's close; permits that stood at the proxy are back, and its room. -/
def actClose (w : Wire) (s : State) : State :=
  let ch := regKey w.target
  if !dataOk s w then s
  else feedPool (s.chan ch).part (closeWriter ch (s.updChan ch fun x =>
    { x with wpermits := x.wpermits + x.permOut, permOut := 0, roomOut := 0 }))

/-! WORK (R486 to R489). -/

def workReply (w : Wire) (status k : Nat) (s : State) : State :=
  answer w 4 0x0B 0 (leBytes 4 status ++ leBytes 4 k) s

/-- The waybill of a WORK message is written, waits for room, or is refused; the flag tells that it waits. -/
def writeWork (w : Wire) (s : State) : Bool × State :=
  let q := w.target.toNat / 2 ^ 16 % 4 * 65536 + w.target.toNat % 65536
  let x := s.queue q
  let refuse := fun (s : State) => (false, noteRefusal w (workReply w 1 0 s))
  if !x.present || !x.device || !admits s x.part (endPkg w.src) then refuse s
  else if x.reserved != 0 || x.full then (true, s)
  else
    let bs := patchBytes w.payload 0x60 (leBytes 8 0)
    let b := entryBudget bs
    match drawReserve x.part b.1 b.2 s with
    | none => refuse s
    | some s1 =>
      match putEntry q bs (.reserve b.1 b.2 none) s1 with
      | (.ok k, s2) => (false, workReply w 0 k s2)
      | (.wait, s2) => (true, addReserve x.part b.1 b.2 s2)
      | (.fail, s2) => refuse (addReserve x.part b.1 b.2 s2)

/-- Waiting WORK messages of a die are written as entries free, in order for each queue. -/
def pumpWork (d : Nat) (s : State) : State :=
  let mine := s.fab.work.filter fun w => endDie w.dst == d
  (mine.foldl (fun (a : List Word × State) w =>
    if a.1.contains w.target then a
    else match writeWork w { a.2 with fab.work := a.2.fab.work.erase w } with
      | (true, s1) => (a.1 ++ [w.target], { s1 with fab.work := a.2.fab.work })
      | (false, s1) => (a.1, s1)) ([], s)).2

def actWaybill (w : Wire) (s : State) : State :=
  if s.fab.work.any fun x => x.target == w.target then { s with fab.work := s.fab.work ++ [w] }
  else match writeWork w s with
    | (true, s1) => { s1 with fab.work := s1.fab.work ++ [w] }
    | (false, s1) => s1

/-- The message would wait. -/
def mustWait (s : State) (w : Wire) : Bool := (s.fab.work.any fun x => x.target == w.target) || (writeWork w s).1

/-- A WORK message of another package has to wait, and the WORK buffer of its die is full (R489). One of this package
waits past the buffer, as its flow keeps it. -/
def workFull (s : State) (w : Wire) : Bool :=
  w.cls == 1 && endPkg w.src != s.pkgid &&
    decide (1024 ≤ (s.fab.work.filter fun x => endDie x.dst == endDie w.dst).length) && mustWait s w

/-! EVENT (R482, R491). -/

/-- A peer that resets or has set FATAL is lost; what a peer says of others decides nothing here. -/
def actLoss (w : Wire) (s : State) : State :=
  let r := fieldAt w.payload 0 1
  if r = 1 ∨ r = 2 then packageLost (endPkg w.src) s else s

/-- Notices of refusals and of faults reach firmware, and nothing follows in the machine. -/
def actRefused (_ : Wire) (s : State) : State := s
def actXfault (_ : Wire) (s : State) : State := s

/-! BULK (R480, R481). -/

/-- The partition that serves a remote access of n bytes at offset y of window r (R480). -/
def bulkPart (s : State) (w : Wire) (n : Nat) (wr : Bool) : Option Nat :=
  let r := w.target.toNat / 2 ^ 48 % 256
  let y := w.target.toNat % 2 ^ 48
  match admitWindow s (endPkg w.src) r with
  | none => none
  | some p =>
    let e := (s.part p).windows.get {} r
    let lg := if 12 ≤ e.sizelog.toNat ∧ e.sizelog.toNat ≤ 48 then e.sizelog.toNat else 12
    if 1 ≤ n && n ≤ 4096 && y % 4096 + n ≤ 4096 && e.base.toNat ≤ y && y + n ≤ e.base.toNat + 2 ^ lg && (!wr || e.w)
    then some p else none

/-- The refusal of a remote access: its status. -/
def refuseBulk (w : Wire) (status : Nat) (s : State) : State :=
  noteRefusal w (if w.op = 0 then answer w 3 1 w.tcls (leBytes 16 status) s else answer w 3 3 w.tcls (leBytes 8 status) s)

/-- The request for the translation of a remote access. -/
def Wire.request (w : Wire) : Nat := Sys2Proof.Machine.request agentRemote (w.tag.toNat + w.src.toNat * 2 ^ 32)

/-- A remote access waits for its fault, and the sender's firmware hears of it. -/
def waitBulk (w : Wire) (p va : Nat) (s : State) : State :=
  let s1 := { s with fab.waiting := s.fab.waiting ++ [w] }
  match openFault s1 w.die p (BitVec.ofNat 64 va) with
  | some f => answer w 2 2 7 (faultBytes f) s1
  | none => s1

/-- The POISON field of marks, and the marks of a field (R495). -/
def packMarks (bads : List Bool) : Nat := (bads.zipIdx.map fun x => bit x.1 * 2 ^ x.2).sum
def unpackMarks (n x : Nat) : List Bool := (List.range n).map fun i => x / 2 ^ i % 2 == 1

def actRead (w : Wire) (s : State) : State :=
  let n := fieldAt w.payload 0 4
  let va := w.target.toNat % 2 ^ 48
  let d := w.die
  match bulkPart s w n false with
  | none => refuseBulk w 1 s
  | some p =>
    match agentXlate d p (BitVec.ofNat 64 va) w.request .read s with
    | (.wait, s1) => waitBulk w p va s1
    | (.fail, s1) => refuseBulk w 2 s1
    | (.ok pa x, s1) =>
      let (bs, bads, s2) := s1.readMarked d pa n (viaType x) w.tcls
      answer w 3 1 w.tcls (leBytes 8 0 ++ leBytes 8 (packMarks bads) ++ bs) s2

def actWrite (w : Wire) (s : State) : State :=
  let bs := w.payload.drop 8
  let va := w.target.toNat % 2 ^ 48
  let d := w.die
  match bulkPart s w bs.length true with
  | none => refuseBulk w 1 s
  | some p =>
    match agentXlate d p (BitVec.ofNat 64 va) w.request .write s with
    | (.wait, s1) => waitBulk w p va s1
    | (.fail, s1) => refuseBulk w 2 s1
    | (.ok pa _, s1) =>
      let n := bs.length / 64 + 2
      answer w 3 3 w.tcls (leBytes 8 0) (writeMarked d w.tcls n pa bs (unpackMarks n (fieldAt w.payload 0 8)) s1)

/-- The access that a response answers leaves the list. -/
def takeAccess (w : Wire) (wr : Bool) (s : State) : Option (Access × State) :=
  (takeFirst (fun a => a.write == wr && sentTo (endPkg w.src) (some w.tag) a) s.accs).map fun r =>
    (r.1, { s with accs := r.2 })

def actReadresp (w : Wire) (s : State) : State :=
  match takeAccess w false s with
  | none => s
  | some (a, s1) =>
    match fieldAt w.payload 0 1 with
    | 0 =>
      endAccess a ((w.payload.drop 16).take a.size) (fieldAt w.payload 8 8 != 0) s1
    | 1 => refuseAccess a s1
    | _ => faultAccess a s1

def actWriteack (w : Wire) (s : State) : State :=
  match takeAccess w true s with
  | none => s
  | some (a, s1) =>
    match fieldAt w.payload 0 1 with
    | 0 => endAccess a [] false s1
    | 1 => refuseAccess a s1
    | _ => faultAccess a s1

/-! CONTROL (R478, R483 to R490, R495). -/

/-- Messages of a flow up to a number are acknowledged. -/
def actAck (w : Wire) (s : State) : State :=
  let cls := w.target.toNat % 8
  let key : Word := if cls = 4 then 0 else BitVec.ofNat 64 (w.target.toNat / 256)
  let seq := BitVec.ofNat 32 (fieldAt w.payload 0 4)
  let drop := fun (f : Flow) =>
    if f.hits true cls (endPkg w.src) key then
      { f with held := f.held.filter fun m => !decide ((seq - m.flowseq).toNat < 2 ^ 31) }
    else f
  pruneProxies { s with fab.flows := s.fab.flows.map drop }

/-- The permits that a remote writer receives at its binding: all of the writer side. -/
def bindCredit (c : Chan) : Nat := c.wpermits

/-- A remote CHBIND.w at the channel (R353, R483). -/
def actBindreq (w : Wire) (s : State) : State :=
  let ch := regKey w.target
  let c := s.chan ch
  let reply := fun (res pcred scred : Nat) (s : State) =>
    answer w 4 2 0 (leBytes 1 res ++ leBytes 1 c.cls.toNat ++ leBytes 2 c.width ++ leBytes 4 c.binds.toNat ++
      leBytes 4 pcred ++ leBytes 4 scred ++ leBytes 8 c.sent) s
  if !chanAdmits s w || c.state == 3 then noteRefusal w (answer w 4 2 0 (leBytes 24 2) s)
  else if c.wbound || c.devwriter then reply 1 0 0 s
  else
    let p := bindCredit c
    let r := grantRoom s ch
    let x := fieldAt w.payload 0 2
    reply 0 p r (s.updChan ch fun y =>
      { y with wbound := true, remote := true, wpkg := w.src.zeroExtend 32, writer := some (x % 4096, x / 4096)
               state := if y.state == 2 then 1 else y.state, wpermits := y.wpermits - p, permOut := y.permOut + p
               roomOut := y.roomOut + r })

/-- The request that a reply answers. -/
def takeReq (w : Wire) (s : State) : Option (Req × State) :=
  (takeFirst (fun (q : Req) => q.tag == w.tag && q.pkg == endPkg w.src) s.fab.reqs).map fun r =>
    (r.1, { s with fab.reqs := r.2 })

/-- The member of a request still waits for it. -/
def reqWaits (s : State) (q : Req) (r : Word) : Bool :=
  (s.step1 q.step).present && (s.step1 q.step).uid == q.uid &&
    (s.memberCtx q.step q.member).wait.remote.any fun w => w.tag == q.tag && w.awaits r

def giveReply (q : Req) (x : Word) (s : State) : State :=
  s.updMemberCtx q.step q.member fun c => { c with
    wait.remote := c.wait.remote.map fun y => if y.tag == q.tag then { y with reply := some x } else y }

/-- A binding is answered: a proxy where it was made, closed at once where nobody waits for it any more. -/
def actBindreply (w : Wire) (s : State) : State :=
  match takeReq w s with
  | none => s
  | some (q, s1) =>
    let b := w.payload
    let p : Proxy := ⟨w.target, q.step / 16384, fieldAt b 8 4, fieldAt b 0x0C 4, false, BitVec.ofNat 3 (fieldAt b 1 1),
      fieldAt b 2 1, fieldAt b 0x10 8, BitVec.ofNat 32 (fieldAt b 4 4), false, (q.step, q.member), false, q.uid⟩
    match fieldAt b 0 1, reqWaits s1 q w.target with
    | 0, true => giveReply q 0 { s1 with fab.proxies := s1.fab.proxies ++ [p] }
    | 0, false => closeProxy p s1
    | 1, true => giveReply q 1 s1
    | _, true => faultMember w.target q.step q.member s1
    | _, false => s1

/-- Permits and room: to the proxy, or back to the channel (R483, R484). -/
def actGrant (w : Wire) (s : State) : State :=
  let n := fieldAt w.payload 0 4
  let room := fieldAt w.payload 4 4
  let binds := BitVec.ofNat 32 (fieldAt w.payload 8 4)
  if fieldAt w.payload 0x0C 1 = 0 then
    let one := fun (p : Proxy) =>
      if p.reg == w.target then
        { p with pcred := if p.binds == binds then p.pcred + n else n, binds := binds, scred := p.scred + room }
      else p
    { s with fab.proxies := s.fab.proxies.map one }
  else if isWriter s w && (s.chan (regKey w.target)).binds == binds then
    s.updChan (regKey w.target) fun x => { x with wpermits := x.wpermits + n, permOut := x.permOut - n }
  else s

/-- The spill is drained: no message of the proxy is left in the cistern (R484). -/
def actDrained (w : Wire) (s : State) : State :=
  let one := fun (p : Proxy) =>
    if p.reg == w.target && p.sent == fieldAt w.payload 0 8 + 1 then { p with pspill := false } else p
  { s with fab.proxies := s.fab.proxies.map one }

/-- A remote CHSTAT, with check 4 of R351 made here. -/
def actStatreq (w : Wire) (s : State) : State :=
  let c := s.chan (regKey w.target)
  if !chanAdmits s w then noteRefusal w (tellFault w s)
  else if c.state == 3 then tellFault w s
  else answer w 4 6 0 (leBytes 8 (statusWord c).toNat) s

def actStatreply (w : Wire) (s : State) : State :=
  match takeReq w s with
  | none => s
  | some (q, s1) => if reqWaits s1 q w.target then giveReply q (BitVec.ofNat 64 (fieldAt w.payload 0 8)) s1 else s1

/-- The detector of the writer's die asks for growth; a channel that cannot grow raises the event of this die (R364,
R485). -/
def actGrow (w : Wire) (s : State) : State :=
  let ch := regKey w.target
  if !isWriter s w then s
  else if canGrow s ch then growChan ch s else raiseStall (ch / 4096) (s.chan ch).part s

/-- The channel is faulted: who is held on it takes 0x12. -/
def actFault (w : Wire) (s : State) : State := faultRemote w.target s

/-- The proxy is of a step that is still there. -/
def proxyLives (s : State) (p : Proxy) : Bool :=
  (s.step1 p.writer.1).present && (s.step1 p.writer.1).uid == p.uid

/-- A message was turned away: its writer takes 0x12, held or not (R351). -/
def actRefuse (w : Wire) (s : State) : State :=
  faultRemote w.target ((s.fab.proxies.filter fun p => p.reg == w.target && proxyLives s p).foldl
    (fun s p => addFault w.target p.writer.1 p.writer.2 s) s)

/-- The partition whose barrier a package takes part in. -/
def barPart (s : State) (pkg : BitVec 18) : Option Nat :=
  ((s.parts.filter fun e => e.2.present && (windowPkgs s e.1).contains pkg).map (·.1)).head?

def actBararr (w : Wire) (s : State) : State :=
  match barPart s (endPkg w.src) with
  | some p =>
    if fieldAt w.payload 0 4 = s.pkgid.toNat then
      rootArrival (endPkg w.src) p (w.target.toNat % 8) (w.target.toNat / 256 % 64) s
    else s
  | none => s

def actBarrel (w : Wire) (s : State) : State :=
  match barPart s (endPkg w.src) with
  | some p => releasePod p (w.target.toNat % 8) (w.target.toNat / 256 % 64) s
  | none => s

/-- A WSEND is answered (R488). -/
def actWorkdone (w : Wire) (s : State) : State :=
  match takeReq w s with
  | none => s
  | some (q, s1) =>
    if fieldAt w.payload 0 1 = 0 then
      onWorkHandle q (fun h => { h with state := 5, progress := 1, first := BitVec.ofNat 44 (fieldAt w.payload 4 4) }) s1
    else onWorkHandle q failHandle s1

/-! Link states (R475). -/

/-- Messages that wait for a path try again. -/
def retryPaths (s : State) : State := s.fab.noPath.foldl (fun s w => launchWire w s) { s with fab.noPath := [] }

/-- The links of this package as it reports them. -/
def ownLinks (s : State) : List Byte :=
  let ps := (List.range 16).filterMap fun n => ((s.port n).peer).map fun q => (n, (s.port n).st == .up, q)
  leBytes 4 s.pkgid.toNat ++ leBytes 2 ps.length ++ leBytes 2 0 ++
    ps.flatMap fun x => leBytes 1 x.1 ++ leBytes 1 (bit x.2.1) ++ leBytes 2 0 ++ leBytes 4 x.2.2.toNat

/-- The links that a package reports. -/
def linksOf : Nat → List Byte → List (Nat × Bool × BitVec 18)
  | 0, _ => []
  | n + 1, bs => (fieldAt bs 0 1, fieldAt bs 1 1 == 1, BitVec.ofNat 18 (fieldAt bs 4 4)) :: linksOf n (bs.drop 8)

/-- The other packages of which this one knows: its neighbours, and those that have reported or been reported. -/
def knownPkgs (s : State) : List (BitVec 18) :=
  let met := s.fab.peers.flatMap fun e => BitVec.ofNat 18 e.1 :: e.2.links.map fun x => x.2.2
  (((List.range 16).filterMap fun n => (s.port n).peer) ++ met).dedup.filter fun q => q != s.pkgid

/-- Packages hear of the links of this one. -/
def tellTo (qs : List (BitVec 18)) (s : State) : State :=
  (qs.filter fun q => !(s.peer q).lost).foldl (fun s q => s.send 0 4 0x0C 0 q 0 0 0 (ownLinks s)) s

/-- Every package that is known hears of the links. -/
def tellLinks (s : State) : State := tellTo (knownPkgs s) s

/-- Whom a first report makes known: its sender, and the packages that it names first. -/
def newPkgs (s : State) (pkg : BitVec 18) (links : List (Nat × Bool × BitVec 18)) : List (BitVec 18) :=
  let named := (links.map fun x => x.2.2).filter fun q => q != s.pkgid && !(knownPkgs s).contains q
  ((if (s.peer pkg).links.isEmpty then [pkg] else []) ++ named).dedup

/-- A package reports its links; whoever is new hears of the own ones, so that each package learns the links of every
other from itself, in the order of its flow. -/
def actLinkstate (w : Wire) (s : State) : State :=
  let pkg := BitVec.ofNat 18 (fieldAt w.payload 0 4)
  let links := linksOf (fieldAt w.payload 4 2) (w.payload.drop 8)
  tellTo (newPkgs s pkg links) (retryPaths (s.updPeer pkg fun p => { p with links := links }))

/-- The action of a message by its class and OP. -/
def actOf (cls op : Nat) : Wire → State → State :=
  match cls, op with
  | 0, 0 => actMsg
  | 0, 1 => actClose
  | 1, 0 => actWaybill
  | 2, 0 => actLoss
  | 2, 1 => actRefused
  | 2, 2 => actXfault
  | 3, 0 => actRead
  | 3, 1 => actReadresp
  | 3, 2 => actWrite
  | 3, 3 => actWriteack
  | 4, 0 => actAck
  | 4, 1 => actBindreq
  | 4, 2 => actBindreply
  | 4, 3 => actGrant
  | 4, 4 => actDrained
  | 4, 5 => actStatreq
  | 4, 6 => actStatreply
  | 4, 7 => actGrow
  | 4, 8 => actFault
  | 4, 9 => actBararr
  | 4, 10 => actBarrel
  | 4, 11 => actWorkdone
  | 4, 12 => actLinkstate
  | 4, 13 => actRefuse
  | _, _ => fun _ s => s

/-- The die that a message acts on: a remote access enters at the port that received it (R368), any other names its
die. -/
def Wire.actsOn (w : Wire) : Nat := if w.cls == 3 && w.op % 2 == 0 then w.die else endDie w.dst

/-- A message arrives: one for another package travels on; a bad one is discarded; an ordered one is taken in its
flow; then it acts. -/
def arrive (act : Wire → State → State) (w : Wire) (s : State) : State :=
  if endPkg w.dst != s.pkgid then launchWire w s
  else if !w.lengthOk s || workFull s w then s
  else match meetEpoch (endPkg w.src) w.epoch (s.wakeDie w.actsOn) with
    | (false, s1) => s1
    | (true, s1) =>
      match takeFlow w s1 with
      | (true, s2) => act w s2
      | (false, s2) => s2

/-- A message that the agenda holds. -/
def messageTurn (w : Wire) (s : State) : State := arrive (actOf w.cls w.op) w s

end Sys2Proof.Machine
end

