-- ==== Sys2Proof/Machine/Ports.lean ====
section
/-!
DEFINITION. Wayline ports: flits, replay, credits, training and link state (R469 to R475, R478).
-/
namespace Sys2Proof.Machine
open Sys2Proof

/-! Flits (R470). -/

/-- Bytes 0x00 to 0xF7 of a flit; a set reserved bit stands in bit 15 of the first field. -/
def flitBytes (f : Flit) : List Byte :=
  leBytes 2 (f.fseq.toNat + f.ftype.toNat * 2 ^ 12 + bit f.rsv * 2 ^ 15) ++ leBytes 2 (f.aseq.toNat + bit f.nack * 2 ^ 12) ++
  leBytes 1 f.cclass.toNat ++ leBytes 1 0 ++ leBytes 2 f.credits.toNat ++ padTo 240 f.payload

/-- One bit of the division by the polynomial of ECMA-182. -/
def crcBit (c : BitVec 64) : BitVec 64 := if c.getLsbD 63 then (c <<< 1) ^^^ 0x42F0E1EBA9EA3693 else c <<< 1
def crcByte (c : BitVec 64) (b : Byte) : BitVec 64 :=
  (List.range 8).foldl (fun c _ => crcBit c) (c ^^^ (b.zeroExtend 64 <<< 56))
def crc64 (bs : List Byte) : BitVec 64 := bs.foldl crcByte 0

/-- A flit that passes its CRC and has no reserved bit set. -/
def flitOk (f : Flit) : Bool := !f.rsv && f.crc == crc64 (flitBytes f)

/-- The flit buffers of a port for a traffic class (R472). DEDUCED (log 58): enough for the longest message, of 18 flits,
as a message leaves only with a credit for each of its flits. -/
def portBuffers (c : Nat) : Nat := Config.flitBuffers c + (if c = 0 then 64 else 18)

/-! The state of a port (R473, R475). -/

def portDie (n : Nat) : Nat := n / 4

/-- Messages that a port that goes down still has to send: those not yet sent, and the unordered ones sent in part or
in its replay buffer; the flows send the others again. -/
def stranded (p : Port) : List Wire :=
  ((p.replay.map (fun x => x.2.1) ++ p.going.map (·.1)).filter fun w => !w.ordered).dedup ++ p.queue

/-- A port goes down (R473). -/
def portDown (n : Nat) (s : State) : State :=
  let p := s.port n
  if p.st != .up then s
  else
    let s1 := s.updPort n fun p => { st := .training 0, errors := p.errors, peer := p.peer }
    let s2 := (stranded p).foldl (fun s w => launchWire w s) s1
    tellLinks (fabricEvent (portDie n) 1 n (p.peer.getD 0) 0 s2)

/-- A training exchange succeeds: the link is up, unless both ends are one package (R474). -/
def trainedPort (n : Nat) (peer : BitVec 18) (epoch : BitVec 32) (s : State) : State :=
  if peer = s.pkgid then
    fabricEvent (portDie n) 6 n peer 0 (s.updPort n fun p => { p with st := .failed })
  else
    let s1 := s.updPort n fun p => { st := .up, errors := p.errors, peer := some peer, given := (List.range 8).map portBuffers }
    let s2 := (meetEpoch peer epoch s1).2
    retryPaths (tellLinks (fabricEvent (portDie n) 2 n peer 0 s2))

/-- An attempt to train ends; three that fail leave the port down until the peer trains again. -/
def portTraining (n : Nat) (ok : Bool) (peer : BitVec 18) (epoch : BitVec 32) (s : State) : State :=
  if 16 ≤ n then s
  else match (s.port n).st with
    | .up => s
    | .training a =>
      if ok then trainedPort n peer epoch s
      else s.updPort n fun p => { p with st := if 3 ≤ a + 1 then .failed else .training (a + 1) }
    | .failed => if ok then trainedPort n peer epoch s else s

/-! Replay (R471). -/

/-- A round of replay without progress; the sixteenth takes the port down. -/
def replayRound (n : Nat) (s : State) : State :=
  let s1 := s.updPort n fun p => { p with rounds := p.rounds + 1 }
  if 16 ≤ (s1.port n).rounds then portDown n s1 else s1

/-- 2 µs pass without progress while flits wait for their acknowledgement. -/
def replayTimeout (n : Nat) (s : State) : State :=
  if (s.port n).st == .up && !(s.port n).replay.isEmpty then replayRound n s else s

/-- ASEQ of a received flit acknowledges flits of the replay buffer. -/
def ackFlits (n : Nat) (a : BitVec 12) (s : State) : State :=
  s.updPort n fun p =>
    let rest := p.replay.filter fun x => !decide ((a - x.1).toNat < 2 ^ 11)
    if rest.length = p.replay.length then p else { p with replay := rest, acked := a, rounds := 0 }

/-! Messages from flits (R476). -/

/-- The message of the bytes that a port of die d received. -/
def parseWire (d : Nat) (bs : List Byte) : Wire :=
  let n := fieldAt bs 2 2
  ⟨fieldAt bs 0 1 % 8, fieldAt bs 1 1, BitVec.ofNat 3 (fieldAt bs 0 1 / 8), BitVec.ofNat 20 (fieldAt bs 4 4),
    BitVec.ofNat 20 (fieldAt bs 8 4), BitVec.ofNat 32 (fieldAt bs 0x0C 4), BitVec.ofNat 64 (fieldAt bs 0x10 8),
    BitVec.ofNat 32 (fieldAt bs 0x18 4), BitVec.ofNat 32 (fieldAt bs 0x1C 4), (bs.drop 32).take n, d⟩

/-- A header with a reserved bit set. -/
def wireReserved (bs : List Byte) : Bool :=
  64 ≤ fieldAt bs 0 1 || 2 ^ 20 ≤ fieldAt bs 4 4 || 2 ^ 20 ≤ fieldAt bs 8 4

/-- The peer uses a credit of a class for a flit. -/
def takeCredit (c : Nat) (p : Port) : Port := { p with given := modifyAt (· - 1) p.given c }

/-- The buffers of the flits of a message are free again: their credits go back to the peer (R470, R472). -/
def returnCredits (c n : Nat) (p : Port) : Port := { p with given := modifyAt (· + n) p.given c }

/-- A flit begins a message: none is incomplete, or it holds a good header of a class below that of the innermost one,
as only such a message interrupts it (R472). -/
def beginsMessage (s : State) (rx : List (Nat × List Byte)) (bs : List Byte) : Bool :=
  match rx with
  | [] => true
  | x :: _ =>
    let w := parseWire 0 bs
    !wireReserved bs && decide (w.tcls.toNat < x.1) && w.lengthFits s (fieldAt bs 2 2)

/-- A flit joins the message that it belongs to. -/
def joinFlit (s : State) (rx : List (Nat × List Byte)) (bs : List Byte) : List (Nat × List Byte) :=
  if beginsMessage s rx bs then (fieldAt bs 0 1 / 8 % 8, bs) :: rx
  else match rx with
    | x :: rest => (x.1, x.2 ++ bs) :: rest
    | [] => []

/-- The class of the message to which a flit belongs. -/
def flitClass (s : State) (rx : List (Nat × List Byte)) (bs : List Byte) : Nat :=
  if beginsMessage s rx bs then fieldAt bs 0 1 / 8 % 8
  else match rx with
    | x :: _ => x.1
    | [] => 0

/-- The innermost message of a port is whole: it arrives, or it is counted as an error, and its buffers are free. -/
def assemble (n : Nat) (s : State) : State :=
  match (s.port n).rx with
  | [] => s
  | x :: rest =>
    let bs := x.2
    let len := fieldAt bs 2 2
    let free := fun (p : Port) => returnCredits x.1 (x.2.length / 240) { p with rx := rest }
    let bad := fun (s : State) => s.updPort n fun p => { free p with errors := p.errors + 1 }
    if 4128 < len then bad s
    else if bs.length < (32 + len + 239) / 240 * 240 then s
    else
      let w := parseWire (portDie n) bs
      if wireReserved bs || !w.lengthOk s then bad s
      else { s.updPort n free with agenda := s.agenda ++ [.message w] }

/-- A flit arrives (R470 to R473). DESIGN CHOICE (log 58): one for which its class has no free buffer, as the peer holds
no credit of it, is discarded like a flit out of sequence. -/
def flitReceive (n : Nat) (f : Flit) (s : State) : State :=
  if (s.port n).st != .up then s
  else if !flitOk f then s.updPort n fun p => { p with nack := true }
  else if f.ftype = 3 then portDown n s
  else
    let c := f.cclass.toNat
    let s1 := ackFlits n f.aseq (s.updPort n fun p =>
      { p with credits := p.credits.set 0 c (p.credits.get 0 c + f.credits.toNat) })
    let s2 := if f.nack && !(s1.port n).replay.isEmpty then replayRound n s1 else s1
    let bs := padTo 240 f.payload
    let m := flitClass s2 (s2.port n).rx bs
    let s3 :=
      if f.ftype != 0 || (s2.port n).st != .up then s2
      else if f.fseq = (s2.port n).aseq + 1 && (s2.port n).given.getD m 0 != 0 then
        assemble n (s2.updPort n fun p =>
          takeCredit m { p with aseq := f.fseq, nack := false, rx := joinFlit s2 p.rx bs })
      else s2.updPort n fun p => { p with nack := true }
    s3.pump n

/-- A message of a flow has waited for its acknowledgement: the flow sends again what it keeps (R478). -/
def flowResend (n : Nat) (s : State) : State :=
  match s.fab.flows[n]? with
  | some f => if f.out then f.held.foldl (fun s w => launchWire w s) s else s
  | none => s

end Sys2Proof.Machine
end

