-- ==== Sys2Proof/Machine/Host.lean ====
section
/-!
DEFINITION. What the host reaches: BAR0, apertures, resets, boot, die-to-die links and power
(R442 to R448, R455 to R458, R462 to R468).
-/
namespace Sys2Proof.Machine
open Sys2Proof

/-! FATAL (R443, R464, R491). -/

/-- The package sets FATAL: MSI-X vector 2, and its peers hear of it. -/
def setFatal (s : State) : State :=
  if s.host.fatal then s
  else announce 2 s.pkgid (({ s with host.fatal := true } : State).msix 2)

/-! Power states (R462, R463). -/

/-- The deepest state that LTR allows. -/
def deepest (ltr : BitVec 32) : Nat :=
  let n := ltr.toNat
  if n < 1000 then 0 else if n < 20000 then 1 else if n < 200000 then 2 else if n < 2000000 then 3 else 4

/-- The exit time of a state in ns. -/
def exitTime (st : Nat) : Nat :=
  match st with
  | 0 => 0 | 1 => 1000 | 2 => 20000 | 3 => 200000 | _ => 2000000

/-- A stack controller of the die serves a copy access: one of its own seats, or one that goes to its memory (R368). -/
def Access.uses (a : Access) (d : Nat) : Bool :=
  dieOf a.seat == d || match a.target with
    | .dram pa => homeDie pa == d
    | .host _ => false
    | .remote _ _ _ => false

/-- No agent of a die has work, and nothing waits for it. -/
def quietDie (s : State) (d : Nat) : Bool :=
  let x := s.die d
  !(s.seats.any fun e => dieOf e.1 == d && e.2.phase != .idle) &&
  !(s.accs.any fun a => a.uses d) && !(s.near.any fun c => nmUses s c d) &&
  !(s.anns.any fun a => a.dst == d || a.src == d) && x.walks.isEmpty && x.launches.isEmpty && x.returns.isEmpty &&
  !(s.chans.any fun e => e.1 / 4096 == d && (!e.2.flight.isEmpty || e.2.trigPending)) &&
  !(s.events.any fun e => e.step / 16384 == d) && !(s.fab.work.any fun w => endDie w.dst == d) &&
  !(s.fab.waiting.any fun w => w.die == d) &&
  !(s.fab.deferred.any fun w => w.2.1 / 16384 == d) &&
  !(s.agenda.any fun t => match t with
    | .message w => w.actsOn == d
    | .cycle _ => false
    | .event _ => false
    | .firmware => false) &&
  !(s.steps.any fun e => e.1 / 16384 == d && e.2.present && e.2.ready.isSome) &&
  !(s.tasks.any fun e => e.1 / 4096 == d && e.2.present && e.2.next != e.2.steps)

/-- What a die loses at the entry to a state. -/
def loseAt (d st : Nat) (s : State) : State :=
  let s1 := if st < 2 then s else { s with cores := s.cores.map fun e =>
      if e.1 / 64 = d then (e.1, { e.2 with line := [], lineBad := [], lineSoft := [], lineMet := [], tcache := [] }) else e }
  if st < 3 then s1 else s1.updDie d fun x => { x with pcache := [], tcache := [], wcache := [] }

/-- An eligible die enters the deepest state that LTR allows; once all four are in retention, memory enters
self-refresh where LTR allows that. -/
def powerStateEntry (d : Nat) (s : State) : State :=
  let t := min 3 (deepest s.host.ltr)
  let s1 := if 4 ≤ d || s.host.resetting || t ≤ (s.die d).pstate || !quietDie s d then s
    else (loseAt d t s).updDie d fun x => { x with pstate := t }
  if deepest s.host.ltr = 4 && [0, 1, 2, 3].all fun e => (s1.die e).pstate == 3 then
    { s1 with host.selfRefresh := true }
  else s1

/-- A wake event of a die. -/
def wakeEvent (d : Nat) (s : State) : State := if 4 ≤ d then s else s.wakeDie d

/-- LTR is written: a die whose exit time is above it wakes and settles. -/
def ltrWrite (v : Word) (s : State) : State :=
  if s.host.resetting then s
  else
    let n : BitVec 32 := v.setWidth 32
    let s1 := { s with host.ltr := n, host.selfRefresh := s.host.selfRefresh && decide (2000000 ≤ n.toNat) }
    [0, 1, 2, 3].foldl (fun s d =>
      if n.toNat < exitTime (s.die d).pstate then powerStateEntry d (s.wakeDie d) else s) s1

/-! Links (R443). -/

/-- A die-to-die link goes down; with two of the four down no path is left between some two dies. During a reset its
pattern fails instead, and it is trained in full (R466, R468): boot tells what that gives. -/
def linkDown (n : Nat) (s : State) : State :=
  if 4 ≤ n || s.host.resetting || s.linksDown.contains n then s
  else
    let s1 := ({ s with linksDown := insertNat n s.linksDown } : State).post 9 0 0 (leBytes 4 n)
    if 2 ≤ s1.linksDown.length then setFatal s1 else s1

/-! Reset (R465). -/

/-- What a core keeps over a reset: its place in the repair map, and CERR and SLOTMAP over a warm one. -/
def resetCore (cold : Bool) (x : Core) : Core :=
  { phys := x.phys, retired := x.retired, failed := x.failed
    cerr := if cold then {} else x.cerr
    slotmap := if cold then ({} : Core).slotmap else x.slotmap }

/-- What a stack keeps over a warm reset: STACKERR. -/
def resetStack (x : Stack) : Stack :=
  { corrupt := x.corrupt, satur := x.satur, uncorr := x.uncorr, corr := x.corr }

/-- A map without its default entries. -/
def Sparse.trim {α : Type} [DecidableEq α] (d : α) (m : Sparse α) : Sparse α := m.filter fun e => !decide (e.2 = d)

def resetCores (cold : Bool) (m : Sparse Core) : Sparse Core := Sparse.trim {} (m.map fun e => (e.1, resetCore cold e.2))
def resetDies (m : Sparse Die) : Sparse Die := Sparse.trim {} (m.map fun e => (e.1, { sparesLeft := e.2.sparesLeft }))

/-- A power sample of firmware (R464): the hottest dies are gated; beyond the shutdown limit the compute dies lose
their power. -/
def powerSample (watts : Nat) (hot shutdown : Bool) (dies : BitVec 4) (s : State) : State :=
  if shutdown then
    let s1 := if s.host.fatal then s.msix 2 else setFatal s
    { s1 with
      seats := [], accs := [], near := [], steps := [], tasks := [], queues := [], chans := [], events := [], anns := []
      cores := resetCores true s1.cores, dies := resetDies s1.dies
      host.dieMask := 0, fw.gated := [] }
  else
    { s with fw.gated := if decide (s.fw.cap.toNat < watts) || hot then (List.range 4).filter fun d => dies.getLsbD d
                         else [] }

/-- Messages on their way are lost with the links. -/
def notMessage : Turn → Bool
  | .message _ => false
  | .cycle _ => true
  | .event _ => true
  | .firmware => true

/-- A reset begins. -/
def startReset (k : ResetKind) (s : State) : State :=
  let cold := k == .cold
  { agenda := s.agenda.filter notMessage
    cycle := s.cycle
    freeCtr := s.freeCtr
    pkgid := if cold then Config.pkgStraps else s.pkgid
    cores := resetCores cold s.cores
    dies := resetDies s.dies
    mem := s.mem
    poisonMem := s.poisonMem
    errs := s.errs
    linksDown := s.linksDown
    stackTab := if cold then [] else Sparse.trim {} (s.stackTab.map fun e => (e.1, resetStack e.2))
    host := { mem := s.host.mem, bad := s.host.bad, msix := s.host.msix, replies := s.host.replies
              evover := if cold then 0 else s.host.evover }
    fw := { slotA := s.fw.slotA, slotB := s.fw.slotB, staged := s.fw.staged, minimum := s.fw.minimum, bootcount := s.fw.bootcount, reset := k } }

def coldReset (s : State) : State := startReset .cold s
def warmReset (keep : Bool) (s : State) : State := startReset (.warm keep) s

/-! Images and boot (R455 to R458). -/

/-- A 64-byte output of SHAKE256 as a number, its first byte lowest. -/
def shake (bs : List Byte) : Nat := (Config.shake256 bs).toNat

/-- The fields of an image (R456). -/
def imgSecver (bs : List Byte) : BitVec 32 := BitVec.ofNat 32 (fieldAt bs 4 4)
def imgKey (bs : List Byte) : List Byte := (bs.drop 0x50).take 1952
def imgPayload (bs : List Byte) : List Byte := (bs.drop 0x14E0).take (fieldAt bs 8 8)

/-- The image verifies (R457). -/
def imageVerifies (minimum : BitVec 32) (bs : List Byte) : Bool :=
  decide (0x14E0 + fieldAt bs 8 8 ≤ bs.length) &&
  Config.shake256 (imgKey bs) == Config.fuseKeyDigest &&
  Config.mldsaVerify (imgKey bs) (bs.take 0x7F0) ((bs.drop 0x7F0).take 3309) &&
  shake (imgPayload bs) == fieldAt bs 0x10 64 &&
  decide (minimum.toNat ≤ (imgSecver bs).toNat)

/-- The slot that boots: false is slot A. Of two images of one security version the one that was staged last runs (R452,
R455); with none staged slot A runs, by DESIGN CHOICE (log 72). -/
def bootSlot (f : Firmware) : Option Bool :=
  let a := imageVerifies f.minimum f.slotA
  let b := imageVerifies f.minimum f.slotB
  let va := (imgSecver f.slotA).toNat
  let vb := (imgSecver f.slotB).toNat
  if a && (!b || decide (vb < va) || (decide (vb = va) && f.staged != some true)) then some false
  else if b then some true else none

/-- Every granule of the stacks is zero. -/
def zeroMemory (s : State) : State := { s with mem := [], poisonMem := [], errs := [] }

/-- The slot binding that boot writes to every core whose binding is not locked yet (R63). DESIGN CHOICE (log 75): the
spec names no value; this one is S0 = 0, S1 = 1, V0 = 0, V1 = 1, LOCK = 1. -/
abbrev bootSlotmap : BitVec 32 := 0x144

/-- Training gives the dies and stacks that operate; a lost die sets FATAL (R455, R466). -/
def train (s : State) : State :=
  let n := s.fw.bootcount.toNat
  let lostD := Config.lostDies n
  let lostS := Config.lostStacks n
  let s1 := { s with host.dieMask := 0xF &&& ~~~(lostD.setWidth 8), host.stackMask := ~~~lostS }
  let s2 := ((List.range 8).filter fun i => lostS.getLsbD i).foldl (fun s i => s.updStack i fun x => { x with lost := true }) s1
  if lostD = 0 then s2 else setFatal { s2 with host.booterr := 2 }

/-- The repair map: the cores that stand on a spare. -/
def repairMap (s : State) : List (Nat × Nat) := (s.cores.filter fun e => e.2.phys != 0).map fun e => (e.1, e.2.phys)

/-- The links that training has brought up again are reported (R443, R453). -/
def linksUp (s : State) : State :=
  s.linksDown.foldl (fun s n => s.post 9 0 0 (leBytes 4 n)) { s with linksDown := [] }

/-- The firmware of a slot starts on every die, and takes commands. -/
def startFirmware (slot : Bool) (s : State) : State :=
  let img := if slot then s.fw.slotB else s.fw.slotA
  let lost := ((List.range 8).filter fun i => (s.stack i).lost)
  let s1 := (List.range 256).foldl (fun s c => s.updCore c fun x =>
    if x.slotmap.getLsbD 8 then x else { x with slotmap := bootSlotmap }) s
  let s2 := { s1 with
    host.secure := true, host.ready := true, host.resetting := false
    fw.running := some slot, fw.minimum := imgSecver img, fw.version := Config.imageVersion img
    fw.attKey := s1.fw.bootcount.toNat
    fw.meas0 := Config.romMeasure, fw.meas1 := Config.shake256 img, fw.meas2 := Config.fuseMeasure (imgSecver img) (repairMap s1) }
  lost.foldl (fun s i => stackEvent i s) (linksUp s2)

/-- The ROM boots the package. -/
def boot (s : State) : State :=
  if !s.host.resetting || s.host.booterr != 0 then s
  else
    let s1 := { s with fw.bootcount := s.fw.bootcount + 1 }
    if Config.fuseFault s1.fw.bootcount.toNat then { s1 with host.booterr := 3 }
    else
      let s2 := train (if s1.fw.reset == .warm true then s1 else zeroMemory s1)
      match bootSlot s2.fw with
      | none => { s2 with host.booterr := 1 }
      | some slot => startFirmware slot s2

/-- Power is lost: a cold reset follows when it is back. A FW_STAGE that was being carried out leaves the slot that
does not run in an undefined state. -/
def powerLoss (s : State) : State :=
  let c := s.host.cmd
  let staging := s.host.ready && c.used != 0 && leNat (hostRead s (c.slot c.head) 2) == 3
  let n := max s.fw.slotA.length s.fw.slotB.length
  let junk := (List.range n).map fun i => Config.freeByte (s.freeCtr + i)
  let s1 := if !staging then s
    else if s.fw.running == some true then { s with fw.slotA := junk, freeCtr := s.freeCtr + n }
    else { s with fw.slotB := junk, freeCtr := s.freeCtr + n }
  startReset .cold s1

/-! BAR0 (R446, R447, R467). -/

/-- PSTATE: the shallowest state of an operating die. -/
def pstateField (s : State) : Nat :=
  if s.host.selfRefresh then 4
  else ((List.range 4).filter fun d => s.host.dieMask.getLsbD d).foldl (fun n d => min n (s.die d).pstate) 3

def devstat (s : State) : Word :=
  let h := s.host
  let p := if (h.dieMask &&& 0xF) = 0 then 0 else pstateField s
  BitVec.ofNat 64 (h.dieMask.toNat * 2 ^ 32 + h.stackMask.toNat * 2 ^ 24 + p * 2 ^ 16 + h.booterr.toNat * 2 ^ 8 +
    bit h.resetting * 8 + bit h.fatal * 4 + bit h.secure * 2 + bit h.ready)

/-- A register of a ring, by its offset from the first. -/
def ringRead (r : Ring) (o : Nat) : Word :=
  match o with
  | 0x00 => r.base | 0x08 => r.size.setWidth 64 | 0x10 => r.head.setWidth 64 | 0x18 => r.tail.setWidth 64 | _ => 0

/-- What a read of BAR0 returns. -/
def bar0Read (s : State) (off : Nat) : Word :=
  if off = 0 then devstat s
  else if 0x100 ≤ off ∧ off < 0x120 then ringRead s.host.cmd (off - 0x100)
  else if 0x140 ≤ off ∧ off < 0x160 then ringRead s.host.cpl (off - 0x140)
  else if 0x180 ≤ off ∧ off < 0x1A0 then ringRead s.host.ev (off - 0x180)
  else if off = 0x200 then s.host.ltr.setWidth 64
  else if off = 0x210 then s.host.evover
  else 0

/-- What a read of a queue's doorbell page returns: PROGRESS at its offset 8; TAIL is write-only, and every other
offset reads zero (R318). -/
def doorbellRead (s : State) (off : Nat) : Word :=
  if off % 4096 = 8 then (progressRead s (off / 2 ^ 28 * 65536 + off / 4096 % 65536)).setWidth 64 else 0

/-- A ring whose BASE or SIZE changes while it is not empty behaves as an empty one. -/
def emptied (r : Ring) : Ring := if r.tail = r.head then r else { r with head := r.tail }
def setBase (v : Word) (r : Ring) : Ring :=
  let b := v &&& ~~~(0xFFF : Word)
  if b = r.base then r else { emptied r with base := b }
def setSize (v : Word) (r : Ring) : Ring :=
  let n : BitVec 4 := v.setWidth 4
  if n = r.size then r else { emptied r with size := n }

/-- CTAIL moves on by what the ring takes; any other write is ignored. -/
def ctailWrite (v : Word) (s : State) : State :=
  let r := s.host.cmd
  let t : BitVec 32 := v.setWidth 32
  if s.host.resetting || decide (r.entries < (t - r.head).toNat) || decide ((t - r.head).toNat < r.used) then s
  else { s with host.cmd.tail := t }

def pheadWrite (v : Word) (s : State) : State :=
  if s.host.resetting then s else { s with host.cpl.head := v.setWidth 32 }

/-- EHEAD moves; firmware writes the events that it keeps. -/
def eheadWrite (v : Word) (s : State) : State :=
  if s.host.resetting then s else ({ s with host.ev.head := v.setWidth 32 } : State).drainKept

/-- RESETCTL (R465). -/
def resetctlWrite (v : Word) (s : State) : State :=
  if s.host.resetting || v.extractLsb' 8 8 != 0xA5 || !v.getLsbD 0 then s
  else startReset (.warm (v.getLsbD 1)) s

/-- A write to BAR0; one to a read-only register or to an offset that is not listed has no effect. -/
def bar0Write (off : Nat) (v : Word) (s : State) : State :=
  if s.host.resetting then s
  else match off with
    | 0x100 => { s with host.cmd := setBase v s.host.cmd }
    | 0x108 => { s with host.cmd := setSize v s.host.cmd }
    | 0x118 => ctailWrite v s
    | 0x140 => { s with host.cpl := setBase v s.host.cpl }
    | 0x148 => { s with host.cpl := setSize v s.host.cpl }
    | 0x150 => pheadWrite v s
    | 0x180 => ({ s with host.ev := setBase v s.host.ev } : State).drainKept
    | 0x188 => ({ s with host.ev := setSize v s.host.ev } : State).drainKept
    | 0x190 => eheadWrite v s
    | 0x200 => ltrWrite v s
    | 0x208 => resetctlWrite v s
    | _ => s

/-- A write to a configuration register, by where the host or firmware reaches it; a doorbell page takes a TAIL at
its offset 0 only (R318). -/
def configRegisterWrite (r : CfgReg) (v : Word) (s : State) : State :=
  match r with
  | .bar0 off => bar0Write off v s
  | .cerr c => if 256 ≤ c then s else s.updCore c fun x => { x with cerr := writeCerr v x.cerr }
  | .stackcfg n => if 8 ≤ n then s else s.updStack n (writeStackCfg v)
  | .stackerr _ => s
  | .doorbell off => if off % 4096 = 0 then doorbellTailWrite (off / 2 ^ 28) (off / 4096 % 65536) (v.setWidth 32) s else s

/-! Apertures (R413, R445, R448, R467). -/

/-- The pages of an access: virtual address and bytes of each. -/
def pagesOf : Nat → Nat → Nat → List (Nat × Nat)
  | 0, _, _ => []
  | f + 1, va, n => if n = 0 then [] else (va, inPage va n) :: pagesOf f (va + inPage va n) (n - inPage va n)

/-- The translation of a host access; an address of 2^64 or above fails (R445). -/
def hostXlate (p va : Nat) (w : Want) (s : State) : Option (Nat × Nat) × State :=
  if 2 ^ 64 ≤ va then (none, s) else nowXlate 0 p (BitVec.ofNat 64 va) agentHost w s

/-- A posted write through an aperture; a page that does not translate takes none of it. -/
def hostWrite (a off : Nat) (bytes : List Byte) (ep : Bool) (s : State) : State :=
  let x := s.host.apertures.get {} a
  if s.host.resetting || !x.valid || 2 ^ 30 < off + bytes.length then s
  else
    let va := x.base.toNat + off
    (pagesOf (bytes.length / 4096 + 2) va bytes.length).foldl (fun s p =>
      match hostXlate x.part p.1 .write s with
      | (some (pa, _), s1) => checkedWrite 0 pa ((bytes.drop (p.1 - va)).take p.2) ep s1
      | (none, s1) => s1) (s.wakeDie 0)

/-- Read the pages of an access: none where one of them does not translate. -/
def hostPages (p : Nat) : List (Nat × Nat) → State → HostReply × State
  | [], s => (some ([], false), s)
  | x :: xs, s =>
    match hostXlate p x.1 .read s with
    | (none, s1) => (none, s1)
    | (some (pa, mtype), s1) =>
      let (bs, bad, s2) := s1.read 0 pa x.2 (viaType mtype)
      match hostPages p xs s2 with
      | (none, s3) => (none, s3)
      | (some (r, b2), s3) => (some (bs ++ r, bad || b2), s3)

/-- A read through an aperture: its completion. -/
def hostReadAt (a off n : Nat) (s : State) : State :=
  let x := s.host.apertures.get {} a
  if s.host.resetting || !x.valid || 2 ^ 30 < off + n then { s with host.replies := s.host.replies ++ [none] }
  else
    let (r, s1) := hostPages x.part (pagesOf (n / 4096 + 2) (x.base.toNat + off) n) (s.wakeDie 0)
    { s1 with host.replies := s1.host.replies ++ [r] }

end Sys2Proof.Machine
end

