-- ==== Sys2Proof/Machine/Loader.lean ====
section
/-!
DEFINITION. Code objects and firmware images as commands take them (R31, R456, R457, R459 to R461).
-/
namespace Sys2Proof.Machine
open Sys2Proof

/-! Code objects (R31). -/

structure Section where
  type : Nat
  align : Nat
  size : Nat
  off : Nat
deriving DecidableEq, Repr

structure Symbol where
  name : Nat
  sect : Nat
  value : Nat
deriving DecidableEq, Repr

structure Reloc where
  sect : Nat
  type : Nat
  sym : Nat
  off : Nat
deriving DecidableEq, Repr

/-- A table of n entries of z bytes at an offset. -/
def tableAt {α : Type} (bs : List Byte) (off z n : Nat) (f : Nat → α) : List α :=
  if off + z * n ≤ bs.length then (List.range n).map fun i => f (off + z * i) else []

def sectionsOf (bs : List Byte) : List Section :=
  tableAt bs (fieldAt bs 0x18 8) 32 (fieldAt bs 6 2) fun o =>
    ⟨fieldAt bs o 4, fieldAt bs (o + 4) 4, fieldAt bs (o + 8) 8, fieldAt bs (o + 16) 8⟩
def symbolsOf (bs : List Byte) : List Symbol :=
  tableAt bs (fieldAt bs 0x20 8) 24 (fieldAt bs 8 4) fun o => ⟨fieldAt bs o 4, fieldAt bs (o + 4) 2, fieldAt bs (o + 8) 8⟩
def relocsOf (bs : List Byte) : List Reloc :=
  tableAt bs (fieldAt bs 0x28 8) 16 (fieldAt bs 0x0C 4) fun o =>
    ⟨fieldAt bs o 2, fieldAt bs (o + 2) 2, fieldAt bs (o + 4) 4, fieldAt bs (o + 8) 8⟩
def entriesOf (bs : List Byte) : List Nat :=
  tableAt bs (fieldAt bs 0x30 8) 4 (fieldAt bs 0x10 4) fun o => fieldAt bs o 4

/-- Every table lies in the object. -/
def tablesIn (bs : List Byte) : Bool :=
  let n := bs.length
  decide (fieldAt bs 0x18 8 + 32 * fieldAt bs 6 2 ≤ n) && decide (fieldAt bs 0x20 8 + 24 * fieldAt bs 8 4 ≤ n) &&
  decide (fieldAt bs 0x28 8 + 16 * fieldAt bs 0x0C 4 ≤ n) && decide (fieldAt bs 0x30 8 + 4 * fieldAt bs 0x10 4 ≤ n) &&
  decide (fieldAt bs 0x38 8 ≤ n)

/-- A name ends in the string table. -/
def nameOk (bs : List Byte) (o : Nat) : Bool := (bs.drop (fieldAt bs 0x38 8 + o)).contains 0

/-- A relocation names a section of type 2 or 3, a symbol of a section, and a place in its section. -/
def relocOk (ss : List Section) (ys : List Symbol) (r : Reloc) : Bool :=
  r.type == 1 &&
  (ss[r.sect]?).any (fun x => (x.type == 2 || x.type == 3) && decide (r.off + 8 ≤ x.size)) &&
  (ys[r.sym]?).any fun y => y.sect != 0xFFFF

/-- The object is accepted. -/
def objectOk (bs : List Byte) : Bool :=
  let ss := sectionsOf bs
  let ys := symbolsOf bs
  decide (64 ≤ bs.length) && fieldAt bs 0 4 == 0x424F4B5A && fieldAt bs 4 2 == 1 && tablesIn bs &&
  (ss.all fun x => decide (x.off + x.size ≤ bs.length)) &&
  (ys.all fun y => (decide (y.sect < ss.length) || y.sect == 0xFFFF) && nameOk bs y.name) &&
  ((relocsOf bs).all (relocOk ss ys)) && (entriesOf bs).all fun e => decide (e < ys.length)

/-- Load addresses of the sections from an address on. -/
def placeSections : List Section → Nat → List Nat
  | [], _ => []
  | x :: xs, a =>
    let z := 2 ^ min 64 x.align
    let p := (a + z - 1) / z * z
    p :: placeSections xs (p + x.size)

/-- A relocation is applied to the bytes of its section. -/
def relocate (ys : List Symbol) (addrs : List Nat) (r : Reloc) (bs : List Byte) : List Byte :=
  let y := ys.getD r.sym ⟨0, 0, 0⟩
  patchBytes bs r.off (leBytes 8 ((fieldAt bs r.off 8 + addrs.getD y.sect 0 + y.value) % 2 ^ 64))

/-- The bytes of the sections after relocation, each with its load address. -/
def loadedSections (bs : List Byte) (dst : Nat) : List (Nat × List Byte) :=
  let ss := sectionsOf bs
  let addrs := placeSections ss dst
  ((ss.zip addrs).zipIdx).map fun x =>
    (x.1.2, ((relocsOf bs).filter fun r => r.sect == x.2).foldl (fun b r => relocate (symbolsOf bs) addrs r b)
      ((bs.drop x.1.1.off).take x.1.1.size))

/-- The image that is written: the gaps between sections hold zeros. -/
def joinSections : List (Nat × List Byte) → List Byte
  | [] => []
  | x :: xs => x.2 ++
    match xs with
    | [] => []
    | y :: _ => List.replicate (y.1 - (x.1 + x.2.length)) 0 ++ joinSections xs

def byte64 (n : Nat) : List Byte := leBytes 64 n

/-- PMEAS after an object (R460). -/
def extendMeasure (m : BitVec 512) (bs : List Byte) : BitVec 512 :=
  Config.shake256 (byte64 m.toNat ++ byte64 (shake bs))

/-! Records of identity (R459, R460). -/

def identityRecord (s : State) : List Byte :=
  padTo 1952 (Config.mldsaPublic 0) ++ padTo 3309 Config.krytevoSignature ++ leBytes 3 0 ++ padTo 16 Config.serial ++
  wordBytes s.fw.version ++ wordBytes (devstat s)

/-- Bytes 0x000 to 0x8DF of a report. -/
def reportHead (p : Nat) (pmeas : Bool) (nonce : List Word) (s : State) : List Byte :=
  leBytes 4 0x52414B5A ++ leBytes 2 1 ++ leBytes 2 (bit pmeas) ++ nonce.flatMap wordBytes ++
  wordBytes s.fw.version ++ wordBytes s.fw.bootcount ++ byte64 s.fw.meas0.toNat ++ byte64 s.fw.meas1.toNat ++
  byte64 s.fw.meas2.toNat ++ byte64 (if pmeas then (s.part p).pmeas.toNat else 0) ++ leBytes 8 p ++
  padTo 1952 (Config.mldsaPublic s.fw.attKey)

/-- The certificate of the attestation key covers 0x028 to 0x0F7 and 0x140 to 0x8DF. -/
def certify (head : List Byte) : List Byte := Config.mldsaSign 0 ((head.drop 0x28).take 0xD0 ++ head.drop 0x140)

def report (p : Nat) (pmeas : Bool) (nonce : List Word) (s : State) : List Byte :=
  let h := reportHead p pmeas nonce s
  let r := h ++ padTo 3309 (certify h) ++ leBytes 3 0
  r ++ padTo 3309 (Config.mldsaSign s.fw.attKey r) ++ leBytes 3 0

end Sys2Proof.Machine
end

