-- ==== Sys2Proof/Machine/Commands.lean ====
section
/-!
DEFINITION. Firmware commands (R269 to R271, R284, R289, R314, R396, R403, R411, R414, R449 to R452, R461, R464,
R465, R468). A command is done with a status and a result, or it waits.
-/
namespace Sys2Proof.Machine
open Sys2Proof

def done (st : Nat) (s : State) : CmdOut × State := (some (st, 0), s)
def result (x : Word) (s : State) : CmdOut × State := (some (0, x), s)
def waits (s : State) : CmdOut × State := (none, s)

abbrev stUnused := 1
abbrev stRange := 2
abbrev stState := 4
abbrev stRejected := 5

/-- The arguments of a command from the n-th on are zero. -/
def Cmd.zeroFrom (c : Cmd) (n : Nat) : Bool := ([c.a0, c.a1, c.a2, c.a3, c.a4, c.a5, c.a6].drop n).all (· == 0)

/-- A command that uses n arguments. -/
def uses (n : Nat) (f : Cmd → State → CmdOut × State) (c : Cmd) (s : State) : CmdOut × State :=
  if Cmd.zeroFrom c n then f c s else done stUnused s

/-- A command whose DIE names one die. -/
def onDie (f : Nat → Cmd → State → CmdOut × State) (c : Cmd) (s : State) : CmdOut × State :=
  if c.die.toNat < 4 then f c.die.toNat c s else done stRange s

/-- A command of an existing partition. -/
def onPart (f : Nat → Cmd → State → CmdOut × State) (c : Cmd) (s : State) : CmdOut × State :=
  if c.part != 0 && (s.part c.part.toNat).present then f c.part.toNat c s else done stState s

/-! Identity and firmware (R456 to R460). -/

def cmdIdentify : Cmd → State → CmdOut × State := uses 1 fun c s =>
  result s.fw.version (hostStore c.a0.toNat (identityRecord s) s)

/-- ATTEST. The reserved bits of an argument are ignored (R6), here as in the other commands. -/
def cmdAttest : Cmd → State → CmdOut × State := uses 6 fun c s =>
  let p := c.part.toNat
  let pmeas := c.a5.getLsbD 0
  if pmeas && !(s.part p).present then done stState s
  else result 8896 (hostStore c.a0.toNat (report p pmeas [c.a1, c.a2, c.a3, c.a4] s) s)

/-- The slot that does not run takes a verified image. -/
def cmdFwStage : Cmd → State → CmdOut × State := uses 2 fun c s =>
  let bs := hostRead s c.a0.toNat c.a1.toNat
  if hostBad s c.a0.toNat c.a1.toNat || !imageVerifies s.fw.minimum bs then done stRejected s
  else result ((imgSecver bs).setWidth 64)
    (if s.fw.running = some true then { s with fw.slotA := bs, fw.staged := some false }
     else { s with fw.slotB := bs, fw.staged := some true })

/-! Partitions. -/

def cmdPartCreate : Cmd → State → CmdOut × State := uses 6 fun c s =>
  let p := c.part.toNat
  if p = 0 ∨ 7 < c.a4.toNat then done stRange s
  else if (s.part p).present then done stState s
  else done 0 (s.updPart p fun _ =>
    { present := true, pool := c.a0, segments := c.a1.toNat, overflow := c.a2, overflowLen := c.a3.toNat
      restarts := c.a4.setWidth 3, depotBytes := c.a5.toNat })

/-- A queue leaves its slot. -/
def unlistQueue (q : Nat) (s : State) : State :=
  let out := fun (x : HwSlot) => { x with queues := x.queues.filter (· != q), mapped := if x.mapped = some q then none else x.mapped }
  s.updDie (q / 65536) fun d => { d with slots := Sparse.trim {} (d.slots.map fun e => (e.1, out e.2)) }

/-- The requests for a queue: its record, its ring, its entries and their images. -/
def queueRequest (q a : Nat) : Bool := [0, 1, 2, 3].any fun kind => a == dispRequest kind q

/-- A queue is destroyed: entries not yet taken are discarded. -/
def destroyQueue (q : Nat) (s : State) : State :=
  dropRequests (q / 65536) (queueRequest q) ((unlistQueue q s).updQueue q fun x => { gen := x.gen + 1 })

/-- The requests for a channel: its cistern and its trigger entry. -/
def chanRequest (ch a : Nat) : Bool :=
  a == request agentChan (2 * ch) || a == request agentChan (2 * ch + 1) || a == dispRequest 6 ch

/-- A channel is destroyed: what a waiting firing has drawn returns, and so does its room in the pool. -/
def destroyChan (ch : Nat) (s : State) : State :=
  let c := s.chan ch
  let s1 := match c.trigEntry with
    | some bs => addReserve c.part (entryBudget bs).1 (entryBudget bs).2 s
    | none => s
  feedPool c.part (dropRequests (ch / 4096) (chanRequest ch) (s1.updChan ch fun _ => {}))

/-- The partition has a live task. -/
def liveTask (s : State) (p : Nat) : Bool := s.tasks.any fun e => e.2.present && e.2.part == p

/-- The open faults of a partition end as failed, with nothing left for the next partition of its number (R468). -/
def failFaults (p : Nat) (s : State) : State :=
  (List.range 4).foldl (fun s d =>
    let s1 := (((s.die d).faults.filter fun f => f.part == p).map (·.id)).foldl (fun s i => faultEnd d i false s) s
    if (s1.die d).xfails.any fun e => e.1 == p then
      s1.updDie d fun x => { x with xfails := x.xfails.filter fun e => e.1 != p }
    else s1) s

def cmdPartDestroy : Cmd → State → CmdOut × State := uses 0 (onPart fun p _ s =>
  if liveTask s p then done stState s
  else
    let s1 := ((s.queues.filter fun e => e.2.present && e.2.part == p).map (·.1)).foldl (fun s q => destroyQueue q s) s
    let s2 := ((s1.chans.filter fun e => e.2.state != 0 && e.2.part == p).map (·.1)).foldl (fun s c => destroyChan c s) s1
    let s3 := invalidate p (fun _ => true) (failFaults p s2)
    let s4 := { s3 with host.apertures := s3.host.apertures.filter fun e => e.2.part != p }
    done 0 (s4.updPart p fun _ => {}))

def cmdPartXlat : Cmd → State → CmdOut × State := uses 1 (onPart fun p c s =>
  let v := c.a0
  done 0 ((dropWalks p s).updPart p fun x =>
    { x with ftimeout := v.extractLsb' 48 16, root := v.extractLsb' 12 27, fpolicy := v.extractLsb' 2 2, enable := v.getLsbD 0 }))

/-- No access of a partition that a removed translation may serve is still to be performed. -/
def partQuiet (s : State) (p : Nat) : Bool := !(s.accs.any fun a => s.partOf a.seat == p && a.phase != .served)

/-- A window entry from its two halves (R403). -/
def windowEntry (lo hi : Word) : Window :=
  { base := hi, pkg := lo.extractLsb' 46 18, rwin := lo.extractLsb' 32 8, sizelog := lo.extractLsb' 20 6
    w := lo.getLsbD 3, kind := lo.extractLsb' 1 2, v := lo.getLsbD 0 }

def cmdPartWindow : Cmd → State → CmdOut × State := uses 3 (onPart fun p c s =>
  let n := c.a0.toNat
  if n = 0 ∨ 255 < n ∨ c.a2.toNat % 4096 ≠ 0 then done stRange s
  else
    let s1 := s.updPart p fun x => { x with windows := x.windows.set {} n (windowEntry c.a1 c.a2) }
    if partQuiet s1 p then done 0 s1 else waits s1)

/-- The cached leaf covers a part of a range. -/
def Xlat.meets (x : Xlat) (lo n : Nat) : Bool := decide (x.vpage * 2 ^ x.size < lo + n) && decide (lo < (x.vpage + 1) * 2 ^ x.size)

def cmdPartInval : Cmd → State → CmdOut × State := uses 2 (onPart fun p c s =>
  if c.a0.toNat % 4096 ≠ 0 then done stRange s
  else
    let s1 := invalidate p (fun x => x.meets c.a0.toNat c.a1.toNat) s
    if partQuiet s1 p then done 0 s1 else waits s1)

/-! Partition swap (R284, R285). -/

/-- Seats of a die that hold a step of a partition and have not given up its context. -/
def unsaved (s : State) (d p : Nat) : List Nat := (partSeats s d p).filter fun k => !(s.seat k).phase.stuck

/-- Swap out: recall, and wait until every context is saved; then the partition's translations go, and the accesses
that may use one are performed (R414). -/
def cmdSwapOut : Cmd → State → CmdOut × State := uses 1 (onDie fun d => onPart fun p _ s =>
  let s1 := s.updPart p fun x => { x with swapped := x.swapped ||| (1 : BitVec 4) <<< d }
  let s2 := (unsaved s1 d p).foldl (fun s k => recallSeat k s) s1
  if !(unsaved s2 d p).isEmpty then waits s2
  else
    let s3 := invalidate p (fun _ => true) s2
    if partQuiet s3 p then done 0 s3 else waits s3)

/-- Ready steps of a partition on a die, the earliest first. -/
def readySteps (s : State) (d p : Nat) : List Nat :=
  ((s.steps.filterMap fun e => match e.2.ready with
    | some r => if e.1 / 16384 == d && e.2.present && (s.task e.2.task).part == p then some (r, e.1) else none
    | none => none).mergeSort fun a b => decide (a.1 ≤ b.1)).map (·.2)

/-- Place a ready step on cores that firmware names, where it fits; one of an invalid slot stays ready (R322). -/
def placeOn (d : Nat) (mask : Word) (s : State) (st : Nat) : State :=
  let c : Cand := ⟨(s.step1 st).task, some st⟩
  if !(hwSlot s d (s.task c.task).slot).valid then s
  else
    let ks := (openSeats s d c).filter fun k => mask.getLsbD (coreOf k % 64)
    match assignSeats d (s.task c.task).wb (groupsOf s c) ks s with
    | none => s
    | some (xs, s1) => xs.foldl (placeGroup d c.task 0 0) (endReserve d c (xs.flatMap fun x => x.2.map (·.2)) s1)

/-- Contexts of a partition are being restored on a die. -/
def restoring (s : State) (d p : Nat) : Bool := (partSeats s d p).any fun k => (s.seat k).phase == .restoring

/-- Swap in: place the steps, and wait until their contexts are restored. -/
def cmdSwapIn : Cmd → State → CmdOut × State := uses 2 (onDie fun d => onPart fun p c s =>
  let rest := fun (s : State) => if restoring s d p then waits s else done 0 s
  if s.fw.taken.isSome then rest s
  else if !(s.part p).swapped.getLsbD d then done stState s
  else
    let s1 := s.updPart p fun x => { x with swapped := x.swapped &&& ~~~((1 : BitVec 4) <<< d) }
    rest ((readySteps s1 d p).foldl (placeOn d c.a1) s1))

def cmdPartSwap : Cmd → State → CmdOut × State := fun c s =>
  if c.a0 = 0 then cmdSwapOut c s else if c.a0 = 1 then cmdSwapIn c s else uses 2 (fun _ s => done stRange s) c s

def cmdPartReserve : Cmd → State → CmdOut × State := uses 2 (onPart fun p c s =>
  let i := ((s.part p).ibud.toNat : Int) + c.a0.toInt
  let t := ((s.part p).tbud.toNat : Int) + c.a1.toInt
  if i < 0 ∨ 2 ^ 64 ≤ i ∨ t < 0 ∨ 2 ^ 64 ≤ t then done stRange s
  else result (BitVec.ofInt 64 i) (s.updPart p fun x => { x with ibud := BitVec.ofInt 64 i, tbud := BitVec.ofInt 64 t }))

/-! Traps (R269 to R271, R314). -/

def cmdTrapPolicy : Cmd → State → CmdOut × State := uses 2 (onPart fun p c s =>
  if c.a0.toNat = 0 ∨ 0x14 < c.a0.toNat ∨ 3 < c.a1.toNat then done stRange s
  else done 0 (s.updPart p fun x => { x with policies := x.policies.set 0 c.a0.toNat (c.a1.setWidth 2) }))

/-- The seat of a trap handle (R450). -/
def handleSeat (h : Word) : Option Nat :=
  let n := h.toNat
  if 2 ^ 18 ≤ n ∨ n / 2 ^ 14 % 4 ≠ 0 ∨ n / 2 % 128 ≠ 0 then none
  else some (n / 2 ^ 16 * 128 + n / 2 ^ 8 % 64 * 2 + n % 2)

/-- The step of a seat is one of the partition that a command names; 0 names none. -/
def partMatches (s : State) (c : Cmd) (k : Nat) : Bool := c.part == 0 || s.partOf k == c.part.toNat

def cmdDispose (d : Dispose) : Cmd → State → CmdOut × State := uses 4 fun c s =>
  match handleSeat c.a0 with
  | none => done stRange s
  | some k =>
    if (s.seat k).phase != .trapHeld || !partMatches s c k then done stState s
    else if c.a3 = 0 then disposeHeld k d (c.a2.setWidth 8) none s
    else if hostBad s c.a3.toNat 0x4000 then done stRejected s
    else disposeHeld k d (c.a2.setWidth 8) (some (hostRead s c.a3.toNat 0x4000)) s

def cmdTrapDispose : Cmd → State → CmdOut × State := fun c s =>
  match c.a1.toNat with
  | 0 => cmdDispose .retry c s
  | 1 => cmdDispose .masked c s
  | 2 => cmdDispose .finish c s
  | 3 => cmdDispose .restart c s
  | _ => uses 4 (fun _ s => done stRange s) c s

def cmdTrapRead : Cmd → State → CmdOut × State := uses 2 fun c s =>
  match handleSeat c.a0 with
  | none => done stRange s
  | some k =>
    if (s.seat k).phase == .idle || !partMatches s c k then done stState s
    else done 0 (hostStore c.a1.toNat (headBytes (s.ctx k) (s.seat k).share) s)

def cmdShareRelease : Cmd → State → CmdOut × State := uses 1 fun c s =>
  match handleSeat c.a0 with
  | none => done stRange s
  | some k => match releaseShare k s with
    | some s1 => done 0 s1
    | none => done stState s

def cmdResolve (retry : Bool) : Cmd → State → CmdOut × State := uses 2 (onDie fun d c s =>
  if 2 ^ 32 ≤ c.a0.toNat then done stRange s else done 0 (faultEnd d (c.a0.setWidth 32) retry s))

def cmdFaultResolve : Cmd → State → CmdOut × State := fun c s =>
  match c.a1.toNat with
  | 0 => cmdResolve true c s
  | 1 => cmdResolve false c s
  | _ => uses 2 (fun _ s => done stRange s) c s

def cmdAperture : Cmd → State → CmdOut × State := uses 3 fun c s =>
  if 63 < c.a0.toNat ∨ c.a1.toNat % 4096 ≠ 0 then done stRange s
  else if c.a2.getLsbD 0 && !(c.part != 0 && (s.part c.part.toNat).present) then done stState s
  else
    let x : Aperture := if c.a2.getLsbD 0 then { valid := true, part := c.part.toNat, base := c.a1 } else {}
    done 0 { s with host.apertures := s.host.apertures.set {} c.a0.toNat x }

/-! Queues, tasks, slots and the timetable (R317, R322 to R324, R346). -/

/-- Firmware can write the bytes of a record, one page or two (R451). -/
def fwReaches (d p va n : Nat) (s : State) : Bool × State :=
  match nowXlate d p (BitVec.ofNat 64 va) agentFw .write s with
  | (none, s1) => (false, s1)
  | (some _, s1) =>
    match nowXlate d p (BitVec.ofNat 64 (va + n - 1)) agentFw .write s1 with
    | (none, s2) => (false, s2)
    | (some _, s2) => (true, s2)

def cmdQueueCreate : Cmd → State → CmdOut × State := uses 5 (onDie fun d c s =>
  let q := d * 65536 + c.a0.toNat
  if 65535 < c.a0.toNat ∨ c.a3.toNat = 0 ∨ 16 < c.a3.toNat ∨ c.a2.toNat % 4096 ≠ 0 then done stRange s
  else onPart (fun p c s =>
    if (s.queue q).present then done stState s
    else
      let x : Queue := { present := true, ring := c.a2, record := c.a1, sizelog := c.a3.toNat, device := c.a4.getLsbD 0, part := p
                         gen := (s.queue q).gen }
      match fwReaches d p x.record.toNat 64 s with
      | (false, s1) => done stState s1
      | (true, s1) => done 0 ((s1.fwWrite d p x.record.toNat x.bytes).2.updQueue q fun _ => x)) c s)

/-- A queue of the die and of the partition that the command names. -/
def onQueue (f : Nat → Cmd → State → CmdOut × State) : Cmd → State → CmdOut × State := onDie fun d c s =>
  let q := d * 65536 + c.a0.toNat
  if 65535 < c.a0.toNat then done stRange s
  else if !(s.queue q).present || (s.queue q).part != c.part.toNat then done stState s
  else f q c s

def cmdQueueDestroy : Cmd → State → CmdOut × State := uses 1 (onQueue fun q _ s => done 0 (destroyQueue q s))

/-- The queue leaves the list it is in, mapped or not, and stands last in that of the slot. -/
def assignQueue (q n : Nat) (s : State) : State :=
  let d := q / 65536
  let out := match (s.die d).slots.find? fun e => e.2.mapped == some q with
    | some e => switchOut d e.1 s
    | none => s
  putQueueRec q ((updSlot d n (fun x => { x with queues := x.queues ++ [q] }) (unlistQueue q out)).updQueue q fun y =>
    { y with slot := n })

def cmdQueueAssign : Cmd → State → CmdOut × State := uses 2 fun c s =>
  if 63 < c.a1.toNat then done stRange s else onQueue (fun q c s => done 0 (assignQueue q c.a1.toNat s)) c s

/-- The live task of an entry. -/
def taskOf (s : State) (q : Nat) (k : BitVec 32) : Option Nat :=
  (s.tasks.find? fun e => e.2.present && e.2.queue == q && e.2.index == k && !e.2.finishing).map (·.1)

/-- The step holds a seat that must give it up first. -/
def stepBusy (s : State) (st : Nat) : Bool := (stepSeats s st).any fun k => !(s.seat k).phase.stuck

/-- Recall the steps of a task and end them once they have left their seats; the task completes with status 5. -/
def endTask (t : Nat) (s : State) : CmdOut × State :=
  let s1 := s.updTask t fun x => { x with status := 5, code := 0, bundle := 0 }
  let sts := taskSteps s1 t
  let s2 := sts.foldl (fun s st => if stepBusy s st then s else cancelStep s st)
    ((sts.flatMap (stepSeats s1)).foldl (fun s k => recallSeat k s) s1)
  if sts.any fun st => stepBusy s2 st || workOpen s2 st then
    waits { s2 with fw.ending := some ((s.task t).queue, (s.task t).index.toNat) }
  else
    let s3 := dropUnplaced t s2
    let s4 := sts.foldl (fun s st => endStep st none s) s3
    done 0 { (if sts.isEmpty then checkTask t s4 else s4) with fw.ending := none }

def cmdTaskEnd : Cmd → State → CmdOut × State := uses 2 (onDie fun d c s =>
  let q := d * 65536 + c.a0.toNat
  if 65535 < c.a0.toNat ∨ 2 ^ 32 ≤ c.a1.toNat then done stRange s
  else match taskOf s q (c.a1.setWidth 32) with
    | some t => if (s.task t).part = c.part.toNat then endTask t s else done stState s
    | none => if s.fw.ending = some (q, c.a1.toNat) then done 0 { s with fw.ending := none } else done stState s)

/-- SLOTCFG (R322). -/
def writeSlotcfg (v : Word) (x : HwSlot) : HwSlot :=
  let m := v.extractLsb' 32 17
  { x with
    maxrun := if 1 ≤ m.toNat ∧ m.toNat ≤ 65536 then m else x.maxrun
    part := v.extractLsb' 24 8, park := v.extractLsb' 16 8, cls := v.extractLsb' 2 3, valid := v.getLsbD 0 }

def cmdSlotSet : Cmd → State → CmdOut × State := uses 2 (onDie fun d c s =>
  if 63 < c.a0.toNat then done stRange s else done 0 (updSlot d c.a0.toNat (writeSlotcfg c.a1) s))

/-- A timetable row (R324). -/
def rowOf (v : Word) : TRow :=
  { tgrant := v.extractLsb' 48 16, grant := v.extractLsb' 24 24, part := v.extractLsb' 16 8, valid := v.getLsbD 7
    slot := v.extractLsb' 0 6 }

def cmdRowSet : Cmd → State → CmdOut × State := uses 2 (onDie fun d c s =>
  if 255 < c.a0.toNat then done stRange s
  else done 0 (s.updDie d fun x => { x with rows := x.rows.set {} c.a0.toNat (rowOf c.a1) }))

/-! Channels (R347, R348, R364, R365). -/

def cmdChanCreate : Cmd → State → CmdOut × State := uses 3 (onDie fun d c s =>
  let ch := d * 4096 + c.a0.toNat
  let w := c.a1.extractLsb' 0 8
  let q := c.a1.extractLsb' 16 12
  let m := c.a1.extractLsb' 32 12
  if 4095 < c.a0.toNat ∨ w.toNat = 0 ∨ 128 < w.toNat ∨ m.toNat < q.toNat ∨ c.a2.toNat % 128 ≠ 0 then done stRange s
  else onPart (fun p c s =>
    if (s.chan ch).state != 0 then done stState s
    else done 0 (s.updChan ch fun _ =>
      { state := 1, armed := true, cls := c.a1.extractLsb' 8 3, part := p, quota := q.toNat, qmax := m.toNat
        width := w.toNat, tqueue := (c.a1.extractLsb' 48 16).toNat, trig := c.a2 })) c s)

/-- A channel of the die and of the partition that the command names. -/
def onChan (f : Nat → Cmd → State → CmdOut × State) : Cmd → State → CmdOut × State := onDie fun d c s =>
  let ch := d * 4096 + c.a0.toNat
  if 4095 < c.a0.toNat then done stRange s
  else if (s.chan ch).state = 0 ∨ (s.chan ch).part ≠ c.part.toNat then done stState s
  else f ch c s

def cmdChanDestroy : Cmd → State → CmdOut × State := uses 1 (onChan fun ch _ s =>
  if (s.chan ch).rbound || (s.chan ch).wbound then done stState s else done 0 (destroyChan ch s))

def cmdChanSet : Cmd → State → CmdOut × State := uses 3 (onChan fun ch c s =>
  if 0xFFFF < c.a2.toNat ∨ (c.a2 ≠ 0xFFFF ∧ (s.chan ch).qmax < c.a2.toNat) then done stRange s
  else
    let s1 := if c.a2 = 0xFFFF then s else feedProxy ch (s.updChan ch fun x => { x with quota := c.a2.toNat })
    done 0 (if c.a1.getLsbD 0 then faultChan ch s1 else s1))

/-! Code, cores, power and reset (R289, R461, R464, R465). -/

/-- Place an accepted object; the destination is written from the first section on. One that would reach beyond the
addresses does not translate. -/
def placeObject (p : Nat) (bs : List Byte) (dst : Nat) (s : State) : CmdOut × State :=
  let xs := loadedSections bs dst
  let image := joinSections xs
  let start := (xs.map (·.1)).headD dst
  if 2 ^ 64 < start + image.length then done stState s
  else match s.fwWrite 0 p start image with
  | (false, s1) => done stState s1
  | (true, s1) =>
    let span := if xs.isEmpty then 0 else start + image.length - dst
    result (BitVec.ofNat 64 span) (s1.updPart p fun x => { x with pmeas := extendMeasure x.pmeas bs })

def cmdCodeLoad : Cmd → State → CmdOut × State := uses 3 (onPart fun p c s =>
  let bs := hostRead s c.a0.toNat c.a1.toNat
  if hostBad s c.a0.toNat c.a1.toNat || !objectOk bs then done stRejected s
  else placeObject p bs c.a2.toNat s)

def cmdCoreRetire : Cmd → State → CmdOut × State := uses 1 (onDie fun d c s =>
  let k := d * 64 + c.a0.toNat
  if 63 < c.a0.toNat then done stRange s
  else if (s.core k).retired then done stState s
  else
    let s1 := retireCore k s
    result (BitVec.ofNat 64 (s1.die d).sparesLeft) s1)

def cmdPowerCap : Cmd → State → CmdOut × State := uses 1 fun c s =>
  if c.a0.toNat < 600 ∨ 2400 < c.a0.toNat then done stRange s
  else done 0 { s with fw.cap := c.a0.setWidth 12 }

/-- RESET; the reset follows its completion. -/
def cmdReset : Cmd → State → CmdOut × State := uses 1 fun _ s => done 0 s

/-! The command ring (R443, R449). -/

/-- The completion of a command; one whose effects do not all hold yet stays taken. -/
def completeCmd (op : BitVec 16) (c : Cmd) (r : CmdOut × State) : State :=
  match r.1 with
  | none => { r.2 with fw.taken := some (op, c) }
  | some (st, x) =>
    let s := r.2
    let p := s.host.cpl
    let bs := leBytes 4 c.tag.toNat ++ leBytes 2 op.toNat ++ leBytes 2 st ++ leBytes 8 x.toNat
    (hostStore (p.base.toNat + 16 * (p.tail.toNat % p.entries)) bs
      { s with host.cpl.tail := p.tail + 1, fw.taken := none }).msix 0

/-- Firmware can take a command: it runs, it has completed the one before, the completion ring has room, and after
FATAL the command is RESET. -/
def canTake (op : BitVec 16) (s : State) : Bool :=
  s.host.ready && s.fw.taken.isNone && !s.host.cpl.full && (!s.host.fatal || op == 0x0050)

/-- A command wakes the dies (R462). -/
def wakeAll (s : State) : State := [0, 1, 2, 3].foldl (fun s d => s.wakeDie d) s

/-- Firmware carries out a command. -/
def runCmd (op : BitVec 16) (f : Cmd → State → CmdOut × State) (c : Cmd) (s : State) : State :=
  if canTake op s then completeCmd op c (f c (wakeAll s)) else s

/-- RESET: the reset begins once the completion is written. -/
def runReset (c : Cmd) (s : State) : State :=
  if canTake 0x0050 s then
    let s1 := completeCmd 0x0050 c (cmdReset c (wakeAll s))
    if Cmd.zeroFrom c 1 then startReset (.warm (c.a0.getLsbD 0)) s1 else s1
  else s

/-- The command of an opcode; none where there is none. -/
def cmdOf (op : Nat) : Option (Cmd → State → CmdOut × State) :=
  match op with
  | 0x0001 => some cmdIdentify
  | 0x0002 => some cmdAttest
  | 0x0003 => some cmdFwStage
  | 0x0010 => some cmdPartCreate
  | 0x0011 => some cmdPartDestroy
  | 0x0012 => some cmdPartXlat
  | 0x0013 => some cmdPartWindow
  | 0x0014 => some cmdPartInval
  | 0x0015 => some cmdPartSwap
  | 0x0016 => some cmdPartReserve
  | 0x0017 => some cmdTrapPolicy
  | 0x0018 => some cmdTrapDispose
  | 0x0019 => some cmdTrapRead
  | 0x001A => some cmdShareRelease
  | 0x001B => some cmdFaultResolve
  | 0x001C => some cmdAperture
  | 0x0020 => some cmdQueueCreate
  | 0x0021 => some cmdQueueDestroy
  | 0x0022 => some cmdQueueAssign
  | 0x0023 => some cmdTaskEnd
  | 0x0028 => some cmdSlotSet
  | 0x0029 => some cmdRowSet
  | 0x0030 => some cmdChanCreate
  | 0x0031 => some cmdChanDestroy
  | 0x0032 => some cmdChanSet
  | 0x0038 => some cmdCodeLoad
  | 0x0040 => some cmdCoreRetire
  | 0x0048 => some cmdPowerCap
  | _ => none

/-- A command with an opcode that is not in R452. -/
def cmdUnknown (_ : Cmd) (s : State) : CmdOut × State := done 1 s

/-- The command record of R449. -/
def parseCmd (bs : List Byte) : Cmd :=
  let a := fun (i : Nat) => BitVec.ofNat 64 (fieldAt bs (8 + 8 * i) 8)
  ⟨BitVec.ofNat 8 (fieldAt bs 2 1), BitVec.ofNat 8 (fieldAt bs 3 1), BitVec.ofNat 32 (fieldAt bs 4 4),
    a 0, a 1, a 2, a 3, a 4, a 5, a 6⟩

/-- Firmware takes the next command of the ring: CHEAD counts it (R446). -/
def takeCmd (s : State) : State :=
  let r := s.host.cmd
  if r.used = 0 || r.entries = 0 then s
  else
    let bs := hostRead s (r.slot r.head) 64
    let op : BitVec 16 := BitVec.ofNat 16 (fieldAt bs 0 2)
    let c := parseCmd bs
    if !canTake op s then s
    else
      let s1 := { s with host.cmd.head := r.head + 1 }
      if op = 0x0050 then runReset c s1 else runCmd op ((cmdOf op.toNat).getD cmdUnknown) c s1

/-- Firmware goes on with the command that it has taken, whatever becomes of the ring, or takes the next one; what was
issued to lost packages ends (R449, R492). -/
def firmwareTurn (s0 : State) : State :=
  let s := endOwed s0
  if !s.host.ready then s
  else match s.fw.taken with
    | some x => if s.host.cpl.full then s else completeCmd x.1 x.2 ((cmdOf x.1.toNat).getD cmdUnknown x.2 s)
    | none => takeCmd s

end Sys2Proof.Machine
end

