-- ==== Sys2Proof/Machine/ExecCommand.lean ====
section
/-!
DEFINITION. The firmware commands as they are taken from the ring. A command with variants takes the variant that its mnemonic
names.
-/
namespace Sys2Proof.Machine
open Sys2Proof

/-- IDENTIFY (R459). -/
def execIdentify (c : Cmd) (s : State) : Out := .next (runCmd 0x0001 cmdIdentify c s)
/-- ATTEST (R460). -/
def execAttest (c : Cmd) (s : State) : Out := .next (runCmd 0x0002 cmdAttest c s)
/-- FW_STAGE (R457). -/
def execFwStage (c : Cmd) (s : State) : Out := .next (runCmd 0x0003 cmdFwStage c s)
/-- PART_CREATE (R452). -/
def execPartCreate (c : Cmd) (s : State) : Out := .next (runCmd 0x0010 cmdPartCreate c s)
/-- PART_DESTROY (R452). -/
def execPartDestroy (c : Cmd) (s : State) : Out := .next (runCmd 0x0011 cmdPartDestroy c s)
/-- PART_XLAT (R396). -/
def execPartXlat (c : Cmd) (s : State) : Out := .next (runCmd 0x0012 cmdPartXlat c s)
/-- PART_WINDOW (R403). -/
def execPartWindow (c : Cmd) (s : State) : Out := .next (runCmd 0x0013 cmdPartWindow c s)
/-- PART_INVAL (R414). -/
def execPartInval (c : Cmd) (s : State) : Out := .next (runCmd 0x0014 cmdPartInval c s)
/-- PART_SWAP_OUT (R284). -/
def execPartSwapOut (c : Cmd) (s : State) : Out := .next (runCmd 0x0015 cmdPartSwap { c with a0 := 0 } s)
/-- PART_SWAP_IN (R284). -/
def execPartSwapIn (c : Cmd) (s : State) : Out := .next (runCmd 0x0015 cmdPartSwap { c with a0 := 1 } s)
/-- PART_RESERVE (R452). -/
def execPartReserve (c : Cmd) (s : State) : Out := .next (runCmd 0x0016 cmdPartReserve c s)
/-- TRAP_POLICY (R269). -/
def execTrapPolicy (c : Cmd) (s : State) : Out := .next (runCmd 0x0017 cmdTrapPolicy c s)
/-- TRAP_DISPOSE_RETRY (R270). -/
def execTrapDisposeRetry (c : Cmd) (s : State) : Out := .next (runCmd 0x0018 cmdTrapDispose { c with a1 := 0 } s)
/-- TRAP_DISPOSE_MASKED_RETRY (R270). -/
def execTrapDisposeMaskedRetry (c : Cmd) (s : State) : Out := .next (runCmd 0x0018 cmdTrapDispose { c with a1 := 1 } s)
/-- TRAP_DISPOSE_END (R272). -/
def execTrapDisposeEnd (c : Cmd) (s : State) : Out := .next (runCmd 0x0018 cmdTrapDispose { c with a1 := 2 } s)
/-- TRAP_DISPOSE_RESTART (R271). -/
def execTrapDisposeRestart (c : Cmd) (s : State) : Out := .next (runCmd 0x0018 cmdTrapDispose { c with a1 := 3 } s)
/-- TRAP_READ (R452). -/
def execTrapRead (c : Cmd) (s : State) : Out := .next (runCmd 0x0019 cmdTrapRead c s)
/-- SHARE_RELEASE (R314). -/
def execShareRelease (c : Cmd) (s : State) : Out := .next (runCmd 0x001A cmdShareRelease c s)
/-- FAULT_RESOLVE_RETRY (R411). -/
def execFaultResolveRetry (c : Cmd) (s : State) : Out := .next (runCmd 0x001B cmdFaultResolve { c with a1 := 0 } s)
/-- FAULT_RESOLVE_FAIL (R411). -/
def execFaultResolveFail (c : Cmd) (s : State) : Out := .next (runCmd 0x001B cmdFaultResolve { c with a1 := 1 } s)
/-- APERTURE (R445). -/
def execAperture (c : Cmd) (s : State) : Out := .next (runCmd 0x001C cmdAperture c s)
/-- QUEUE_CREATE (R317). -/
def execQueueCreate (c : Cmd) (s : State) : Out := .next (runCmd 0x0020 cmdQueueCreate c s)
/-- QUEUE_DESTROY (R452). -/
def execQueueDestroy (c : Cmd) (s : State) : Out := .next (runCmd 0x0021 cmdQueueDestroy c s)
/-- QUEUE_ASSIGN (R323). -/
def execQueueAssign (c : Cmd) (s : State) : Out := .next (runCmd 0x0022 cmdQueueAssign c s)
/-- TASK_END (R452). -/
def execTaskEnd (c : Cmd) (s : State) : Out := .next (runCmd 0x0023 cmdTaskEnd c s)
/-- SLOT_SET (R322). -/
def execSlotSet (c : Cmd) (s : State) : Out := .next (runCmd 0x0028 cmdSlotSet c s)
/-- ROW_SET (R324). -/
def execRowSet (c : Cmd) (s : State) : Out := .next (runCmd 0x0029 cmdRowSet c s)
/-- CHAN_CREATE (R348). -/
def execChanCreate (c : Cmd) (s : State) : Out := .next (runCmd 0x0030 cmdChanCreate c s)
/-- CHAN_DESTROY (R452). -/
def execChanDestroy (c : Cmd) (s : State) : Out := .next (runCmd 0x0031 cmdChanDestroy c s)
/-- CHAN_SET (R452). -/
def execChanSet (c : Cmd) (s : State) : Out := .next (runCmd 0x0032 cmdChanSet c s)
/-- CODE_LOAD (R461). -/
def execCodeLoad (c : Cmd) (s : State) : Out := .next (runCmd 0x0038 cmdCodeLoad c s)
/-- CORE_RETIRE (R289). -/
def execCoreRetire (c : Cmd) (s : State) : Out := .next (runCmd 0x0040 cmdCoreRetire c s)
/-- POWER_CAP (R464). -/
def execPowerCap (c : Cmd) (s : State) : Out := .next (runCmd 0x0048 cmdPowerCap c s)
/-- RESET (R465). -/
def execReset (c : Cmd) (s : State) : Out := .next (runReset c s)
/-- UNKNOWN_OPCODE: an opcode of the table names its own command (R452). -/
def execUnknownOpcode (opcode : BitVec 16) (c : Cmd) (s : State) : Out :=
  .next (if opcode = 0x0050 then runReset c s else runCmd opcode ((cmdOf opcode.toNat).getD cmdUnknown) c s)

end Sys2Proof.Machine
end

