-- ==== Sys2Proof/Machine/ExecControl.lean ====
section
/-!
DEFINITION. The C instructions and those of the quad: each issues as a bundle of its own (R42, R56).
-/
namespace Sys2Proof.Machine
open Sys2Proof

/-- NOP (R74). -/
def execNop (g : Guard) (s : State) : Out := issueOne (.nop g) s
/-- BR (R79). -/
def execBr (g : Guard) (disp : BitVec 32) (s : State) : Out := issueOne (.br g disp) s
/-- BRM (R79). -/
def execBrm (tests : List BrmTest) (s : State) : Out := issueOne (.brm tests) s
/-- JR (R79). -/
def execJr (g : Guard) (ra : BitVec 6) (s : State) : Out := issueOne (.jr g ra) s
/-- CALL (R79). -/
def execCall (g : Guard) (disp : BitVec 32) (s : State) : Out := issueOne (.call g disp) s
/-- CALLR (R79). -/
def execCallr (g : Guard) (ra : BitVec 6) (s : State) : Out := issueOne (.callr g ra) s
/-- RET (R79). -/
def execRet (g : Guard) (s : State) : Out := issueOne (.ret g) s
/-- LOOP (R80). -/
def execLoop (g : Guard) (count : BitVec 16) (last : BitVec 16) (s : State) : Out := issueOne (.loop g count last) s
/-- LOOPR (R80). -/
def execLoopr (g : Guard) (ra : BitVec 6) (last : BitVec 16) (s : State) : Out := issueOne (.loopr g ra last) s
/-- LEXIT (R85). -/
def execLexit (g : Guard) (s : State) : Out := issueOne (.lexit g) s
/-- TICK (R163). -/
def execTick (g : Guard) (n : BitVec 8) (s : State) : Out := issueOne (.tick g n) s
/-- ADV (R164). -/
def execAdv (g : Guard) (sig : BitVec 7) (n : BitVec 8) (s : State) : Out := issueOne (.adv g sig n) s
/-- YPT (R107). -/
def execYpt (g : Guard) (s : State) : Out := issueOne (.ypt g) s
/-- YIELD (R107). -/
def execYield (g : Guard) (s : State) : Out := issueOne (.yield g) s
/-- CONT (R109). -/
def execCont (g : Guard) (disp : BitVec 32) (s : State) : Out := issueOne (.cont g disp) s
/-- RESUME (R112). -/
def execResume (g : Guard) (s : State) : Out := issueOne (.resume g) s
/-- TOPUP (R106). -/
def execTopup (g : Guard) (ra : BitVec 6) (tbud : Bool) (s : State) : Out := issueOne (.topup g ra tbud) s
/-- EXIT (R93). -/
def execExit (g : Guard) (s : State) : Out := issueOne (.exit g) s
/-- TRAP (R94). -/
def execTrap (g : Guard) (code : BitVec 16) (s : State) : Out := issueOne (.trap g code) s
/-- WAITEV (R86). -/
def execWaitev (g : Guard) (mask : BitVec 16) (s : State) : Out := issueOne (.waitev g mask) s
/-- SIGEV (R88). -/
def execSigev (g : Guard) (sc : Scope) (target : BitVec 6) (ev : BitVec 4) (s : State) : Out := issueOne (.sigev g sc target ev) s
/-- BAR (R90). -/
def execBar (g : Guard) (sc : Scope) (id : BitVec 6) (s : State) : Out := issueOne (.bar g sc id) s
/-- FUSE (R304). -/
def execFuse (g : Guard) (span : BitVec 3) (s : State) : Out := issueOne (.fuse g span) s
/-- DECOUPLE (R309). -/
def execDecouple (g : Guard) (s : State) : Out := issueOne (.decouple g) s
/-- REJOIN (R310). -/
def execRejoin (g : Guard) (s : State) : Out := issueOne (.rejoin g) s

end Sys2Proof.Machine
end

