-- ==== Sys2Proof/Machine/ExecCopy.lean ====
section
/-!
DEFINITION. The X instructions: each issues as a bundle of its own (R44, R56).
-/
namespace Sys2Proof.Machine
open Sys2Proof

/-- CLD (R223). -/
def execCld (g : Guard) (o : XcOps) (s : State) : Out := issueOne (.cld g o) s
/-- CST (R226). -/
def execCst (g : Guard) (o : XcOps) (s : State) : Out := issueOne (.cst g o) s
/-- CLDA (R228). -/
def execClda (g : Guard) (o : XcOps) (s : State) : Out := issueOne (.clda g o) s
/-- CSTR (R228). -/
def execCstr (g : Guard) (o : XcOps) (s : State) : Out := issueOne (.cstr g o) s
/-- CGATH (R230). -/
def execCgath (g : Guard) (o : XgOps) (s : State) : Out := issueOne (.cgath g o) s
/-- CSCAT (R230). -/
def execCscat (g : Guard) (o : XgOps) (s : State) : Out := issueOne (.cscat g o) s
/-- SCACC (R235). -/
def execScacc (g : Guard) (o : XsOps) (s : State) : Out := issueOne (.scacc g o) s
/-- CCANCEL (R234). -/
def execCcancel (g : Guard) (h : BitVec 4) (s : State) : Out := issueOne (.ccancel g h) s
/-- CWAIT (R233). -/
def execCwait (g : Guard) (h : BitVec 4) (s : State) : Out := issueOne (.cwait g h) s
/-- DSET (R218). -/
def execDset (g : Guard) (d : BitVec 4) (field : BitVec 4) (ra : BitVec 6) (s : State) : Out := issueOne (.dset g d field ra) s
/-- FENCE (R229). -/
def execFence (g : Guard) (sc : Scope) (k : FenceKind) (mask : BitVec 8) (s : State) : Out := issueOne (.fence g sc k mask) s
/-- CSUB (R225). -/
def execCsub (g : Guard) (o : XcOps) (s : State) : Out := issueOne (.csub g o) s
/-- CPULL (R226). -/
def execCpull (g : Guard) (o : XcOps) (s : State) : Out := issueOne (.cpull g o) s
/-- CUNSUB (R234). -/
def execCunsub (g : Guard) (h : BitVec 4) (s : State) : Out := issueOne (.cunsub g h) s
/-- NMCMD (R435). -/
def execNmcmd (g : Guard) (sig : BitVec 7) (ra : BitVec 6) (h : BitVec 4) (s : State) : Out := issueOne (.nmcmd g sig ra h) s
/-- NMFENCE (R440). -/
def execNmfence (g : Guard) (sc : Scope) (k : FenceKind) (mask : BitVec 8) (s : State) : Out := issueOne (.nmfence g sc k mask) s
/-- NMATOM (R439). -/
def execNmatom (g : Guard) (sig : BitVec 7) (ra : BitVec 6) (h : BitVec 4) (s : State) : Out := issueOne (.nmatom g sig ra h) s
/-- CHSEND (R354). -/
def execChsend (g : Guard) (sig : BitVec 7) (ra : BitVec 6) (rd : BitVec 6) (s : State) : Out := issueOne (.chsend g sig ra rd) s
/-- CHSEND_TRY (R354). -/
def execChsendTry (g : Guard) (sig : BitVec 7) (ra : BitVec 6) (rd : BitVec 6) (s : State) : Out := issueOne (.chsendTry g sig ra rd) s
/-- CHBIND (R352). -/
def execChbind (g : Guard) (sig : BitVec 7) (ra : BitVec 6) (rd : BitVec 6) (s : State) : Out := issueOne (.chbind g sig ra rd) s
/-- CHBIND_W (R353). -/
def execChbindW (g : Guard) (ra : BitVec 6) (rd : BitVec 6) (s : State) : Out := issueOne (.chbindW g ra rd) s
/-- CHCLOSE (R358). -/
def execChclose (g : Guard) (ra : BitVec 6) (rd : BitVec 6) (s : State) : Out := issueOne (.chclose g ra rd) s
/-- CHCLOSE_W (R358). -/
def execChcloseW (g : Guard) (ra : BitVec 6) (rd : BitVec 6) (s : State) : Out := issueOne (.chcloseW g ra rd) s
/-- CHSTAT (R366). -/
def execChstat (g : Guard) (ra : BitVec 6) (rd : BitVec 6) (s : State) : Out := issueOne (.chstat g ra rd) s
/-- LAUNCH (R342). -/
def execLaunch (g : Guard) (sig : BitVec 7) (ra : BitVec 6) (h : BitVec 4) (s : State) : Out := issueOne (.launch g sig ra h) s
/-- WSEND (R488). -/
def execWsend (g : Guard) (sig : BitVec 7) (ra : BitVec 6) (h : BitVec 4) (s : State) : Out := issueOne (.wsend g sig ra h) s

end Sys2Proof.Machine
end

