-- ==== Sys2Proof/Machine/ExecDispatch.lean ====
section
/-!
DEFINITION. The events of the dispatcher and of the channel engine.
-/
namespace Sys2Proof.Machine
open Sys2Proof

/-- TIMETABLE_VISIT (R325). -/
def execTimetableVisit (die : Nat) (s : State) : Out := .next (pumpWork die (timetableVisit die s))
/-- RESERVED_PLACEMENT (R326). -/
def execReservedPlacement (die : Nat) (s : State) : Out := .next (reservedPlacement die s)
/-- CONVOY_PLACEMENT (R334). -/
def execConvoyPlacement (die : Nat) (s : State) : Out := .next (convoyPlacement die s)
/-- GRAPH_RETURN (R339). -/
def execGraphReturn (die : Nat) (n : Nat) (s : State) : Out := .next (graphReturn die n s)
/-- LAUNCH_ENTRY_WRITE (R342). -/
def execLaunchEntryWrite (die : Nat) (n : Nat) (s : State) : Out := .next (launchEntryWrite die n s)
/-- GROUP_PARK (R343). -/
def execGroupPark (die : Nat) (step : Nat) (s : State) : Out := .next (groupPark die step s)
/-- GROUP_WAKE (R344). -/
def execGroupWake (die : Nat) (step : Nat) (s : State) : Out := .next (groupWake die step s)
/-- WAIT_EXAMINATION (R345). -/
def execWaitExamination (k : Nat) (s : State) : Out := .next (waitExamination k s)
/-- MESSAGE_DELIVERY (R356). -/
def execMessageDelivery (die : Nat) (chan : Nat) (s : State) : Out := .next (messageDelivery die chan s)
/-- MESSAGE_SPILL (R357). -/
def execMessageSpill (die : Nat) (chan : Nat) (s : State) : Out := .next (messageSpill die chan s)
/-- CISTERN_DRAIN (R357). -/
def execCisternDrain (die : Nat) (chan : Nat) (s : State) : Out := .next (cisternDrain die chan s)
/-- TRIGGER_FIRE (R362). -/
def execTriggerFire (die : Nat) (chan : Nat) (s : State) : Out := .next (triggerFire die chan s)
/-- DEADLOCK_SAMPLE (R364). -/
def execDeadlockSample (die : Nat) (part : Nat) (s : State) : Out := .next (deadlockSample die part s)
/-- PERMIT_AUDIT (R365). -/
def execPermitAudit (die : Nat) (s : State) : Out := .next (permitAudit die s)

end Sys2Proof.Machine
end

