-- ==== Sys2Proof/Machine/ExecFabric.lean ====
section
/-!
DEFINITION. The events of Wayline ports and the messages that arrive (R469 to R495).
-/
namespace Sys2Proof.Machine
open Sys2Proof

/-- FLIT_RECEIVE (R471). -/
def execFlitReceive (port : Nat) (f : Flit) (s : State) : Out := .next (flitReceive port f s)
/-- REPLAY_TIMEOUT (R471). -/
def execReplayTimeout (port : Nat) (s : State) : Out := .next (replayTimeout port s)
/-- PORT_DOWN (R473). -/
def execPortDown (port : Nat) (_ : PortCause) (s : State) : Out := .next (portDown port s)
/-- PORT_TRAINING (R473). -/
def execPortTraining (port : Nat) (ok : Bool) (peer : BitVec 18) (epoch : BitVec 32) (s : State) : Out := .next (portTraining port ok peer epoch s)
/-- FLOW_RESEND (R478). -/
def execFlowResend (n : Nat) (s : State) : Out := .next (flowResend n s)
/-- PACKAGE_LOST (R491). -/
def execPackageLost (pkg : BitVec 18) (s : State) : Out := .next (packageLost pkg s)
/-- MSG (R484). -/
def execMsg (m : Msg) (s : State) : Out := .next (arrive actMsg (Wire.ofMsg 0 0 m) s)
/-- CLOSE (R485). -/
def execClose (m : Msg) (s : State) : Out := .next (arrive actClose (Wire.ofMsg 0 1 m) s)
/-- WAYBILL (R489). -/
def execWaybill (m : Msg) (s : State) : Out := .next (arrive actWaybill (Wire.ofMsg 1 0 m) s)
/-- LOSS (R491). -/
def execLoss (m : Msg) (s : State) : Out := .next (arrive actLoss (Wire.ofMsg 2 0 m) s)
/-- REFUSED (R482). -/
def execRefused (m : Msg) (s : State) : Out := .next (arrive actRefused (Wire.ofMsg 2 1 m) s)
/-- XFAULT (R482). -/
def execXfault (m : Msg) (s : State) : Out := .next (arrive actXfault (Wire.ofMsg 2 2 m) s)
/-- READ (R481). -/
def execRead (m : Msg) (s : State) : Out := .next (arrive actRead (Wire.ofMsg 3 0 m) s)
/-- READRESP (R481). -/
def execReadresp (m : Msg) (s : State) : Out := .next (arrive actReadresp (Wire.ofMsg 3 1 m) s)
/-- WRITE (R481). -/
def execWrite (m : Msg) (s : State) : Out := .next (arrive actWrite (Wire.ofMsg 3 2 m) s)
/-- WRITEACK (R481). -/
def execWriteack (m : Msg) (s : State) : Out := .next (arrive actWriteack (Wire.ofMsg 3 3 m) s)
/-- ACK (R478). -/
def execAck (m : Msg) (s : State) : Out := .next (arrive actAck (Wire.ofMsg 4 0 m) s)
/-- BINDREQ (R485). -/
def execBindreq (m : Msg) (s : State) : Out := .next (arrive actBindreq (Wire.ofMsg 4 1 m) s)
/-- BINDREPLY (R483). -/
def execBindreply (m : Msg) (s : State) : Out := .next (arrive actBindreply (Wire.ofMsg 4 2 m) s)
/-- GRANT (R483). -/
def execGrant (m : Msg) (s : State) : Out := .next (arrive actGrant (Wire.ofMsg 4 3 m) s)
/-- DRAINED (R484). -/
def execDrained (m : Msg) (s : State) : Out := .next (arrive actDrained (Wire.ofMsg 4 4 m) s)
/-- STATREQ (R485). -/
def execStatreq (m : Msg) (s : State) : Out := .next (arrive actStatreq (Wire.ofMsg 4 5 m) s)
/-- STATREPLY (R485). -/
def execStatreply (m : Msg) (s : State) : Out := .next (arrive actStatreply (Wire.ofMsg 4 6 m) s)
/-- GROW (R485). -/
def execGrow (m : Msg) (s : State) : Out := .next (arrive actGrow (Wire.ofMsg 4 7 m) s)
/-- FAULT (R492). -/
def execFault (m : Msg) (s : State) : Out := .next (arrive actFault (Wire.ofMsg 4 8 m) s)
/-- BARARR (R490). -/
def execBararr (m : Msg) (s : State) : Out := .next (arrive actBararr (Wire.ofMsg 4 9 m) s)
/-- BARREL (R490). -/
def execBarrel (m : Msg) (s : State) : Out := .next (arrive actBarrel (Wire.ofMsg 4 10 m) s)
/-- WORKDONE (R488). -/
def execWorkdone (m : Msg) (s : State) : Out := .next (arrive actWorkdone (Wire.ofMsg 4 11 m) s)
/-- LINKSTATE (R475). -/
def execLinkstate (m : Msg) (s : State) : Out := .next (arrive actLinkstate (Wire.ofMsg 4 12 m) s)
/-- REFUSE (R495). -/
def execRefuse (m : Msg) (s : State) : Out := .next (arrive actRefuse (Wire.ofMsg 4 13 m) s)

end Sys2Proof.Machine
end

