-- ==== Sys2Proof/Machine/ExecHost.lean ====
section
/-!
DEFINITION. What the host writes and reads, resets, links and power.
-/
namespace Sys2Proof.Machine
open Sys2Proof

/-- DOORBELL_TAIL_WRITE (R319). -/
def execDoorbellTailWrite (die : Nat) (queue : Nat) (t : BitVec 32) (s : State) : Out := .next (doorbellTailWrite die queue t s)
/-- CTAIL_WRITE (R446). -/
def execCtailWrite (v : Word) (s : State) : Out := .next (ctailWrite v s)
/-- PHEAD_WRITE (R449). -/
def execPheadWrite (v : Word) (s : State) : Out := .next (pheadWrite v s)
/-- EHEAD_WRITE (R454). -/
def execEheadWrite (v : Word) (s : State) : Out := .next (eheadWrite v s)
/-- LTR_WRITE (R463). -/
def execLtrWrite (v : Word) (s : State) : Out := .next (ltrWrite v s)
/-- RESETCTL_WRITE (R465). -/
def execResetctlWrite (v : Word) (s : State) : Out := .next (resetctlWrite v s)
/-- SLOTMAP_WRITE (R63). -/
def execSlotmapWrite (core : Nat) (v : BitVec 32) (s : State) : Out := .next (slotmapWrite core v s)
/-- CONFIG_REGISTER_WRITE (R5). -/
def execConfigRegisterWrite (r : CfgReg) (v : Word) (s : State) : Out := .next (configRegisterWrite r v s)
/-- HOST_WRITE (R448). -/
def execHostWrite (aperture : Nat) (off : Nat) (bytes : List Byte) (ep : Bool) (s : State) : Out := .next (hostWrite aperture off bytes ep s)
/-- HOST_READ (R445). -/
def execHostRead (aperture : Nat) (off : Nat) (n : Nat) (s : State) : Out := .next (hostReadAt aperture off n s)
/-- COLD_RESET (R465). -/
def execColdReset (s : State) : Out := .next (coldReset s)
/-- WARM_RESET (R465). -/
def execWarmReset (keepmem : Bool) (s : State) : Out := .next (warmReset keepmem s)
/-- BOOT (R455). -/
def execBoot (s : State) : Out := .next (boot s)
/-- LINK_DOWN (R443). -/
def execLinkDown (link : Nat) (s : State) : Out := .next (linkDown link s)
/-- POWER_SAMPLE (R464). -/
def execPowerSample (watts : Nat) (hot : Bool) (shutdown : Bool) (dies : BitVec 4) (s : State) : Out := .next (powerSample watts hot shutdown dies s)
/-- POWER_STATE_ENTRY (R463). -/
def execPowerStateEntry (die : Nat) (s : State) : Out := .next (powerStateEntry die s)
/-- WAKE_EVENT (R462). -/
def execWakeEvent (die : Nat) (s : State) : Out := .next (wakeEvent die s)
/-- POWER_LOSS (R457). -/
def execPowerLoss (s : State) : Out := .next (powerLoss s)

end Sys2Proof.Machine
end

