-- ==== Sys2Proof/Machine/ExecMatrix.lean ====
section
/-!
DEFINITION. The M instructions: each issues as a bundle of its own (R43, R56).
-/
namespace Sys2Proof.Machine
open Sys2Proof

/-- MMA (R250). -/
def execMma (g : Guard) (tile : BitVec 1) (latch : BitVec 1) (sig : BitVec 7) (lag : BitVec 7) (r : MRows) (k : MKind) (s : State) : Out := issueOne (.mma g tile latch sig lag r k) s
/-- MMAZ (R250). -/
def execMmaz (g : Guard) (tile : BitVec 1) (latch : BitVec 1) (sig : BitVec 7) (lag : BitVec 7) (r : MRows) (k : MKind) (s : State) : Out := issueOne (.mmaz g tile latch sig lag r k) s
/-- LATCH (R249). -/
def execLatch (g : Guard) (l : BitVec 1) (sig : BitVec 7) (lag : BitVec 7) (k : MKind) (s : State) : Out := issueOne (.latch g l sig lag k) s
/-- LATCHT (R249). -/
def execLatcht (g : Guard) (l : BitVec 1) (sig : BitVec 7) (lag : BitVec 7) (k : MKind) (s : State) : Out := issueOne (.latcht g l sig lag k) s
/-- ASET_ID (R252). -/
def execAsetId (g : Guard) (tile : BitVec 1) (r : MRows) (s : State) : Out := issueOne (.asetId g tile r) s
/-- ASET_ZERO (R252). -/
def execAsetZero (g : Guard) (tile : BitVec 1) (r : MRows) (s : State) : Out := issueOne (.asetZero g tile r) s
/-- AGAIN (R252). -/
def execAgain (g : Guard) (tile : BitVec 1) (sig : BitVec 7) (lag : BitVec 7) (r : MRows) (s : State) : Out := issueOne (.again g tile sig lag r) s
/-- AOFF (R252). -/
def execAoff (g : Guard) (tile : BitVec 1) (sig : BitVec 7) (lag : BitVec 7) (r : MRows) (s : State) : Out := issueOne (.aoff g tile sig lag r) s
/-- APPLY (R252). -/
def execApply (g : Guard) (tile : BitVec 1) (sig : BitVec 7) (lag : BitVec 7) (r : MRows) (s : State) : Out := issueOne (.apply g tile sig lag r) s
/-- ARD_OFF (R252). -/
def execArdOff (g : Guard) (tile : BitVec 1) (sig : BitVec 7) (lag : BitVec 7) (r : MRows) (s : State) : Out := issueOne (.ardOff g tile sig lag r) s
/-- ARD_GAIN (R252). -/
def execArdGain (g : Guard) (tile : BitVec 1) (sig : BitVec 7) (lag : BitVec 7) (r : MRows) (s : State) : Out := issueOne (.ardGain g tile sig lag r) s
/-- SCAN (R255). -/
def execScan (g : Guard) (tile : BitVec 1) (cy : BitVec 2) (r : MRows) (s : State) : Out := issueOne (.scan g tile cy r) s
/-- SCAN_UPD (R255). -/
def execScanUpd (g : Guard) (tile : BitVec 1) (cy : BitVec 2) (r : MRows) (s : State) : Out := issueOne (.scanUpd g tile cy r) s
/-- CYSET (R253). -/
def execCyset (g : Guard) (cy : BitVec 2) (sig : BitVec 7) (lag : BitVec 7) (s : State) : Out := issueOne (.cyset g cy sig lag) s
/-- CYSET_ID (R253). -/
def execCysetId (g : Guard) (cy : BitVec 2) (s : State) : Out := issueOne (.cysetId g cy) s
/-- CYGET (R253). -/
def execCyget (g : Guard) (cy : BitVec 2) (sig : BitVec 7) (lag : BitVec 7) (s : State) : Out := issueOne (.cyget g cy sig lag) s

end Sys2Proof.Machine
end

