-- ==== Sys2Proof/Machine/ExecMemory.lean ====
section
/-!
DEFINITION. The events of the copy engine, of translation, of the stacks and of near memory.
-/
namespace Sys2Proof.Machine
open Sys2Proof

/-- COPY_ELEMENT_ISSUE (R224). -/
def execCopyElementIssue (k : Nat) (h : BitVec 4) (s : State) : Out := .next (copyElementIssue k h s)
/-- COPY_ACCESS_COMPLETE (R223). -/
def execCopyAccessComplete (k : Nat) (h : BitVec 4) (n : Nat) (s : State) : Out := .next (copyAccessComplete k h n s)
/-- SCACC_WINDOW (R235). -/
def execScaccWindow (k : Nat) (h : BitVec 4) (s : State) : Out := .next (scaccWindow k h s)
/-- LOADER_SAMPLE_PUSH (R225). -/
def execLoaderSamplePush (k : Nat) (h : BitVec 4) (s : State) : Out := .next (loaderSamplePush k h s)
/-- STORER_SAMPLE_WRITE (R226). -/
def execStorerSampleWrite (k : Nat) (h : BitVec 4) (s : State) : Out := .next (storerSampleWrite k h s)
/-- COMBINER_FLUSH (R386). -/
def execCombinerFlush (die : Nat) (n : Nat) (s : State) : Out := .next (combinerFlush die n s)
/-- ANNOUNCEMENT_APPLY (R377). -/
def execAnnouncementApply (die : Nat) (n : Nat) (s : State) : Out := .next (announcementApply die n s)
/-- TRANSLATION_WALK (R406). -/
def execTranslationWalk (die : Nat) (n : Nat) (s : State) : Out := .next (translationWalk die n s)
/-- FAULT_TIMEOUT (R411). -/
def execFaultTimeout (die : Nat) (n : Nat) (s : State) : Out := .next (faultTimeout die n s)
/-- STACK_READ (R418). -/
def execStackRead (n : Nat) (s : State) : Out := .next (stackRead n s)
/-- STACK_WRITE (R418). -/
def execStackWrite (n : Nat) (s : State) : Out := .next (stackWrite n s)
/-- BANK_REFRESH (R420). -/
def execBankRefresh (stack : Nat) (pc : Nat) (bank : Nat) (hint : BitVec 6) (s : State) : Out := .next (bankRefresh stack pc bank hint s)
/-- RETRY_REISSUE (R420). -/
def execRetryReissue (n : Nat) (s : State) : Out := .next (retryReissue n s)
/-- ROW_PRECHARGE (R422). -/
def execRowPrecharge (stack : Nat) (pc : Nat) (bank : Nat) (s : State) : Out := .next (rowPrecharge stack pc bank s)
/-- ROW_OPEN_LIMIT (R421). -/
def execRowOpenLimit (stack : Nat) (pc : Nat) (bank : Nat) (s : State) : Out := .next (rowOpenLimit stack pc bank s)
/-- PATROL_SCRUB (R426). -/
def execPatrolScrub (stack : Nat) (granule : Nat) (s : State) : Out := .next (patrolScrub stack granule s)
/-- STACK_LOST (R428). -/
def execStackLost (stack : Nat) (s : State) : Out := .next (stackLost stack s)
/-- NEAR_MEMORY_GRANULE (R435). -/
def execNearMemoryGranule (n : Nat) (s : State) : Out := .next (nearMemoryGranule n s)
/-- NM_ATOMIC_RECORD (R439). -/
def execNmAtomicRecord (n : Nat) (s : State) : Out := .next (nmAtomicRecord n s)

end Sys2Proof.Machine
end

