-- ==== Sys2Proof/Machine/ExecScalar.lean ====
section
/-!
DEFINITION. The S instructions: each issues as a bundle of its own (R38 to R41, R56).
-/
namespace Sys2Proof.Machine
open Sys2Proof

/-- ADD (R115). -/
def execAdd (g : Guard) (rd : BitVec 6) (ra : BitVec 6) (rb : BitVec 6) (s : State) : Out := issueOne (.add g rd ra rb) s
/-- SUB (R115). -/
def execSub (g : Guard) (rd : BitVec 6) (ra : BitVec 6) (rb : BitVec 6) (s : State) : Out := issueOne (.sub g rd ra rb) s
/-- MUL (R115). -/
def execMul (g : Guard) (rd : BitVec 6) (ra : BitVec 6) (rb : BitVec 6) (s : State) : Out := issueOne (.mul g rd ra rb) s
/-- MULH (R115). -/
def execMulh (g : Guard) (rd : BitVec 6) (ra : BitVec 6) (rb : BitVec 6) (s : State) : Out := issueOne (.mulh g rd ra rb) s
/-- MULHU (R115). -/
def execMulhu (g : Guard) (rd : BitVec 6) (ra : BitVec 6) (rb : BitVec 6) (s : State) : Out := issueOne (.mulhu g rd ra rb) s
/-- DIV (R116). -/
def execDiv (g : Guard) (rd : BitVec 6) (ra : BitVec 6) (rb : BitVec 6) (s : State) : Out := issueOne (.div g rd ra rb) s
/-- DIVU (R116). -/
def execDivu (g : Guard) (rd : BitVec 6) (ra : BitVec 6) (rb : BitVec 6) (s : State) : Out := issueOne (.divu g rd ra rb) s
/-- REM (R116). -/
def execRem (g : Guard) (rd : BitVec 6) (ra : BitVec 6) (rb : BitVec 6) (s : State) : Out := issueOne (.rem g rd ra rb) s
/-- AND (R115). -/
def execAnd (g : Guard) (rd : BitVec 6) (ra : BitVec 6) (rb : BitVec 6) (s : State) : Out := issueOne (.and g rd ra rb) s
/-- OR (R115). -/
def execOr (g : Guard) (rd : BitVec 6) (ra : BitVec 6) (rb : BitVec 6) (s : State) : Out := issueOne (.or g rd ra rb) s
/-- XOR (R115). -/
def execXor (g : Guard) (rd : BitVec 6) (ra : BitVec 6) (rb : BitVec 6) (s : State) : Out := issueOne (.xor g rd ra rb) s
/-- ANDN (R115). -/
def execAndn (g : Guard) (rd : BitVec 6) (ra : BitVec 6) (rb : BitVec 6) (s : State) : Out := issueOne (.andn g rd ra rb) s
/-- SHL (R117). -/
def execShl (g : Guard) (rd : BitVec 6) (ra : BitVec 6) (rb : BitVec 6) (s : State) : Out := issueOne (.shl g rd ra rb) s
/-- SHR (R117). -/
def execShr (g : Guard) (rd : BitVec 6) (ra : BitVec 6) (rb : BitVec 6) (s : State) : Out := issueOne (.shr g rd ra rb) s
/-- SAR (R117). -/
def execSar (g : Guard) (rd : BitVec 6) (ra : BitVec 6) (rb : BitVec 6) (s : State) : Out := issueOne (.sar g rd ra rb) s
/-- MIN (R115). -/
def execMin (g : Guard) (rd : BitVec 6) (ra : BitVec 6) (rb : BitVec 6) (s : State) : Out := issueOne (.min g rd ra rb) s
/-- MAX (R115). -/
def execMax (g : Guard) (rd : BitVec 6) (ra : BitVec 6) (rb : BitVec 6) (s : State) : Out := issueOne (.max g rd ra rb) s
/-- MINU (R115). -/
def execMinu (g : Guard) (rd : BitVec 6) (ra : BitVec 6) (rb : BitVec 6) (s : State) : Out := issueOne (.minu g rd ra rb) s
/-- MAXU (R115). -/
def execMaxu (g : Guard) (rd : BitVec 6) (ra : BitVec 6) (rb : BitVec 6) (s : State) : Out := issueOne (.maxu g rd ra rb) s
/-- CLZ (R115). -/
def execClz (g : Guard) (rd : BitVec 6) (ra : BitVec 6) (s : State) : Out := issueOne (.clz g rd ra) s
/-- POPC (R115). -/
def execPopc (g : Guard) (rd : BitVec 6) (ra : BitVec 6) (s : State) : Out := issueOne (.popc g rd ra) s
/-- SEL (R115). -/
def execSel (g : Guard) (rd : BitVec 6) (ra : BitVec 6) (rb : BitVec 6) (p : BitVec 4) (s : State) : Out := issueOne (.sel g rd ra rb p) s
/-- ADDI (R118). -/
def execAddi (g : Guard) (rd : BitVec 6) (ra : BitVec 6) (imm : BitVec 35) (s : State) : Out := issueOne (.addi g rd ra imm) s
/-- ANDI (R118). -/
def execAndi (g : Guard) (rd : BitVec 6) (ra : BitVec 6) (imm : BitVec 35) (s : State) : Out := issueOne (.andi g rd ra imm) s
/-- ORI (R118). -/
def execOri (g : Guard) (rd : BitVec 6) (ra : BitVec 6) (imm : BitVec 35) (s : State) : Out := issueOne (.ori g rd ra imm) s
/-- XORI (R118). -/
def execXori (g : Guard) (rd : BitVec 6) (ra : BitVec 6) (imm : BitVec 35) (s : State) : Out := issueOne (.xori g rd ra imm) s
/-- SHLI (R118). -/
def execShli (g : Guard) (rd : BitVec 6) (ra : BitVec 6) (sh : BitVec 6) (s : State) : Out := issueOne (.shli g rd ra sh) s
/-- SHRI (R118). -/
def execShri (g : Guard) (rd : BitVec 6) (ra : BitVec 6) (sh : BitVec 6) (s : State) : Out := issueOne (.shri g rd ra sh) s
/-- SARI (R118). -/
def execSari (g : Guard) (rd : BitVec 6) (ra : BitVec 6) (sh : BitVec 6) (s : State) : Out := issueOne (.sari g rd ra sh) s
/-- MOVI (R119). -/
def execMovi (g : Guard) (rd : BitVec 6) (imm : BitVec 35) (s : State) : Out := issueOne (.movi g rd imm) s
/-- MOVHI (R119). -/
def execMovhi (g : Guard) (rd : BitVec 6) (ra : BitVec 6) (imm : BitVec 32) (s : State) : Out := issueOne (.movhi g rd ra imm) s
/-- CMP (R120). -/
def execCmp (g : Guard) (pd : BitVec 4) (c : Cond) (ra : BitVec 6) (rb : BitVec 6) (s : State) : Out := issueOne (.cmp g pd c ra rb) s
/-- CMPI (R120). -/
def execCmpi (g : Guard) (pd : BitVec 4) (c : Cond) (ra : BitVec 6) (imm : BitVec 34) (s : State) : Out := issueOne (.cmpi g pd c ra imm) s
/-- PAND (R121). -/
def execPand (g : Guard) (pd : BitVec 4) (pa : BitVec 4) (pb : BitVec 4) (s : State) : Out := issueOne (.pand g pd pa pb) s
/-- POR (R121). -/
def execPor (g : Guard) (pd : BitVec 4) (pa : BitVec 4) (pb : BitVec 4) (s : State) : Out := issueOne (.por g pd pa pb) s
/-- PXOR (R121). -/
def execPxor (g : Guard) (pd : BitVec 4) (pa : BitVec 4) (pb : BitVec 4) (s : State) : Out := issueOne (.pxor g pd pa pb) s
/-- PANDN (R121). -/
def execPandn (g : Guard) (pd : BitVec 4) (pa : BitVec 4) (pb : BitVec 4) (s : State) : Out := issueOne (.pandn g pd pa pb) s
/-- PSET (R121). -/
def execPset (g : Guard) (pd : BitVec 4) (ra : BitVec 6) (s : State) : Out := issueOne (.pset g pd ra) s
/-- SPLD (R122). -/
def execSpld (g : Guard) (rd : BitVec 6) (slot : BitVec 9) (s : State) : Out := issueOne (.spld g rd slot) s
/-- SPST (R122). -/
def execSpst (g : Guard) (ra : BitVec 6) (slot : BitVec 9) (s : State) : Out := issueOne (.spst g ra slot) s
/-- CSRR (R123). -/
def execCsrr (g : Guard) (rd : BitVec 6) (csr : BitVec 12) (s : State) : Out := issueOne (.csrr g rd csr) s
/-- CSRW (R123). -/
def execCsrw (g : Guard) (ra : BitVec 6) (csr : BitVec 12) (s : State) : Out := issueOne (.csrw g ra csr) s
/-- LIDX (R134). -/
def execLidx (g : Guard) (rd : BitVec 6) (level : BitVec 3) (s : State) : Out := issueOne (.lidx g rd level) s
/-- FADD (R136). -/
def execFadd (g : Guard) (rd : BitVec 6) (ra : BitVec 6) (rb : BitVec 6) (s : State) : Out := issueOne (.fadd g rd ra rb) s
/-- FSUB (R136). -/
def execFsub (g : Guard) (rd : BitVec 6) (ra : BitVec 6) (rb : BitVec 6) (s : State) : Out := issueOne (.fsub g rd ra rb) s
/-- FMUL (R136). -/
def execFmul (g : Guard) (rd : BitVec 6) (ra : BitVec 6) (rb : BitVec 6) (s : State) : Out := issueOne (.fmul g rd ra rb) s
/-- FFMA (R136). -/
def execFfma (g : Guard) (rd : BitVec 6) (ra : BitVec 6) (rb : BitVec 6) (s : State) : Out := issueOne (.ffma g rd ra rb) s
/-- FMIN (R137). -/
def execFmin (g : Guard) (rd : BitVec 6) (ra : BitVec 6) (rb : BitVec 6) (s : State) : Out := issueOne (.fmin g rd ra rb) s
/-- FMAX (R137). -/
def execFmax (g : Guard) (rd : BitVec 6) (ra : BitVec 6) (rb : BitVec 6) (s : State) : Out := issueOne (.fmax g rd ra rb) s
/-- FCMP (R138). -/
def execFcmp (g : Guard) (pd : BitVec 4) (c : Cond) (ra : BitVec 6) (rb : BitVec 6) (s : State) : Out := issueOne (.fcmp g pd c ra rb) s
/-- FCVTI (R139). -/
def execFcvti (g : Guard) (rd : BitVec 6) (ra : BitVec 6) (s : State) : Out := issueOne (.fcvti g rd ra) s
/-- ICVTF (R140). -/
def execIcvtf (g : Guard) (rd : BitVec 6) (ra : BitVec 6) (s : State) : Out := issueOne (.icvtf g rd ra) s
/-- SIGSET (R165). -/
def execSigset (g : Guard) (ra : BitVec 6) (sig : BitVec 7) (field : BitVec 4) (level : BitVec 3) (s : State) : Out := issueOne (.sigset g ra sig field level) s
/-- SIGGET (R167). -/
def execSigget (g : Guard) (rd : BitVec 6) (sig : BitVec 7) (field : BitVec 4) (level : BitVec 3) (s : State) : Out := issueOne (.sigget g rd sig field level) s
/-- SIGCLR (R168). -/
def execSigclr (g : Guard) (sig : BitVec 7) (s : State) : Out := issueOne (.sigclr g sig) s
/-- FILLMK (R169). -/
def execFillmk (g : Guard) (sig : BitVec 7) (lag : BitVec 8) (s : State) : Out := issueOne (.fillmk g sig lag) s
/-- WAITFILL (R170). -/
def execWaitfill (g : Guard) (rd : BitVec 6) (sig : BitVec 7) (k : BitVec 8) (s : State) : Out := issueOne (.waitfill g rd sig k) s
/-- TAPRD (R171). -/
def execTaprd (g : Guard) (rd : BitVec 6) (sig : BitVec 7) (lag : BitVec 8) (s : State) : Out := issueOne (.taprd g rd sig lag) s
/-- TAPWR (R172). -/
def execTapwr (g : Guard) (ra : BitVec 6) (sig : BitVec 7) (lag : BitVec 8) (s : State) : Out := issueOne (.tapwr g ra sig lag) s

end Sys2Proof.Machine
end

