-- ==== Sys2Proof/Machine/ExecSeat.lean ====
section
/-!
DEFINITION. The events of seats, cores and streams.
-/
namespace Sys2Proof.Machine
open Sys2Proof

/-- HELD_BUNDLE_RELEASE (R105). -/
def execHeldBundleRelease (k : Nat) (s : State) : Out := .next (heldBundleRelease k s)
/-- EVENT_LATCH (R73). -/
def execEventLatch (n : Nat) (s : State) : Out := .next (eventLatch n s)
/-- BARRIER_RELEASE (R90). -/
def execBarrierRelease (k : Nat) (s : State) : Out := .next (barrierRelease k s)
/-- STALL_TOLL (R100). -/
def execStallToll (k : Nat) (s : State) : Out := .next (stallToll k s)
/-- MAXRUN_OVERRUN (R103). -/
def execMaxrunOverrun (k : Nat) (s : State) : Out := .next (maxrunOverrun k s)
/-- TAP_DEADLOCK (R155). -/
def execTapDeadlock (k : Nat) (s : State) : Out := .next (tapDeadlock k s)
/-- FUSE_TIMEOUT (R305). -/
def execFuseTimeout (k : Nat) (s : State) : Out := .next (fuseTimeout k s)
/-- M_RESULT_FINAL (R246). -/
def execMResultFinal (k : Nat) (s : State) : Out := .next (mResultFinal k s)
/-- TAKE_TRAP (R261). -/
def execTakeTrap (k : Nat) (s : State) : Out := .next (takeTrapStep k s)
/-- ASYNCHRONOUS_CAUSE (R267). -/
def execAsynchronousCause (k : Nat) (c : Cause) (s : State) : Out := .next (asynchronousCause k c s)
/-- TRAP_DISPOSITION (R269). -/
def execTrapDisposition (k : Nat) (s : State) : Out := .next (trapDisposition k s)
/-- RECALL (R104). -/
def execRecall (k : Nat) (s : State) : Out := .next (recallAt k s)
/-- YIELD_TAKEN (R274). -/
def execYieldTaken (k : Nat) (s : State) : Out := .next (yieldTaken k s)
/-- CONTEXT_SAVE (R280). -/
def execContextSave (k : Nat) (s : State) : Out := .next (contextSave k s)
/-- CONTEXT_RESTORE (R281). -/
def execContextRestore (k : Nat) (s : State) : Out := .next (contextRestore k s)
/-- SPARE_MAP (R289). -/
def execSpareMap (core : Nat) (s : State) : Out := .next (spareMap core s)
/-- MIRROR_SOURCE_SEARCH (R293). -/
def execMirrorSourceSearch (k : Nat) (sig : BitVec 7) (s : State) : Out := .next (mirrorSourceSearch k sig s)
/-- STREAM_SAMPLE_SEND (R294). -/
def execStreamSampleSend (die : Nat) (n : Nat) (s : State) : Out := .next (streamSampleSend die n s)
/-- STREAM_SAMPLE_ARRIVAL (R296). -/
def execStreamSampleArrival (die : Nat) (n : Nat) (s : State) : Out := .next (streamSampleArrival die n s)

end Sys2Proof.Machine
end

