-- ==== Sys2Proof/Machine/ExecVector.lean ====
section
/-!
DEFINITION. The V instructions: each issues as a bundle of its own (R37, R38, R56).
-/
namespace Sys2Proof.Machine
open Sys2Proof

/-- VADD (R196). -/
def execVadd (g : Guard) (t : VTy) (d : VOp) (a : VOp) (b : VOp) (rm : BitVec 2) (s : State) : Out := issueOne (.vadd g t d a b rm) s
/-- VSUB (R196). -/
def execVsub (g : Guard) (t : VTy) (d : VOp) (a : VOp) (b : VOp) (rm : BitVec 2) (s : State) : Out := issueOne (.vsub g t d a b rm) s
/-- VMUL (R196). -/
def execVmul (g : Guard) (t : VTy) (d : VOp) (a : VOp) (b : VOp) (rm : BitVec 2) (s : State) : Out := issueOne (.vmul g t d a b rm) s
/-- VFMA (R196). -/
def execVfma (g : Guard) (t : VTy) (d : VOp) (a : VOp) (b : VOp) (rm : BitVec 2) (s : State) : Out := issueOne (.vfma g t d a b rm) s
/-- VFMS (R196). -/
def execVfms (g : Guard) (t : VTy) (d : VOp) (a : VOp) (b : VOp) (rm : BitVec 2) (s : State) : Out := issueOne (.vfms g t d a b rm) s
/-- VMIN (R198). -/
def execVmin (g : Guard) (t : VTy) (d : VOp) (a : VOp) (b : VOp) (s : State) : Out := issueOne (.vmin g t d a b) s
/-- VMAX (R198). -/
def execVmax (g : Guard) (t : VTy) (d : VOp) (a : VOp) (b : VOp) (s : State) : Out := issueOne (.vmax g t d a b) s
/-- VABS (R198). -/
def execVabs (g : Guard) (t : VTy) (d : VOp) (a : VOp) (s : State) : Out := issueOne (.vabs g t d a) s
/-- VNEG (R198). -/
def execVneg (g : Guard) (t : VTy) (d : VOp) (a : VOp) (s : State) : Out := issueOne (.vneg g t d a) s
/-- VCMPEQ (R201). -/
def execVcmpeq (g : Guard) (t : VTy) (d : VOp) (a : VOp) (b : VOp) (s : State) : Out := issueOne (.vcmpeq g t d a b) s
/-- VCMPLT (R201). -/
def execVcmplt (g : Guard) (t : VTy) (d : VOp) (a : VOp) (b : VOp) (s : State) : Out := issueOne (.vcmplt g t d a b) s
/-- VCMPLE (R201). -/
def execVcmple (g : Guard) (t : VTy) (d : VOp) (a : VOp) (b : VOp) (s : State) : Out := issueOne (.vcmple g t d a b) s
/-- VSEL (R202). -/
def execVsel (g : Guard) (t : VTy) (d : VOp) (a : VOp) (b : VOp) (s : State) : Out := issueOne (.vsel g t d a b) s
/-- VMOV (R203). -/
def execVmov (g : Guard) (t : VTy) (d : VOp) (a : VOp) (s : State) : Out := issueOne (.vmov g t d a) s
/-- VBCAST (R203). -/
def execVbcast (g : Guard) (t : VTy) (d : VOp) (a : VOp) (b : VOp) (s : State) : Out := issueOne (.vbcast g t d a b) s
/-- VRSUM (R208). -/
def execVrsum (g : Guard) (t : VTy) (d : VOp) (a : VOp) (rm : BitVec 2) (s : State) : Out := issueOne (.vrsum g t d a rm) s
/-- VRMAX (R208). -/
def execVrmax (g : Guard) (t : VTy) (d : VOp) (a : VOp) (s : State) : Out := issueOne (.vrmax g t d a) s
/-- VRCP (R209). -/
def execVrcp (g : Guard) (t : VTy) (d : VOp) (a : VOp) (rm : BitVec 2) (s : State) : Out := issueOne (.vrcp g t d a rm) s
/-- VRSQ (R209). -/
def execVrsq (g : Guard) (t : VTy) (d : VOp) (a : VOp) (rm : BitVec 2) (s : State) : Out := issueOne (.vrsq g t d a rm) s
/-- VEXP2 (R209). -/
def execVexp2 (g : Guard) (t : VTy) (d : VOp) (a : VOp) (rm : BitVec 2) (s : State) : Out := issueOne (.vexp2 g t d a rm) s
/-- VLOG2 (R209). -/
def execVlog2 (g : Guard) (t : VTy) (d : VOp) (a : VOp) (rm : BitVec 2) (s : State) : Out := issueOne (.vlog2 g t d a rm) s
/-- VSCALE (R200). -/
def execVscale (g : Guard) (t : VTy) (d : VOp) (a : VOp) (b : VOp) (rm : BitVec 2) (s : State) : Out := issueOne (.vscale g t d a b rm) s
/-- VCVT (R206). -/
def execVcvt (g : Guard) (t : VTy) (d : VOp) (a : VOp) (src : VTy) (rm : BitVec 2) (s : State) : Out := issueOne (.vcvt g t d a src rm) s
/-- VPERM (R203). -/
def execVperm (g : Guard) (t : VTy) (d : VOp) (a : VOp) (b : VOp) (s : State) : Out := issueOne (.vperm g t d a b) s
/-- VSLIDE (R203). -/
def execVslide (g : Guard) (t : VTy) (d : VOp) (a : VOp) (b : VOp) (s : State) : Out := issueOne (.vslide g t d a b) s
/-- VIOTA (R199). -/
def execViota (g : Guard) (t : VTy) (d : VOp) (a : VOp) (s : State) : Out := issueOne (.viota g t d a) s
/-- VTAPX (R205). -/
def execVtapx (g : Guard) (t : VTy) (d : VOp) (a : VOp) (b : VOp) (s : State) : Out := issueOne (.vtapx g t d a b) s
/-- VAND (R207). -/
def execVand (g : Guard) (d : VOp) (a : VOp) (b : VOp) (s : State) : Out := issueOne (.vand g d a b) s
/-- VOR (R207). -/
def execVor (g : Guard) (d : VOp) (a : VOp) (b : VOp) (s : State) : Out := issueOne (.vor g d a b) s
/-- VXOR (R207). -/
def execVxor (g : Guard) (d : VOp) (a : VOp) (b : VOp) (s : State) : Out := issueOne (.vxor g d a b) s
/-- VSHL (R207). -/
def execVshl (g : Guard) (d : VOp) (a : VOp) (b : VOp) (s : State) : Out := issueOne (.vshl g d a b) s
/-- VSHR (R207). -/
def execVshr (g : Guard) (d : VOp) (a : VOp) (b : VOp) (s : State) : Out := issueOne (.vshr g d a b) s
/-- VSAR (R207). -/
def execVsar (g : Guard) (d : VOp) (a : VOp) (b : VOp) (s : State) : Out := issueOne (.vsar g d a b) s

end Sys2Proof.Machine
end

