-- ==== Sys2Proof/Machine/Dispatch.lean ====
section
/-!
DEFINITION. One arm per instruction.
-/
namespace Sys2Proof.Machine
open Sys2Proof

def exec (i : Instr) (s : State) : Host.Outcome State Fault Refusal :=
  match i with
  | .nop g => Sys2Proof.Machine.execNop g s
  | .br g disp => Sys2Proof.Machine.execBr g disp s
  | .brm tests => Sys2Proof.Machine.execBrm tests s
  | .jr g ra => Sys2Proof.Machine.execJr g ra s
  | .call g disp => Sys2Proof.Machine.execCall g disp s
  | .callr g ra => Sys2Proof.Machine.execCallr g ra s
  | .ret g => Sys2Proof.Machine.execRet g s
  | .loop g count last => Sys2Proof.Machine.execLoop g count last s
  | .loopr g ra last => Sys2Proof.Machine.execLoopr g ra last s
  | .lexit g => Sys2Proof.Machine.execLexit g s
  | .tick g n => Sys2Proof.Machine.execTick g n s
  | .adv g sig n => Sys2Proof.Machine.execAdv g sig n s
  | .ypt g => Sys2Proof.Machine.execYpt g s
  | .yield g => Sys2Proof.Machine.execYield g s
  | .cont g disp => Sys2Proof.Machine.execCont g disp s
  | .resume g => Sys2Proof.Machine.execResume g s
  | .topup g ra tbud => Sys2Proof.Machine.execTopup g ra tbud s
  | .exit g => Sys2Proof.Machine.execExit g s
  | .trap g code => Sys2Proof.Machine.execTrap g code s
  | .waitev g mask => Sys2Proof.Machine.execWaitev g mask s
  | .sigev g sc target ev => Sys2Proof.Machine.execSigev g sc target ev s
  | .bar g sc id => Sys2Proof.Machine.execBar g sc id s
  | .fuse g span => Sys2Proof.Machine.execFuse g span s
  | .decouple g => Sys2Proof.Machine.execDecouple g s
  | .rejoin g => Sys2Proof.Machine.execRejoin g s
  | .add g rd ra rb => Sys2Proof.Machine.execAdd g rd ra rb s
  | .sub g rd ra rb => Sys2Proof.Machine.execSub g rd ra rb s
  | .mul g rd ra rb => Sys2Proof.Machine.execMul g rd ra rb s
  | .mulh g rd ra rb => Sys2Proof.Machine.execMulh g rd ra rb s
  | .mulhu g rd ra rb => Sys2Proof.Machine.execMulhu g rd ra rb s
  | .div g rd ra rb => Sys2Proof.Machine.execDiv g rd ra rb s
  | .divu g rd ra rb => Sys2Proof.Machine.execDivu g rd ra rb s
  | .rem g rd ra rb => Sys2Proof.Machine.execRem g rd ra rb s
  | .and g rd ra rb => Sys2Proof.Machine.execAnd g rd ra rb s
  | .or g rd ra rb => Sys2Proof.Machine.execOr g rd ra rb s
  | .xor g rd ra rb => Sys2Proof.Machine.execXor g rd ra rb s
  | .andn g rd ra rb => Sys2Proof.Machine.execAndn g rd ra rb s
  | .shl g rd ra rb => Sys2Proof.Machine.execShl g rd ra rb s
  | .shr g rd ra rb => Sys2Proof.Machine.execShr g rd ra rb s
  | .sar g rd ra rb => Sys2Proof.Machine.execSar g rd ra rb s
  | .min g rd ra rb => Sys2Proof.Machine.execMin g rd ra rb s
  | .max g rd ra rb => Sys2Proof.Machine.execMax g rd ra rb s
  | .minu g rd ra rb => Sys2Proof.Machine.execMinu g rd ra rb s
  | .maxu g rd ra rb => Sys2Proof.Machine.execMaxu g rd ra rb s
  | .clz g rd ra => Sys2Proof.Machine.execClz g rd ra s
  | .popc g rd ra => Sys2Proof.Machine.execPopc g rd ra s
  | .sel g rd ra rb p => Sys2Proof.Machine.execSel g rd ra rb p s
  | .addi g rd ra imm => Sys2Proof.Machine.execAddi g rd ra imm s
  | .andi g rd ra imm => Sys2Proof.Machine.execAndi g rd ra imm s
  | .ori g rd ra imm => Sys2Proof.Machine.execOri g rd ra imm s
  | .xori g rd ra imm => Sys2Proof.Machine.execXori g rd ra imm s
  | .shli g rd ra sh => Sys2Proof.Machine.execShli g rd ra sh s
  | .shri g rd ra sh => Sys2Proof.Machine.execShri g rd ra sh s
  | .sari g rd ra sh => Sys2Proof.Machine.execSari g rd ra sh s
  | .movi g rd imm => Sys2Proof.Machine.execMovi g rd imm s
  | .movhi g rd ra imm => Sys2Proof.Machine.execMovhi g rd ra imm s
  | .cmp g pd c ra rb => Sys2Proof.Machine.execCmp g pd c ra rb s
  | .cmpi g pd c ra imm => Sys2Proof.Machine.execCmpi g pd c ra imm s
  | .pand g pd pa pb => Sys2Proof.Machine.execPand g pd pa pb s
  | .por g pd pa pb => Sys2Proof.Machine.execPor g pd pa pb s
  | .pxor g pd pa pb => Sys2Proof.Machine.execPxor g pd pa pb s
  | .pandn g pd pa pb => Sys2Proof.Machine.execPandn g pd pa pb s
  | .pset g pd ra => Sys2Proof.Machine.execPset g pd ra s
  | .spld g rd slot => Sys2Proof.Machine.execSpld g rd slot s
  | .spst g ra slot => Sys2Proof.Machine.execSpst g ra slot s
  | .csrr g rd csr => Sys2Proof.Machine.execCsrr g rd csr s
  | .csrw g ra csr => Sys2Proof.Machine.execCsrw g ra csr s
  | .lidx g rd level => Sys2Proof.Machine.execLidx g rd level s
  | .fadd g rd ra rb => Sys2Proof.Machine.execFadd g rd ra rb s
  | .fsub g rd ra rb => Sys2Proof.Machine.execFsub g rd ra rb s
  | .fmul g rd ra rb => Sys2Proof.Machine.execFmul g rd ra rb s
  | .ffma g rd ra rb => Sys2Proof.Machine.execFfma g rd ra rb s
  | .fmin g rd ra rb => Sys2Proof.Machine.execFmin g rd ra rb s
  | .fmax g rd ra rb => Sys2Proof.Machine.execFmax g rd ra rb s
  | .fcmp g pd c ra rb => Sys2Proof.Machine.execFcmp g pd c ra rb s
  | .fcvti g rd ra => Sys2Proof.Machine.execFcvti g rd ra s
  | .icvtf g rd ra => Sys2Proof.Machine.execIcvtf g rd ra s
  | .sigset g ra sig field level => Sys2Proof.Machine.execSigset g ra sig field level s
  | .sigget g rd sig field level => Sys2Proof.Machine.execSigget g rd sig field level s
  | .sigclr g sig => Sys2Proof.Machine.execSigclr g sig s
  | .fillmk g sig lag => Sys2Proof.Machine.execFillmk g sig lag s
  | .waitfill g rd sig k => Sys2Proof.Machine.execWaitfill g rd sig k s
  | .taprd g rd sig lag => Sys2Proof.Machine.execTaprd g rd sig lag s
  | .tapwr g ra sig lag => Sys2Proof.Machine.execTapwr g ra sig lag s
  | .vadd g t d a b rm => Sys2Proof.Machine.execVadd g t d a b rm s
  | .vsub g t d a b rm => Sys2Proof.Machine.execVsub g t d a b rm s
  | .vmul g t d a b rm => Sys2Proof.Machine.execVmul g t d a b rm s
  | .vfma g t d a b rm => Sys2Proof.Machine.execVfma g t d a b rm s
  | .vfms g t d a b rm => Sys2Proof.Machine.execVfms g t d a b rm s
  | .vmin g t d a b => Sys2Proof.Machine.execVmin g t d a b s
  | .vmax g t d a b => Sys2Proof.Machine.execVmax g t d a b s
  | .vabs g t d a => Sys2Proof.Machine.execVabs g t d a s
  | .vneg g t d a => Sys2Proof.Machine.execVneg g t d a s
  | .vcmpeq g t d a b => Sys2Proof.Machine.execVcmpeq g t d a b s
  | .vcmplt g t d a b => Sys2Proof.Machine.execVcmplt g t d a b s
  | .vcmple g t d a b => Sys2Proof.Machine.execVcmple g t d a b s
  | .vsel g t d a b => Sys2Proof.Machine.execVsel g t d a b s
  | .vmov g t d a => Sys2Proof.Machine.execVmov g t d a s
  | .vbcast g t d a b => Sys2Proof.Machine.execVbcast g t d a b s
  | .vrsum g t d a rm => Sys2Proof.Machine.execVrsum g t d a rm s
  | .vrmax g t d a => Sys2Proof.Machine.execVrmax g t d a s
  | .vrcp g t d a rm => Sys2Proof.Machine.execVrcp g t d a rm s
  | .vrsq g t d a rm => Sys2Proof.Machine.execVrsq g t d a rm s
  | .vexp2 g t d a rm => Sys2Proof.Machine.execVexp2 g t d a rm s
  | .vlog2 g t d a rm => Sys2Proof.Machine.execVlog2 g t d a rm s
  | .vscale g t d a b rm => Sys2Proof.Machine.execVscale g t d a b rm s
  | .vcvt g t d a src rm => Sys2Proof.Machine.execVcvt g t d a src rm s
  | .vperm g t d a b => Sys2Proof.Machine.execVperm g t d a b s
  | .vslide g t d a b => Sys2Proof.Machine.execVslide g t d a b s
  | .viota g t d a => Sys2Proof.Machine.execViota g t d a s
  | .vtapx g t d a b => Sys2Proof.Machine.execVtapx g t d a b s
  | .vand g d a b => Sys2Proof.Machine.execVand g d a b s
  | .vor g d a b => Sys2Proof.Machine.execVor g d a b s
  | .vxor g d a b => Sys2Proof.Machine.execVxor g d a b s
  | .vshl g d a b => Sys2Proof.Machine.execVshl g d a b s
  | .vshr g d a b => Sys2Proof.Machine.execVshr g d a b s
  | .vsar g d a b => Sys2Proof.Machine.execVsar g d a b s
  | .mma g tile latch sig lag r k => Sys2Proof.Machine.execMma g tile latch sig lag r k s
  | .mmaz g tile latch sig lag r k => Sys2Proof.Machine.execMmaz g tile latch sig lag r k s
  | .latch g l sig lag k => Sys2Proof.Machine.execLatch g l sig lag k s
  | .latcht g l sig lag k => Sys2Proof.Machine.execLatcht g l sig lag k s
  | .asetId g tile r => Sys2Proof.Machine.execAsetId g tile r s
  | .asetZero g tile r => Sys2Proof.Machine.execAsetZero g tile r s
  | .again g tile sig lag r => Sys2Proof.Machine.execAgain g tile sig lag r s
  | .aoff g tile sig lag r => Sys2Proof.Machine.execAoff g tile sig lag r s
  | .apply g tile sig lag r => Sys2Proof.Machine.execApply g tile sig lag r s
  | .ardOff g tile sig lag r => Sys2Proof.Machine.execArdOff g tile sig lag r s
  | .ardGain g tile sig lag r => Sys2Proof.Machine.execArdGain g tile sig lag r s
  | .scan g tile cy r => Sys2Proof.Machine.execScan g tile cy r s
  | .scanUpd g tile cy r => Sys2Proof.Machine.execScanUpd g tile cy r s
  | .cyset g cy sig lag => Sys2Proof.Machine.execCyset g cy sig lag s
  | .cysetId g cy => Sys2Proof.Machine.execCysetId g cy s
  | .cyget g cy sig lag => Sys2Proof.Machine.execCyget g cy sig lag s
  | .cld g o => Sys2Proof.Machine.execCld g o s
  | .cst g o => Sys2Proof.Machine.execCst g o s
  | .clda g o => Sys2Proof.Machine.execClda g o s
  | .cstr g o => Sys2Proof.Machine.execCstr g o s
  | .cgath g o => Sys2Proof.Machine.execCgath g o s
  | .cscat g o => Sys2Proof.Machine.execCscat g o s
  | .scacc g o => Sys2Proof.Machine.execScacc g o s
  | .ccancel g h => Sys2Proof.Machine.execCcancel g h s
  | .cwait g h => Sys2Proof.Machine.execCwait g h s
  | .dset g d field ra => Sys2Proof.Machine.execDset g d field ra s
  | .fence g sc k mask => Sys2Proof.Machine.execFence g sc k mask s
  | .csub g o => Sys2Proof.Machine.execCsub g o s
  | .cpull g o => Sys2Proof.Machine.execCpull g o s
  | .cunsub g h => Sys2Proof.Machine.execCunsub g h s
  | .nmcmd g sig ra h => Sys2Proof.Machine.execNmcmd g sig ra h s
  | .nmfence g sc k mask => Sys2Proof.Machine.execNmfence g sc k mask s
  | .nmatom g sig ra h => Sys2Proof.Machine.execNmatom g sig ra h s
  | .chsend g sig ra rd => Sys2Proof.Machine.execChsend g sig ra rd s
  | .chsendTry g sig ra rd => Sys2Proof.Machine.execChsendTry g sig ra rd s
  | .chbind g sig ra rd => Sys2Proof.Machine.execChbind g sig ra rd s
  | .chbindW g ra rd => Sys2Proof.Machine.execChbindW g ra rd s
  | .chclose g ra rd => Sys2Proof.Machine.execChclose g ra rd s
  | .chcloseW g ra rd => Sys2Proof.Machine.execChcloseW g ra rd s
  | .chstat g ra rd => Sys2Proof.Machine.execChstat g ra rd s
  | .launch g sig ra h => Sys2Proof.Machine.execLaunch g sig ra h s
  | .wsend g sig ra h => Sys2Proof.Machine.execWsend g sig ra h s
  | .heldBundleRelease k => Sys2Proof.Machine.execHeldBundleRelease k s
  | .eventLatch n => Sys2Proof.Machine.execEventLatch n s
  | .barrierRelease k => Sys2Proof.Machine.execBarrierRelease k s
  | .stallToll k => Sys2Proof.Machine.execStallToll k s
  | .maxrunOverrun k => Sys2Proof.Machine.execMaxrunOverrun k s
  | .tapDeadlock k => Sys2Proof.Machine.execTapDeadlock k s
  | .fuseTimeout k => Sys2Proof.Machine.execFuseTimeout k s
  | .mResultFinal k => Sys2Proof.Machine.execMResultFinal k s
  | .takeTrap k => Sys2Proof.Machine.execTakeTrap k s
  | .asynchronousCause k c => Sys2Proof.Machine.execAsynchronousCause k c s
  | .trapDisposition k => Sys2Proof.Machine.execTrapDisposition k s
  | .recall k => Sys2Proof.Machine.execRecall k s
  | .yieldTaken k => Sys2Proof.Machine.execYieldTaken k s
  | .contextSave k => Sys2Proof.Machine.execContextSave k s
  | .contextRestore k => Sys2Proof.Machine.execContextRestore k s
  | .spareMap core => Sys2Proof.Machine.execSpareMap core s
  | .mirrorSourceSearch k sig => Sys2Proof.Machine.execMirrorSourceSearch k sig s
  | .streamSampleSend die n => Sys2Proof.Machine.execStreamSampleSend die n s
  | .streamSampleArrival die n => Sys2Proof.Machine.execStreamSampleArrival die n s
  | .copyElementIssue k h => Sys2Proof.Machine.execCopyElementIssue k h s
  | .copyAccessComplete k h n => Sys2Proof.Machine.execCopyAccessComplete k h n s
  | .scaccWindow k h => Sys2Proof.Machine.execScaccWindow k h s
  | .loaderSamplePush k h => Sys2Proof.Machine.execLoaderSamplePush k h s
  | .storerSampleWrite k h => Sys2Proof.Machine.execStorerSampleWrite k h s
  | .combinerFlush die n => Sys2Proof.Machine.execCombinerFlush die n s
  | .announcementApply die n => Sys2Proof.Machine.execAnnouncementApply die n s
  | .translationWalk die n => Sys2Proof.Machine.execTranslationWalk die n s
  | .faultTimeout die n => Sys2Proof.Machine.execFaultTimeout die n s
  | .stackRead n => Sys2Proof.Machine.execStackRead n s
  | .stackWrite n => Sys2Proof.Machine.execStackWrite n s
  | .bankRefresh stack pc bank hint => Sys2Proof.Machine.execBankRefresh stack pc bank hint s
  | .retryReissue n => Sys2Proof.Machine.execRetryReissue n s
  | .rowPrecharge stack pc bank => Sys2Proof.Machine.execRowPrecharge stack pc bank s
  | .rowOpenLimit stack pc bank => Sys2Proof.Machine.execRowOpenLimit stack pc bank s
  | .patrolScrub stack granule => Sys2Proof.Machine.execPatrolScrub stack granule s
  | .stackLost stack => Sys2Proof.Machine.execStackLost stack s
  | .nearMemoryGranule n => Sys2Proof.Machine.execNearMemoryGranule n s
  | .nmAtomicRecord n => Sys2Proof.Machine.execNmAtomicRecord n s
  | .timetableVisit die => Sys2Proof.Machine.execTimetableVisit die s
  | .reservedPlacement die => Sys2Proof.Machine.execReservedPlacement die s
  | .convoyPlacement die => Sys2Proof.Machine.execConvoyPlacement die s
  | .graphReturn die n => Sys2Proof.Machine.execGraphReturn die n s
  | .launchEntryWrite die n => Sys2Proof.Machine.execLaunchEntryWrite die n s
  | .groupPark die step => Sys2Proof.Machine.execGroupPark die step s
  | .groupWake die step => Sys2Proof.Machine.execGroupWake die step s
  | .waitExamination k => Sys2Proof.Machine.execWaitExamination k s
  | .messageDelivery die chan => Sys2Proof.Machine.execMessageDelivery die chan s
  | .messageSpill die chan => Sys2Proof.Machine.execMessageSpill die chan s
  | .cisternDrain die chan => Sys2Proof.Machine.execCisternDrain die chan s
  | .triggerFire die chan => Sys2Proof.Machine.execTriggerFire die chan s
  | .deadlockSample die part => Sys2Proof.Machine.execDeadlockSample die part s
  | .permitAudit die => Sys2Proof.Machine.execPermitAudit die s
  | .doorbellTailWrite die queue t => Sys2Proof.Machine.execDoorbellTailWrite die queue t s
  | .ctailWrite v => Sys2Proof.Machine.execCtailWrite v s
  | .pheadWrite v => Sys2Proof.Machine.execPheadWrite v s
  | .eheadWrite v => Sys2Proof.Machine.execEheadWrite v s
  | .ltrWrite v => Sys2Proof.Machine.execLtrWrite v s
  | .resetctlWrite v => Sys2Proof.Machine.execResetctlWrite v s
  | .slotmapWrite core v => Sys2Proof.Machine.execSlotmapWrite core v s
  | .configRegisterWrite r v => Sys2Proof.Machine.execConfigRegisterWrite r v s
  | .hostWrite aperture off bytes ep => Sys2Proof.Machine.execHostWrite aperture off bytes ep s
  | .hostRead aperture off n => Sys2Proof.Machine.execHostRead aperture off n s
  | .identify c => Sys2Proof.Machine.execIdentify c s
  | .attest c => Sys2Proof.Machine.execAttest c s
  | .fwStage c => Sys2Proof.Machine.execFwStage c s
  | .partCreate c => Sys2Proof.Machine.execPartCreate c s
  | .partDestroy c => Sys2Proof.Machine.execPartDestroy c s
  | .partXlat c => Sys2Proof.Machine.execPartXlat c s
  | .partWindow c => Sys2Proof.Machine.execPartWindow c s
  | .partInval c => Sys2Proof.Machine.execPartInval c s
  | .partSwapOut c => Sys2Proof.Machine.execPartSwapOut c s
  | .partSwapIn c => Sys2Proof.Machine.execPartSwapIn c s
  | .partReserve c => Sys2Proof.Machine.execPartReserve c s
  | .trapPolicy c => Sys2Proof.Machine.execTrapPolicy c s
  | .trapDisposeRetry c => Sys2Proof.Machine.execTrapDisposeRetry c s
  | .trapDisposeMaskedRetry c => Sys2Proof.Machine.execTrapDisposeMaskedRetry c s
  | .trapDisposeEnd c => Sys2Proof.Machine.execTrapDisposeEnd c s
  | .trapDisposeRestart c => Sys2Proof.Machine.execTrapDisposeRestart c s
  | .trapRead c => Sys2Proof.Machine.execTrapRead c s
  | .shareRelease c => Sys2Proof.Machine.execShareRelease c s
  | .faultResolveRetry c => Sys2Proof.Machine.execFaultResolveRetry c s
  | .faultResolveFail c => Sys2Proof.Machine.execFaultResolveFail c s
  | .aperture c => Sys2Proof.Machine.execAperture c s
  | .queueCreate c => Sys2Proof.Machine.execQueueCreate c s
  | .queueDestroy c => Sys2Proof.Machine.execQueueDestroy c s
  | .queueAssign c => Sys2Proof.Machine.execQueueAssign c s
  | .taskEnd c => Sys2Proof.Machine.execTaskEnd c s
  | .slotSet c => Sys2Proof.Machine.execSlotSet c s
  | .rowSet c => Sys2Proof.Machine.execRowSet c s
  | .chanCreate c => Sys2Proof.Machine.execChanCreate c s
  | .chanDestroy c => Sys2Proof.Machine.execChanDestroy c s
  | .chanSet c => Sys2Proof.Machine.execChanSet c s
  | .codeLoad c => Sys2Proof.Machine.execCodeLoad c s
  | .coreRetire c => Sys2Proof.Machine.execCoreRetire c s
  | .powerCap c => Sys2Proof.Machine.execPowerCap c s
  | .reset c => Sys2Proof.Machine.execReset c s
  | .unknownOpcode opcode c => Sys2Proof.Machine.execUnknownOpcode opcode c s
  | .coldReset => Sys2Proof.Machine.execColdReset s
  | .warmReset keepmem => Sys2Proof.Machine.execWarmReset keepmem s
  | .boot => Sys2Proof.Machine.execBoot s
  | .linkDown link => Sys2Proof.Machine.execLinkDown link s
  | .powerSample watts hot shutdown dies => Sys2Proof.Machine.execPowerSample watts hot shutdown dies s
  | .powerStateEntry die => Sys2Proof.Machine.execPowerStateEntry die s
  | .wakeEvent die => Sys2Proof.Machine.execWakeEvent die s
  | .flitReceive port f => Sys2Proof.Machine.execFlitReceive port f s
  | .replayTimeout port => Sys2Proof.Machine.execReplayTimeout port s
  | .portDown port why => Sys2Proof.Machine.execPortDown port why s
  | .portTraining port ok peer epoch => Sys2Proof.Machine.execPortTraining port ok peer epoch s
  | .flowResend n => Sys2Proof.Machine.execFlowResend n s
  | .packageLost pkg => Sys2Proof.Machine.execPackageLost pkg s
  | .msg m => Sys2Proof.Machine.execMsg m s
  | .close m => Sys2Proof.Machine.execClose m s
  | .waybill m => Sys2Proof.Machine.execWaybill m s
  | .loss m => Sys2Proof.Machine.execLoss m s
  | .refused m => Sys2Proof.Machine.execRefused m s
  | .xfault m => Sys2Proof.Machine.execXfault m s
  | .read m => Sys2Proof.Machine.execRead m s
  | .readresp m => Sys2Proof.Machine.execReadresp m s
  | .write m => Sys2Proof.Machine.execWrite m s
  | .writeack m => Sys2Proof.Machine.execWriteack m s
  | .ack m => Sys2Proof.Machine.execAck m s
  | .bindreq m => Sys2Proof.Machine.execBindreq m s
  | .bindreply m => Sys2Proof.Machine.execBindreply m s
  | .grant m => Sys2Proof.Machine.execGrant m s
  | .drained m => Sys2Proof.Machine.execDrained m s
  | .statreq m => Sys2Proof.Machine.execStatreq m s
  | .statreply m => Sys2Proof.Machine.execStatreply m s
  | .grow m => Sys2Proof.Machine.execGrow m s
  | .fault m => Sys2Proof.Machine.execFault m s
  | .bararr m => Sys2Proof.Machine.execBararr m s
  | .barrel m => Sys2Proof.Machine.execBarrel m s
  | .workdone m => Sys2Proof.Machine.execWorkdone m s
  | .linkstate m => Sys2Proof.Machine.execLinkstate m s
  | .refuse m => Sys2Proof.Machine.execRefuse m s
  | .powerLoss => Sys2Proof.Machine.execPowerLoss s

end Sys2Proof.Machine
end

