-- ==== Sys2Proof/Machine/Step.lean ====
section
/-!
DEFINITION. One step of the package: the next turn of the agenda; with none, boot while a reset is in progress, else a
cycle of the core of the current seat.
-/
namespace Sys2Proof.Machine
open Sys2Proof

/-- Go on with the next state. -/
def andThen (o : Out) (f : State → Out) : Out :=
  match o with
  | .next s => f s
  | .fault r => .fault r
  | .refused r => .refused r

/-- Fetch and issue on seat k: a bundle that is one instruction is exec of it on that seat. -/
def issueTurn (k : Nat) (s : State) : Out :=
  match nextBundle (issueLead k s) s with
  | (.error t, s1) => .next (trapIssue k t s s1)
  | (.ok b, s1) =>
    match b.solo with
    | some i => andThen (exec i { s1 with cur := issueLead k s }) fun t => .next { t with cur := s1.cur }
    | none => .next (issueBlock b (issueSeats k s) s1)

/-- A seat in a cycle of its core (R61, R64, R306). -/
def seatCycle (k : Nat) (s : State) : Out :=
  match seatTurn k s with
  | .nothing => .next s
  | .bubble => .next (bubbleTurn k s)
  | .second => .next (secondCycle k s)
  | .stalled => .next (stalledTurn k s)
  | .issue => issueTurn k s

/-- A cycle of a core: the primary seat first, then the other. -/
def coreCycle (c : Nat) (s : State) : Out :=
  let s1 := cycleStart c s
  match coreSeats c s1 with
  | [a, b] => andThen (seatCycle a s1) fun s2 => andThen (seatCycle b s2) fun s3 => .next (cycleEnd c s3)
  | _ => .next (cycleEnd c s1)

/-- One turn. -/
def takeTurn (t : Turn) (s : State) : Out :=
  match t with
  | .cycle c => if c < 256 then coreCycle c s else .next s
  | .event i => exec i s
  | .message w => .next (messageTurn w s)
  | .firmware => .next (firmwareTurn s)

/-- The turn that comes when the agenda is empty. -/
def idleTurn (s : State) : Out :=
  if s.host.resetting && s.host.booterr == 0 then exec .boot s else takeTurn (.cycle (coreOf s.cur)) s

def step (s : State) : Host.Outcome State Fault Refusal :=
  match s.agenda with
  | [] => idleTurn { s with cycle := s.cycle + 1 }
  | t :: rest => takeTurn t { s with agenda := rest, cycle := s.cycle + 1 }

/-! An instruction where the next step fetches it. -/

/-- The syllables of a table word, E set in the last. -/
def tableSyllables (nbits w : Nat) : List Word :=
  let w0 := w % 2 ^ 63
  let w1 := w / 2 ^ 64 % 2 ^ 63
  if nbits ≤ 64 && !(isBrm w0 && w0 / 2 ^ 25 % 4 != 0) then sealWords [w0]
  else if isBrm w0 && w0 / 2 ^ 25 % 4 != 0 then sealWords [w0, w1] else sealWords [w0]

/-- A leaf that maps the first GiB to physical address 0 with W and X. -/
def codeLeaf (p : Nat) : Xlat := ⟨p, 0, 30, 0, true, true, 0, true⟩

/-- A step that stands on seat 0 of core 0 at address 0, as a placement leaves it. -/
def runAt0 (s : State) : State :=
  let x := s.seat 0
  let at0 : Seat := { x with
    phase := .running, step := some (0, 0)
    ctx := { x.ctx with pos := {}, causes := [], wait := {}, ready := [], fuse := .alone, maskOnce := 0, csr.tapwait := x.ctx.csr.tapwait }
    split := none }
  let s1 := (s.setSeat 0 at0).updCore 0 fun c => { c with tcache := [codeLeaf 1] }
  let s2 := (s1.updStep 0 fun y => { y with
    present := true, uid := max 1 y.uid, task := 0, ready := none, parked := none, fresh := false
    members := [{ place := .onSeat 0 }] }).updTask 0 fun y => { y with
      present := true, part := 1, steps := 1, next := 1, wb := { y.wb with size := 1, fused := false } }
  let s3 := s2.updPart 1 fun y => { y with present := true, enable := true }
  { s3 with agenda := [], cur := 0, host.resetting := false }

def State.withFetchWord (s : State) (nbits w : Nat) : State :=
  let s1 := runAt0 s
  let bs := (tableSyllables nbits w).flatMap fun x => leBytes 8 x.toNat
  { (s1.updStack 0 fun x => { x with lost := false }) with
    mem := memWrite s1.mem 0 bs, poisonMem := s1.poisonMem.filter (· != 0), errs := s1.errs.set 0 0 0 }

end Sys2Proof.Machine
end

