-- ==== Sys2Proof/Safety.lean ====
section
/-!
DEFINITION. The terms in which claims are stated: when a seat can issue, what a bundle that runs leaves, and the
forms that a safe state keeps.
-/
namespace Sys2Proof.Machine
open Sys2Proof

/-- Nothing of its own holds the current seat: it runs on its own, no earlier result is open, no other seat of the
core has issued in the cycle or is in the second cycle of a split bundle, the copy engine occupies no bank, and
firmware does not gate its die (R56 to R64, R464). -/
structure Unheld (s : State) : Prop where
  running : (s.seat s.cur).phase = .running
  single : (s.ctx s.cur).fuse.isFused = false
  here : (s.ctx s.cur).wait.arrival = none
  examined : (s.ctx s.cur).wait.exam = false
  unmasked : (s.ctx s.cur).maskOnce = 0
  final : ∀ e ∈ (s.ctx s.cur).ready, e.final ≤ s.clk s.cur
  first : (s.core (coreOf s.cur)).issued = none
  whole : (s.seat s.cur).split = none
  beside : (s.seat (otherSeat s.cur)).split = none
  banks : (s.core (coreOf s.cur)).busy = []
  ungated : s.fw.gated.contains (dieOf s.cur) = false

/-- The current seat can issue a bundle of toll toll and traffic traffic in its next cycle: nothing of its own holds
it, and its budgets suffice (R99, R103, R105). -/
structure CanIssue (toll traffic : Nat) (s : State) : Prop extends Unheld s where
  tolls : (toll : Int) < (s.ctx s.cur).bud.ibud.toInt
  traffics : (traffic : Int) ≤ (s.ctx s.cur).bud.tbud.toInt

/-- The current seat stands outside every loop, and no transfer has issued in the last two bundles. -/
structure Straight (s : State) : Prop where
  outside : (s.ctx s.cur).pos.loops = []
  alone : (s.ctx s.cur).pos.pend = none
  apart : (s.ctx s.cur).pos.xferAge = 0

/-- No RESUME of the current seat is between its delay bundles (R112). -/
def Settled (s : State) : Prop := ∀ p, (s.ctx s.cur).pos.pend = some p → p.ret = false

/-- The current seat can issue, and the guard of its instruction holds. -/
structure Runs (g : Guard) (toll traffic : Nat) (s : State) : Prop where
  can : CanIssue toll traffic s
  settled : Settled s
  guard : Guard.holds g (s.ctx s.cur) = true

/-- State t follows from u by the end of a bundle: u holds the effects of the bundle's slots, and t differs from it
in the current seat's position, its charges, FPST, its scoreboard and its waits, and in the core's record of what
has issued (R54, R95, R97, R128). The position goes on by one syllable where no loop and no transfer says otherwise. -/
def Retired (fl clr : Flags) (toll traffic : Nat) (u t : State) : Prop :=
  ∃ pos ready wait issued,
    ((u.ctx u.cur).pos.loops = [] → (u.ctx u.cur).pos.pend = none → pos.pc = (u.ctx u.cur).pos.pc + 8) ∧
    t = (u.updCtx u.cur fun c => charge toll traffic { c with
      pos := pos
      ready := ready
      wait := wait
      maskOnce := 0
      csr.fpst := (c.csr.fpst &&& ~~~clr) ||| fl }).updCore (coreOf u.cur) fun x => { x with issued := issued }

/-- The instruction completes: it has the effect eff on the state, raises the flags fl and is charged toll and
traffic; nothing else changes. -/
def Completes (i : Instr) (s : State) (eff : State → State) (fl : Flags) (toll traffic : Nat) : Prop :=
  ∃ t, exec i s = .next t ∧ Retired fl 0 toll traffic (eff s) t

/-- The instruction completes with one effect: it changes the registers of its seat. -/
def Computes (i : Instr) (s : State) (f : Ctx → Ctx) (fl : Flags) : Prop :=
  Completes i s (fun u => u.updCtx s.cur f) fl 1 0

/-- The instruction completes with no effect but the end of its bundle. -/
def Passes (i : Instr) (s : State) : Prop := Completes i s id 0 1 0

/-- Seat k traps: it stops with the code in its cause, its record names the bundle it stopped at and the details of
the cause, and no register, position, budget, signal or byte of memory has changed (R56, R261). -/
def TrapsOn (k : Nat) (o : Out) (s : State) (code : BitVec 8) (detail0 detail1 : Word) : Prop :=
  ∃ t, o = .next t ∧
    (t.seat k).phase = .trapping ∧ (t.ctx k).csr.trapcause = code ∧
    (t.ctx k).trap.bundle = (s.ctx k).pos.pc ∧
    (t.ctx k).trap.detail0 = detail0 ∧ (t.ctx k).trap.detail1 = detail1 ∧
    (t.ctx k).regs = (s.ctx k).regs ∧ (t.ctx k).pos = (s.ctx k).pos ∧
    (t.ctx k).bud = (s.ctx k).bud ∧ (t.ctx k).sig = (s.ctx k).sig ∧ t.mem = s.mem

/-- The instruction traps on the current seat. -/
def Traps (i : Instr) (s : State) (code : BitVec 8) (detail0 detail1 : Word) : Prop :=
  TrapsOn s.cur (exec i s) s code detail0 detail1

/-- The bundle at the position of seat k is the instruction alone; its translation is cached. -/
def Stands (i : Instr) (k : Nat) (s : State) : Prop := nextBundle k s = (.ok (soloBundle i k s), s)

/-! Operands of the current seat. -/

/-- A tap of the elements es neither traps nor waits. -/
def TapReady (s : State) (t : Tap) (pl : Option Nat) (es : List Nat) : Prop :=
  tapTrap s s.cur (s.ctx s.cur) t pl es = none ∧ tapHold s s.cur (s.ctx s.cur) t = false

/-- A vector source neither traps nor waits. -/
def Readable (s : State) (t : VTy) (a : VOp) : Prop :=
  vTrap s s.cur (s.ctx s.cur) t a = none ∧ vHold s s.cur (s.ctx s.cur) a = false

/-- A vector destination does not trap. -/
def Writable (s : State) (d : VOp) : Prop := vDestTrap (s.ctx s.cur) d = none

/-- The lanes of a source of the current seat, with the flags of reading them. -/
def lanesOf (s : State) (t : VTy) (a : VOp) : List Nat × Flags := vRead s s.cur (s.ctx s.cur) t a

/-- Lanes of two sources, element by element, with every flag raised on the way. -/
def lanes2 (f : Nat → Nat → Nat × Flags) (x y : List Nat × Flags) : List Nat × Flags :=
  ((zipLanes f x.1 y.1).1, (zipLanes f x.1 y.1).2 ||| x.2 ||| y.2)

/-- Lanes of one source. -/
def lanes1 (f : Nat → Nat × Flags) (x : List Nat × Flags) : List Nat × Flags :=
  ((collect (x.1.map f)).1, (collect (x.1.map f)).2 ||| x.2)

/-- Lanes of two sources and the destination. -/
def lanes3 (f : Nat → Nat → Nat → Nat × Flags) (x y z : List Nat × Flags) : List Nat × Flags :=
  let r := collect (List.zipWith (fun p q => f p.1 p.2 q) (x.1.zip y.1) z.1)
  (r.1, r.2 ||| x.2 ||| y.2 ||| z.2)

/-- The instruction completes: the lanes go to the destination, converted in mode rm where it is a tap, and every
flag to FPST. -/
def WritesLanes (i : Instr) (s : State) (t : VTy) (d : VOp) (rm : RM) (r : List Nat × Flags) : Prop :=
  Completes i s (vWrite s.cur (s.ctx s.cur) t rm r.1 d) (r.2 ||| vWriteFlags (s.ctx s.cur) t rm r.1 d) 1 0

/-- The rows of a matrix operand can be read: the tap is legal, and none of its rows traps or waits. -/
def RowsReady (s : State) (t : Tap) (rows elems : Nat) (pl : Option Nat) : Prop :=
  mAbsent (s.ctx s.cur) t = none ∧ mScale (s.ctx s.cur) t = none ∧
    ∀ j < rows, TapReady s (t.row rows j) pl ((t.row rows j).span elems)

/-- A matrix pipe takes a command in this cycle. -/
def PipeFree (s : State) (p : Pipe) : Prop := p.free s s.cur ≤ s.clk s.cur

/-- The matrix command completes: its pipe is busy, its rows are written, its flags become due with its rows. -/
def Feeds (i : Instr) (s : State) (p : Pipe) (toll : Nat) (eff : State → State) (fl : List (Nat × Flags)) : Prop :=
  Completes i s (fun u => pendRows s.cur fl (p.take s.cur (eff u))) 0 (1 + toll) 0

/-- The invariant: the stacked DRAM, the memory of the host and the seats have their canonical form. -/
structure State.Wf (s : State) : Prop where
  mem : Memory.wf s.mem = true
  host : Memory.wf s.host.mem = true
  seats : Sparse.wf ({} : Seat) s.seats = true

/-- Firmware takes a command of opcode op: it is ready, the completion ring has room, FATAL does not stand in the way,
and every die is awake (R443, R449, R462). -/
structure Takes (op : BitVec 16) (s : State) : Prop where
  takes : canTake op s = true
  awake : ∀ d < 4, (s.die d).pstate = 0
  memory : s.host.selfRefresh = false

/-- The command has the effect that leads to t, and its completion carries the status and the result (R449). -/
def Answers (i : Instr) (op : BitVec 16) (c : Cmd) (s : State) (status : Nat) (result : Word) (t : State) : Prop :=
  exec i s = .next (completeCmd op c (some (status, result), t))

/-- The task of seat k has more steps, came from the host, and none has ended badly. -/
structure TaskGoesOn (k : Nat) (s : State) : Prop where
  present : (s.task (s.taskKey k)).present = true
  more : (s.task (s.taskKey k)).retired + 1 < (s.task (s.taskKey k)).steps
  host : (s.task (s.taskKey k)).origin = .host
  well : (s.task (s.taskKey k)).status = 0
  open' : (s.task (s.taskKey k)).finishing = false

/-- The step on seat k is a group of one outside every convoy, nothing of it is on its way, and no word of its context
reads with an error. -/
structure Lone (k : Nat) (s : State) : Prop where
  here : ∃ st, (s.seat k).step = some (st, 0)
  place : memberSeat s (s.stepKey k) 0 = some k
  one : (s.step1 (s.stepKey k)).members.length = 1
  present : (s.step1 (s.stepKey k)).present = true
  convoy : (s.waybill k).convoy = 0
  handles : (s.ctx k).eng.handles = []
  chans : s.chans = []
  proxies : s.fab.proxies = []
  near : s.near = []
  accs : s.accs = []
  streams : (s.die (dieOf k)).streams = []
  ghosts : (s.die (dieOf k)).ghosts = []
  waiting : (s.die (dieOf k)).convoy = none
  calm : (s.step1 (s.stepKey k)).aborted = false
  unflipped : (s.ctx k).flips = []
  form : s.Wf

/-- The message is for this package, its sender is known and not lost, and it is the next of its flow: it is taken
(R476, R478, R489, R491). -/
structure Arrives (w : Wire) (s : State) : Prop where
  here : endPkg w.dst = s.pkgid
  layout : w.lengthOk s = true
  room : workFull s w = false
  awake : (s.die w.actsOn).pstate = 0
  memory : s.host.selfRefresh = false
  known : endPkg w.src = s.pkgid ∨
    ((s.peer (endPkg w.src)).epoch = some w.epoch ∧ (s.peer (endPkg w.src)).lost = false)
  following : w.ordered = true → endPkg w.src ≠ s.pkgid → w.flowseq = nextTaken s w

/-- The state once the message is taken: its flow has moved on, a DATA message that fails its checks is turned away, and
it is acknowledged. -/
def taken (w : Wire) (s : State) : State := (takeFlow w s).2

end Sys2Proof.Machine
end

