-- ==== Sys2Proof/Certificates/Slice0/Obligations.lean ====
section
/-!
DEFINITION. The statements for the provers. A statement named Claims is one part of the statement that follows it.
-/
open Sys2Proof Sys2Proof.Machine

/-! Scalar instructions (R113 to R140). In each, the registers that an instruction names are read before the bundle,
and nothing but its destination changes beside what every bundle leaves. -/

/-- The register–register integer instructions of R115. -/
def Obligations.ScalarInteger : Prop :=
  ∀ (s : State) (g : Guard) (rd ra rb : BitVec 6) (p : BitVec 4), g.ok = true → Runs g 1 0 s →
    let c := s.ctx s.cur
    let a := c.s ra
    let b := c.s rb
    Computes (.add g rd ra rb) s (·.setS rd (a + b)) 0 ∧
    Computes (.sub g rd ra rb) s (·.setS rd (a - b)) 0 ∧
    Computes (.mul g rd ra rb) s (·.setS rd (a * b)) 0 ∧
    Computes (.mulh g rd ra rb) s (·.setS rd (BitVec.ofInt 64 (a.toInt * b.toInt / 2 ^ 64))) 0 ∧
    Computes (.mulhu g rd ra rb) s (·.setS rd (BitVec.ofNat 64 (a.toNat * b.toNat / 2 ^ 64))) 0 ∧
    Computes (.and g rd ra rb) s (·.setS rd (a &&& b)) 0 ∧
    Computes (.or g rd ra rb) s (·.setS rd (a ||| b)) 0 ∧
    Computes (.xor g rd ra rb) s (·.setS rd (a ^^^ b)) 0 ∧
    Computes (.andn g rd ra rb) s (·.setS rd (a &&& ~~~b)) 0 ∧
    Computes (.min g rd ra rb) s (·.setS rd (if a.toInt ≤ b.toInt then a else b)) 0 ∧
    Computes (.max g rd ra rb) s (·.setS rd (if a.toInt ≤ b.toInt then b else a)) 0 ∧
    Computes (.minu g rd ra rb) s (·.setS rd (if a.toNat ≤ b.toNat then a else b)) 0 ∧
    Computes (.maxu g rd ra rb) s (·.setS rd (if a.toNat ≤ b.toNat then b else a)) 0 ∧
    Computes (.clz g rd ra) s (·.setS rd (BitVec.ofNat 64 (if a = 0 then 64 else 63 - Nat.log2 a.toNat))) 0 ∧
    Computes (.popc g rd ra) s
      (·.setS rd (BitVec.ofNat 64 ((List.range 64).countP fun i => a.getLsbD i))) 0 ∧
    Computes (.sel g rd ra rb p) s (·.setS rd (if c.p p then a else b)) 0

/-- Division by zero, the one quotient that does not fit, and truncation (R116). -/
def Obligations.ScalarDivide : Prop :=
  ∀ (s : State) (g : Guard) (rd ra rb : BitVec 6), g.ok = true → Runs g 1 0 s →
    let a := (s.ctx s.cur).s ra
    let b := (s.ctx s.cur).s rb
    (b = 0 →
      Computes (.div g rd ra rb) s (·.setS rd 0xFFFFFFFFFFFFFFFF) 0 ∧
      Computes (.divu g rd ra rb) s (·.setS rd 0xFFFFFFFFFFFFFFFF) 0 ∧
      Computes (.rem g rd ra rb) s (·.setS rd a) 0) ∧
    (b ≠ 0 → Computes (.divu g rd ra rb) s (·.setS rd (BitVec.ofNat 64 (a.toNat / b.toNat))) 0) ∧
    (a.toInt = -2 ^ 63 → b.toInt = -1 →
      Computes (.div g rd ra rb) s (·.setS rd 0x8000000000000000) 0 ∧
      Computes (.rem g rd ra rb) s (·.setS rd 0) 0) ∧
    (b ≠ 0 → ¬(a.toInt = -2 ^ 63 ∧ b.toInt = -1) → ∃ q r : Word,
      Computes (.div g rd ra rb) s (·.setS rd q) 0 ∧ Computes (.rem g rd ra rb) s (·.setS rd r) 0 ∧
      q.toInt = a.toInt.tdiv b.toInt ∧ r.toInt = a.toInt - q.toInt * b.toInt)

/-- The shifts by a register take the whole register as the count (R117). -/
def Obligations.ScalarShift : Prop :=
  ∀ (s : State) (g : Guard) (rd ra rb : BitVec 6), g.ok = true → Runs g 1 0 s →
    let a := (s.ctx s.cur).s ra
    let n := ((s.ctx s.cur).s rb).toNat
    (n < 64 →
      Computes (.shl g rd ra rb) s (·.setS rd (a <<< n)) 0 ∧
      Computes (.shr g rd ra rb) s (·.setS rd (a >>> n)) 0 ∧
      Computes (.sar g rd ra rb) s (·.setS rd (a.sshiftRight n)) 0) ∧
    (64 ≤ n →
      Computes (.shl g rd ra rb) s (·.setS rd 0) 0 ∧
      Computes (.shr g rd ra rb) s (·.setS rd 0) 0 ∧
      Computes (.sar g rd ra rb) s (·.setS rd (if a.getLsbD 63 then 0xFFFFFFFFFFFFFFFF else 0)) 0)

/-- Immediates are sign-extended; MOVHI keeps the lower half (R118, R119). -/
def Claims.ScalarImmediate : Prop :=
  ∀ (s : State) (g : Guard) (rd ra : BitVec 6) (i : BitVec 35) (h : BitVec 32) (n : BitVec 6),
    g.ok = true → Runs g 1 0 s →
    let a := (s.ctx s.cur).s ra
    let imm : Word := i.signExtend 64
    Computes (.addi g rd ra i) s (·.setS rd (a + imm)) 0 ∧
    Computes (.andi g rd ra i) s (·.setS rd (a &&& imm)) 0 ∧
    Computes (.ori g rd ra i) s (·.setS rd (a ||| imm)) 0 ∧
    Computes (.xori g rd ra i) s (·.setS rd (a ^^^ imm)) 0 ∧
    Computes (.shli g rd ra n) s (·.setS rd (a <<< n.toNat)) 0 ∧
    Computes (.shri g rd ra n) s (·.setS rd (a >>> n.toNat)) 0 ∧
    Computes (.sari g rd ra n) s (·.setS rd (a.sshiftRight n.toNat)) 0 ∧
    Computes (.movi g rd i) s (·.setS rd imm) 0 ∧
    Computes (.movhi g rd ra h) s (·.setS rd (h ++ a.setWidth 32)) 0

/-- The spill store and the loop index (R122, R134). -/
def Claims.SpillAndIndex : Prop :=
  ∀ (s : State) (g : Guard) (rd ra : BitVec 6) (n : BitVec 9) (l : BitVec 3), g.ok = true → Runs g 1 0 s →
    let c := s.ctx s.cur
    Computes (.spld g rd n) s (·.setS rd (c.spill n)) 0 ∧
    Computes (.spst g ra n) s (·.setSpill n (c.s ra)) 0 ∧
    (l.toNat ≤ 5 → Computes (.lidx g rd l) s
      (·.setS rd (match c.pos.loops[l.toNat]? with
        | some x => x.index
        | none => 0)) 0)

/-- Immediates, the spill store and the loop index (R118, R119, R122, R134). -/
def Obligations.ImmediateAndSpill : Prop := Claims.ScalarImmediate ∧ Claims.SpillAndIndex

/-- Compares and predicates write p1 to p12 and nothing else (R120, R121). -/
def Obligations.Predicates : Prop :=
  ∀ (s : State) (g : Guard) (pd pa pb : BitVec 4) (ra rb : BitVec 6) (i : BitVec 34),
    g.ok = true → predDestOk pd = true → Runs g 1 0 s →
    let c := s.ctx s.cur
    let a := c.s ra
    let rel : Cond → Word → Bool := fun cc b => match cc with
      | .eq => a == b
      | .ne => a != b
      | .lt => decide (a.toInt < b.toInt)
      | .le => decide (a.toInt ≤ b.toInt)
      | .ltu => decide (a.toNat < b.toNat)
      | .leu => decide (a.toNat ≤ b.toNat)
    (∀ cc, Computes (.cmp g pd cc ra rb) s (·.setP pd (rel cc (c.s rb))) 0 ∧
      Computes (.cmpi g pd cc ra i) s (·.setP pd (rel cc (i.signExtend 64))) 0) ∧
    Computes (.pand g pd pa pb) s (·.setP pd (c.p pa && c.p pb)) 0 ∧
    Computes (.por g pd pa pb) s (·.setP pd (c.p pa || c.p pb)) 0 ∧
    Computes (.pxor g pd pa pb) s (·.setP pd (c.p pa != c.p pb)) 0 ∧
    Computes (.pandn g pd pa pb) s (·.setP pd (c.p pa && !c.p pb)) 0 ∧
    Computes (.pset g pd ra) s (·.setP pd (a != 0)) 0

/-- What CSRR reads of each control register (R69 to R73, R123 to R132); a read of FPST waits for matrix results.
The model's readings on which clauses rest: log 89. -/
def Obligations.CsrRead : Prop :=
  ∀ (s : State) (g : Guard) (rd : BitVec 6) (n : BitVec 12), g.ok = true → csrListed n = true → Runs g 1 0 s →
    (n = 0x020 → (s.ctx s.cur).mx.pend = []) →
    let c := s.ctx s.cur
    ∃ v : Word, Computes (.csrr g rd n) s (·.setS rd v) 0 ∧
      (n = 0x001 → v = c.csr.now) ∧ (n = 0x002 → v = c.csr.cycles) ∧
      (n = 0x010 → v = c.bud.ibud.signExtend 64) ∧ (n = 0x011 → v = c.bud.tbud.signExtend 64) ∧
      (n = 0x014 → v = c.bud.maxrun.setWidth 64) ∧ (n = 0x018 → v = c.csr.contpc) ∧
      (n = 0x019 → v = if c.bud.incont then c.saved.pc &&& 0x0000FFFFFFFFFFF8 else 0) ∧
      (n = 0x01A → v = c.csr.tapwait.setWidth 64) ∧ (n = 0x020 → v = c.csr.fpst.setWidth 64) ∧
      (n = 0x021 → v = c.csr.rm.setWidth 64) ∧ (n = 0x022 → v = c.csr.gfloor.signExtend 64) ∧
      (n = 0x030 → v = BitVec.ofNat 64 (s.cur % 2)) ∧ (n = 0x031 → v = BitVec.ofNat 64 (s.cur / 2 % 64)) ∧
      (n = 0x032 → v = BitVec.ofNat 64 (s.cur / 8 % 16)) ∧ (n = 0x033 → v = BitVec.ofNat 64 (s.cur / 128)) ∧
      (n = 0x034 → v = s.pkgid.setWidth 64) ∧ (n = 0x035 → v = c.csr.member.setWidth 64) ∧
      (n = 0x036 → v = c.csr.groupsz.setWidth 64) ∧ (n = 0x040 → v = c.csr.evpend.setWidth 64) ∧
      (n = 0x050 → v = c.csr.trapcause.setWidth 64) ∧
      (n = 0x013 → v.getLsbD 0 = c.due ∧ v.getLsbD 1 = c.bud.toppriv ∧ v.getLsbD 2 = c.bud.recallBit ∧
        v.getLsbD 3 = c.bud.incont ∧ v.extractLsb' 4 2 = c.bud.ycause ∧ v.getLsbD 6 = false ∧ v.getLsbD 7 = c.bud.evlost ∧
        v.extractLsb' 8 24 = 0 ∧ v.extractLsb' 32 17 = c.bud.run ∧ v.extractLsb' 49 15 = 0)

/-- What CSRW changes: the fields that software may write, within their limits, and nothing else
(R70 to R73, R123, R127 to R130).
The model's readings on which clauses rest: log 90. -/
def Obligations.CsrWrite : Prop :=
  ∀ (s : State) (g : Guard) (ra : BitVec 6) (n : BitVec 12), g.ok = true → csrListed n = true → Runs g 1 0 s →
    let x := (s.ctx s.cur).s ra
    (n = 0x013 → Computes (.csrw g ra n) s
      (fun c => { c with bud.evlost := c.bud.evlost && !x.getLsbD 7 }) 0) ∧
    (n = 0x014 → Computes (.csrw g ra n) s (fun c =>
      if 1 ≤ x.toNat % 2 ^ 17 ∧ x.toNat % 2 ^ 17 ≤ 65536 ∧ x.toNat % 2 ^ 17 ≤ c.bud.maxrun.toNat
      then { c with bud.maxrun := x.setWidth 17 } else c) 0) ∧
    (n = 0x018 → Computes (.csrw g ra n) s (fun c => { c with csr.contpc := x &&& 0x0000FFFFFFFFFFF8 }) 0) ∧
    (n = 0x01A → Computes (.csrw g ra n) s
      (fun c => if x.setWidth 32 = (0 : BitVec 32) then c else { c with csr.tapwait := x.setWidth 32 }) 0) ∧
    (n = 0x021 → Computes (.csrw g ra n) s (fun c => { c with csr.rm := x.setWidth 2 }) 0) ∧
    (n = 0x022 → Computes (.csrw g ra n) s
      (fun c => if -126 ≤ x.toInt ∧ x.toInt ≤ 0 then { c with csr.gfloor := x.setWidth 8 } else c) 0) ∧
    (n = 0x040 → Computes (.csrw g ra n) s
      (fun c => { c with csr.evpend := c.csr.evpend &&& ~~~(x.setWidth 16 &&& ~~~c.csr.evNew) }) 0) ∧
    (n = 0x020 → ∃ t, exec (.csrw g ra n) s = .next t ∧ Retired 0 (x.setWidth 6) 1 0 s t) ∧
    (n ∉ [0x013, 0x014, 0x018, 0x01A, 0x020, 0x021, 0x022, 0x040] → Passes (.csrw g ra n) s)

/-- The scalar floating-point instructions round in FPMODE.RM, put their result into bits 31:0 and zero into the
rest, and set their flags (R135 to R140). -/
def Obligations.ScalarFloat : Prop :=
  ∀ (s : State) (g : Guard) (rd ra rb : BitVec 6) (pd : BitVec 4), g.ok = true → Runs g 1 0 s →
    let c := s.ctx s.cur
    let rm := c.csr.rm
    let word : BitVec 6 → Nat := fun r => (c.s r).toNat % 2 ^ 32
    let val : BitVec 6 → FVal := fun r => fp32.decode (word r)
    let puts : Instr → Nat × Flags → Prop := fun i r => Computes i s (·.setS rd (BitVec.ofNat 64 r.1)) r.2
    puts (.fadd g rd ra rb) (fp32.add rm (val ra) (val rb)) ∧
    puts (.fsub g rd ra rb) (fp32.sub rm (val ra) (val rb)) ∧
    puts (.fmul g rd ra rb) (fp32.mul rm (val ra) (val rb)) ∧
    puts (.ffma g rd ra rb) (fp32.fma rm (val ra) (val rb) (val rd)) ∧
    puts (.fmin g rd ra rb) (fp32.minmax false (word ra) (word rb)) ∧
    puts (.fmax g rd ra rb) (fp32.minmax true (word ra) (word rb)) ∧
    puts (.icvtf g rd ra) (fp32.round rm (FVal.ofInt (c.s ra).toInt)) ∧
    Computes (.fcvti g rd ra) s (·.setS rd (BitVec.ofInt 64 (roundInt rm 64 (val ra)).1)) (roundInt rm 64 (val ra)).2 ∧
    (predDestOk pd = true → ∀ cc, cc ≠ .ltu → cc ≠ .leu →
      Computes (.fcmp g pd cc ra rb) s (·.setP pd (fcmp cc (val ra) (val rb)).1) (fcmp cc (val ra) (val rb)).2)

/-- A slot whose guard does not hold has no effect (R35): it only ends its bundle. -/
def Obligations.GuardedFalse : Prop :=
  ∀ (s : State) (i : Instr), (encode i).length = 1 → i.wf = true → CanIssue 1 0 s → Settled s →
    (Instr.transfer i = true → Straight s) → Guard.holds (Instr.guard i) (s.ctx s.cur) = false → Passes i s

/-! Signals (R145 to R172). -/

/-- SIGSET within its limits writes its field with the side effects of the field (R165, R166). -/
def Claims.SigsetCompletes : Prop :=
  ∀ (s : State) (g : Guard) (ra : BitVec 6) (n : BitVec 7) (f : BitVec 4) (l : BitVec 3),
    (Instr.sigset g ra n f l).wf = true → Runs g 1 0 s →
    let c := s.ctx s.cur
    let x := c.s ra
    let new := (c.sg n).setField f.toNat l.toNat x
    (f.toNat ∉ [11, 12, 13] → attached s s.cur c n = false) → sigLimit (c.sg n) f.toNat x = true →
    (f.toNat ≤ 3 → new.fits (s.seat s.cur).share = true) →
    ((f.toNat ≤ 3 ∨ f = 14) → Completes (.sigset g ra n f l) s (fun u => u.updCtx s.cur fun c =>
      ((c.forget n).setSg n (new.setFill ((new.head.toNat : Int) - 1))).clearMarks n) 0 1 0) ∧
    (f = 4 → new.kind ≠ (c.sg n).kind → Completes (.sigset g ra n f l) s (fun u => u.updCtx s.cur fun c =>
      ((c.forget n).setSg n ({ new with head := 0 }.setFill (-1))).clearMarks n) 0 1 0) ∧
    (f = 10 → Completes (.sigset g ra n f l) s (fun u => u.updCtx s.cur fun c =>
      (c.forget n).setSg n (new.setFill ((new.head.toNat : Int) - 1))) 0 1 0) ∧
    ((f = 4 ∧ new.kind = (c.sg n).kind) ∨ f.toNat ∈ [5, 6, 7, 8, 9, 11, 12, 13] →
      Completes (.sigset g ra n f l) s (fun u => u.updCtx s.cur fun c => c.setSg n new) 0 1 0)

/-- The other instructions on one signal (R167 to R172). -/
def Claims.SignalAccess : Prop :=
  ∀ (s : State) (g : Guard) (rd : BitVec 6) (n : BitVec 7) (lag : BitVec 8), g.ok = true → sigOk n = true →
    Runs g 1 0 s →
    let c := s.ctx s.cur
    let sg := c.sg n
    let t := resolve c n lag.toNat
    let head : Int := if sg.isTable then 0 else sg.head.toNat
    (sg.present = true → ∀ (f : BitVec 4) (l : BitVec 3), sigFieldOk 15 f l = true →
      Computes (.sigget g rd n f l) s (·.setS rd (sigField sg f.toNat l.toNat)) 0) ∧
    (sg.present = true → attached s s.cur c n = false →
      Computes (.sigclr g n) s (fun c => ((c.forget n).setSg n ({ c.sg n with head := 0 }.setFill (-1))).clearMarks n) 0) ∧
    (sg.present = true → sg.feed = 0 → t.inLag = true →
      Computes (.fillmk g n lag) s
        (fun c => if sg.fillMark < t.idx then c.setSg n (sg.setFill t.idx) else c) 0) ∧
    (sg.present = true → sg.feed ≠ 0 → head + lag.toInt ≤ sg.fillMark →
      Computes (.waitfill g rd n lag) s (·.setS rd (BitVec.ofInt 64 (sg.fillMark - head))) 0) ∧
    (TapReady s t none [t.off.toNat] → sg.fmt ∉ [Fmt.int32, Fmt.int8] →
      let r := tapLane s s.cur c t none .fp32 t.off.toNat
      Computes (.taprd g rd n lag) s (·.setS rd (BitVec.ofNat 64 r.1)) r.2) ∧
    (TapReady s t none [t.off.toNat] → sg.fmt ∈ [Fmt.int32, Fmt.int8] →
      Computes (.taprd g rd n lag) s
        (·.setS rd (BitVec.ofInt 64 (signedOf 32 (tapLane s s.cur c t none .int32 t.off.toNat).1))) 0) ∧
    (writeTrap t = none →
      let x := tapwrElem t (c.s rd)
      Completes (.tapwr g rd n lag) s (putElems s.cur t t.off.toNat [x.1])
        (if t.prehistory || decide (t.off.toNat ≥ t.g.elems) then 0 else x.2) 1 0)

/-- SIGSET, and the other instructions on one signal (R165 to R172).
The model's readings on which clauses rest: logs 92, 113, 126, 127. -/
def Obligations.SignalFields : Prop := Claims.SigsetCompletes ∧ Claims.SignalAccess

/-- Advances: ADV moves one manual signal, TICK moves NOW and every ticked signal that falls due
(R149 to R151, R163, R164). -/
def Claims.SignalAdvance : Prop :=
  ∀ (s : State) (g : Guard) (n : BitVec 7) (a : BitVec 8), g.ok = true → a ≠ 0 → Runs g 1 0 s →
    let c := s.ctx s.cur
    (sigOk n = true → (c.sg n).present = true → (c.sg n).rate = 255 → advHold s s.cur c n a.toNat = false →
      advTrap s s.cur c n a.toNat = none → Completes (.adv g n a) s (advanceN s.cur n a.toNat) 0 1 0) ∧
    let due := (tickSet c a.toNat).filter (·.2 > 0)
    ((∀ x ∈ due, advHold s s.cur c x.1 x.2 = false ∧ advTrap s s.cur c x.1 x.2 = none) →
      Completes (.tick g a) s (fun u => due.foldl (fun u x => advances s.cur x.1 x.2 u)
        (u.updCtx s.cur fun c => { c with csr.now := c.csr.now + a.setWidth 64 })) 0 1 0)

/-- One advance of a signal: HEAD rises by one, the slot that comes into reach is unwritten and not poisoned, and
every other signal stands (R148, R150). -/
def Claims.AdvanceFrame : Prop :=
  ∀ (s : State) (k : Nat) (n : BitVec 7), (s.seat k).phase = .running → ((s.ctx k).sg n).present = true →
    Sparse.wf {} (s.ctx k).sig.table = true → Sparse.wf 0 (s.ctx k).sig.written = true →
    Sparse.wf 0 (s.ctx k).sig.poison = true →
    let t := advance1 k n s
    let new := ((t.ctx k).sg n).slotOf (((t.ctx k).sg n).head.toNat + ((t.ctx k).sg n).ahead.toNat)
    ((t.ctx k).sg n).head = ((s.ctx k).sg n).head + 1 ∧
    (∀ u, (t.ctx k).written n new u = false ∧ (t.ctx k).poisoned n new u = false) ∧
    (∀ m, m ≠ n → (t.ctx k).sg m = (s.ctx k).sg m) ∧
    (t.ctx k).regs = (s.ctx k).regs ∧ (t.ctx k).csr = (s.ctx k).csr ∧ t.mem = s.mem ∧
    (((s.ctx k).sg n).isTicked = true → ∀ a, advances k n a s = advanceN k n a s)

/-- ADV and TICK, and what one advance of a signal changes (R148 to R151, R163, R164).
The model's readings on which clauses rest: log 114. -/
def Obligations.Advances : Prop := Claims.SignalAdvance ∧ Claims.AdvanceFrame

/-! The vector unit (R192 to R214). -/

/-- The element-wise instructions of two and three sources write every lane of their destination.
The model's readings on which clauses rest: logs 113, 126, 127. -/
def Obligations.VectorElementwise : Prop :=
  ∀ (s : State) (g : Guard) (t : VTy) (d a b : VOp) (rm : RM), Runs g 1 0 s →
    Readable s t a → Readable s t b → Writable s d →
    let x := lanesOf s t a
    let y := lanesOf s t b
    let z := lanesOf s t d
    let two : (RM → VTy → Nat → Nat → Nat × Flags) → List Nat × Flags := fun f => lanes2 (f rm t) x y
    ((Instr.vadd g t d a b rm).wf = true →
      WritesLanes (.vadd g t d a b rm) s t d rm (two (lane2 FFmt.add (· + ·))) ∧
      WritesLanes (.vsub g t d a b rm) s t d rm (two (lane2 FFmt.sub (· - ·))) ∧
      WritesLanes (.vmul g t d a b rm) s t d rm (two (lane2 FFmt.mul (· * ·))) ∧
      (Readable s t d →
        WritesLanes (.vfma g t d a b rm) s t d rm (lanes3 (laneFma false rm t) x y z) ∧
        WritesLanes (.vfms g t d a b rm) s t d rm (lanes3 (laneFma true rm t) x y z))) ∧
    ((Instr.vmin g t d a b).wf = true →
      WritesLanes (.vmin g t d a b) s t d 0 (lanes2 (laneMm false 0 t) x y) ∧
      WritesLanes (.vmax g t d a b) s t d 0 (lanes2 (laneMm true 0 t) x y)) ∧
    ((Instr.vcmpeq g t d a b).wf = true →
      WritesLanes (.vcmpeq g t d a b) s t d 0 (lanes2 (laneCmp .eq 0 t) x y) ∧
      WritesLanes (.vcmplt g t d a b) s t d 0 (lanes2 (laneCmp .lt 0 t) x y) ∧
      WritesLanes (.vcmple g t d a b) s t d 0 (lanes2 (laneCmp .le 0 t) x y) ∧
      WritesLanes (.vsel g t d a b) s t d 0
        (lanes3 (fun p q r => (if r = 0 then q else p, 0)) x y z))

/-- The element-wise instructions of one source (R197, R198, R209 to R211). -/
def Claims.VectorUnary : Prop :=
  ∀ (s : State) (g : Guard) (t : VTy) (d a : VOp) (rm : RM), Runs g 1 0 s → Readable s t a → Writable s d →
    let x := lanesOf s t a
    ((Instr.vmov g t d a).wf = true →
      WritesLanes (.vmov g t d a) s t d 0 (lanes1 (fun v => (v, 0)) x) ∧
      WritesLanes (.vabs g t d a) s t d 0 (lanes1 (laneSign true 0 t) x) ∧
      WritesLanes (.vneg g t d a) s t d 0 (lanes1 (laneSign false 0 t) x)) ∧
    ((Instr.vrcp g t d a rm).wf = true →
      WritesLanes (.vrcp g t d a rm) s t d rm (lanes1 (approxLane .rcp (VTy.ff t) rm) x) ∧
      WritesLanes (.vrsq g t d a rm) s t d rm (lanes1 (approxLane .rsq (VTy.ff t) rm) x) ∧
      WritesLanes (.vexp2 g t d a rm) s t d rm (lanes1 (approxLane .exp2 (VTy.ff t) rm) x) ∧
      WritesLanes (.vlog2 g t d a rm) s t d rm (lanes1 (approxLane .log2 (VTy.ff t) rm) x))

/-- The bitwise instructions and shifts work on 32-bit lanes; a count of 32 and more leaves zero, or the sign
(R207). -/
def Claims.VectorBits : Prop :=
  ∀ (s : State) (g : Guard) (d a b : VOp), (Instr.vand g d a b).wf = true → Runs g 1 0 s →
    Readable s .int32 a → Readable s .int32 b → Writable s d →
    let both : (BitVec 32 → BitVec 32 → BitVec 32) → List Nat × Flags := fun f =>
      lanes2 (fun p q => ((f (BitVec.ofNat 32 p) (BitVec.ofNat 32 q)).toNat, 0)) (lanesOf s .int32 a) (lanesOf s .int32 b)
    WritesLanes (.vand g d a b) s .int32 d 0 (both (· &&& ·)) ∧
    WritesLanes (.vor g d a b) s .int32 d 0 (both (· ||| ·)) ∧
    WritesLanes (.vxor g d a b) s .int32 d 0 (both (· ^^^ ·)) ∧
    WritesLanes (.vshl g d a b) s .int32 d 0 (both fun x n => if n.toNat < 32 then x <<< n.toNat else 0) ∧
    WritesLanes (.vshr g d a b) s .int32 d 0 (both fun x n => if n.toNat < 32 then x >>> n.toNat else 0) ∧
    WritesLanes (.vsar g d a b) s .int32 d 0 (both fun x n => x.sshiftRight (min n.toNat 32))

/-- The element-wise instructions of one source, and the bitwise ones (R197, R198, R207, R209 to R211).
The model's readings on which clauses rest: logs 113, 126, 127. -/
def Obligations.VectorLanes : Prop := Claims.VectorUnary ∧ Claims.VectorBits

/-- The exponent that a value names for VSCALE: truncated toward zero, −512 to 512; a NaN names none (R200). -/
def Claims.powerOf : FVal → Option Int
  | .nan _ => none
  | .inf neg => some (if neg then -512 else 512)
  | .num neg m e =>
    let n : Nat := if 0 ≤ e then m * 2 ^ e.toNat else m / 2 ^ (-e).toNat
    some (max (-512) (min 512 (if neg then -(n : Int) else n)))

/-- The instructions that move lanes, reduce them or convert them (R199, R200, R203 to R206, R208).
The model's readings on which clauses rest: logs 92, 113, 119, 126, 127, 128. -/
def Obligations.VectorAcross : Prop :=
  ∀ (s : State) (g : Guard) (t src : VTy) (d a b : VOp) (rm : RM), Runs g 1 0 s → Writable s d →
    let c := s.ctx s.cur
    let x := lanesOf s t a
    let y := lanesOf s t b
    let every : Nat → List Nat := fun v => List.replicate (VTy.lanes t) v
    (Readable s t a → (Instr.vbcast g t d a b).wf = true →
      WritesLanes (.vbcast g t d a b) s t d 0 (every (laneAt x.1 (scalarIndex c b)), x.2) ∧
      WritesLanes (.vslide g t d a b) s t d 0
        ((List.range (VTy.lanes t)).map fun (i : Nat) => laneAt x.1 ((i : Int) + scalarIndex c b), x.2)) ∧
    (Readable s t a → (Instr.viota g t d a).wf = true →
      ∃ r, WritesLanes (.viota g t d a) s t d 0 r ∧ r.1.length = x.1.length ∧
        (t = .int32 → r.1 = x.1.zipIdx.map (fun p => unsignedOf 32 (i32 p.1 + (p.2 : Nat))) ∧ r.2 = x.2) ∧
        (t ≠ .int32 →
          let sums := collect (x.1.zipIdx.map fun p =>
            (VTy.ff t).add 0 ((VTy.ff t).decode p.1) (.num false p.2 0))
          r = (sums.1, sums.2 ||| x.2))) ∧
    (Readable s t a → (Instr.vrsum g t d a rm).wf = true →
      let r := tree (lane2 FFmt.add (· + ·) rm t) (if VTy.lanes t = 64 then 6 else 7) (x.1, 0)
      WritesLanes (.vrsum g t d a rm) s t d rm (every (r.1.headD 0), r.2 ||| x.2)) ∧
    (Readable s t a → (Instr.vrmax g t d a).wf = true →
      let r := tree (laneMm true 0 t) (if VTy.lanes t = 64 then 6 else 7) (x.1, 0)
      WritesLanes (.vrmax g t d a) s t d 0 (every (r.1.headD 0), r.2 ||| x.2)) ∧
    (Readable s t a → Readable s t b → (Instr.vperm g t d a b).wf = true →
      WritesLanes (.vperm g t d a b) s t d 0
        (lanes2 (fun _ i => (match (indexLane t i).1 with
          | some j => laneAt x.1 j
          | none => 0, (indexLane t i).2)) (y.1, x.2) y)) ∧
    (Readable s t a → (Instr.vcvt g t d a src rm).wf = true →
      WritesLanes (.vcvt g t d a src rm) s t d rm
        (lanes1 (convert rm (VTy.fmt src) (VTy.fmt t)) (vcvtSource s s.cur c t src a))) ∧
    (∀ i, Readable s t a → (Instr.vscale g t d a (.imm i) rm).wf = true →
      WritesLanes (.vscale g t d a (.imm i) rm) s t d rm
        (lanes2 (fun v _ => scaleBy (VTy.ff t) rm v (some (clamp512 i.toInt)) false) x (lanesOf s t (.imm i)))) ∧
    ((∀ i, b ≠ .imm i) → Readable s t a → Readable s t b → (Instr.vscale g t d a b rm).wf = true →
      WritesLanes (.vscale g t d a b rm) s t d rm (lanes2 (fun v w =>
        scaleBy (VTy.ff t) rm v (Claims.powerOf ((VTy.ff t).decode w)) ((VTy.ff t).decode w == .nan true)) x y)) ∧
    (∀ n lag, a = .tap n lag → Readable s t b → (Instr.vtapx g t d a b).wf = true →
      let tp := resolve c n lag.toNat
      let at' : Nat → Option Nat := fun i => match (indexLane t i).1 with
        | some j => if 0 ≤ j ∧ j < tp.g.elems ∧ tp.off + j < tp.g.elems then some (tp.off + j).toNat else none
        | none => none
      TapReady s tp none (y.1.filterMap at') →
      let r := collect (y.1.map fun i => match at' i with
        | some e => tapLane s s.cur c tp none (VTy.fmt t) e
        | none => (0, 0))
      WritesLanes (.vtapx g t d a b) s t d 0
        (r.1, r.2 ||| (collect (y.1.map fun i => (i, (indexLane t i).2))).2 ||| y.2))

/-! The matrix array and the affine unit (R239 to R258). -/

/-- Latches and matrix products: a latch takes the 64 × 192 values of its rows; MMA and MMAZ replace the offsets of
their rows by one K-step each, MMAZ from offset 0 and with gain 1 (R190, R249 to R251).
The model's readings on which clauses rest: logs 44, 47, 117, 127. -/
def Obligations.MatrixProducts : Prop :=
  ∀ (s : State) (g : Guard) (tile l : BitVec 1) (n lag : BitVec 7) (r : MRows) (kd : MKind),
    (Instr.mma g tile l n lag r kd).wf = true →
    let c := s.ctx s.cur
    let t := resolve c n lag.toNat
    let pl := MKind.planes kd
    let rows := MRows.n r
    let base := MRows.base r
    let q := MKind.quarters kd
    let busy := (rows * q + 3) / 4
    let la := c.latch l
    let cols := (List.range 192).map fun j =>
      ((List.range 64).map fun i => la.elems.get (.num false 0 0) (i * 192 + j), la.poison.any fun e => e.1 % 192 == j)
    let row : Bool → Nat → List PairP × Flags := fun zero j =>
      mmaRow zero cols la.kind.isNone (rowValues s s.cur c (t.row rows j) pl 64) (c.tilePairs tile.toNat (base + j))
    let out : Bool → List (List PairP × Flags) := fun zero => (List.range rows).map (row zero)
    let done : Bool → List (Nat × Flags) := fun zero => ((out zero).map (·.2)).zipIdx.map fun x => (x.2 * q / 4 + 24, x.1)
    (Runs g (1 + 64) 0 s → PipeFree s .loader → t.g.fmt = MKind.fmt kd →
      (RowsReady s t 64 192 pl →
        Feeds (.latch g l n lag kd) s .loader 64 (fun u => u.updCtx s.cur fun c => c.setLatch l
          ⟨some kd, Sparse.putRange (.num false 0 0) []
            0 (latchElems false (.num false 0 0) ((List.range 64).map fun j => rowValues s s.cur c (t.row 64 j) pl 192)), []⟩)
          [(64, 0)]) ∧
      (RowsReady s t 192 64 pl →
        Feeds (.latcht g l n lag kd) s .loader 64 (fun u => u.updCtx s.cur fun c => c.setLatch l
          ⟨some kd, Sparse.putRange (.num false 0 0) []
            0 (latchElems true (.num false 0 0) ((List.range 192).map fun j => rowValues s s.cur c (t.row 192 j) pl 64)), []⟩)
          [(64, 0)])) ∧
    (Runs g (1 + busy) 0 s → PipeFree s (.array busy) → t.g.fmt = MKind.fmt kd →
      (∀ x, la.kind = some x → MKind.same x kd = true) → RowsReady s t rows 64 pl →
      Feeds (.mma g tile l n lag r kd) s (.array busy) busy
        (fun u => u.updCtx s.cur fun c => c.setTileRows tile.toNat base ((out false).map (·.1))) (done false) ∧
      Feeds (.mmaz g tile l n lag r kd) s (.array busy) busy
        (fun u => u.updCtx s.cur fun c => c.setTileRows tile.toNat base ((out true).map (·.1))) (done true))

/-- Affine maps: ASET loads the identity or zero, AGAIN and AOFF load gains and offsets, APPLY evaluates, ARD reads
(R252, R253, R287).
The model's readings on which clauses rest: logs 43, 47, 127. -/
def Obligations.AffineMaps : Prop :=
  ∀ (s : State) (g : Guard) (tile : BitVec 1) (n lag : BitVec 7) (r : MRows),
    (Instr.again g tile n lag r).wf = true →
    let c := s.ctx s.cur
    let t := resolve c n lag.toNat
    let rows := MRows.n r
    let base := MRows.base r
    let fill : BitVec 32 → State → State := fun x u => u.updCtx s.cur fun c =>
      c.setTileRows tile.toNat base (List.replicate rows (List.replicate 192 (⟨x, 0⟩, 0)))
    let maps : (PairP → Nat → PairP × Flags) → List (List PairP × Flags) := fun f => (List.range rows).map fun j =>
      let xs := ((c.tilePairs tile.toNat (base + j)).zip (rowF32 s s.cur c (t.row rows j))).map fun x =>
        ((f x.1 x.2.1).1, (f x.1 x.2.1).2 ||| x.2.2)
      (xs.map (·.1), xs.foldl (fun f x => f ||| x.2) 0)
    let loads : Instr → (PairP → Nat → PairP × Flags) → Prop := fun i f =>
      Feeds i s (.affine rows) rows
        (fun u => u.updCtx s.cur fun c => c.setTileRows tile.toNat base ((maps f).map (·.1)))
        (((maps f).map (·.2)).zipIdx.map fun x => (x.2 + 4, x.1))
    (Runs g 1 0 s → PipeFree s (.affine 1) →
      Feeds (.asetId g tile r) s (.affine 1) 0 (fill 0x3F800000) [(2, 0)] ∧
      Feeds (.asetZero g tile r) s (.affine 1) 0 (fill 0) [(2, 0)]) ∧
    (Runs g (1 + rows) 0 s → PipeFree s (.affine rows) → RowsReady s t rows 192 none →
      loads (.again g tile n lag r) (fun p x => ((⟨BitVec.ofNat 32 x, p.1.off⟩, p.2 &&& 1), 0)) ∧
      loads (.aoff g tile n lag r) (fun p x => ((⟨p.1.gain, BitVec.ofNat 32 x⟩, p.2 &&& 2), 0)) ∧
      loads (.apply g tile n lag r) (fun p x =>
        let y := fp32.fma 0 (fp32.decode p.1.gain.toNat) (fp32.decode x) (fp32.decode p.1.off.toNat)
        ((⟨0, BitVec.ofNat 32 y.1⟩, 0), y.2))) ∧
    (Runs g (1 + rows) 0 s → PipeFree s (.affine rows) →
      let ts := (List.range rows).map fun j => t.row rows j
      let vals : Bool → List (List (BitVec 32 × Bool)) := fun gain => (List.range rows).map fun j =>
        (c.tilePairs tile.toNat (base + j)).map fun p => (if gain then p.1.gain else p.1.off, p.2 != 0)
      let reads : Instr → Bool → Prop := fun i gain =>
        Feeds i s (.affine rows) rows (fun u => (ts.zip (vals gain)).foldl (fun u x => putRow s.cur x.1 x.2 u) u)
          ((ts.zip (vals gain)).zipIdx.map fun x => (x.2 + 8, putRowFlags x.1.1 x.1.2))
      mDestTrap t ts = none →
      reads (.ardOff g tile n lag r) false ∧ reads (.ardGain g tile n lag r) true)

/-- Carries and scans: a scan replaces every map of its rows by its composition with all before it and the carry, with
their flags and their poison; SCAN.upd leaves the last one in the carry (R254, R255).
The model's readings on which clauses rest: logs 43, 47. -/
def Obligations.CarriesAndScans : Prop :=
  ∀ (s : State) (g : Guard) (tile : BitVec 1) (cy : BitVec 2) (n lag : BitVec 7) (r : MRows),
    (Instr.scan g tile cy r).wf = true → sigOk n = true →
    let c := s.ctx s.cur
    let t := resolve c n lag.toNat
    let rows := MRows.n r
    let base := MRows.base r
    let carry : List PairP → State → State := fun xs u => u.updCtx s.cur fun c => c.setCarryPairs cy.toNat xs
    (Runs g 1 0 s → PipeFree s (.affine 1) →
      Feeds (.cysetId g cy) s (.affine 1) 0 (carry (List.replicate 192 (⟨0x3F800000, 0⟩, 0))) [(2, 0)] ∧
      (RowsReady s t 1 192 none →
        let xs := rowF32 s s.cur c (t.row 1 0)
        Feeds (.cyset g cy n lag) s (.affine 1) 0 (carry (xs.map fun x => (⟨0, BitVec.ofNat 32 x.1⟩, 0)))
          [(2, (collect xs).2)]) ∧
      (mDestTrap (t.row 1 0) [t.row 1 0] = none →
        let xs := (c.carryPairs cy.toNat).map fun p => (p.1.off, p.2 != 0)
        Feeds (.cyget g cy n lag) s (.affine 1) 0 (putRow s.cur (t.row 1 0) xs) [(2, putRowFlags (t.row 1 0) xs)])) ∧
    (Runs g (1 + rows) 0 s → PipeFree s (.affine rows) →
      ∃ (out : List (List PairP × Flags)) (last : List PairP),
        out.length = rows ∧ last.length = 192 ∧
        (let done := (out.map (·.2)).zipIdx.map fun x => (x.2 + 16, x.1)
         Feeds (.scan g tile cy r) s (.affine rows) rows
           (fun u => u.updCtx s.cur fun c => c.setTileRows tile.toNat base (out.map (·.1))) done ∧
         Feeds (.scanUpd g tile cy r) s (.affine rows) rows (fun u => u.updCtx s.cur fun c =>
           (c.setTileRows tile.toNat base (out.map (·.1))).setCarryPairs cy.toNat last) done) ∧
        let cp : Nat → PairP := fun j => (c.carryPairs cy.toNat).getD j (⟨0, 0⟩, 0)
        let col : Nat → List PairP := fun j =>
          (List.range rows).map fun i => (c.tilePairs tile.toNat (base + i)).getD j (⟨0, 0⟩, 0)
        let column := fun (j : Nat) => scanColumn c.csr.gfloor.toInt (PairP.map (cp j)) ((col j).map PairP.map)
        let bad : Nat → Nat → Bool := fun i j => (cp j).2 != 0 || ((col j).take (i + 1)).any fun p => p.2 != 0
        (∀ i < rows, (out.getD i ([], 0)).2 = ((List.range 192).map fun j =>
          ((column j).1.getD i ((0, 0), 0)).2).foldl (fun f x => f ||| x) 0) ∧
        ∀ j < 192,
          let z := column j
          (last.getD j (⟨0, 0⟩, 0)).2 = (if bad (rows - 1) j then 3 else 0) ∧
          (∀ i < rows, (((out.getD i ([], 0)).1).getD j (⟨0, 0⟩, 0)).2 = if bad i j then 3 else 0) ∧
          PairP.map (last.getD j (⟨0, 0⟩, 0)) = ((z.2.1) % 2 ^ 32, z.2.2 % 2 ^ 32) ∧
          ∀ i < rows, PairP.map (((out.getD i ([], 0)).1).getD j (⟨0, 0⟩, 0)) =
            (((z.1.map (·.1)).getD i (0, 0)).1 % 2 ^ 32, ((z.1.map (·.1)).getD i (0, 0)).2 % 2 ^ 32))

/-! The copy engine, the near memories and the channels (R215 to R238, R341 to R368, R429 to R441, R480 to R488). -/

/-- A copy command that passes the checks of R238 takes its handle, with its walk as it then stands, and a load writes its
samples anew; its traffic is charged (R215 to R221, R223, R226). Accesses follow in later steps of the engine.
The model's readings on which clauses rest: logs 54, 129. -/
def Obligations.CopyAccepted : Prop :=
  ∀ (s : State) (g : Guard) (o : XcOps) (x : XgOps),
    let takes : Instr → CopyForm → Prop := fun i f =>
      i.wf = true → f.trap s s.cur = none → handleHold (s.ctx s.cur) f.h = false →
      (∀ y, f.idx = some y → tapHold s s.cur (s.ctx s.cur) (resolve (s.ctx s.cur) y.1 y.2.toNat) = false) →
      let p := f.plan s s.cur
      Runs g 1 (p.samples * p.perSample) s →
      Completes i s (fun u => u.updCtx s.cur fun c => Ctx.clipFor p
        { c with
          eng.handles := c.eng.handles.set {} f.h.toNat
            { total := BitVec.ofNat 32 p.elems, first := BitVec.ofInt 44 p.first, signal := f.sig, opcode := f.op, state := 1 }
          eng.copies := c.eng.copies.set {} f.h.toNat { p with seq := c.eng.nextSeq }
          eng.nextSeq := c.eng.nextSeq + 1 }) 0 1 (p.samples * p.perSample)
    takes (.cld g o) (xcForm 0 o) ∧ takes (.cst g o) (xcForm 1 o) ∧ takes (.clda g o) (xcScoped 2 o) ∧
    takes (.cstr g o) (xcScoped 3 o) ∧ takes (.cgath g x) (xgForm 4 x) ∧ takes (.cscat g x) (xgForm 5 x) ∧
    takes (.csub g o) (xcForm 0x0B o) ∧ takes (.cpull g o) (xcForm 0x0C o)

/-- Handles, nests and fences (R218, R229, R233, R234): CWAIT passes a handle that has ended well, noting for a pull
what later fences cover, and traps on a failed one; DSET writes a field within its limits; a fence stands behind every command accepted before it. -/
def Claims.HandlesAndFences : Prop :=
  ∀ (s : State) (g : Guard) (h d f : BitVec 4) (ra : BitVec 6) (sc : Scope) (k : FenceKind) (m : BitVec 8),
    g.ok = true → Runs g 1 0 s →
    let c := s.ctx s.cur
    let x := c.s ra
    let fence : Bool → Ctx → Ctx := fun nm c =>
      { c with eng.fences := c.eng.fences ++ [⟨c.eng.nextSeq, fenceScope sc, k, m, nm⟩], eng.nextSeq := c.eng.nextSeq + 1 }
    ((c.handle h.toNat).state ∉ [1, 2, 4, 6] →
      ((c.handle h.toNat).opcode ≠ 0x0C → Passes (.cwait g h) s) ∧
      ((c.handle h.toNat).opcode = 0x0C → Computes (.cwait g h) s
        (fun c => { c with eng.cover := [0, 1, 2, 3].map fun e => (e, (s.die e).vc.get e) }) 0)) ∧
    ((c.handle h.toNat).state = 6 → Traps (.cwait g h) s 0x0C 0 (handleDetail h)) ∧
    (f.toNat ≤ 13 → dsetOk f.toNat x = true → Computes (.dset g d f ra) s (fun c =>
      { c with eng.nests := c.eng.nests.set {} d.toNat ((c.eng.nests.get {} d.toNat).setField f.toNat x) }) 0) ∧
    (m ≠ 0 → Computes (.fence g sc k m) s (fence false) 0 ∧ Computes (.nmfence g sc k m) s (fence true) 0)

/-- CCANCEL and CUNSUB act alike: on a handle that is not busy, or that drains already, they do nothing, on a busy SCACC they end it, on a
near-memory command they let it go on to its next granule and cancel there (R234, R437). -/
def Claims.Cancels : Prop :=
  ∀ (s : State) (g : Guard) (h : BitVec 4), g.ok = true → Runs g 1 0 s → s.Wf →
    let st := s.stepKey s.cur
    let m := s.memberNo s.cur
    let hd := (s.memberCtx st m).handle h.toNat
    let both : (State → State) → Prop := fun eff =>
      Completes (.ccancel g h) s eff 0 1 0 ∧ Completes (.cunsub g h) s eff 0 1 0
    (hd.busy = false ∨ hd.state = 4 → both id) ∧
    (hd.busy = true → hd.state ≠ 4 → hd.opcode = 6 →
      both fun u => u.updMemberCtx st m fun c => (c.dropCopy h.toNat).updHandle h.toNat fun x => { x with state := 7 }) ∧
    (hd.busy = true → hd.state ≠ 4 → hd.opcode ∈ [0x10, 0x12] → both fun u => dropWaiters st m h
      { u.updMemberCtx st m fun c => c.updHandle h.toNat fun x => { x with state := 4 } with
        near := u.near.map fun x => if x.step == st && x.member == m && x.h.toNat == h.toNat
          then { x with cancelled := true, suspended := false } else x }) ∧
    (hd.busy = true → hd.state ≠ 4 → isCopyOp hd.opcode = true → hd.opcode ≠ 6 → both (cancelCopy st m h.toNat))

/-- Handles, nests, fences and cancels (R218, R229, R233, R234, R437).
The model's readings on which clauses rest: logs 53, 54, 55, 82, 93, 102, 122. -/
def Obligations.CopyControl : Prop := Claims.HandlesAndFences ∧ Claims.Cancels

/-- SCACC takes its handle with the pairs of its index and value samples (R235, R236). -/
def Claims.ScaccAccepted : Prop :=
  ∀ (s : State) (g : Guard) (o : XsOps), (Instr.scacc g o).wf = true → Runs g 1 0 s →
    let c := s.ctx s.cur
    let tb := c.sg o.tbl
    let ix := resolve c o.idx 0
    let vx := resolve c o.val 0
    tb.present = true → tb.feed = 1 → tb.isTable = true → tb.fmt ∈ [Fmt.fp32, .fp16, .bf16, .int32] →
    ix.g.present = true → vx.g.present = true → ix.g.fmt = .int32 →
    TapReady s ix none (ix.span ix.g.elems) → TapReady s vx none (vx.span ix.g.elems) → handleHold c o.h = false →
    let pairs := scaccPairs s s.cur c tb ix vx
    Computes (.scacc g o) s (scaccAccepted o pairs) 0 ∧ pairs.length = ix.g.elems ∧
    ((scaccAccepted o pairs c).handle o.h.toNat).state = 1

/-- Near-memory commands take their records as operands and their handle; the traffic counts the granules or records
(R430 to R432, R437). -/
def Claims.NearMemoryAccepted : Prop :=
  ∀ (s : State) (g : Guard) (sig : BitVec 7) (ra : BitVec 6) (h : BitVec 4) (atomic : Bool),
    let i : Instr := if atomic then .nmatom g sig ra h else .nmcmd g sig ra h
    let c := s.ctx s.cur
    let n := (c.s ra).toNat
    let t := { resolve c sig 0 with off := 0 }
    let rs := (List.range n).map fun j => unitsBytes s s.cur c t [2 * j, 2 * j + 1]
    let traffic := if atomic then 2 * n else n + (rs.map nmGranules).sum
    i.wf = true → Runs g 1 traffic s → t.g.present = true → t.unfilled s s.cur c = false →
    handleHold c h = false → 1 ≤ n → 2 * n ≤ t.g.width.toNat → unitsTrap s s.cur c t (List.range (2 * n)) = none →
    (∀ x ∈ rs, (if atomic then atRecordOk x else nmRecordOk x) = true ∧ ∀ a ∈ nmAddrs atomic x, a < 2 ^ 48) →
    Completes i s (nmAccept atomic s.cur sig h rs) 0 1 traffic

/-- SCACC, NMCMD and NMATOM take their operands and their handle (R235, R236, R430 to R432, R437).
The model's readings on which clauses rest: log 52. -/
def Obligations.EngineCommands : Prop := Claims.ScaccAccepted ∧ Claims.NearMemoryAccepted

/-- CHSEND and CHSEND.try on a usable channel give their status and, where there is room, send one message; CHSEND.try
without room sends nothing (R351, R354, R355, R484).
The model's readings on which clauses rest: logs 52, 103. -/
def Obligations.ChannelSend : Prop :=
  ∀ (s : State) (g : Guard) (n : BitVec 7) (ra rd : BitVec 6), g.ok = true → sigOk n = true →
    let k := s.cur
    let c := s.ctx k
    let r := c.s ra
    let t := resolve c n 0
    let me := (s.stepKey k, s.memberNo k)
    let ch := regKey r
    t.g.present = true → t.idx ≤ t.g.fillMark → sourceTrap t = none → r.toNat < 2 ^ 32 →
    let both : SendPath → Nat → Nat → (State → State) → Prop := fun path width num eff =>
      Runs g 1 ((width + 1) / 2) s →
      let all : State → State := fun u =>
        (if path = .none then id else eff) (u.updCtx k (·.setS rd (BitVec.ofNat 64 (num * 256 + path.status))))
      (path ≠ .none → Completes (.chsend g n ra rd) s all 0 1 ((width + 1) / 2)) ∧
      Completes (.chsendTry g n ra rd) s all 0 1 ((width + 1) / 2)
    (isRemote s r = false → chanUsable s k r = true → (s.chan ch).writer = some me → (s.chan ch).remote = false →
      (s.chan ch).state = 1 →
      let body := sourceUnits s k c t (s.chan ch).width
      both (chanPath s ch) (s.chan ch).width (s.chan ch).sent
        (sendLocal ch (chanPath s ch) body.1 body.2 (some (me.1, me.2, c.eng.nextSeq)))) ∧
    (isRemote s r = true → ∀ p, s.proxy k r = some p → p.fault = false →
      let body := sourceUnits s k c t p.width
      both (proxyPath p) p.width p.sent (sendRemoteMsg k r (proxyPath p) body.1 body.2 c.eng.nextSeq))

/-- Binding, closing and reading a channel of the own package (R352, R353, R358, R366). -/
def Claims.ChannelLocal : Prop :=
  ∀ (s : State) (g : Guard) (n : BitVec 7) (ra rd : BitVec 6), g.ok = true → sigOk n = true → Runs g 1 0 s →
    let k := s.cur
    let c := s.ctx k
    let r := c.s ra
    let ch := regKey r
    let me := (s.stepKey k, s.memberNo k)
    let reads := (s.chan ch).rbound && (s.chan ch).reader.any fun x => x.1 == me.1 && x.2.1 == me.2
    let writes := (s.chan ch).wbound && !(s.chan ch).remote && (s.chan ch).writer == some me
    let gives : Instr → Word → (State → State) → Prop := fun i v eff =>
      Completes i s (fun u => eff (u.updCtx k (·.setS rd v))) 0 1 0
    isRemote s r = false → r.toNat < 2 ^ 32 → chanUsable s k r = true →
    ((c.sg n).present = true → (c.sg n).feed = 3 → (c.sg n).rate = 255 → regDie r = dieOf k →
      gives (.chbind g n ra rd) (BitVec.ofNat 64 (bindResult s k n ch))
        (if bindResult s k n ch = 0 then bindReader k n ch else id)) ∧
    ((s.chan ch).wbound = false → (s.chan ch).devwriter = false → gives (.chbindW g ra rd) 0 (bindWriter ch me)) ∧
    ((s.chan ch).wbound = true ∨ (s.chan ch).devwriter = true → gives (.chbindW g ra rd) 1 id) ∧
    gives (.chclose g ra rd) (if reads then 0 else 1) (if reads then closeReader ch else id) ∧
    gives (.chcloseW g ra rd) (if writes then 0 else 1) (if writes then closeWriter ch else id) ∧
    gives (.chstat g ra rd) (statusWord (s.chan ch)) id

/-- The same on a channel of another package: a request goes out once and holds the bundle; its reply gives the
result; a faulted proxy, or a lost package, traps 0x12 (R358, R485, R492). -/
def Claims.ChannelRemote : Prop :=
  ∀ (s : State) (g : Guard) (ra rd : BitVec 6), g.ok = true → Runs g 1 0 s →
    let k := s.cur
    let c := s.ctx k
    let r := c.s ra
    let gives : Instr → Word → (State → State) → Prop := fun i v eff =>
      Completes i s (fun u => eff (u.updCtx k (·.setS rd v))) 0 1 0
    isRemote s r = true → r.toNat < 2 ^ 32 →
    (∀ w v, remoteLost s k r = false → w.reply = some v →
      (c.wait.remote.find? fun y => y.stat == w.stat && y.reg == r && y.cont == c.bud.incont) = some w →
      (w.stat = false → gives (.chbindW g ra rd) v (clearRemote k false r)) ∧
      (w.stat = true → gives (.chstat g ra rd) (withPcred v (s.proxy k r)) (clearRemote k true r))) ∧
    (s.proxy k r = none → gives (.chcloseW g ra rd) 1 id) ∧
    (∀ p, s.proxy k r = some p → p.fault = false → gives (.chcloseW g ra rd) 0 (closeProxy p)) ∧
    (∀ p, s.proxy k r = some p → p.fault = true → Traps (.chcloseW g ra rd) s 0x12 r 0) ∧
    (remoteLost s k r = true → Traps (.chbindW g ra rd) s 0x12 r 0 ∧ Traps (.chstat g ra rd) s 0x12 r 0) ∧
    gives (.chclose g ra rd) 1 id ∧
    (∀ stat, remoteLost s k r = false →
      (∀ y ∈ c.wait.remote, ¬(y.stat = stat ∧ y.reg = r ∧ y.cont = c.bud.incont)) →
      ∃ t, exec (if stat then .chstat g ra rd else .chbindW g ra rd) s = .next t ∧ (t.ctx k).regs = c.regs ∧
        (t.ctx k).pos.pc = c.pos.pc ∧
        (t.ctx k).wait.remote = c.wait.remote ++ [⟨s.fab.nextTag, c.bud.incont, stat, r, none⟩])

/-- Channel instructions on channels of this package and of another (R350 to R360, R483 to R485).
The model's readings on which clauses rest: logs 57, 59, 104, 135. -/
def Obligations.ChannelBindings : Prop := Claims.ChannelLocal ∧ Claims.ChannelRemote

/-- LAUNCH and WSEND take their waybill as an operand and their handle; LAUNCH pays the budgets of the child's steps
(R341, R342, R487, R488).
The model's readings on which clauses rest: logs 13, 52, 61, 105. -/
def Obligations.LaunchAccepted : Prop :=
  ∀ (s : State) (g : Guard) (sig : BitVec 7) (ra : BitVec 6) (h : BitVec 4), g.ok = true → sigOk sig = true → s.Wf →
    let k := s.cur
    let c := s.ctx k
    let r := c.s ra
    let t := waybillTap c sig
    let bs := waybillBytes s k c sig
    let w := parseWaybill bs
    t.g.present = true → t.unfilled s k c = false → handleHold c h = false → waybillTrap s k c sig = none →
    waybillOk bs false = true →
    ((s.waybill k).priv.getLsbD 1 = true → r.toNat < 2 ^ 18 → launchQueue s r.toNat (s.partOf k) = true →
      launchAfford c w = true → Runs g (1 + w.ibud * w.count) 2 s →
      Completes (.launch g sig ra h) s (launchAccept k sig r.toNat h bs) 0 1 2 ∧
      ∃ u, exec (.launch g sig ra h) s = .next u ∧
        (u.ctx k).bud.ibud = c.bud.ibud - BitVec.ofNat 48 (w.ibud * w.count) - 1 ∧
        (u.queue r.toNat).reserved = (s.queue r.toNat).reserved + 1) ∧
    ((s.waybill k).priv.getLsbD 2 = true → r.toNat < 2 ^ 36 → w.graph = 0 → Runs g 1 2 s →
      Completes (.wsend g sig ra h) s (wsendAccept k sig r h bs) 0 1 2)

/-! Control (R74 to R112). -/

/-- NOP and YPT with a budget left only end their bundle; CONT names the continuation, SIGEV sends an event or finds
it lost, WAITEV passes with an event of its mask (R74, R86, R88, R89, R107, R109). -/
def Claims.PlainControl : Prop :=
  ∀ (s : State) (g : Guard) (disp : BitVec 32) (m : BitVec 16) (sc : Scope) (tg : BitVec 6) (ev : BitVec 4),
    g.ok = true → Runs g 1 0 s → s.Wf →
    let c := s.ctx s.cur
    Passes (.nop g) s ∧ Passes (.ypt g) s ∧
    Computes (.cont g disp) s (fun c => { c with csr.contpc :=
      if disp = 0 then 0 else (c.pos.pc + BitVec.ofInt 64 (8 * disp.toInt)) &&& 0x0000FFFFFFFFFFF8 }) 0 ∧
    (m ≠ 0 → c.csr.evpend &&& m ≠ 0 → Passes (.waitev g m) s) ∧
    (sigevOk sc tg = true →
      (∀ st x, evTarget s s.cur sc tg.toNat = some (st, x) → Completes (.sigev g sc tg ev) s (fun u => { u with
        events := u.events ++ [⟨st, (s.step1 st).uid, x, ev, s.stepKey s.cur * 16 + s.memberNo s.cur⟩] }) 0 1 0) ∧
      (evTarget s s.cur sc tg.toNat = none →
        Computes (.sigev g sc tg ev) s (fun c => { c with bud.evlost := true }) 0))

/-- WAITEV without an event of its mask waits: the position stands, and the stall is counted (R86, R100). -/
def Claims.WaitevWaits : Prop :=
  ∀ (s : State) (g : Guard) (m : BitVec 16), g.ok = true → m ≠ 0 → Runs g 1 0 s →
    (s.ctx s.cur).csr.evpend &&& m = 0 →
    ∃ t, exec (.waitev g m) s = .next t ∧ (t.seat s.cur).phase = .running ∧
      (t.ctx s.cur).pos = { (s.ctx s.cur).pos with residue := (s.ctx s.cur).pos.residue + 1 } ∧
      (t.ctx s.cur).regs = (s.ctx s.cur).regs ∧
      (t.ctx s.cur).bud.ibud = (s.ctx s.cur).bud.ibud - (if (s.ctx s.cur).pos.residue = 63 then 1 else 0) ∧
      t.mem = s.mem

/-- Control without a transfer, and WAITEV that waits (R74, R86, R88, R89, R100, R107, R109). -/
def Obligations.ControlPlain : Prop := Claims.PlainControl ∧ Claims.WaitevWaits

/-- A taken transfer has two delay bundles: it leaves its target pending (R75, R77, R79). RET and the register forms
trap 0x13 on a target that is not a multiple of 8. That the check of CALLR comes before its delay bundles are delimited is
the model's choice, log 62. -/
def Claims.TransferTargets : Prop :=
  ∀ (s : State) (g : Guard) (ra : BitVec 6) (disp : BitVec 32), g.ok = true → Runs g 1 0 s → Straight s →
    let c := s.ctx s.cur
    let goes : Instr → Option Word → Bool → Prop := fun i target pops => ∃ t, exec i s = .next t ∧
      Retired 0 0 1 0 s t ∧ (t.ctx s.cur).pos.pend = some ⟨target, 2, false, pops⟩ ∧ (t.ctx s.cur).pos.xferAge = 1
    goes (.br g disp) (some (c.pos.pc + BitVec.ofInt 64 (8 * disp.toInt))) true ∧
    ((c.s ra).toNat % 8 = 0 → goes (.jr g ra) (some (c.s ra)) true) ∧
    ((c.s ra).toNat % 8 ≠ 0 → Traps (.jr g ra) s 0x13 (c.s ra) 0 ∧ Traps (.callr g ra) s 0x13 (c.s ra) 0) ∧
    ((c.s 62).toNat % 8 = 0 → goes (.ret g) (some (c.s 62)) false) ∧
    ((c.s 62).toNat % 8 ≠ 0 → Traps (.ret g) s 0x13 (c.s 62) 0)

/-- The first test of a BRM that holds takes it; with none it only has its delay bundles (R79). -/
def Claims.BrmFirstTest : Prop :=
  ∀ (s : State) (ts : List BrmTest), (Instr.brm ts).wf = true → CanIssue 1 0 s → Straight s →
    let c := s.ctx s.cur
    ∃ t, exec (.brm ts) s = .next t ∧ (t.ctx s.cur).pos.xferAge = 1 ∧
      (t.ctx s.cur).regs = c.regs ∧ t.mem = s.mem ∧
      (t.ctx s.cur).pos.pend = some ⟨(ts.find? fun x => Guard.holds ⟨x.neg, x.pred⟩ c).map
        fun x => c.pos.pc + BitVec.ofInt 64 (8 * x.disp.toInt), 2, false,
        (ts.find? fun x => Guard.holds ⟨x.neg, x.pred⟩ c).isSome⟩

/-- The second delay bundle of a transfer lands on its target; the first leaves one to go (R75). With the landing a taken
BR, BRM or JR pops every active position, innermost first, up to the first whose range holds the target; the other
transfers pop none (R83). -/
def Claims.DelayBundles : Prop :=
  ∀ (s : State) (g : Guard) (target : Word) (pops : Bool), g.ok = true → Runs g 1 0 s →
    (∀ front inner, (s.ctx s.cur).pos.loops = front ++ inner →
      (s.ctx s.cur).pos.pend = some ⟨some target, 1, false, pops⟩ →
      (∀ l, (s.ctx s.cur).pos.loops.getLast? = some l → l.stop ≠ (s.ctx s.cur).pos.pc) →
      (∀ l ∈ inner, ¬(l.start.toNat ≤ target.toNat ∧ target.toNat ≤ l.stop.toNat)) →
      (∀ l, front.getLast? = some l → l.start.toNat ≤ target.toNat ∧ target.toNat ≤ l.stop.toNat) →
      ∃ t, exec (.nop g) s = .next t ∧ (t.ctx s.cur).pos.pc = target ∧ (t.ctx s.cur).pos.pend = none ∧
        (t.ctx s.cur).pos.loops = if pops then front else front ++ inner) ∧
    ((s.ctx s.cur).pos.loops = [] →
      ((s.ctx s.cur).pos.pend = some ⟨some target, 1, false, pops⟩ → ∃ t, exec (.nop g) s = .next t ∧
        (t.ctx s.cur).pos.pc = target ∧ (t.ctx s.cur).pos.pend = none) ∧
      ((s.ctx s.cur).pos.pend = some ⟨some target, 2, false, pops⟩ → ∃ t, exec (.nop g) s = .next t ∧
        (t.ctx s.cur).pos.pc = (s.ctx s.cur).pos.pc + 8 ∧
        (t.ctx s.cur).pos.pend = some ⟨some target, 1, false, pops⟩))

/-- Transfers and their delay bundles (R75, R77, R79, R83).
The model's readings on which clauses rest: log 62. -/
def Obligations.Transfers : Prop := Claims.TransferTargets ∧ Claims.BrmFirstTest ∧ Claims.DelayBundles

/-- CALL and CALLR also link: s62 takes the address after their two delay bundles (R79). -/
def Obligations.CallsLink : Prop :=
  ∀ (s s1 s2 : State) (g : Guard) (ra : BitVec 6) (disp : BitVec 32) (n m : Nat), g.ok = true → Runs g 1 0 s →
    Straight s →
    let c := s.ctx s.cur
    let a := c.pos.pc + 8
    delimitAt s.cur a s = (.ok n, s1) → delimitAt s.cur (a + BitVec.ofNat 64 n) s1 = (.ok m, s2) →
    let links : Instr → Word → Prop := fun i target => ∃ t, exec i s = .next t ∧
      Retired 0 0 1 0 (s2.updCtx s.cur (·.setS 62 (a + BitVec.ofNat 64 n + BitVec.ofNat 64 m))) t ∧
      (t.ctx s.cur).pos.pend = some ⟨some target, 2, false, false⟩
    links (.call g disp) (c.pos.pc + BitVec.ofInt 64 (8 * disp.toInt)) ∧
    ((c.s ra).toNat % 8 = 0 → links (.callr g ra) (c.s ra))

/-- LOOP and LOOPR push a position whose body ends at the named bundle, inside an active loop too; with six positions they
trap 0x10, and beyond the end of the innermost one 0x03; LEXIT makes the innermost iteration the last (R80, R85). -/
def Claims.LoopEntry : Prop :=
  ∀ (s : State) (g : Guard) (ra : BitVec 6) (n last : BitVec 16), g.ok = true → last ≠ 0 → Runs g 1 0 s →
    let c := s.ctx s.cur
    let stop := c.pos.pc + BitVec.ofNat 64 (8 * last.toNat)
    let enters : Instr → Word → Prop := fun i count => ∃ t, exec i s = .next t ∧ Retired 0 0 1 0 s t ∧
      (t.ctx s.cur).pos.loops = [⟨c.pos.pc + 8, stop, count, 0⟩] ∧ (t.ctx s.cur).pos.pc = c.pos.pc + 8
    (Straight s → n ≠ 0 → enters (.loop g n last) (n.setWidth 64)) ∧
    (Straight s → c.s ra ≠ 0 → enters (.loopr g ra last) (c.s ra)) ∧
    (c.pos.loops.length = 6 → c.pos.xferAge = 0 →
      Traps (.loop g n last) s 0x10 0 0 ∧ Traps (.loopr g ra last) s 0x10 0 0) ∧
    (∀ front l, c.pos.loops = front ++ [l] → front.length < 5 → c.pos.pend = none → c.pos.xferAge = 0 →
      let nests : Instr → Word → Prop := fun i count => ∃ t, exec i s = .next t ∧ Retired 0 0 1 0 s t ∧
        (t.ctx s.cur).pos.loops = front ++ [l, ⟨c.pos.pc + 8, stop, count, 0⟩] ∧ (t.ctx s.cur).pos.pc = c.pos.pc + 8
      (stop.toNat ≤ l.stop.toNat → (n ≠ 0 → nests (.loop g n last) (n.setWidth 64)) ∧
        (c.s ra ≠ 0 → nests (.loopr g ra last) (c.s ra))) ∧
      (l.stop.toNat < stop.toNat → Traps (.loop g n last) s 0x03 0 0 ∧ Traps (.loopr g ra last) s 0x03 0 0)) ∧
    (∀ front l, c.pos.loops = front ++ [l] → l.stop ≠ c.pos.pc → c.pos.pend = none →
      ∃ t, exec (.lexit g) s = .next t ∧ (t.ctx s.cur).pos.loops = front ++ [{ l with remaining := 1 }] ∧
        (t.ctx s.cur).pos.pc = c.pos.pc + 8 ∧ (t.ctx s.cur).regs = c.regs ∧ t.mem = s.mem)

/-- A count of 0 skips the body: the next bundle is the one after the end address, three cycles later, with the loop
ends that fall on that address; an end bundle that cannot be fetched or delimited traps (R82). -/
def Claims.LoopSkips : Prop :=
  ∀ (s : State) (g : Guard) (ra : BitVec 6) (last : BitVec 16), g.ok = true → last ≠ 0 → Runs g 1 0 s →
    let c := s.ctx s.cur
    let stop := c.pos.pc + BitVec.ofNat 64 (8 * last.toNat)
    c.pos.pend = none → c.pos.xferAge = 0 → c.pos.loops.length < 6 →
    (∀ l, c.pos.loops.getLast? = some l → stop.toNat ≤ l.stop.toNat) →
    let skips : Instr → Prop := fun i =>
      (∀ m u, delimitAt s.cur stop s = (.ok m, u) → ∃ t, exec i s = .next t ∧ (t.ctx s.cur).regs = c.regs ∧
        (t.ctx s.cur).sig = c.sig ∧ (t.ctx s.cur).bud.ibud = c.bud.ibud - 1 ∧ (t.ctx s.cur).wait.bubble = 2 ∧
        let past := (t.ctx s.cur).pos.pc = stop + BitVec.ofNat 64 m ∧ (t.ctx s.cur).pos.loops = c.pos.loops
        (c.pos.loops = [] → past) ∧
        ∀ front l, c.pos.loops = front ++ [l] → (l.stop ≠ stop → past) ∧
          (l.stop = stop → 1 < l.remaining.toNat → (t.ctx s.cur).pos.pc = l.start ∧
            (t.ctx s.cur).pos.loops = front ++ [{ l with remaining := l.remaining - 1, index := l.index + 1 }])) ∧
      (∀ e u, delimitAt s.cur stop s = (.error e, u) → ∃ t, exec i s = .next t ∧ (t.seat s.cur).phase = .trapping ∧
        (t.ctx s.cur).csr.trapcause = BitVec.ofNat 8 e ∧ (t.ctx s.cur).trap.detail0 = stop ∧
        (t.ctx s.cur).regs = c.regs ∧ (t.ctx s.cur).pos = c.pos)
    skips (.loop g 0 last) ∧ (c.s ra = 0 → skips (.loopr g ra last))

/-- Reaching the last bundle of a body goes back to its start while iterations remain, and leaves the loop after the
last (R81). -/
def Claims.LoopEnds : Prop :=
  ∀ (s : State) (g : Guard) (l : Loop), g.ok = true → Runs g 1 0 s → (s.ctx s.cur).pos.pend = none →
    (s.ctx s.cur).pos.loops = [l] → l.stop = (s.ctx s.cur).pos.pc →
    ∃ t, exec (.nop g) s = .next t ∧
      (1 < l.remaining.toNat → (t.ctx s.cur).pos.pc = l.start ∧
        (t.ctx s.cur).pos.loops = [{ l with remaining := l.remaining - 1, index := l.index + 1 }]) ∧
      (l.remaining.toNat ≤ 1 → (t.ctx s.cur).pos.pc = (s.ctx s.cur).pos.pc + 8 ∧ (t.ctx s.cur).pos.loops = [])

/-- The loop stack (R80 to R82, R85).
The model's readings on which clauses rest: log 62. -/
def Obligations.Loops : Prop := Claims.LoopEntry ∧ Claims.LoopSkips ∧ Claims.LoopEnds

/-- TRAP, when its guard holds, traps 0x0F, and its 16-bit code stays in the syllable of the record; with a guard that
does not hold it has no effect (R94). -/
def Obligations.SoftwareTrap : Prop :=
  ∀ (s : State) (g : Guard) (code : BitVec 16), g.ok = true →
    (Runs g 1 0 s → Traps (.trap g code) s 0x0F 0 0 ∧ ∃ t, exec (.trap g code) s = .next t ∧
      (t.ctx s.cur).trap.syll = sealWords (encode (.trap g code)) ∧
      ((encode (.trap g code)).headD 0) / 2 ^ 31 % 2 ^ 16 = code.toNat) ∧
    (CanIssue 1 0 s → Settled s → Guard.holds g (s.ctx s.cur) = false → Passes (.trap g code) s)

/-- Privileged and misplaced control: TOPUP without its privilege, YIELD inside a continuation and RESUME outside one
trap 0x0A; TRAP always traps 0x0F (R94, R106, R107, R112). -/
def Claims.ControlTraps : Prop :=
  ∀ (s : State) (g : Guard) (ra : BitVec 6) (b : Bool) (code : BitVec 16), g.ok = true → Runs g 1 0 s →
    let c := s.ctx s.cur
    Traps (.trap g code) s 0x0F 0 0 ∧
    (c.bud.toppriv = false → Traps (.topup g ra b) s 0x0A 0 0) ∧
    (c.bud.incont = true → Traps (.yield g) s 0x0A 0 0) ∧
    (c.bud.incont = false → Straight s → Traps (.resume g) s 0x0A 0 0)

/-- SIGSET of a field other than INIT and the strides, and SIGCLR, trap while an agent is attached (R166). That
0x07 comes before a value beyond its limits (0x01) and a ring beyond the share (0x08) is the model's choice, log 91. -/
def Claims.AttachedSignalTraps : Prop :=
  ∀ (s : State) (g : Guard) (ra : BitVec 6) (n : BitVec 7) (f : BitVec 4) (l : BitVec 3),
    Runs g 1 0 s → attached s s.cur (s.ctx s.cur) n = true →
    ((Instr.sigset g ra n f l).wf = true → f.toNat ∉ [11, 12, 13] →
      Traps (.sigset g ra n f l) s 0x07 0 (sigDetail n none)) ∧
    ((Instr.sigclr g n).wf = true → ((s.ctx s.cur).sg n).present = true →
      Traps (.sigclr g n) s 0x07 0 (sigDetail n none))

/-- The plain load and store trap on an absent signal, and a load traps on a signal that the engine does not feed
(R238). -/
def Claims.CopyTraps : Prop :=
  ∀ (s : State) (g : Guard) (o : XcOps),
    let c := s.ctx s.cur
    handleHold c o.h = false → Runs g 1 0 s →
    ((Instr.cld g o).wf = true → (c.sg o.sig).present = false →
      Traps (.cld g o) s 0x08 0 (sigDetail o.sig none)) ∧
    ((Instr.cst g o).wf = true → (c.sg o.sig).present = false →
      Traps (.cst g o) s 0x08 0 (sigDetail o.sig none)) ∧
    ((Instr.cld g o).wf = true → (c.sg o.sig).present = true → (c.sg o.sig).feed ≠ 1 →
      Traps (.cld g o) s 0x07 0 (sigDetail o.sig none))

/-- The channel instructions trap 0x12 on a register that names no channel that the seat may use, with the register
in DETAIL0 (R351). -/
def Claims.ChannelTraps : Prop :=
  ∀ (s : State) (g : Guard) (ra rd : BitVec 6), g.ok = true → Runs g 1 0 s →
    let r := (s.ctx s.cur).s ra
    isRemote s r = false → r.toNat < 2 ^ 32 → chanUsable s s.cur r = false →
    Traps (.chbindW g ra rd) s 0x12 r 0 ∧ Traps (.chclose g ra rd) s 0x12 r 0 ∧
    Traps (.chcloseW g ra rd) s 0x12 r 0 ∧ Traps (.chstat g ra rd) s 0x12 r 0

/-- Traps of operands and of privilege: control, signals, copies and channels (R106, R107, R112, R166, R238, R351).
The model's readings on which clauses rest: log 91. -/
def Obligations.IssueTraps : Prop := Claims.ControlTraps ∧ Claims.AttachedSignalTraps ∧ Claims.CopyTraps ∧ Claims.ChannelTraps

/-- TOPUP moves min(request, reserve, room) from the partition's reserve to the seat's budget (R106). -/
def Claims.TopupMoves : Prop :=
  ∀ (s : State) (g : Guard) (ra : BitVec 6) (b : Bool), g.ok = true → Runs g 1 0 s →
    (s.ctx s.cur).bud.toppriv = true →
    let p := s.part (s.partOf s.cur)
    let old : Int := if b then (s.ctx s.cur).bud.tbud.toInt else (s.ctx s.cur).bud.ibud.toInt
    let reserve : Int := if b then p.tbud.toNat else p.ibud.toNat
    let asked : Int := ((s.ctx s.cur).s ra).toNat
    let n := min (min asked reserve) (2 ^ 47 - 1 - old)
    Completes (.topup g ra b) s (topupEffect s.cur b ((s.ctx s.cur).s ra).toNat) 0 1 0 ∧
    ∃ t, exec (.topup g ra b) s = .next t ∧
      (b = true → (t.ctx s.cur).bud.tbud = BitVec.ofInt 48 (old + n)) ∧
      (b = false → (t.ctx s.cur).bud.ibud = BitVec.ofInt 48 (old + n) - 1)

/-- YIELD begins a yield of cause 3; a point that spends the last of the budget begins one of cause 1: the seat issues
nothing further (R99, R101, R102, R107). -/
def Claims.YieldBegins : Prop :=
  ∀ (s : State) (g : Guard), g.ok = true → Runs g 0 0 s → (s.ctx s.cur).bud.incont = false →
    let yields : Instr → BitVec 2 → Prop := fun i y => ∃ t, exec i s = .next t ∧
      (t.seat s.cur).phase = .draining ∧ (t.ctx s.cur).bud.ycause = y ∧
      (t.ctx s.cur).bud.ibud = (s.ctx s.cur).bud.ibud - 1 ∧ (t.ctx s.cur).regs = (s.ctx s.cur).regs ∧ t.mem = s.mem
    (1 < (s.ctx s.cur).bud.ibud.toInt → yields (.yield g) 3) ∧ ((s.ctx s.cur).bud.ibud = 1 → yields (.ypt g) 1)

/-- TOPUP moves budget, YIELD and YPT begin yields (R99, R101, R102, R106, R107). -/
def Obligations.BudgetsMove : Prop := Claims.TopupMoves ∧ Claims.YieldBegins

/-- RESUME in a continuation leaves a return pending, and its second delay bundle restores the saved position and ends
the continuation (R110, R112). -/
def Obligations.ResumeReturns : Prop :=
  ∀ (s : State) (g : Guard), g.ok = true → CanIssue 1 0 s → Guard.holds g (s.ctx s.cur) = true →
    let c := s.ctx s.cur
    (Straight s → c.bud.incont = true → ∃ t, exec (.resume g) s = .next t ∧ Retired 0 0 1 0 s t ∧
      (t.ctx s.cur).pos.pend = some ⟨none, 2, true, false⟩) ∧
    (∀ x p, c.pos.pend = some ⟨x, 1, true, p⟩ → ∃ t, exec (.nop g) s = .next t ∧
      (t.ctx s.cur).pos.pc = c.saved.pc ∧ (t.ctx s.cur).pos.loops = c.saved.loops ∧
      (t.ctx s.cur).pos.pend = c.saved.pend ∧ (t.ctx s.cur).bud.incont = false ∧ (t.ctx s.cur).regs = c.regs)

/-- With no release fence open, a barrier of a group of one commits at once, at every scope; a member whose partners
are missing waits (R90, R490). That the arrival waits for an open release fence is the model's reading (log 88). -/
def Claims.Barriers : Prop :=
  ∀ (s : State) (g : Guard) (sc : Scope) (id : BitVec 6), g.ok = true → Runs g 1 0 s → s.Wf →
    let k := s.cur
    let x := s.step1 (s.stepKey k)
    memberSeat s (s.stepKey k) (s.memberNo k) = some k → fenceOpen s k = false →
    (x.members.length = 1 → x.uid ≠ 0 → windowPkgs s (s.partOf k) = [] →
      findBar s (s.partOf k) (Scope.num sc) id.toNat = none → Passes (.bar g sc id) s) ∧
    (∀ j, j ∈ barMembers s (s.stepKey k) (Scope.num sc) (instanceOf (Scope.num sc) k) → j ≠ s.memberNo k →
      memberSeat s (s.stepKey k) j ≠ some k → atBar s (s.stepKey k) (Scope.num sc) id.toNat j = false → Scope.num sc ≤ 3 →
      ∃ t, exec (.bar g sc id) s = .next t ∧ (t.ctx k).wait.arrival = some (.bar (Scope.num sc) id.toNat false false) ∧
        (t.ctx k).pos.pc = (s.ctx k).pos.pc ∧ (t.ctx k).regs = (s.ctx k).regs)

/-- Every member of a block passes what follows the hold at FUSE or REJOIN: step 5 of the bundle and the checks of R103
(R105). -/
def Claims.BlockPasses (i : Instr) (a : Arrival) (span k : Nat) (u : State) : Prop :=
  ∀ j ∈ blockOf span (u.memberNo k), ∀ q, memberSeat u (u.stepKey k) j = some q →
    (joinVerdict (soloBundle i k u) a u (q, evalSlots (soloBundle i k u) q u)).isGo = true

/-- The last member of a block to arrive at FUSE or REJOIN fuses all of it, at once up to a span of four; in a wider
block it waits for two cycles first. A member whose partners are missing waits; a span of one does nothing; DECOUPLE
lets every member of a block go on by itself (R304, R305, R309, R310). -/
def Claims.Fusion : Prop :=
  ∀ (s : State) (g : Guard) (code : BitVec 3), g.ok = true → code.toNat ≤ 4 → Runs g 1 0 s → s.Wf →
    let k := s.cur
    let st := s.stepKey k
    let m := s.memberNo k
    let c := s.ctx k
    memberSeat s st m = some k →
    let meets : Instr → Arrival → Nat → Prop := fun i a span =>
      ((∀ j ∈ blockOf span m, j ≠ m → arrivedAs s st a j = true ∧ samePlace (s.memberCtx st j) c = true ∧
          (s.memberCtx st j).fuse = c.fuse) →
        (span ≤ 4 → Claims.BlockPasses i a span k (s.updCtx k fun c => { c with wait.arrival := some a }) → ∃ t, exec i s = .next t ∧ ∀ j ∈ blockOf span m, ∀ q, memberSeat s st j = some q →
          (t.ctx q).fuse = .fused span ∧ (t.ctx q).wait.arrival = none) ∧
        (4 < span → c.wait.fuseCount + 1 < c.csr.tapwait.toNat → ∃ t, exec i s = .next t ∧
          (t.ctx k).wait.arrival = some a ∧ (t.ctx k).wait.line = 2 ∧ (t.ctx k).pos.pc = c.pos.pc)) ∧
      (∀ j ∈ blockOf span m, j ≠ m → memberSeat s st j ≠ some k → arrivedAs s st a j = false →
        c.wait.fuseCount + 1 < c.csr.tapwait.toNat → ∃ t, exec i s = .next t ∧ (t.ctx k).wait.arrival = some a ∧ (t.ctx k).pos.pc = c.pos.pc)
    (code = 0 → c.fuse = .alone → Passes (.fuse g code) s) ∧
    (code ≠ 0 → c.fuse = .alone → (s.waybill k).fused = true → 2 ^ code.toNat ≤ c.csr.groupsz.toNat →
      spanClash s st m (2 ^ code.toNat) = [] → meets (.fuse g code) (.fuse (2 ^ code.toNat)) (2 ^ code.toNat)) ∧
    (∀ span, 0 < span → c.fuse = .decoupled span → meets (.rejoin g) .rejoin span) ∧
    (c.fuse = .alone → Traps (.rejoin g) s 0x11 0 (memberDetail m)) ∧
    (∀ span, c.fuse = .decoupled span → Passes (.decouple g) s ∧ Traps (.fuse g code) s 0x11 0 (memberDetail m))

/-- In a block of more than four members the last arriver at FUSE or REJOIN counts two stalled cycles, and then the
block fuses (R305). -/
def Claims.LineSettles : Prop :=
  ∀ (s : State) (g : Guard) (code : BitVec 3) (i : Instr) (a : Arrival) (span : Nat), g.ok = true → s.Wf →
    let k := s.cur
    let st := s.stepKey k
    let m := s.memberNo k
    let c := s.ctx k
    memberSeat s st m = some k → (s.seat k).phase = .running → c.fuse.isFused = false → c.wait.arrival = some a →
    code.toNat ≤ 4 → (i = .fuse g code ∧ a = .fuse (2 ^ code.toNat) ∧ span = 2 ^ code.toNat ∧ spanClash s st m span = []) ∨
      (i = .rejoin g ∧ a = .rejoin ∧ span = c.fuse.span) →
    (c.wait.line = 2 → c.due = false → c.wait.fuseCount + 1 < c.csr.tapwait.toNat →
      1 < c.bud.ibud.toInt → ∃ t, exec i s = .next t ∧
        (t.ctx k).wait.arrival = some a ∧ (t.ctx k).wait.line = 1 ∧ (t.ctx k).pos.pc = c.pos.pc) ∧
    (c.wait.line = 1 → (∀ j ∈ blockOf span m, arrivedAs s st a j = true ∧ samePlace (s.memberCtx st j) c = true ∧
        (s.memberCtx st j).fuse = c.fuse) →
      Claims.BlockPasses i a span k (s.updCtx k fun c => { c with wait.line := 0 }) →
      ∃ t, exec i s = .next t ∧ ∀ j ∈ blockOf span m, ∀ q, memberSeat s st j = some q →
        (t.ctx q).fuse = .fused span ∧ (t.ctx q).wait.arrival = none)

/-- DECOUPLE of a fused block: every member goes on by itself from the next bundle (R309). -/
def Claims.Decouples : Prop :=
  ∀ (s : State) (g : Guard) (n : Nat), g.ok = true → s.Wf → (s.ctx s.cur).fuse = .fused n →
    blockSeats s s.cur ≠ [] → (s.seat s.cur).phase = .running →
    (∀ q ∈ blockSeats s s.cur, (s.ctx q).fuse = .fused n ∧ Guard.holds g (s.lead q) = true ∧
      (s.seat q).phase = .running ∧ (s.ctx q).wait.arrival = none ∧
      (s.ctx q).wait.exam = false ∧ (s.ctx q).maskOnce = 0 ∧ (∀ e ∈ (s.ctx q).ready, e.final ≤ s.clk q) ∧
      (s.core (coreOf q)).issued = none ∧ (s.seat q).split = none ∧ (s.seat (otherSeat q)).split = none ∧
      s.fw.gated.contains (dieOf q) = false ∧
      1 < (s.ctx q).bud.ibud.toInt ∧ 0 ≤ (s.ctx q).bud.tbud.toInt) →
    ∃ t, exec (.decouple g) s = .next t ∧ ∀ q ∈ blockSeats s s.cur, (t.ctx q).fuse = .decoupled n

/-- Barriers, and blocks that fuse, decouple and rejoin (R90, R304, R309, R310, R490).
The model's readings on which clauses rest: logs 46, 88, 115. -/
def Obligations.BlocksAndBarriers : Prop :=
  Claims.Barriers ∧ Claims.Fusion ∧ Claims.LineSettles ∧ Claims.Decouples

/-- EXIT with nothing pending ends its member; a step of one member leaves its seat idle (R93).
The model's readings on which clauses rest: logs 41, 64, 104, 110. -/
def Obligations.ExitEnds : Prop :=
  ∀ (s : State) (g : Guard), g.ok = true → Runs g 1 0 s → s.Wf → (s.ctx s.cur).mx.pend = [] →
    exitHandles (s.ctx s.cur) = false → sentPending s s.cur = false →
    ∃ u, Retired 0 0 1 0 s u ∧ exec (.exit g) s = .next (exitMember s.cur u) ∧
      ((s.step1 (s.stepKey s.cur)).members.length = 1 → s.memberNo s.cur = 0 →
        ((exitMember s.cur u).seat s.cur).phase = .idle)

/-! The whole machine. -/

/-- A step runs the decoded instruction (R51, R56, R64): with nothing else due, the step is a cycle of the core of the
current seat; where the bytes at the position of its first seat decode to one instruction, that seat runs it, and then
the other seat takes its turn. An event of the agenda, and boot while a reset is in progress, run likewise.
The model's readings on which clauses rest: logs 1, 10, 48, 51, 89, 90, 94, 95, 109, 125. -/
def Obligations.StepRunsDecoded : Prop :=
  ∀ (s : State) (i : Instr),
    let c := coreOf s.cur
    let now : State := { s with cycle := s.cycle + 1 }
    let u := cycleStart c now
    let k := 2 * c + (u.core c).primary % 2
    let j := 2 * c + (1 - (u.core c).primary % 2)
    (∀ ws b v, s.agenda = [] → s.host.resetting = false ∨ s.host.booterr ≠ 0 → c < 256 → seatTurn k u = .issue →
      (u.ctx k).fuse.isFused = false → fetch k (u.ctx k).pos.pc u = (.bundle ws, v) → decodeBundle ws = .ok b →
      b.slots = [⟨0, i⟩] → ws.map (BitVec.ofNat 64) = sealWords (encode i) →
      step s = andThen (exec i { v with cur := k }) fun t => andThen (seatCycle j { t with cur := v.cur }) fun x =>
        .next (cycleEnd c x)) ∧
    (∀ rest, s.agenda = .event i :: rest → step s = exec i { now with agenda := rest }) ∧
    (s.agenda = [] → s.host.resetting = true → s.host.booterr = 0 → step s = exec .boot now)

/-- Words that the spec prints stand for their instructions (R26, R33 to R45). -/
def Obligations.DecodeWords : Prop :=
  decodeTableWord 64 0x1180_0A30_E000_0000 = some (.add ⟨false, 3⟩ 5 6 7) ∧
  decodeTableWord 64 0x8004_0002_8001_0000 = some (.loop .always 5 2) ∧
  decodeTableWord 64 0x9013_9400_1234_5678 = some (.movi .always 10 0x12345678) ∧
  decodeTableWord 64 0xA020_0002_8502_0010 = some (.vadd .always .fp16 (.vreg 2) (.tap 5 1) (.vreg 4) 0) ∧
  decodeTableWord 64 0xB002_8020_0100_0000 = some (.again .always 0 2 0 ⟨8, 0⟩) ∧
  decodeTableWord 64 0xC00C_0351_5000_0000 = some (.chsend .always 3 20 21) ∧
  decodeTableWord 64 0x800E_8000_0000_0000 = some (.exit .always) ∧
  decodeTableWord 64 0xE000_0000_0000_0000 = none

/-- The machine right after reset (R63, R288, R322, R396, R423, R424, R446, R447, R464, R474): a reset is in progress, the
rings and LTR are zero, nothing is placed, and the registers have the values that the spec gives them. Memory lists
nothing; what it reads as is the model's choice (log 40).
The model's readings on which clauses rest: logs 8, 40. -/
def Obligations.ResetState : Prop :=
  let s := State.reset
  devstat s = 8 ∧ s.host.cmd = {} ∧ s.host.cpl = {} ∧ s.host.ev = {} ∧ s.host.ltr = 0 ∧ s.host.evover = 0 ∧
  s.pkgid = Config.pkgStraps ∧ s.fw.cap = 2400 ∧ s.agenda = [] ∧ s.mem = [] ∧
  (∀ k, (s.seat k).phase = .idle) ∧ (∀ q, (s.queue q).present = false) ∧ (∀ ch, (s.chan ch).state = 0) ∧
  (∀ p, (s.part p).present = false ∧ (s.part p).enable = false) ∧
  (∀ c, (s.core c).slotmap = 0x44 ∧ (s.core c).cerr = {} ∧ (s.core c).cerr.thresh = 0x100) ∧
  (∀ n, (s.stack n).thresh = 2048 ∧ (s.stack n).mint = 50 ∧ (s.stack n).scrub = 24 ∧ (s.stack n).predict = true ∧
    stackErr (s.stack n) = 0) ∧
  (∀ d n, (hwSlot s d n).maxrun = 8192 ∧ (hwSlot s d n).park = 32 ∧ (hwSlot s d n).cls = 7 ∧
    (hwSlot s d n).valid = false) ∧
  s.Wf

/-- Decoding what the encoder gives returns the instruction, with every operand at every value that its encoding admits
(R33 to R50). -/
def Obligations.EncodeDecode : Prop :=
  ∀ i : Instr, i.wf = true → i.isSyllable = true → decode (encode i) = .ok i

/-- Every step keeps the canonical form of the stacked DRAM, of the memory of the host and of the seats. -/
def Obligations.StepKeepsWf : Prop :=
  ∀ s t : State, s.Wf → step s = .next t → t.Wf

/-! Events of seats and cores. -/

/-- Held bundles (R60, R90, R100, R103, R105, R155, R305): a stalled cycle counts a residue cycle and, at every 64th,
a toll; a hold that has ended lets the bundle issue; a released barrier commits; a held bundle of continuation code, which
has no point to yield at, traps 0x09 when its run count exceeds MAXRUN; a held bundle traps 0x0E when it has waited TAPWAIT.LIMIT cycles, and 0x11 at FUSE.
The model's readings on which clauses rest: logs 63, 94, 115. -/
def Obligations.HeldBundles : Prop :=
  ∀ (s : State) (g : Guard), g.ok = true → Guard.holds g (s.ctx s.cur) = true →
    let k := s.cur
    let c := s.ctx k
    (∀ m, m ≠ 0 → Stands (.waitev g m) k s → Runs g 1 0 s →
      (c.csr.evpend &&& m = 0 → ∃ t, exec (.stallToll k) s = .next t ∧ (t.seat k).phase = .running ∧
        (t.ctx k).pos = { c.pos with residue := c.pos.residue + 1 } ∧ (t.ctx k).regs = c.regs ∧
        (t.ctx k).bud.ibud = c.bud.ibud - (if c.pos.residue = 63 then 1 else 0) ∧ t.mem = s.mem) ∧
      (c.csr.evpend &&& m ≠ 0 → ∃ t, exec (.heldBundleRelease k) s = .next t ∧ Retired 0 0 1 0 s t)) ∧
    (∀ sc id rep, Stands (.bar g sc id) k s → (s.seat k).phase = .running → c.fuse.isFused = false →
      c.maskOnce = 0 → Settled s → 1 < c.bud.ibud.toInt → c.pos.loops = [] →
      c.wait.arrival = some (.bar (Scope.num sc) id.toNat true rep) →
      ∃ t, exec (.barrierRelease k) s = .next t ∧ Retired 0 0 1 0 s t ∧ (t.ctx k).wait.arrival = none) ∧
    (∀ m, m ≠ 0 → Stands (.waitev g m) k s → Unheld s → c.csr.evpend &&& m = 0 → c.due = true →
      c.bud.incont = true → c.bud.maxrun.toNat < c.bud.run.toNat → TrapsOn k (exec (.maxrunOverrun k) s) s 0x09 0 0) ∧
    (∀ rd n lag, sigOk n = true → Stands (.taprd g rd n lag) k s → Unheld s →
      let t := resolve c n lag.toNat
      t.unfilled s k c = true → c.csr.tapwait.toNat ≤ c.wait.tapCount →
      TrapsOn k (exec (.tapDeadlock k) s) s 0x0E 0 (sigDetail n (some t.idx))) ∧
    (∀ n ws, 0 < n → (s.seat k).phase = .running → c.csr.tapwait.toNat ≤ c.wait.fuseCount →
      c.wait.arrival = some (.fuse n) → memberSeat s (s.stepKey k) (s.memberNo k) = some k →
      (∀ j ∈ blockOf n (s.memberNo k), j ≠ s.memberNo k → arrivedAs s (s.stepKey k) (.fuse n) j = false) →
      fetch k c.pos.pc s = (.bundle ws, s) →
      TrapsOn k (exec (.fuseTimeout k) s) s 0x11 0 (memberDetail (s.memberNo k)))

/-- The budgets of a seat that goes on after its trap: as they were, with what they were owed meanwhile (R269, R270). -/
def Claims.BudgetsStand (k : Nat) (s t : State) : Prop :=
  let b := (s.ctx k).bud
  (b.owedI = 0 → b.owedT = 0 → (t.ctx k).bud = b) ∧
  (memberSeat s (s.stepKey k) (s.memberNo k) = some k →
    (t.ctx k).bud.ibud = capAdd b.ibud b.owedI ∧ (t.ctx k).bud.tbud = capAdd b.tbud b.owedT)

/-- The way of a trap (R261, R265, R267, R269, R270): the record holds the position before the bundle; the record stands
once earlier results are final; an asynchronous cause is taken at a bundle boundary, and kept by a seat that does not
run; policy 11 lets the seat go on at the recorded position, policy 10 holds it for the host where the cause has a hold.
The model's readings on which clauses rest: logs 31, 32, 123. -/
def Obligations.TrapFlow : Prop :=
  ∀ (s : State) (k : Nat),
    let c := s.ctx k
    let stands : State → Phase → Prop := fun t p => (t.seat k).phase = p ∧ (t.ctx k).regs = c.regs ∧
      (t.ctx k).pos = c.pos ∧ (t.ctx k).trap = c.trap ∧ t.mem = s.mem
    let stays : State → Phase → Prop := fun t p => stands t p ∧ (t.ctx k).bud = c.bud
    (∀ g code, g.ok = true → k = s.cur → Runs g 1 0 s → ∃ t, exec (.trap g code) s = .next t ∧
      (t.ctx k).trap.loops = c.pos.loops ∧ (t.ctx k).trap.ptarget = pendTarget c.pos.pend ∧
      (t.ctx k).trap.savepc = (if c.bud.incont then c.saved.pc else 0) ∧
      (t.ctx k).trap.sloops = (if c.bud.incont then c.saved.loops else []) ∧
      (t.ctx k).trap.slotcause = 0x0F ∧ (t.ctx k).trap.syll = sealWords (encode (.trap g code))) ∧
    ((s.seat k).phase = .trapping → c.mx.pend = [] → (∀ e ∈ c.ready, e.use = true ∨ e.final ≤ s.clk k) →
      ∃ t, exec (.takeTrap k) s = .next t ∧ stays t .trapped) ∧
    ((s.seat k).phase = .trapping → (∃ e ∈ c.mx.pend, s.clk k < e.final) →
      ∃ t, exec (.takeTrap k) s = .next t ∧ stays t .trapping) ∧
    (∀ x, (s.seat k).phase = .running → c.causes = [] → barReleased c = false → (s.seat k).split = none →
      TrapsOn k (exec (.asynchronousCause k x) s) s x.code x.detail0 x.detail1) ∧
    (∀ x, (s.seat k).phase ≠ .running → (s.seat k).phase ≠ .idle → exec (.asynchronousCause k x) s =
      .next (s.updCtx k fun c => { c with causes := c.causes ++ [x] })) ∧
    ((s.seat k).phase = .trapped → trapPolicyOf k s = 3 → trapCode c ∈ [0x0E, 0x0F] →
      (s.core (coreOf k)).retired = false → (s.part (s.partOf k)).swapped.getLsbD (dieOf k) = false →
      ∃ t, exec (.trapDisposition k) s = .next t ∧ stands t .running ∧ Claims.BudgetsStand k s t ∧
        (t.ctx k).maskOnce = 0) ∧
    ((s.seat k).phase = .trapped → trapPolicyOf k s = 2 → trapCode c ∈ [0x0B, 0x0E, 0x0F, 0x12] →
      ∃ t, exec (.trapDisposition k) s = .next t ∧ stays t .trapHeld) ∧
    ((s.seat k).phase ≠ .idle → c.mx.pend ≠ [] → ∃ t, exec (.mResultFinal k) s = .next t ∧
      (t.ctx k).mx.pend = c.mx.pend.filter (fun x => decide (s.clk k < x.final)) ∧
      (t.ctx k).csr.fpst = (c.mx.pend.filter fun x => decide (x.final ≤ s.clk k)).foldl (fun f x => f ||| x.flags)
        c.csr.fpst ∧ (t.ctx k).regs = c.regs ∧ t.mem = s.mem)

/-- The yield (R70, R104, R239, R274, R278 to R281): a recall takes the budget of a running step away until its resume; a
drained seat gives its context up whole, less the latches; a resume restores it with the recalled budget and the grant,
with the events that came meanwhile, and enters a declared continuation.
The model's readings on which clauses rest: logs 30, 41, 63, 95. -/
def Obligations.Yields : Prop :=
  ∀ (s : State) (k : Nat), Lone k s →
    let c := s.ctx k
    let st := s.stepKey k
    let x := s.step1 st
    ((s.seat k).phase = .running → exec (.recall k) s = .next (s.updCtx k fun c => { c with
      bud.recalled := c.bud.recalled + BitVec.ofNat 48 c.bud.ibud.toInt.toNat
      bud.ibud := 0, bud.recallBit := true, bud.recallPend := true })) ∧
    ((s.seat k).phase = .draining → c.mx.pend = [] → (∀ e ∈ c.ready, e.use = true ∨ e.final ≤ s.clk k) →
      exec (.yieldTaken k) s = .next (s.updSeat k fun x => { x with
        phase := .saving, ctx := { x.ctx with mx.latch0 := {}, mx.latch1 := {}, mx.affineFree := 0, ready := [] } })) ∧
    ((s.seat k).phase = .saving → s.anns = [] → fitsDepot s (dieOf k) (s.partOf k) (ctxSize (s.seat k).share) = true →
      x.ready = none → x.parked = none → ∃ t, exec (.contextSave k) s = .next t ∧ t.seat k = {} ∧ t.mem = s.mem ∧
        (t.step1 st).ready ≠ none ∧ ((t.step1 st).members[0]?).map (·.ctx) = some c ∧
        ((t.step1 st).members[0]?).map (·.line) = some (shareOf k s) ∧
        ((t.step1 st).members[0]?).map (·.place) = some .away) ∧
    ((s.seat k).phase = .restoring → c.causes = [] → (∀ e ∈ c.sig.table, e.2.feed ≠ 2) →
      (∀ m ∈ x.members, m.spilled = none) → (s.core (coreOf k)).retired = false →
      (s.part (s.partOf k)).swapped.getLsbD (dieOf k) = false →
      ∃ t, exec (.contextRestore k) s = .next t ∧ (t.seat k).phase = .running ∧ t.mem = s.mem ∧
        (t.ctx k).regs = c.regs ∧ (t.ctx k).sig = c.sig ∧ (t.ctx k).mx = c.mx ∧
        (t.ctx k).bud.ibud = capAdd (capAdd c.bud.ibud c.bud.recalled.toNat) x.grantI ∧
        (t.ctx k).bud.tbud = capAdd c.bud.tbud x.grantT ∧ (t.ctx k).bud.recalled = 0 ∧
        (t.ctx k).csr.evpend = c.csr.evpend ||| c.csr.evHeld ∧
        (c.csr.contpc = 0 → (t.ctx k).pos = c.pos) ∧
        (c.csr.contpc ≠ 0 → (t.ctx k).pos.pc = c.csr.contpc ∧ (t.ctx k).pos.loops = [] ∧ (t.ctx k).pos.pend = none ∧
          (t.ctx k).saved.pc = c.pos.pc ∧ (t.ctx k).saved.loops = c.pos.loops ∧ (t.ctx k).bud.incont = true)) ∧
    (∀ g m, g.ok = true → Guard.holds g c = true → (s.seat k).phase = .running → c.fuse.isFused = false →
      c.maskOnce = 0 → Stands (.waitev g m) k s → c.csr.evpend &&& m ≠ 0 → c.wait.exam = true →
      exec (.waitExamination k) s = .next (s.updCtx k fun c => { c with wait.exam := false }))

/-- Events (R73, R88, R89): an event latches at the member it names, is kept with the context of one that is away, and
is lost, in the EVLOST of its sender, where it finds no such member. -/
def Claims.EventsLatch : Prop :=
  ∀ (s : State) (n : Nat) (e : EvMsg), s.events[n]? = some e →
    let u := { s with events := s.events.eraseIdx n }
    let x := s.step1 e.step
    let place := (x.members[e.member]?).map (·.place)
    let lost := exec (.eventLatch n) s =
      .next (u.updMemberCtx (e.src / 16) (e.src % 16) fun c => { c with bud.evlost := true })
    (x.present = true → x.uid = e.uid →
      (∀ k, place = some (.onSeat k) → exec (.eventLatch n) s =
        .next (u.updCtx k fun c => { c with csr.evpend := c.csr.evpend ||| (1 <<< e.ev.toNat), csr.evNew := c.csr.evNew ||| (1 <<< e.ev.toNat) })) ∧
      (place = some .away → exec (.eventLatch n) s = .next (u.updMember e.step e.member fun m =>
        { m with ctx.csr.evHeld := m.ctx.csr.evHeld ||| (1 <<< e.ev.toNat) })) ∧
      (place = some .unplaced ∨ place = some .ended ∨ place = none → lost)) ∧
    (x.present = false ∨ x.uid ≠ e.uid → lost)

/-- Spare cores, mirrors and streams (R289, R293 to R296): a spare takes the number of a retired empty core; a mirror
without a stream connects to the first seat that can be its source, with every free slot as a permit; a stream sends
the next sample of its source while it has a permit, and its arrival counts the sample in the mirror. -/
def Claims.Streams : Prop :=
  (∀ (s : State) (c : Nat), c < 256 → (s.core c).retired = true → coreEmpty s c = true →
    (s.die (c / 64)).sparesLeft ≠ 0 → ∃ t, exec (.spareMap c) s = .next t ∧ (t.core c).retired = false ∧
      (t.core c).failed = false ∧ (t.core c).slotmap = 0x144 ∧ (t.core c).line = [] ∧
      t.dies = (s.updDie (c / 64) fun y => { y with sparesLeft := y.sparesLeft - 1 }).dies ∧
      t.seats = s.seats ∧ t.mem = s.mem) ∧
  (∀ (s : State) (k q : Nat) (n : BitVec 7), s.Wf → (s.seat k).phase = .running → (s.seat k).step.isSome = true →
    let g := (s.ctx k).sg n
    g.present = true → g.feed = 2 → (s.die (dieOf k)).ghosts = [] →
    (∀ x ∈ (s.die (dieOf k)).streams, ¬(x.dst = k ∧ x.sig = n.toNat)) →
    ((mirrorCores (coreOf k % 64)).map (seatOnCore k)).find? (canExport s k n) = some q →
    oldestLive ((s.ctx q).sg n) ≤ g.fillMark + 1 →
    exec (.mirrorSourceSearch k n) s = .next (s.updDie (dieOf k) fun d => { d with streams := d.streams ++
      [{ src := q, dst := k, sig := n.toNat, permits := (g.top - g.fillMark).toNat }] })) ∧
  (∀ (s : State) (d n : Nat) (x : Stream), (s.die d).streams[n]? = some x → x.frozen = false → dieOf x.dst = d →
    let sig := BitVec.ofNat 7 x.sig
    let src := (s.ctx x.src).sg sig
    let g := (s.ctx x.dst).sg sig
    let i := g.fillMark + 1
    (x.carry = none → x.permits ≠ 0 → oldestLive src ≤ i → i ≤ src.fillMark → sampleFinal s x.src sig i = true →
      exec (.streamSampleSend d n) s = .next (updStream x.src x.dst x.sig (fun y => { y with
        permits := y.permits - 1, carry := some i.toNat
        units := (sourceUnits s x.src (s.ctx x.src) ⟨sig, src, 0, 0, i⟩ (min src.width.toNat g.width.toNat)).1
        poison := (sourceUnits s x.src (s.ctx x.src) ⟨sig, src, 0, 0, i⟩ (min src.width.toNat g.width.toNat)).2 }) s)) ∧
    (∀ j, x.carry = some j → (s.seat x.dst).phase ≠ .idle → g.present = true →
      ∃ t, exec (.streamSampleArrival d n) s = .next t ∧ t.mem = s.mem ∧
        ((t.ctx x.dst).sg sig) = g.setFill j ∧ (t.ctx x.dst).regs = (s.ctx x.dst).regs))

/-- Events that latch, spare cores, mirrors and streams (R73, R88, R89, R289, R293 to R296).
The model's readings on which clauses rest: logs 5, 38, 75, 106, 121. -/
def Obligations.EventsAndStreams : Prop := Claims.EventsLatch ∧ Claims.Streams

/-! Events of the copy engine, of the memories and of the dispatcher. -/

/-- Access j of a load of one access a sample is the next one to complete, in the sample after FILL; no other load
can raise FILL beyond it, and the command has more to come. -/
def FillsNext (s : State) (k : Nat) (h : BitVec 4) (j : Nat) : Prop :=
  let c := s.ctx k
  let p := c.copy h.toNat
  c.eng.landed = [] ∧ c.eng.copies = [(h.toNat, p)] ∧ (c.handle h.toNat).state = 1 ∧ p.suspended = false ∧ p.stop = false ∧
    p.sp24 = false ∧ p.perSampleAcc = 1 ∧ p.lead = j ∧ p.done = [] ∧ p.issued < p.total ∧ j + 1 < p.total ∧
    (c.sg p.sig).present = true ∧ (c.sg p.sig).fillMark + 1 = p.sampleAt j ∧ 0 < (c.sg p.sig).slots ∧
    p.sampleAt j < (c.sg p.sig).head.toNat + 2 ^ 16

/-- The copy engine (R220, R223 to R226, R234, R235): a command that may go on issues its next accesses, those of one
16-byte piece as one (R374); an element of a store waits with its data while the rest of its piece cannot be read; the
data of a load reach line memory as its access completes, and FILL and PROGRESS rise; the last access of a store
ends the command, with PROGRESS at its total; SCACC takes a window of pairs; a loader reads an element at its home,
which lands in the sample, and leaves memory alone; a storer writes its sample to memory.
The model's readings on which clauses rest: logs 47, 54, 83, 99, 108, 122, 130. -/
def Obligations.EngineSteps : Prop :=
  ∀ (s : State) (k : Nat) (h : BitVec 4), memberSeat s (s.stepKey k) (s.memberNo k) = some k →
    let c := s.ctx k
    let p := c.copy h.toNat
    let hd := c.handle h.toNat
    let n := p.issued
    (∀ pa unc, engineOn (s.seat k).phase = true → hd.state = 1 → p.op ∈ [0, 1] → p.stop = false → p.suspended = false →
      n < p.total → sampleReady s k p n = true → mayAccess s k p n = true → p.kept = [] →
      (p.op = 1 → pieceReady s k p n = true ∧ ∀ j < pieceLength p n 15 1, mayAccess s k p (n + j) = true) →
      c.eng.fences = [] →
      (s.die (dieOf k)).pcache = [] → copyXlate k h p (p.accAddr n) s = (some (.dram pa, unc), s) →
      ∃ t a, exec (.copyElementIssue k h) s = .next t ∧ t.accs = s.accs ++ [a] ∧
        a.seat = k ∧ a.h = h ∧ a.elem = n ∧ a.write = (p.op == 1) ∧ a.target = .dram pa ∧
        a.count = (if p.op = 1 then pieceLength p n 15 1 else runLength s k p n 15 1) ∧ a.size = a.count * p.accSize n ∧
        (∀ j < a.count, (p.accAddr (n + j)).toNat = (p.accAddr n).toNat + j * p.memFormat.size) ∧
        ((t.ctx k).copy h.toNat).issued = n + a.count ∧ ((t.ctx k).copy h.toNat).flying = p.flying + a.count ∧
        (t.ctx k).regs = c.regs ∧ t.mem = s.mem) ∧
    (∀ t' unc, engineOn (s.seat k).phase = true → hd.state = 1 → p.op = 1 → p.stop = false → p.suspended = false →
      n < p.total → sampleReady s k p n = true → mayAccess s k p n = true → pieceReady s k p n = false →
      c.eng.fences = [] → copyXlate k h p (p.accAddr n) s = (some (t', unc), s) →
      ∃ t, exec (.copyElementIssue k h) s = .next t ∧ t.accs = s.accs ∧ t.mem = s.mem ∧
        ((t.ctx k).copy h.toNat).issued = n + 1 ∧ ((t.ctx k).copy h.toNat).flying = p.flying ∧
        (∃ e ∈ ((t.ctx k).copy h.toNat).kept, e.elem = n ∧ e.data = (takeElem k h n s).1)) ∧
    (∀ j a rest, takeFirst (fun (a : Access) => a.seat == k && a.h == h && a.elem == j) s.accs = some (a, rest) →
      (s.seat k).phase ≠ .idle → a.write = false → a.phase = .served → p.op = 0 →
      let w : State := { s with accs := rest }
      let u := landRun k h j a.count a.data a.poison w
      let v := landAccess k h j (leNat (a.data.take (p.accSize j))) a.poison w
      exec (.copyAccessComplete k h j) s = .next (countAccess k h j a.count a.poison u) ∧
      (a.count = 1 → u.ctx k = v.ctx k ∧ (∀ q, u.line k q = v.line k q) ∧ u.mem = s.mem) ∧
      (a.count = 1 → FillsNext s k h j → ∃ t, exec (.copyAccessComplete k h j) s = .next t ∧
        (t.ctx k).sg p.sig = (c.sg p.sig).setFill (p.sampleAt j) ∧
        ((t.ctx k).handle h.toNat).progress = BitVec.ofNat 32 (j + 1))) ∧
    (∀ j a rest, takeFirst (fun (a : Access) => a.seat == k && a.h == h && a.elem == j) s.accs = some (a, rest) →
      (s.seat k).phase ≠ .idle →
      a.write = true → a.phase = .served → p.op = 1 → hd.state = 1 → hd.poison = false → p.failed = false →
      p.stop = false → p.suspended = false → p.sp24 = false → p.ctxStack = none → p.done = [] → p.flying = a.count →
      p.issued = p.total → p.lead = j → 0 < a.count → j + a.count = p.total →
      ∃ t, exec (.copyAccessComplete k h j) s = .next t ∧ t.accs = rest ∧ t.mem = s.mem ∧
        (t.ctx k).handle h.toNat = { hd with state := 5, progress := hd.total } ∧ (t.ctx k).sig = c.sig) ∧
    (engineOn (s.seat k).phase = true → p.op = 6 → hd.state = 1 → scaccBehind c p = false →
      let w := (p.pairs.drop hd.progress.toNat).take p.window
      let done := hd.progress.toNat + w.length
      ∃ t, exec (.scaccWindow k h) s = .next t ∧ t.mem = s.mem ∧ (t.ctx k).regs = c.regs ∧
        ((t.ctx k).handle h.toNat).progress = BitVec.ofNat 32 done ∧
        ((t.ctx k).handle h.toNat).state = (if p.pairs.length ≤ done then
          if ((t.ctx k).handle h.toNat).poison then 6 else 5 else 1) ∧
        (hd.poison = true → ((t.ctx k).handle h.toNat).poison = true)) ∧
    (∀ pa z unc bs bad v, stackReady k h 0x0B s = true → s.accs = [] → p.perSampleAcc = 1 → p.ctxStack = some z →
      copyXlate k h p (p.accAddr n) s = (some (.dram pa, unc), s) →
      checkedRead (homeDie pa) pa (p.accSize n) .home
        (s.updCtx k fun c => c.updCopy h.toNat fun q => { q with issued := n + 1, flying := q.flying + 1 }) p.tcls = (bs, bad, v) →
      let u := countAccess k h n 1 bad (landAccess k h n (leNat bs) bad (applySeen (dieOf k) (pa / 64) v))
      (pa % 64 + p.accSize n ≤ 64 → bs = memRead s.mem pa (p.accSize n)) ∧
      ∃ t, exec (.loaderSamplePush k h) s = .next t ∧ t.mem = s.mem ∧ (t.ctx k).regs = c.regs ∧
        t.ctx k = u.ctx k ∧ (∀ q, t.line k q = u.line k q) ∧
        (FillsNext s k h n → (t.ctx k).sg p.sig = (c.sg p.sig).setFill (p.sampleAt n) ∧
          ((t.ctx k).handle h.toNat).progress = BitVec.ofNat 32 (n + 1))) ∧
    (∀ pa z unc, stackReady k h 0x0C s = true → s.accs = [] → p.perSampleAcc = 1 → p.ctxStack = some z →
      copyXlate k h p (p.accAddr n) s = (some (.dram pa, unc), s) →
      (pieceReady s k p n = false → exec (.storerSampleWrite k h) s = .next (holdElem k h n s)) ∧
      (pieceReady s k p n = true → p.kept = [] → pa % 16 = (p.accAddr n).toNat % 16 →
        (s.stack (stackOf pa)).lost = false →
        ∃ t, exec (.storerSampleWrite k h) s = .next t ∧ (t.ctx k).regs = c.regs ∧
          t.mem = memWrite s.mem pa (takeElem k h n s).1))

/-- Near memory (R434, R435, R439): a granule of a fill takes eight copies of VALUE at its home; an atomic add writes the
sum of its operand and what its home holds.
The model's readings on which clauses rest: logs 60, 98, 99. -/
def Obligations.NearMemorySteps : Prop :=
  ∀ (s : State) (i : Nat) (x : NmCmd) (r : List Byte) (pa : Nat), s.near[i]? = some x → x.suspended = false →
    nmHeld s x = false → s.accs = [] → x.records[x.rno]? = some r → x.failed = false → x.cancelled = false →
    (x.atomic = false → x.stopped = false → x.closing = none → nmOp r = 2 →
      nmXlate x (nmDst r + 64 * x.gno) .update s = (some pa, s) →
      ∃ t, exec (.nearMemoryGranule i) s = .next t ∧
        ((s.stack (stackOf pa)).lost = false →
          t.mem = memWrite s.mem pa ((List.range 8).flatMap fun _ => leBytes 8 (fieldAt r 0x20 8)))) ∧
    (x.atomic = true → atOp r = 0 → atResult r = 0 → nmXlate x (atAddr r) .update s = (some pa, s) →
      ∃ t bs bad u, nmFetch (homeDie pa) pa (atSize r) s x.tcls = (bs, bad, u) ∧ exec (.nmAtomicRecord i) s = .next t ∧
        (pa % atSize r = 0 → bs = memRead s.mem pa (atSize r)) ∧
        (bad = true → t.mem = s.mem) ∧
        (bad = false → t.mem = memWrite s.mem pa
          (leBytes (atSize r) ((leNat bs + fieldAt r 0x10 8 % 2 ^ (8 * atSize r)) % 2 ^ (8 * atSize r)))))

/-- Accesses at the memories (R377, R386, R406, R411, R418): a stack serves a write and a read that nothing of its port
holds; a combiner lets an access go; a die applies the announcement that is its turn; a request that a walker takes
caches its leaf or records its fault; a fault times out where its partition sets a limit.
The model's readings on which clauses rest: logs 50, 55, 98, 100, 124. -/
def Obligations.MemoryAccesses : Prop :=
  ∀ (s : State) (d n : Nat),
    (∀ a pa, s.accs[n]? = some a → a.target = .dram pa → a.phase = .waiting → unblocked s n a = true →
      class0First s a = false →
      (a.write = true → a.data ≠ [] → (s.stack (stackOf pa)).lost = false →
        ∃ t, exec (.stackWrite n) s = .next t ∧ t.mem = memWrite s.mem pa a.data ∧
          t.accs[n]? = some { a with phase := .served }) ∧
      (a.write = false → ∃ t bs bad, exec (.stackRead n) s = .next t ∧ t.mem = s.mem ∧ t.seats = s.seats ∧
        t.accs[n]? = some { a with phase := .served, data := bs, poison := bad } ∧
        (homeDie pa = dieOf a.seat → pa % 64 + a.size ≤ 64 → bs = memRead s.mem pa a.size))) ∧
    (∀ a, s.accs[n]? = some a → dieOf a.seat = d → a.phase = .combined → ∃ t, exec (.combinerFlush d n) s = .next t ∧
      t.accs[n]? = some { a with phase := .waiting } ∧ t.mem = s.mem ∧ t.seats = s.seats) ∧
    (∀ a, s.anns[n]? = some a → a.dst = d → annReady s a = true →
      exec (.announcementApply d n) s = .next (applyAnn a { s with anns := s.anns.eraseIdx n })) ∧
    (∀ a, s.anns[n]? = some a → annReady s a = false → exec (.announcementApply d n) s = .next s) ∧
    ((s.die d).walks[n]?.isSome = true → walkTaken s d n = false → exec (.translationWalk d n) s = .next s) ∧
    (∀ r, (s.die d).walks[n]? = some r → walkTaken s d n = true →
      let u := s.updDie d fun x => Die.fillWalks { x with walks := x.walks.eraseIdx n }
      (∀ x ea e v, walk d r.part r.va.toNat r.agent (wantOf r) u = (.ok x ea e, v) →
        exec (.translationWalk d n) s = .next (wakeWaiters d r.part r.waiters v) ∧
        (∀ w ∈ (v.die d).walks ++ (v.die d).walkLine, x.serves w.part w.va.toNat w.agent (wantOf w) = false)) ∧
      (∀ kind lv e po v, walk d r.part r.va.toNat r.agent (wantOf r) u = (.fault kind lv e po, v) →
        (∀ w ∈ r.waiters, r.concerns kind w = true ∧ w.remote = false) →
        exec (.translationWalk d n) s = .next (if unresolvable v r.part kind
          then r.waiters.foldl (failWaiter d r.part) v
          else r.waiters.foldl holdWaiter (recordFault d r.part r.va kind r.access r.agent lv e po r.tcls r.waiters v)))) ∧
    (∀ f, (s.die d).faults[n]? = some f →
      ((s.part f.part).ftimeout = 0 → exec (.faultTimeout d n) s = .next s) ∧
      ((s.part f.part).ftimeout ≠ 0 → f.waiters = [] → (∀ e ∈ s.queues, e.2.recWait = false) → ((s.die d).faults.find? fun g => g.id == f.id) = some f →
        exec (.faultTimeout d n) s = .next (s.updDie d fun x => { x with
          faults := x.faults.filter fun g => g.id != f.id })))

/-- Banks and stacks (R420 to R422, R426, R428): a refresh answers the waiting requests of its bank with a retry, and a
retried one comes to its turn again; a precharge closes the row and resets a counter that has reached THRESH; the patrol
corrects a granule with one bad symbol; a lost stack leaves DEVSTAT and every granule of it reads as poison.
The model's readings on which clauses rest: logs 24, 26, 85. -/
def Obligations.BanksAndStacks : Prop :=
  ∀ (s : State) (n pc bank : Nat),
    let key := pc * 64 + bank
    let b := (s.stack n).banks.get {} key
    let at' : Access → Bool := fun a => match a.target with
      | .dram pa => stackOf pa == n && (spotOf pa).pc == pc && (spotOf pa).bank == bank
      | .host _ => false
      | .remote _ _ _ => false
    (∀ hint : BitVec 6, hint ≠ 0 → hint.toNat ≤ 40 → ∃ t, exec (.bankRefresh n pc bank hint) s = .next t ∧
      t.mem = s.mem ∧ t.seats = s.seats ∧
      t.accs = s.accs.map fun a => if a.phase == .waiting && at' a then { a with phase := .retry hint.toNat } else a) ∧
    (∀ i a hint, s.accs[i]? = some a → a.phase = .retry hint → ∃ t, exec (.retryReissue i) s = .next t ∧
      t.accs[i]? = some { a with phase := .waiting } ∧ t.mem = s.mem) ∧
    (b.row = none → exec (.rowPrecharge n pc bank) s = .next s ∧ exec (.rowOpenLimit n pc bank) s = .next s) ∧
    (∀ r, b.row = some r → (s.stack n).parity.contains (rowKey key r) = false →
      let v := ((s.stack n).acts.get 0 (rowKey key r)).toNat
      let shut : Stack → Stack := fun x => { x with banks := x.banks.set {} key { b with row := none, predicted := false } }
      let both : (Stack → Stack) → Prop := fun f =>
        exec (.rowPrecharge n pc bank) s = .next (s.updStack n f) ∧ exec (.rowOpenLimit n pc bank) s = .next (s.updStack n f)
      (v < (s.stack n).thresh.toNat → v ≠ 4095 → both shut) ∧
      ((s.stack n).thresh.toNat ≤ v → v ≠ 4095 →
        both fun x => { shut x with acts := x.acts.set 0 (rowKey key r) 0 })) ∧
    (∀ g, g < 2 ^ 30 → (s.stack n).scrub ≠ 0 → n < 8 → s.errs.get 0 (n * 2 ^ 30 + g) = 1 →
      s.granBad (n * 2 ^ 30 + g) = false → ∃ t, exec (.patrolScrub n g) s = .next t ∧
      t.errs = s.errs.set 0 (n * 2 ^ 30 + g) 0 ∧ t.mem = s.mem ∧ t.poisonMem = s.poisonMem) ∧
    (n < 8 → (s.stack n).lost = false → ∃ t, exec (.stackLost n) s = .next t ∧ t.mem = s.mem ∧ t.seats = s.seats ∧
      t.host.stackMask = s.host.stackMask &&& ~~~((1 : BitVec 8) <<< n) ∧
      ∀ g, stackOf (64 * g) = n → t.granBad g = true)

/-- Placement (R67, R325, R326, R334): a visit moves the row pointer on; a row that is not valid does no more; a valid one
places the candidate of its slot where it fits; a reservation places its candidate, and ends when that waits no more;
a first placement enters its step at the waybill's entry with PARAMS, the walk's indices and the member in s1 to s8.
The model's readings on which clauses rest: logs 3, 28, 37, 107, 132. -/
def Obligations.Placement : Prop :=
  (∀ (s : State) (d : Nat), (s.die d).pstate = 0 → s.fab.work = [] → (∀ e ∈ s.queues, e.2.recWait = false) →
    let r := (s.die d).rows.get {} (s.die d).rowPtr
    let u := s.updDie d fun x => { x with rowPtr := (x.rowPtr + 1) % 256 }
    (r.valid = false → exec (.timetableVisit d) s = .next u) ∧
    (∀ st v, r.valid = true → (hwSlot u d r.slot.toNat).valid = true → r.part = (hwSlot u d r.slot.toNat).part →
      earliestReady u d r.slot.toNat = some st →
      place d ⟨(u.step1 st).task, some st⟩ r.grant.toNat r.tgrant.toNat u = some v → v.fab.work = [] →
      exec (.timetableVisit d) s = .next (updSlot d r.slot.toNat (fun x => { x with streak := 0 }) v))) ∧
  (∀ (s : State) (d : Nat) (r : Reserve),
    let waits := candWaits s r.cand = true ∧ (hwSlot s d (s.task r.cand.task).slot).valid = true
    ((s.die d).resv = [r] →
      (candWaits s r.cand = false → exec (.reservedPlacement d) s = .next (endReserve d r.cand [] s)) ∧
      (∀ v, waits → place d r.cand r.grantI r.grantT s = some v → exec (.reservedPlacement d) s = .next v)) ∧
    ((s.die d).convoy = some r →
      (candWaits s r.cand = false → exec (.convoyPlacement d) s = .next (endReserve d r.cand [] s)) ∧
      (∀ v, waits → place d r.cand r.grantI r.grantT s = some v → exec (.convoyPlacement d) s = .next v))) ∧
  (∀ (s : State) (st i tr m k : Nat), (s.step1 st).fresh = true → (s.step1 st).restarts = 0 → m < 16 →
    let x := s.step1 st
    let t := s.task x.task
    let u := placeMember st i tr m k s
    (u.seat k).phase = .running ∧ (u.seat k).step = some (st, m) ∧ (u.seat k).share = 2048 * t.wb.share ∧
    (u.ctx k).pos = { pc := t.wb.entry } ∧ (u.ctx k).s 1 = t.wb.params ∧ (u.ctx k).s 8 = BitVec.ofNat 64 m ∧
    (∀ l < 6, (u.ctx k).s (BitVec.ofNat 6 (l + 2)) =
      BitVec.ofNat 64 (x.number / (t.wb.walk.take l).prod % t.wb.walk.getD l 1)) ∧
    (u.ctx k).sig.table = t.image ∧ (u.ctx k).csr.member.toNat = m ∧
    (u.ctx k).bud.maxrun = (hwSlot s (st / 16384) t.slot).maxrun ∧
    (u.ctx k).bud.ibud = BitVec.ofNat 48 (min t.wb.ibud (2 ^ 47 - 1)) ∧
    (u.ctx k).bud.tbud = BitVec.ofNat 48 (min t.wb.tbud (2 ^ 47 - 1)))

/-- Launched work, graphs and the wait table (R339, R342 to R344): an entry is written once its release is complete and
its place is next, and its handle completes; a task's weight returns before its completion; a group that has waited
long enough is parked by a yield of cause 00, and is ready again once its condition holds.
The model's readings on which clauses rest: logs 13, 15, 34, 61, 105, 133, 134. -/
def Obligations.WorkAndWaits : Prop :=
  ∀ (s : State) (d n : Nat),
    (∀ l, (s.die d).launches[n]? = some l →
      (launchLives s l = true → releaseOpen s d (s.memberCtx l.step l.member) l.seq 3 0xFF = true →
        exec (.launchEntryWrite d n) s = .next s) ∧
      (releaseOpen s d (s.memberCtx l.step l.member) l.seq 3 0xFF = false → launchQueueLives s l = false →
        exec (.launchEntryWrite d n) s = .next (failLaunch d n l s)) ∧
      (∀ e v, releaseOpen s d (s.memberCtx l.step l.member) l.seq 3 0xFF = false → launchQueueLives s l = true →
        l.borrowed = false → (s.queue l.queue).tail = l.k →
        putEntry l.queue l.entry (.launch l.step l.uid l.member l.ibud l.tbud)
          (s.updDie d fun x => { x with launches := modifyAt (fun _ => l) x.launches n }) = (.ok e, v) →
        exec (.launchEntryWrite d n) s =
          .next (dropLaunch d n false l (onLaunchHandle l (fun h => { h with progress := 1, state := 5 }) v)))) ∧
    (∀ t sum v, (s.die d).returns[n]? = some t → (s.task t).status = 0 →
      nearAdd d (s.task t).part (dispRequest 4 t) ((s.task t).wb.graph.toNat + 8) (s.task t).purse s = (.ok sum, v) →
      exec (.graphReturn d n) s = .next (finishTask t
        ((graphSum d (s.task t).part t (s.task t).wb.graph.toNat sum v).updDie d fun y =>
          { y with returns := y.returns.eraseIdx n }))) ∧
    (let st := d * 16384 + n
     (∀ k p, stepSeats s st = [k] → parkConds st s = some [p] → condHolds s st 0 p = false → parkedCount s d < 512 →
        exec (.groupPark d n) s = .next (beginYield k 0 (s.updStep st fun x => { x with parked := some [p] }))) ∧
     (∀ k p, stepSeats s st = [k] → parkConds st s = some [p] → condHolds s st 0 p = false → 512 ≤ parkedCount s d →
        exec (.groupPark d n) s = .next (s.updCtx k fun c => { c with wait.exam := true })) ∧
     (∀ ps, (s.step1 st).parked = some ps → (s.die d).pstate = 0 → s.host.selfRefresh = false →
        (anyHolds s st ps = false → exec (.groupWake d n) s = .next s) ∧
        (anyHolds s st ps = true → noneOnSeat (s.step1 st) = true →
          exec (.groupWake d n) s = .next (readyStep st s)) ∧
        (anyHolds s st ps = true → noneOnSeat (s.step1 st) = false →
          exec (.groupWake d n) s = .next (s.updStep st fun y => { y with parked := none }))))

/-- The channel engine (R356, R357, R362, R364, R365): the next message with a permit goes into the ring of its bound
reader, one without, or whose reader is gone or away, into the cistern, from which a returned permit carries the
oldest; a trigger writes its waybill once its budgets are drawn; a partition that moves is not stalled; an audit without
a difference reports none.
The model's readings on which clauses rest: logs 13, 18, 39, 56, 104. -/
def Obligations.ChannelSteps : Prop :=
  ∀ (s : State) (d n : Nat),
    let ch := d * 4096 + n
    let c := s.chan ch
    (∀ m rest k sig, c.flight = m :: rest → readerSeat s ch = some (k, sig) → msgFree s m = true → m.k = c.deliv →
      permitLive c m = true → (s.seat k).phase ≠ .idle → ((s.ctx k).sg sig).present = true →
      ∃ t, exec (.messageDelivery d n) s = .next t ∧ t.mem = s.mem ∧ (t.chan ch).flight = rest ∧
        (t.chan ch).deliv = c.deliv + 1 ∧ (t.chan ch).wpermits = c.wpermits ∧ (t.ctx k).regs = (s.ctx k).regs ∧
        (t.ctx k).sg sig = ((s.ctx k).sg sig).setFill ((m.k : Int) - c.base)) ∧
    (∀ m rest v, c.flight = m :: rest → msgFree s m = true →
      permitLive c m = false ∨ c.rbound = false ∨ c.raway = true →
      (c.segHead + c.spill.length) / segMsgs c.width < c.segs.length →
      (s.wakeDie d).agentWrite d c.part (request agentChan (2 * ch)) (segAddr s c (c.segHead + c.spill.length))
        (m.units.flatMap fun u => leBytes 32 u.toNat) = (.ok (), v) →
      exec (.messageSpill d n) s = .next (v.updChan ch fun x =>
        { x with segs := c.segs, flight := rest, spilling := true
                 heldback := x.heldback + bit (permitLive c m && !c.rbound)
                 spill := x.spill ++ [{ m with units := [], permit := m.permit && !(permitLive c m && !c.rbound) }] })) ∧
    (∀ m rest k sig bs v, c.spill = m :: rest → readerSeat s ch = some (k, sig) → m.k = c.deliv →
      permitLive c m = false → c.wpermits ≠ 0 →
      (s.wakeDie d).agentRead d c.part (request agentChan (2 * ch + 1)) (segAddr s c c.segHead) (32 * c.width) = (.ok (bs, false), v) →
      exec (.cisternDrain d n) s = .next (afterDrain ch m.k (countMessage ch m (landMessage k sig ((m.k : Int) - c.base)
        (unitsOf c.width bs) m.poison (v.updChan ch fun x => { x with spill := rest, wpermits := x.wpermits - 1 }))))) ∧
    (c.trigPending = false → exec (.triggerFire d n) s = .next s) ∧
    (c.trigPending = true → c.trigEntry = none →
      (∀ v, s.agentRead d c.part (dispRequest 6 ch) c.trig.toNat 128 = (.fail, v) →
        exec (.triggerFire d n) s = .next (trigFail ch 3 v)) ∧
      (∀ bs v, s.agentRead d c.part (dispRequest 6 ch) c.trig.toNat 128 = (.ok (bs, false), v) →
        let e := patchBytes bs 0x60 (leBytes 8 0)
        (drawReserve c.part (entryBudget e).1 (entryBudget e).2 v = none →
          exec (.triggerFire d n) s = .next (trigFail ch 6 v)) ∧
        (∀ u, drawReserve c.part (entryBudget e).1 (entryBudget e).2 v = some u →
          exec (.triggerFire d n) s = .next (trigWrite ch e (u.updChan ch fun y => { y with trigEntry := some e }))))) ∧
    (allStuck s d n = false → ∃ t, exec (.deadlockSample d n) s = .next t ∧ t.seats = s.seats ∧ t.chans = s.chans ∧
      t.host = s.host ∧ t.mem = s.mem) ∧
    (allStuck s d n = true → partBusy s d n = true → (s.die d).progress.get [] n = progressOf s d n →
      (s.die d).stalled.get 0 n < 2 → exec (.deadlockSample d n) s =
        .next (s.updDie d fun y => { y with stalled := y.stalled.set 0 n ((s.die d).stalled.get 0 n + 1) })) ∧
    ((∀ e ∈ s.chans, e.1 / 4096 = d → ∀ x, permitCount s e.1 = some x → x.1 = x.2) →
      (∀ x ∈ (s.die d).streams, (streamCount s x).1 = (streamCount s x).2) → exec (.permitAudit d) s = .next s)

/-! Events of the host, and the firmware commands. -/

/-- Doorbells and registers (R63, R288, R319, R446, R449, R454, R463, R465): a legal TAIL is taken, another marks the queue
as overrun; a ring index is taken within its ring, and no register of BAR0 takes a write while a reset is in progress;
SLOTMAP takes none after LOCK.
The model's readings on which clauses rest: logs 68, 69. -/
def Obligations.RegisterWrites : Prop :=
  ∀ (s : State),
    (∀ d n (t : BitVec 32), s.host.resetting = false → (s.die d).pstate = 0 → s.host.selfRefresh = false →
      let q := d * 65536 + n
      let x := s.queue q
      let legal := (t - x.tail).toNat ≤ x.size ∧ (t - x.live).toNat ≤ x.size
      let u := s.sync d
      (x.present = false → exec (.doorbellTailWrite d n t) s = .next u) ∧
      (x.present = true → x.device = false → legal → x.mapped = true →
        exec (.doorbellTailWrite d n t) s = .next (u.updQueue q fun y => { y with tail := t })) ∧
      (x.present = true → x.device = false → legal → x.mapped = false →
        exec (.doorbellTailWrite d n t) s =
          .next (putQueueRec q (u.updQueue q fun y => { y with tail := t, pending := true }))) ∧
      (x.present = true → x.device = true ∨ ¬legal → exec (.doorbellTailWrite d n t) s =
        .next (queueError q x.part t.toNat (putQueueRec q (u.updQueue q fun y => { y with overrun := true }))))) ∧
    (∀ v : Word,
      let r := s.host.cmd
      let t : BitVec 32 := v.setWidth 32
      (s.host.resetting = false → (t - r.head).toNat ≤ r.entries → (r.tail - r.head).toNat ≤ (t - r.head).toNat →
        exec (.ctailWrite v) s = .next { s with host.cmd.tail := t }) ∧
      (r.entries < (t - r.head).toNat ∨ (t - r.head).toNat < (r.tail - r.head).toNat →
        exec (.ctailWrite v) s = .next s) ∧
      (s.host.resetting = false → exec (.pheadWrite v) s = .next { s with host.cpl.head := t }) ∧
      (s.host.resetting = false → s.host.kept = [] → exec (.eheadWrite v) s = .next { s with host.ev.head := t }) ∧
      (s.host.resetting = false → (∀ d < 4, (s.die d).pstate = 0) → s.host.selfRefresh = false →
        exec (.ltrWrite v) s = .next { s with host.ltr := t }) ∧
      (v.extractLsb' 8 8 ≠ 0xA5 ∨ v.getLsbD 0 = false → exec (.resetctlWrite v) s = .next s) ∧
      (s.host.resetting = false → v.extractLsb' 8 8 = 0xA5 → v.getLsbD 0 = true →
        exec (.resetctlWrite v) s = exec (.warmReset (v.getLsbD 1)) s) ∧
      (s.host.resetting = true → exec (.ctailWrite v) s = .next s ∧ exec (.pheadWrite v) s = .next s ∧
        exec (.eheadWrite v) s = .next s ∧ exec (.ltrWrite v) s = .next s ∧ exec (.resetctlWrite v) s = .next s ∧
        ∀ off, exec (.configRegisterWrite (.bar0 off) v) s = .next s)) ∧
    (∀ c (v : BitVec 32), ((s.core c).slotmap.getLsbD 8 = true → exec (.slotmapWrite c v) s = .next s) ∧
      ((s.core c).slotmap.getLsbD 8 = false → (v.getLsbD 8 = true → slotmapOk (v &&& 0x1FF) = true) →
        exec (.slotmapWrite c v) s = .next (s.updCore c fun x => { x with slotmap := v &&& 0x1FF }))) ∧
    (∀ c (v : Word), c < 256 → exec (.configRegisterWrite (.cerr c) v) s =
      .next (s.updCore c fun x => { x with cerr := writeCerr v x.cerr })) ∧
    (∀ n (v : Word), n < 8 → exec (.configRegisterWrite (.stackcfg n) v) s = .next (s.updStack n (writeStackCfg v)) ∧
      exec (.configRegisterWrite (.stackerr n) v) s = .next s)

/-- Apertures (R413, R445, R448): a write reaches the pages that translate, a read is answered with their bytes, and one
outside a valid aperture is answered Unsupported Request.
The model's readings on which clauses rest: logs 70, 71, 98, 101. -/
def Obligations.HostAccesses : Prop :=
  ∀ (s : State) (a off : Nat), (s.die 0).pstate = 0 → s.host.selfRefresh = false →
    let x := s.host.apertures.get {} a
    let va := x.base.toNat + off
    (∀ bytes ep pa ty v, s.host.resetting = false → x.valid = true → off + bytes.length ≤ 2 ^ 30 → bytes ≠ [] →
      va % 4096 + bytes.length ≤ 4096 → hostXlate x.part va .write s = (some (pa, ty), v) →
      (v.stack (stackOf pa)).lost = false → v.accs = [] →
      ∃ t, exec (.hostWrite a off bytes ep) s = .next t ∧ t.mem = memWrite v.mem pa bytes ∧ t.seats = v.seats) ∧
    (∀ bytes ep, x.valid = false → exec (.hostWrite a off bytes ep) s = .next s) ∧
    (∀ p w y, 2 ^ 64 ≤ y → hostXlate p y w s = (none, s)) ∧
    (∀ n pa ty v, s.host.resetting = false → x.valid = true → off + n ≤ 2 ^ 30 → 1 ≤ n → va % 4096 + n ≤ 4096 →
      hostXlate x.part va .read s = (some (pa, ty), v) → homeDie pa = 0 → v.accs = [] →
      pa % 64 + n ≤ 64 → ∃ t bad, exec (.hostRead a off n) s = .next t ∧ t.mem = v.mem ∧
        t.host.replies = s.host.replies ++ [some (memRead v.mem pa n, bad)]) ∧
    (∀ n, s.host.resetting = true ∨ x.valid = false ∨ 2 ^ 30 < off + n →
      exec (.hostRead a off n) s = .next { s with host.replies := s.host.replies ++ [none] })

/-- Commands on partitions and on the package (R269, R284, R396, R403, R414, R445, R452, R457, R459, R460, R464):
each has its effect and completes.
The model's readings on which clauses rest: logs 66, 72, 77, 78, 79, 87. -/
def Obligations.PartitionCommands : Prop :=
  ∀ (s : State) (c : Cmd),
    let p := c.part.toNat
    let x := s.part p
    (Takes 0x0001 s → Cmd.zeroFrom c 1 = true →
      Answers (.identify c) 0x0001 c s 0 s.fw.version (hostStore c.a0.toNat (identityRecord s) s)) ∧
    (Takes 0x0002 s → Cmd.zeroFrom c 6 = true → c.a5.getLsbD 0 = false ∨ x.present = true →
      Answers (.attest c) 0x0002 c s 0 8896
        (hostStore c.a0.toNat (report p (c.a5.getLsbD 0) [c.a1, c.a2, c.a3, c.a4] s) s)) ∧
    (Takes 0x0003 s → Cmd.zeroFrom c 2 = true → hostBad s c.a0.toNat c.a1.toNat = false →
      let bs := hostRead s c.a0.toNat c.a1.toNat
      let good := imageVerifies s.fw.minimum bs = true
      Answers (.fwStage c) 0x0003 c s (if good then 0 else 5) (if good then (imgSecver bs).setWidth 64 else 0)
        (if good then (if s.fw.running = some true then { s with fw.slotA := bs, fw.staged := some false }
          else { s with fw.slotB := bs, fw.staged := some true }) else s)) ∧
    (Takes 0x0010 s → Cmd.zeroFrom c 6 = true → p ≠ 0 → c.a4.toNat ≤ 7 → x.present = false →
      Answers (.partCreate c) 0x0010 c s 0 0 (s.updPart p fun _ =>
        { present := true, pool := c.a0, segments := c.a1.toNat, overflow := c.a2, overflowLen := c.a3.toNat
          restarts := c.a4.setWidth 3, depotBytes := c.a5.toNat })) ∧
    (Takes 0x0048 s → Cmd.zeroFrom c 1 = true → 600 ≤ c.a0.toNat → c.a0.toNat ≤ 2400 →
      Answers (.powerCap c) 0x0048 c s 0 0 { s with fw.cap := c.a0.setWidth 12 }) ∧
    (Takes 0x001C s → Cmd.zeroFrom c 3 = true → c.a0.toNat ≤ 63 → c.a1.toNat % 4096 = 0 →
      (c.a2.getLsbD 0 = false → Answers (.aperture c) 0x001C c s 0 0 { s with
        host.apertures := s.host.apertures.set {} c.a0.toNat {} }) ∧
      (c.a2.getLsbD 0 = true → p ≠ 0 → x.present = true → Answers (.aperture c) 0x001C c s 0 0 { s with
        host.apertures := s.host.apertures.set {} c.a0.toNat { valid := true, part := p, base := c.a1 } })) ∧
    (p ≠ 0 → x.present = true →
      (Takes 0x0011 s → Cmd.zeroFrom c 0 = true → liveTask s p = true → Answers (.partDestroy c) 0x0011 c s 4 0 s) ∧
      (Takes 0x0011 s → Cmd.zeroFrom c 0 = true → liveTask s p = false → s.queues = [] → s.chans = [] →
        (∀ d < 4, (s.die d).faults = [] ∧ (s.die d).xfails = []) → s.host.apertures = [] → Answers (.partDestroy c) 0x0011 c s 0 0
          ((invalidate p (fun _ => true) s).updPart p fun _ => {})) ∧
      (Takes 0x0012 s → Cmd.zeroFrom c 1 = true →
        Answers (.partXlat c) 0x0012 c s 0 0 ((dropWalks p s).updPart p fun y => { y with
          ftimeout := c.a0.extractLsb' 48 16, root := c.a0.extractLsb' 12 27, fpolicy := c.a0.extractLsb' 2 2
          enable := c.a0.getLsbD 0 })) ∧
      (Takes 0x0013 s → Cmd.zeroFrom c 3 = true → 1 ≤ c.a0.toNat → c.a0.toNat ≤ 255 → c.a2.toNat % 4096 = 0 →
        partQuiet s p = true → Answers (.partWindow c) 0x0013 c s 0 0 (s.updPart p fun y => { y with
          windows := y.windows.set {} c.a0.toNat (windowEntry c.a1 c.a2) })) ∧
      (Takes 0x0014 s → Cmd.zeroFrom c 2 = true → c.a0.toNat % 4096 = 0 → partQuiet s p = true →
        Answers (.partInval c) 0x0014 c s 0 0 (invalidate p (fun y => y.meets c.a0.toNat c.a1.toNat) s)) ∧
      (Takes 0x0015 s → Cmd.zeroFrom c 1 = true → c.die.toNat < 4 → unsaved s c.die.toNat p = [] →
        partQuiet s p = true → Answers (.partSwapOut c) 0x0015 c s 0 0 (invalidate p (fun _ => true)
          (s.updPart p fun y => { y with swapped := y.swapped ||| (1 : BitVec 4) <<< c.die.toNat }))) ∧
      (Takes 0x0015 s → Cmd.zeroFrom c 2 = true → c.die.toNat < 4 → x.swapped.getLsbD c.die.toNat = true →
        readySteps s c.die.toNat p = [] → restoring s c.die.toNat p = false → Answers (.partSwapIn c) 0x0015 c s 0 0
          (s.updPart p fun y => { y with swapped := y.swapped &&& ~~~((1 : BitVec 4) <<< c.die.toNat) })) ∧
      (Takes 0x0016 s → Cmd.zeroFrom c 2 = true →
        let i := (x.ibud.toNat : Int) + c.a0.toInt
        let t := (x.tbud.toNat : Int) + c.a1.toInt
        (0 ≤ i → i < 2 ^ 64 → 0 ≤ t → t < 2 ^ 64 → Answers (.partReserve c) 0x0016 c s 0 (BitVec.ofInt 64 i)
          (s.updPart p fun y => { y with ibud := BitVec.ofInt 64 i, tbud := BitVec.ofInt 64 t })) ∧
        (i < 0 ∨ t < 0 → Answers (.partReserve c) 0x0016 c s 2 0 s)) ∧
      (Takes 0x0017 s → Cmd.zeroFrom c 2 = true → 1 ≤ c.a0.toNat → c.a0.toNat ≤ 0x14 → c.a1.toNat ≤ 3 →
        Answers (.trapPolicy c) 0x0017 c s 0 0 (s.updPart p fun y =>
          { y with policies := y.policies.set 0 c.a0.toNat (c.a1.setWidth 2) })))

/-- Commands on trapped seats and faults (R269 to R272, R314, R411, R452): a held step is retried at its recorded
position, retried with syllables masked, or ended; a share is released; a fault ends; TRAP_READ writes the context.
The model's readings on which clauses rest: logs 32, 33, 68, 77, 123. -/
def Obligations.TrapCommands : Prop :=
  ∀ (s : State) (c : Cmd),
    (∀ k, handleSeat c.a0 = some k → partMatches s c k = true →
    let x := s.ctx k
    let goes : Instr → BitVec 8 → Prop := fun i mask => ∃ t, exec i s = .next t ∧ (t.seat k).phase = .running ∧
      (t.ctx k).maskOnce = mask ∧ (t.ctx k).pos = x.pos ∧ (t.ctx k).regs = x.regs ∧ Claims.BudgetsStand k s t ∧
      t.mem = s.mem ∧ t.host.cpl.tail = s.host.cpl.tail + 1
    (Takes 0x0018 s → (s.seat k).phase = .trapHeld → Cmd.zeroFrom c 4 = true → c.a3 = 0 → x.fuse.isFused = false →
      (s.core (coreOf k)).retired = false → (s.part (s.partOf k)).swapped.getLsbD (dieOf k) = false →
      (trapCode x ∈ [0x0B, 0x0E, 0x0F] → goes (.trapDisposeRetry c) 0) ∧
      (trapCode x = 0x0F → goes (.trapDisposeMaskedRetry c) (c.a2.setWidth 8))) ∧
    (Takes 0x0018 s → (s.seat k).phase = .trapHeld → Cmd.zeroFrom c 4 = true → c.a3 = 0 → Lone k s → TaskGoesOn k s →
      (∃ t, exec (.trapDisposeEnd c) s = .next t ∧ t.seat k = {} ∧ t.mem = s.mem ∧
        (t.task (s.taskKey k)).status = 1 ∧ (t.task (s.taskKey k)).code = BitVec.ofNat 8 (trapCode x) ∧
        (t.task (s.taskKey k)).bundle = x.trap.bundle) ∧
      (mayRestart k s = true → ∃ t, exec (.trapDisposeRestart c) s = .next t ∧ t.seat k = {} ∧ t.mem = s.mem ∧
        (t.step1 (s.stepKey k)).fresh = true ∧ (t.step1 (s.stepKey k)).ready ≠ none ∧
        (t.step1 (s.stepKey k)).restarts = (s.step1 (s.stepKey k)).restarts + 1)) ∧
    (Takes 0x0019 s → (s.seat k).phase ≠ .idle → Cmd.zeroFrom c 2 = true → Answers (.trapRead c) 0x0019 c s 0 0
      (hostStore c.a1.toNat (headBytes x (s.seat k).share) s)) ∧
    (Takes 0x001A s → Cmd.zeroFrom c 1 = true → ((s.seat k).phase = .shareHeld →
      Answers (.shareRelease c) 0x001A c s 0 0 (freeSeat k s)) ∧
      ((s.seat k).phase ≠ .shareHeld → Answers (.shareRelease c) 0x001A c s 4 0 s))) ∧
    (Takes 0x001B s → c.die.toNat < 4 → c.a0.toNat < 2 ^ 32 →
      (Cmd.zeroFrom c 2 = true → Answers (.faultResolveRetry c) 0x001B c s 0 0
        (faultEnd c.die.toNat (c.a0.setWidth 32) true s)) ∧
      (Cmd.zeroFrom c 2 = true → Answers (.faultResolveFail c) 0x001B c s 0 0
        (faultEnd c.die.toNat (c.a0.setWidth 32) false s)))

/-- Commands on queues, slots, channels, code and cores (R289, R317, R322 to R324, R346, R348, R452, R461, R465).
The model's readings on which clauses rest: logs 18, 68, 77, 79, 87, 106. -/
def Obligations.DispatchCommands : Prop :=
  ∀ (s : State) (c : Cmd), c.die.toNat < 4 →
    let d := c.die.toNat
    let p := c.part.toNat
    let q := d * 65536 + c.a0.toNat
    let ch := d * 4096 + c.a0.toNat
    let own := p ≠ 0 ∧ (s.part p).present = true
    (Takes 0x0020 s → Cmd.zeroFrom c 5 = true → own → c.a0.toNat ≤ 65535 → 1 ≤ c.a3.toNat → c.a3.toNat ≤ 16 →
      c.a2.toNat % 4096 = 0 → (s.queue q).present = false →
      let x : Queue := { present := true, ring := c.a2, record := c.a1, sizelog := c.a3.toNat, device := c.a4.getLsbD 0
                         part := p, gen := (s.queue q).gen }
      (∀ v, fwReaches d p c.a1.toNat 64 s = (true, v) → Answers (.queueCreate c) 0x0020 c s 0 0
        ((v.fwWrite d p c.a1.toNat x.bytes).2.updQueue q fun _ => x)) ∧
      (∀ v, fwReaches d p c.a1.toNat 64 s = (false, v) → Answers (.queueCreate c) 0x0020 c s 4 0 v)) ∧
    (c.a0.toNat ≤ 65535 → (s.queue q).present = true → (s.queue q).part = p →
      (Takes 0x0021 s → Cmd.zeroFrom c 1 = true → Answers (.queueDestroy c) 0x0021 c s 0 0 (destroyQueue q s)) ∧
      (Takes 0x0022 s → Cmd.zeroFrom c 2 = true → c.a1.toNat ≤ 63 →
        Answers (.queueAssign c) 0x0022 c s 0 0 (assignQueue q c.a1.toNat s))) ∧
    (∀ t, Takes 0x0023 s → Cmd.zeroFrom c 2 = true → c.a0.toNat ≤ 65535 → c.a1.toNat < 2 ^ 32 →
      taskOf s q (c.a1.setWidth 32) = some t → (s.task t).part = p →
      (s.task t).present = true → (∀ e ∈ s.steps, ¬(e.2.present = true ∧ e.2.task = t)) →
      (s.task t).next = (s.task t).steps →
      Answers (.taskEnd c) 0x0023 c s 0 0 { checkTask t (s.updTask t fun x =>
        { x with status := 5, code := 0, bundle := 0 }) with fw.ending := none }) ∧
    (Takes 0x0028 s → Cmd.zeroFrom c 2 = true → c.a0.toNat ≤ 63 → Answers (.slotSet c) 0x0028 c s 0 0
      (s.updDie d fun x =>
        { x with slots := x.slots.set {} c.a0.toNat (writeSlotcfg c.a1 (x.slots.get {} c.a0.toNat)) })) ∧
    (Takes 0x0029 s → Cmd.zeroFrom c 2 = true → c.a0.toNat ≤ 255 → Answers (.rowSet c) 0x0029 c s 0 0
      (s.updDie d fun x => { x with rows := x.rows.set {} c.a0.toNat (rowOf c.a1) })) ∧
    (Takes 0x0030 s → Cmd.zeroFrom c 3 = true → own → c.a0.toNat ≤ 4095 → (s.chan ch).state = 0 →
      1 ≤ (c.a1.extractLsb' 0 8).toNat → (c.a1.extractLsb' 0 8).toNat ≤ 128 →
      (c.a1.extractLsb' 16 12).toNat ≤ (c.a1.extractLsb' 32 12).toNat → c.a2.toNat % 128 = 0 →
      Answers (.chanCreate c) 0x0030 c s 0 0 (s.updChan ch fun _ =>
        { state := 1, armed := true, cls := c.a1.extractLsb' 8 3, part := p
          quota := (c.a1.extractLsb' 16 12).toNat
          qmax := (c.a1.extractLsb' 32 12).toNat
          width := (c.a1.extractLsb' 0 8).toNat
          tqueue := (c.a1.extractLsb' 48 16).toNat
          trig := c.a2 })) ∧
    (c.a0.toNat ≤ 4095 → (s.chan ch).state ≠ 0 → (s.chan ch).part = p →
      (Takes 0x0031 s → Cmd.zeroFrom c 1 = true → (s.chan ch).rbound = false → (s.chan ch).wbound = false →
        Answers (.chanDestroy c) 0x0031 c s 0 0 (destroyChan ch s)) ∧
      (Takes 0x0031 s → Cmd.zeroFrom c 1 = true → (s.chan ch).rbound = true ∨ (s.chan ch).wbound = true →
        Answers (.chanDestroy c) 0x0031 c s 4 0 s) ∧
      (Takes 0x0032 s → Cmd.zeroFrom c 3 = true → c.a1.getLsbD 0 = false → c.a2.toNat ≤ (s.chan ch).qmax → c.a2.toNat < 0xFFFF →
        Answers (.chanSet c) 0x0032 c s 0 0 (feedProxy ch (s.updChan ch fun x => { x with quota := c.a2.toNat }))) ∧
      (Takes 0x0032 s → Cmd.zeroFrom c 3 = true → c.a1.getLsbD 0 = true → c.a2 = 0xFFFF →
        Answers (.chanSet c) 0x0032 c s 0 0 (faultChan ch s))) ∧
    (Takes 0x0038 s → Cmd.zeroFrom c 3 = true → own →
      let bs := hostRead s c.a0.toNat c.a1.toNat
      let xs := loadedSections bs c.a2.toNat
      (hostBad s c.a0.toNat c.a1.toNat = true ∨ objectOk bs = false → Answers (.codeLoad c) 0x0038 c s 5 0 s) ∧
      (∀ v, hostBad s c.a0.toNat c.a1.toNat = false → objectOk bs = true → xs ≠ [] →
        (xs.map (·.1)).headD c.a2.toNat + (joinSections xs).length ≤ 2 ^ 64 →
        s.fwWrite 0 p ((xs.map (·.1)).headD c.a2.toNat) (joinSections xs) = (true, v) →
        Answers (.codeLoad c) 0x0038 c s 0
          (BitVec.ofNat 64 ((xs.map (·.1)).headD c.a2.toNat + (joinSections xs).length - c.a2.toNat))
          (v.updPart p fun x => { x with pmeas := extendMeasure x.pmeas bs }))) ∧
    (Takes 0x0040 s → Cmd.zeroFrom c 1 = true → c.a0.toNat ≤ 63 →
      let k := d * 64 + c.a0.toNat
      ((s.core k).retired = true → Answers (.coreRetire c) 0x0040 c s 4 0 s) ∧
      ((s.core k).retired = false → coreEmpty s k = true → s.Wf → (∀ e ∈ s.seats, e.2.phase ≠ .idle) →
        Answers (.coreRetire c) 0x0040 c s 0 (BitVec.ofNat 64 (s.die d).sparesLeft)
          (coreEvent k (s.updCore k fun x => { x with retired := true })))) ∧
    (Takes 0x0050 s → Cmd.zeroFrom c 1 = true → exec (.reset c) s =
      .next (startReset (.warm (c.a0.getLsbD 0)) (completeCmd 0x0050 c (some (0, 0), s)))) ∧
    (∀ op, cmdOf op.toNat = none → op ≠ 0x0050 → Takes op s → Answers (.unknownOpcode op c) op c s 1 0 s)

/-! Resets, boot, links, power, ports and messages. -/

/-- Resets and boot (R63, R455, R457, R458, R465, R474): a reset ends all work and keeps memory, flash, fuses and BOOTCOUNT;
a warm one keeps PKGID, CERR, SLOTMAP and EVOVER; power loss is a cold reset; boot clears memory unless it is kept, runs a
slot that verifies and locks every SLOTMAP that is not locked yet, and stops with a BOOTERR code where none does or the
fuses fail. The value that it locks is the model's choice (log 75).
The model's readings on which clauses rest: logs 72, 73, 75, 76. -/
def Obligations.ResetsAndBoot : Prop :=
  ∀ (s : State),
    let ends : State → Prop := fun t => t.seats = [] ∧ t.steps = [] ∧ t.tasks = [] ∧ t.queues = [] ∧ t.chans = [] ∧
      t.accs = [] ∧ t.near = [] ∧ t.events = [] ∧ t.parts = [] ∧ t.fab = {} ∧ t.host.resetting = true ∧
      t.host.ready = false ∧ t.host.cmd = {} ∧ t.host.cpl = {} ∧ t.host.ev = {} ∧ t.host.apertures = [] ∧
      t.host.fatal = false ∧ t.mem = s.mem ∧ t.host.mem = s.host.mem ∧ t.fw.minimum = s.fw.minimum ∧
      t.fw.bootcount = s.fw.bootcount
    let c := s.host.cmd
    let staging := s.host.ready && c.used != 0 && leNat (hostRead s (c.slot c.head) 2) == 3
    let n := (s.fw.bootcount + 1).toNat
    (∃ t, exec .coldReset s = .next t ∧ ends t ∧ t.pkgid = Config.pkgStraps ∧ t.stackTab = [] ∧ t.host.evover = 0 ∧
      t.fw.slotA = s.fw.slotA ∧ t.fw.slotB = s.fw.slotB) ∧
    (∀ keep, ∃ t, exec (.warmReset keep) s = .next t ∧ ends t ∧ t.pkgid = s.pkgid ∧ t.host.evover = s.host.evover ∧
      t.fw.slotA = s.fw.slotA ∧ t.fw.slotB = s.fw.slotB ∧ t.fw.reset = .warm keep ∧
      (Sparse.wf ({} : Core) s.cores = true → ∀ i, (t.core i).cerr = (s.core i).cerr ∧
        (t.core i).slotmap = (s.core i).slotmap ∧ (t.core i).line = [] ∧ (t.core i).tcache = [])) ∧
    (staging = false → exec .powerLoss s = exec .coldReset s) ∧
    (staging = true → ∃ t, exec .powerLoss s = .next t ∧ ends t ∧ t.pkgid = Config.pkgStraps ∧
      (if s.fw.running = some true then t.fw.slotB = s.fw.slotB else t.fw.slotA = s.fw.slotA)) ∧
    (s.host.resetting = false ∨ s.host.booterr ≠ 0 → exec .boot s = .next s) ∧
    (s.host.resetting = true → s.host.booterr = 0 → ∃ t, exec .boot s = .next t ∧
      t.fw.bootcount = s.fw.bootcount + 1 ∧
      (Config.fuseFault n = true → t = { s with fw.bootcount := s.fw.bootcount + 1, host.booterr := 3 }) ∧
      (Config.fuseFault n = false → Config.lostDies n = 0 →
        (bootSlot s.fw = none → t.host.booterr = 1 ∧ t.host.resetting = true) ∧
        (∀ slot, bootSlot s.fw = some slot → t.host.ready = true ∧
          t.host.secure = true ∧ t.host.resetting = false ∧ t.host.dieMask = 0xF ∧
          t.host.stackMask = ~~~(Config.lostStacks n) ∧ t.fw.running = some slot ∧ t.linksDown = [] ∧
          t.fw.minimum = imgSecver (if slot then s.fw.slotB else s.fw.slotA) ∧
          t.fw.meas1 = Config.shake256 (if slot then s.fw.slotB else s.fw.slotA) ∧
          (∀ i < 256, (t.core i).slotmap =
            if (s.core i).slotmap.getLsbD 8 then (s.core i).slotmap else 0x144) ∧
          (s.fw.reset = .warm true → t.mem = s.mem ∧ t.poisonMem = s.poisonMem) ∧
          (s.fw.reset ≠ .warm true → t.mem = [] ∧ t.poisonMem = []))))

/-- Links and power (R443, R462, R463, R464): a second link that goes down sets FATAL; firmware gates the dies that it names
while the package is above its cap or hot, and a shutdown takes their work; a quiet die enters the state that LTR allows
and loses what that state does not keep; a wake event makes it active.
The model's readings on which clauses rest: logs 11, 27, 76. -/
def Obligations.LinksAndPower : Prop :=
  ∀ (s : State),
    (∀ n, 4 ≤ n ∨ n ∈ s.linksDown ∨ s.host.resetting = true → exec (.linkDown n) s = .next s) ∧
    (∀ n < 4, s.host.resetting = false → s.linksDown = [] → exec (.linkDown n) s =
      .next (({ s with linksDown := [n] } : State).post 9 0 0 (leBytes 4 n))) ∧
    (∀ n < 4, ∀ m, s.host.resetting = false → s.linksDown = [m] → m ≠ n → s.host.fatal = false → ∃ t, exec (.linkDown n) s = .next t ∧
      t.host.fatal = true ∧ t.seats = s.seats ∧ t.mem = s.mem ∧ t.host.msix.get 0 2 = s.host.msix.get 0 2 + 1) ∧
    (∀ watts hot dies, exec (.powerSample watts hot false dies) s = .next { s with
      fw.gated := if s.fw.cap.toNat < watts ∨ hot = true then (List.range 4).filter fun d => dies.getLsbD d else [] }) ∧
    (∀ watts hot dies, ∃ t, exec (.powerSample watts hot true dies) s = .next t ∧ t.host.fatal = true ∧
      t.host.msix.get 0 2 = s.host.msix.get 0 2 + 1 ∧ t.host.dieMask = 0 ∧ t.seats = [] ∧ t.mem = s.mem) ∧
    (∀ d < 4, Sparse.wf ({} : Die) s.dies = true → s.host.resetting = false →
      (quietDie s d = false → deepest s.host.ltr < 4 → exec (.powerStateEntry d) s = .next s) ∧
      (∀ n, 1 ≤ n → n ≤ 3 → deepest s.host.ltr = n → (s.die d).pstate < n → quietDie s d = true →
        ∃ t, exec (.powerStateEntry d) s = .next t ∧ (t.die d).pstate = n ∧ t.mem = s.mem ∧ t.seats = s.seats ∧
          t.host = s.host ∧ (n = 1 → t.cores = s.cores) ∧
          (2 ≤ n → ∀ e ∈ t.cores, e.1 / 64 = d → e.2.line = [] ∧ e.2.tcache = []) ∧
          (n = 3 → (t.die d).pcache = [] ∧ (t.die d).tcache = [] ∧ (t.die d).wcache = [])) ∧
      (∃ t, exec (.wakeEvent d) s = .next t ∧ (t.die d).pstate = 0 ∧ t.host.selfRefresh = false ∧ t.mem = s.mem ∧
        t.seats = s.seats ∧ t.cores = s.cores))

/-- Wayline ports (R470 to R475): a flit that is not the next, not well formed, or of a class for which the peer holds no
credit, is answered with NACK; one in order is taken, and its buffer is free once its message is whole; a round of replay
without progress is counted, and the sixteenth takes the port down; three failed attempts leave it down; a trained port is up, except one to its own package; a port that goes down starts training again.
The model's readings on which clauses rest: logs 11, 21, 22, 58, 73. -/
def Obligations.PortSteps : Prop :=
  ∀ (s : State) (n : Nat), Sparse.wf ({} : Port) s.fab.ports = true →
    let p := s.port n
    (∀ f, p.st ≠ .up → exec (.flitReceive n f) s = .next s) ∧
    (∀ f, p.st = .up → flitOk f = false → exec (.flitReceive n f) s =
      .next (s.updPort n fun p => { p with nack := true })) ∧
    (∀ f, p.st = .up → flitOk f = true → f.ftype = 3 → ∀ cause,
      exec (.flitReceive n f) s = exec (.portDown n cause) s) ∧
    (∀ f, p.st = .up → flitOk f = true → f.ftype = 0 → f.nack = false → p.replay = [] → p.queue = [] → p.going = [] →
      p.rx = [] →
      let m := fieldAt (padTo 240 f.payload) 0 1 / 8 % 8
      (f.fseq ≠ p.aseq + 1 ∨ p.given.getD m 0 = 0 → ∃ t, exec (.flitReceive n f) s = .next t ∧ (t.port n).nack = true ∧
        (t.port n).aseq = p.aseq ∧ (t.port n).rx = [] ∧ (t.port n).given = p.given ∧ t.agenda = s.agenda) ∧
      (f.fseq = p.aseq + 1 → p.given.getD m 0 ≠ 0 → wireReserved (padTo 240 f.payload) = false →
        32 + fieldAt (padTo 240 f.payload) 2 2 ≤ 240 → (parseWire (n / 4) (padTo 240 f.payload)).lengthOk s = true →
        ∃ t, exec (.flitReceive n f) s = .next t ∧ (t.port n).aseq = f.fseq ∧ (t.port n).rx = [] ∧ (t.port n).given = p.given ∧
          t.agenda = s.agenda ++ [.message (parseWire (n / 4) (padTo 240 f.payload))] ∧ t.mem = s.mem)) ∧
    (p.st ≠ .up ∨ p.replay = [] → exec (.replayTimeout n) s = .next s) ∧
    (p.st = .up → p.replay ≠ [] → p.rounds < 15 → exec (.replayTimeout n) s =
      .next (s.updPort n fun p => { p with rounds := p.rounds + 1 })) ∧
    (p.st = .up → p.replay ≠ [] → p.rounds = 15 → ∀ cause, exec (.replayTimeout n) s =
      exec (.portDown n cause) (s.updPort n fun p => { p with rounds := 16 })) ∧
    (∀ cause, p.st ≠ .up → exec (.portDown n cause) s = .next s) ∧
    (∀ cause, p.st = .up → p.replay = [] → p.queue = [] → p.going = [] → exec (.portDown n cause) s =
      .next (tellLinks (fabricEvent (n / 4) 1 n (p.peer.getD 0) 0
        (s.updPort n fun p => { st := .training 0, errors := p.errors, peer := p.peer })))) ∧
    (∀ ok peer epoch, 16 ≤ n ∨ p.st = .up → exec (.portTraining n ok peer epoch) s = .next s) ∧
    (∀ peer epoch a, n < 16 → p.st = .training a → exec (.portTraining n false peer epoch) s =
      .next (s.updPort n fun p => { p with st := if 2 ≤ a then .failed else .training (a + 1) })) ∧
    (∀ peer epoch, n < 16 → p.st ≠ .up → peer = s.pkgid → exec (.portTraining n true peer epoch) s =
      .next (fabricEvent (n / 4) 6 n peer 0 (s.updPort n fun p => { p with st := .failed }))) ∧
    (∀ peer epoch, n < 16 → p.st ≠ .up → peer ≠ s.pkgid → s.fab.peers = [] → s.fab.noPath = [] →
      ∃ t, exec (.portTraining n true peer epoch) s = .next t ∧ (t.port n).st = .up ∧ (t.port n).peer = some peer ∧
        (t.port n).given = (List.range 8).map (fun c => Config.flitBuffers c + (if c = 0 then 64 else 18)) ∧
        (t.peer peer).epoch = some epoch ∧ t.mem = s.mem ∧ t.seats = s.seats)

/-- Flows and lost packages (R476, R478, R491, R492): a message travels on, is discarded, or acts once it is taken; one of
a wrong number does nothing; a taken one of a flow is acknowledged and the next number follows; a flow sends again what
is not acknowledged; firmware ends what depends on a lost package.
The model's readings on which clauses rest: logs 16, 17, 18, 20. -/
def Obligations.FlowsAndLoss : Prop :=
  ∀ (s : State),
    (∀ w : Wire,
      let foreign := endPkg w.src ≠ s.pkgid
      (endPkg w.dst ≠ s.pkgid → messageTurn w s = launchWire w s) ∧
      (endPkg w.dst = s.pkgid → w.lengthOk s = false → messageTurn w s = s) ∧
      (Arrives w s → messageTurn w s = actOf w.cls w.op w (taken w s)) ∧
      (endPkg w.dst = s.pkgid → w.lengthOk s = true → (s.die w.actsOn).pstate = 0 →
        s.host.selfRefresh = false → foreign → (s.peer (endPkg w.src)).epoch = some w.epoch → w.ordered = true →
        w.flowseq ≠ nextTaken s w → messageTurn w s = s) ∧
      (w.ordered = false → taken w s = s) ∧
      (w.ordered = true → foreign → w.flowseq = nextTaken s w → ∃ u, taken w s = sendAck w w.flowseq (turnAway w u) ∧
        nextTaken u w = w.flowseq + 1 ∧ u.mem = s.mem ∧ u.seats = s.seats)) ∧
    (∀ n, (s.fab.flows[n]? = none ∨ ∃ f, s.fab.flows[n]? = some f ∧ f.out = false) →
      exec (.flowResend n) s = .next s) ∧
    (∀ n f, s.fab.flows[n]? = some f → f.out = true → exec (.flowResend n) s =
      .next (f.held.foldl (fun s w => launchWire w s) s)) ∧
    (∀ pkg, pkg = s.pkgid ∨ (s.peer pkg).lost = true → exec (.packageLost pkg) s = .next s) ∧
    (∀ pkg, pkg ≠ s.pkgid → (s.peer pkg).lost = false → ∃ t, exec (.packageLost pkg) s = .next t ∧
      (t.peer pkg).lost = true ∧ (∀ f ∈ t.fab.flows, f.peer ≠ pkg) ∧ (∀ q ∈ t.fab.reqs, q.pkg ≠ pkg))

/-- DATA, WORK, EVENT and BULK messages (R480 to R482, R484, R485, R487 to R489, R491): a message of the bound writer goes to
its channel, another is refused or told of the fault; a waybill is written, waits or is refused; a loss ends what depends
on the sender; an access is served, waits for its fault, or is refused; a response ends the access that its tag names.
The model's readings on which clauses rest: logs 17, 18, 19. -/
def Obligations.DataMessages : Prop :=
  ∀ (s : State) (m : Msg),
    (let w := Wire.ofMsg 0 0 m
     let u := taken w s
     let ch := regKey w.target
     let ring := fieldAt w.payload 8 1 = 0
     Arrives w s →
      (∀ v, dataOk v w = false →
        turnAway w v = if chanAdmits v w then failData w v else noteRefusal w (failData w v)) ∧
      (dataOk u w = false → exec (.msg m) s = .next u) ∧
      (chanAdmits u w = true → isWriter u w = true → (u.chan ch).state = 1 → (u.chan ch).rbound = true → ring →
        BitVec.ofNat 32 (fieldAt w.payload 0x0C 4) = (u.chan ch).binds →
        exec (.msg m) s = .next (feedProxy ch (u.updChan ch fun x => { x with
          sent := x.sent + 1
          flight := x.flight ++ [⟨fieldAt w.payload 0 8, x.binds, unitsOf x.width (w.payload.drop 0x20),
            BitVec.ofNat 128 (fieldAt w.payload 0x10 16), true, none, false⟩]
          permOut := x.permOut - 1 }))) ∧
      (chanAdmits u w = true → isWriter u w = true → (u.chan ch).state = 1 → (u.chan ch).rbound = true → ¬ring →
        exec (.msg m) s = .next (feedProxy ch (u.updChan ch fun x => { x with
          sent := x.sent + 1
          flight := x.flight ++ [⟨fieldAt w.payload 0 8, BitVec.ofNat 32 (fieldAt w.payload 0x0C 4),
            unitsOf x.width (w.payload.drop 0x20), BitVec.ofNat 128 (fieldAt w.payload 0x10 16), false, none, false⟩]
          spilling := true
          roomOut := x.roomOut - 1 }))) ∧
      (chanAdmits u w = true → isWriter u w = true → (u.chan ch).state = 1 → ring →
        (u.chan ch).rbound = false ∨ BitVec.ofNat 32 (fieldAt w.payload 0x0C 4) ≠ (u.chan ch).binds →
        let now := BitVec.ofNat 32 (fieldAt w.payload 0x0C 4) == (u.chan ch).binds
        let v := u.updChan ch fun x => { x with
          sent := x.sent + 1
          flight := x.flight ++ [⟨fieldAt w.payload 0 8, BitVec.ofNat 32 (fieldAt w.payload 0x0C 4),
            unitsOf x.width (w.payload.drop 0x20), BitVec.ofNat 128 (fieldAt w.payload 0x10 16), false, none, false⟩]
          spilling := true, heldback := x.heldback + bit now
          permOut := if now then x.permOut - 1 else x.permOut }
        exec (.msg m) s = .next (feedProxy ch (if (u.chan ch).rbound then v else armTrigger ch v)))) ∧
    (let w := Wire.ofMsg 0 1 m
     let u := taken w s
     let ch := regKey w.target
     Arrives w s →
      (dataOk u w = false → exec (.close m) s = .next u) ∧
      (chanAdmits u w = true → isWriter u w = true → exec (.close m) s = .next (feedPool (u.chan ch).part
        (closeWriter ch (u.updChan ch fun x => { x with wpermits := x.wpermits + x.permOut, permOut := 0, roomOut := 0 }))))) ∧
    (let w := Wire.ofMsg 1 0 m
     let u := taken w s
     let q := w.target.toNat / 2 ^ 16 % 4 * 65536 + w.target.toNat % 65536
     let x := u.queue q
     let bs := patchBytes w.payload 0x60 (leBytes 8 0)
     let opens := x.present = true ∧ x.device = true ∧ admits u x.part (endPkg w.src) = true
     Arrives w s →
      ((∃ y ∈ u.fab.work, y.target = w.target) →
        exec (.waybill m) s = .next { u with fab.work := u.fab.work ++ [w] }) ∧
      ((∀ y ∈ u.fab.work, y.target ≠ w.target) →
        (¬opens → exec (.waybill m) s = .next (noteRefusal w (workReply w 1 0 u))) ∧
        (opens → x.reserved ≠ 0 ∨ x.full = true →
          exec (.waybill m) s = .next { u with fab.work := u.fab.work ++ [w] }) ∧
        (opens → x.reserved = 0 → x.full = false →
          (drawReserve x.part (entryBudget bs).1 (entryBudget bs).2 u = none →
            exec (.waybill m) s = .next (noteRefusal w (workReply w 1 0 u))) ∧
          (∀ v k t, drawReserve x.part (entryBudget bs).1 (entryBudget bs).2 u = some v →
            putEntry q bs (.reserve (entryBudget bs).1 (entryBudget bs).2 none) v = (.ok k, t) →
            exec (.waybill m) s = .next (workReply w 0 k t))))) ∧
    (let w := Wire.ofMsg 2 0 m
     Arrives w s →
      (fieldAt w.payload 0 1 = 1 ∨ fieldAt w.payload 0 1 = 2 →
        exec (.loss m) s = exec (.packageLost (endPkg w.src)) s) ∧
      (fieldAt w.payload 0 1 ≠ 1 → fieldAt w.payload 0 1 ≠ 2 → exec (.loss m) s = .next s)) ∧
    (Arrives (Wire.ofMsg 2 1 m) s → exec (.refused m) s = .next s) ∧
    (Arrives (Wire.ofMsg 2 2 m) s → exec (.xfault m) s = .next s) ∧
    (let w := Wire.ofMsg 3 0 m
     let d := w.die
     let n := fieldAt w.payload 0 4
     let va := w.target.toNat % 2 ^ 48
     Arrives w s →
      (bulkPart s w n false = none → exec (.read m) s = .next (refuseBulk w 1 s)) ∧
      (∀ p pa x v, bulkPart s w n false = some p →
        agentXlate d p (BitVec.ofNat 64 va) w.request .read s = (.ok pa x, v) →
        (let got := v.readMarked d pa n (viaType x) w.tcls
         exec (.read m) s = .next (answer w 3 1 w.tcls (leBytes 8 0 ++ leBytes 8 (packMarks got.2.1) ++ got.1) got.2.2)) ∧
        (v.accs = [] → homeDie pa = d → n ≤ 64 - pa % 64 → ∃ t, exec (.read m) s = .next (answer w 3 1 w.tcls
          (leBytes 8 0 ++ leBytes 8 (bit (t.granBad (pa / 64))) ++ memRead v.mem pa n) t) ∧ t.mem = v.mem ∧
          t.seats = v.seats)) ∧
      (∀ p v, bulkPart s w n false = some p →
        (agentXlate d p (BitVec.ofNat 64 va) w.request .read s = (.wait, v) →
          exec (.read m) s = .next (waitBulk w p va v)) ∧
        (agentXlate d p (BitVec.ofNat 64 va) w.request .read s = (.fail, v) →
          exec (.read m) s = .next (refuseBulk w 2 v)))) ∧
    (let w := Wire.ofMsg 3 1 m
     Arrives w s →
      (takeAccess w false s = none → exec (.readresp m) s = .next s) ∧
      (∀ a v, takeAccess w false s = some (a, v) →
        (fieldAt w.payload 0 1 = 0 → exec (.readresp m) s =
          .next (endAccess a ((w.payload.drop 16).take a.size) (decide (fieldAt w.payload 8 8 ≠ 0)) v)) ∧
        (fieldAt w.payload 0 1 = 1 → exec (.readresp m) s = .next (refuseAccess a v)) ∧
        (2 ≤ fieldAt w.payload 0 1 → exec (.readresp m) s = .next (faultAccess a v)))) ∧
    (let w := Wire.ofMsg 3 2 m
     let d := w.die
     let bs := w.payload.drop 8
     let va := w.target.toNat % 2 ^ 48
     Arrives w s →
      (bulkPart s w bs.length true = none → exec (.write m) s = .next (refuseBulk w 1 s)) ∧
      (∀ p pa x v, bulkPart s w bs.length true = some p →
        agentXlate d p (BitVec.ofNat 64 va) w.request .write s = (.ok pa x, v) →
        (let k := bs.length / 64 + 2
         exec (.write m) s = .next (answer w 3 3 w.tcls (leBytes 8 0)
          (writeMarked d w.tcls k pa bs (unpackMarks k (fieldAt w.payload 0 8)) v))) ∧
        (v.accs = [] → bs.length ≤ 64 - pa % 64 → (v.stack (stackOf pa)).lost = false →
          ∃ t, exec (.write m) s = .next (answer w 3 3 w.tcls (leBytes 8 0) t) ∧ t.mem = memWrite v.mem pa bs ∧
            t.seats = v.seats)) ∧
      (∀ p v, bulkPart s w bs.length true = some p →
        (agentXlate d p (BitVec.ofNat 64 va) w.request .write s = (.wait, v) →
          exec (.write m) s = .next (waitBulk w p va v)) ∧
        (agentXlate d p (BitVec.ofNat 64 va) w.request .write s = (.fail, v) →
          exec (.write m) s = .next (refuseBulk w 2 v)))) ∧
    (let w := Wire.ofMsg 3 3 m
     Arrives w s →
      (takeAccess w true s = none → exec (.writeack m) s = .next s) ∧
      (∀ a v, takeAccess w true s = some (a, v) →
        (fieldAt w.payload 0 1 = 0 → exec (.writeack m) s = .next (endAccess a [] false v)) ∧
        (fieldAt w.payload 0 1 = 1 → exec (.writeack m) s = .next (refuseAccess a v)) ∧
        (2 ≤ fieldAt w.payload 0 1 → exec (.writeack m) s = .next (faultAccess a v))))

/-- CONTROL messages (R475, R478, R483 to R485, R488, R490, R492): acknowledgements, bindings, grants, drains, status,
growth, faults, refusals, barriers, answers to WSEND, and link states.
The model's readings on which clauses rest: logs 16, 18, 19, 58, 65, 104. -/
def Obligations.ControlMessages : Prop :=
  ∀ (s : State) (m : Msg),
    let wire : Nat → Wire := fun op => Wire.ofMsg 4 op m
    let u : Nat → State := fun op => taken (wire op) s
    let b := m.payload
    let ch := regKey m.target
    let src := endPkg m.src
    (Arrives (wire 0) s →
      let cls := m.target.toNat % 8
      let key : Word := if cls = 4 then 0 else BitVec.ofNat 64 (m.target.toNat / 256)
      let seq := BitVec.ofNat 32 (fieldAt b 0 4)
      let rest : Flow → Flow := fun f =>
        if f.hits true cls src key = true then
          { f with held := f.held.filter fun x => decide (2 ^ 31 ≤ (seq - x.flowseq).toNat) } else f
      exec (.ack m) s = .next (pruneProxies { u 0 with fab.flows := (u 0).fab.flows.map rest })) ∧
    (Arrives (wire 1) s →
      let c := (u 1).chan ch
      (chanAdmits (u 1) (wire 1) = false ∨ c.state = 3 →
        exec (.bindreq m) s = .next (noteRefusal (wire 1) (answer (wire 1) 4 2 0 (leBytes 24 2) (u 1)))) ∧
      (chanAdmits (u 1) (wire 1) = true → c.state ≠ 3 → c.wbound = true ∨ c.devwriter = true →
        exec (.bindreq m) s = .next (answer (wire 1) 4 2 0 (leBytes 1 1 ++ leBytes 1 c.cls.toNat ++ leBytes 2 c.width ++
          leBytes 4 c.binds.toNat ++ leBytes 4 0 ++ leBytes 4 0 ++ leBytes 8 c.sent) (u 1))) ∧
      (chanAdmits (u 1) (wire 1) = true → c.state ≠ 3 → c.wbound = false → c.devwriter = false →
        exec (.bindreq m) s = .next (answer (wire 1) 4 2 0 (leBytes 1 0 ++ leBytes 1 c.cls.toNat ++ leBytes 2 c.width ++
          leBytes 4 c.binds.toNat ++ leBytes 4 (bindCredit c) ++ leBytes 4 (grantRoom (u 1) ch) ++ leBytes 8 c.sent)
          ((u 1).updChan ch fun y => { y with
            wbound := true, remote := true, wpkg := m.src.zeroExtend 32
            writer := some (fieldAt b 0 2 % 4096, fieldAt b 0 2 / 4096)
            state := if y.state = 2 then 1 else y.state
            wpermits := y.wpermits - bindCredit c, permOut := y.permOut + bindCredit c
            roomOut := y.roomOut + grantRoom (u 1) ch })))) ∧
    (Arrives (wire 2) s →
      (takeReq (wire 2) (u 2) = none → exec (.bindreply m) s = .next (u 2)) ∧
      (∀ q v, takeReq (wire 2) (u 2) = some (q, v) →
        let p : Proxy := ⟨m.target, q.step / 16384, fieldAt b 8 4, fieldAt b 0x0C 4, false, BitVec.ofNat 3 (fieldAt b 1 1),
          fieldAt b 2 1, fieldAt b 0x10 8, BitVec.ofNat 32 (fieldAt b 4 4), false, (q.step, q.member), false, q.uid⟩
        (reqWaits v q m.target = true →
          (fieldAt b 0 1 = 0 →
            exec (.bindreply m) s = .next (giveReply q 0 { v with fab.proxies := v.fab.proxies ++ [p] })) ∧
          (fieldAt b 0 1 = 1 → exec (.bindreply m) s = .next (giveReply q 1 v)) ∧
          (2 ≤ fieldAt b 0 1 → exec (.bindreply m) s = .next (faultMember m.target q.step q.member v))) ∧
        (reqWaits v q m.target = false →
          (fieldAt b 0 1 = 0 → exec (.bindreply m) s = .next (closeProxy p v)) ∧
          (fieldAt b 0 1 ≠ 0 → exec (.bindreply m) s = .next v)))) ∧
    (Arrives (wire 3) s →
      let n := fieldAt b 0 4
      let binds := BitVec.ofNat 32 (fieldAt b 8 4)
      let gains : Proxy → Proxy := fun p =>
        if p.reg = m.target then
          { p with pcred := if p.binds = binds then p.pcred + n else n, binds := binds, scred := p.scred + fieldAt b 4 4 }
        else p
      (fieldAt b 0x0C 1 = 0 →
        exec (.grant m) s = .next { u 3 with fab.proxies := (u 3).fab.proxies.map gains }) ∧
      (fieldAt b 0x0C 1 ≠ 0 → isWriter (u 3) (wire 3) = true → ((u 3).chan ch).binds = binds → exec (.grant m) s =
        .next ((u 3).updChan ch fun x => { x with wpermits := x.wpermits + n, permOut := x.permOut - n })) ∧
      (fieldAt b 0x0C 1 ≠ 0 → isWriter (u 3) (wire 3) = false ∨ ((u 3).chan ch).binds ≠ binds →
        exec (.grant m) s = .next (u 3))) ∧
    (Arrives (wire 4) s →
      let empty : Proxy → Proxy := fun p =>
        if p.reg = m.target ∧ p.sent = fieldAt b 0 8 + 1 then { p with pspill := false } else p
      exec (.drained m) s = .next { u 4 with fab.proxies := (u 4).fab.proxies.map empty }) ∧
    (Arrives (wire 5) s →
      (chanAdmits (u 5) (wire 5) = false →
        exec (.statreq m) s = .next (noteRefusal (wire 5) (tellFault (wire 5) (u 5)))) ∧
      (chanAdmits (u 5) (wire 5) = true → ((u 5).chan ch).state = 3 →
        exec (.statreq m) s = .next (tellFault (wire 5) (u 5))) ∧
      (chanAdmits (u 5) (wire 5) = true → ((u 5).chan ch).state ≠ 3 → exec (.statreq m) s =
        .next (answer (wire 5) 4 6 0 (leBytes 8 (statusWord ((u 5).chan ch)).toNat) (u 5)))) ∧
    (Arrives (wire 6) s →
      (takeReq (wire 6) (u 6) = none → exec (.statreply m) s = .next (u 6)) ∧
      (∀ q v, takeReq (wire 6) (u 6) = some (q, v) →
        (reqWaits v q m.target = true →
          exec (.statreply m) s = .next (giveReply q (BitVec.ofNat 64 (fieldAt b 0 8)) v)) ∧
        (reqWaits v q m.target = false → exec (.statreply m) s = .next v))) ∧
    (Arrives (wire 7) s →
      (isWriter (u 7) (wire 7) = true → canGrow (u 7) ch = true → exec (.grow m) s = .next (growChan ch (u 7))) ∧
      (isWriter (u 7) (wire 7) = true → canGrow (u 7) ch = false →
        exec (.grow m) s = .next (raiseStall (ch / 4096) ((u 7).chan ch).part (u 7))) ∧
      (isWriter (u 7) (wire 7) = false → exec (.grow m) s = .next (u 7))) ∧
    (Arrives (wire 8) s → ∃ t, exec (.fault m) s = .next t ∧ t.mem = s.mem ∧
      (∀ p ∈ t.fab.proxies, p.reg = m.target → p.fault = true)) ∧
    (Arrives (wire 13) s → ∃ t, exec (.refuse m) s = .next t ∧ t.mem = s.mem ∧
      (∀ p ∈ t.fab.proxies, p.reg = m.target → p.fault = true) ∧
      (∀ p ∈ (u 13).fab.proxies, p.reg = m.target → proxyLives (u 13) p = true → ∀ q,
        memberSeat s p.writer.1 p.writer.2 = some q → (s.seat q).phase ≠ .idle →
        ⟨0x12, m.target, 0⟩ ∈ (t.ctx q).causes)) ∧
    (let sc := m.target.toNat % 8
     let id := m.target.toNat / 256 % 64
     (Arrives (wire 9) s →
      (barPart (u 9) src = none → exec (.bararr m) s = .next (u 9)) ∧
      (∀ p, barPart (u 9) src = some p →
        (fieldAt b 0 4 = s.pkgid.toNat → exec (.bararr m) s = .next (rootArrival src p sc id (u 9))) ∧
        (fieldAt b 0 4 ≠ s.pkgid.toNat → exec (.bararr m) s = .next (u 9)))) ∧
     (Arrives (wire 10) s →
      (barPart (u 10) src = none → exec (.barrel m) s = .next (u 10)) ∧
      (∀ p, barPart (u 10) src = some p → exec (.barrel m) s = .next (releasePod p sc id (u 10))))) ∧
    (Arrives (wire 11) s →
      (takeReq (wire 11) (u 11) = none → exec (.workdone m) s = .next (u 11)) ∧
      (∀ q v, takeReq (wire 11) (u 11) = some (q, v) →
        (fieldAt b 0 1 = 0 → exec (.workdone m) s = .next (onWorkHandle q (fun h =>
          { h with state := 5, progress := 1, first := BitVec.ofNat 44 (fieldAt b 4 4) }) v)) ∧
        (fieldAt b 0 1 ≠ 0 → exec (.workdone m) s = .next (onWorkHandle q (fun h => { h with state := 6 }) v)))) ∧
    (Arrives (wire 12) s → 
      let pkg := BitVec.ofNat 18 (fieldAt b 0 4)
      let links := linksOf (fieldAt b 4 2) (b.drop 8)
      exec (.linkstate m) s = .next (tellTo (newPkgs (u 12) pkg links)
        (retryPaths ((u 12).updPeer pkg fun p => { p with links := links }))))
end

