-- ==== Sys2Proof/Laws/Store.lean ====
section
/-!
SUPPORT. Sparse maps: reads after writes, and the canonical form that every write keeps.
-/
namespace Sys2Proof.Machine.Sparse

variable {α : Type} {d x y : α} {m : Sparse α} {a b k lo n : Nat}

@[simp] theorem get_nil : get d ([] : Sparse α) a = d := rfl

theorem get_cons {v : α} : get d ((k, v) :: m) a = if a = k then v else if a < k then d else get d m a := rfl

variable [DecidableEq α]

theorem wfFrom_mono {lo' : Nat} (h : lo' ≤ lo) (hm : wfFrom d lo m = true) : wfFrom d lo' m = true := by
  cases m with
  | nil => rfl
  | cons e m =>
    obtain ⟨k, v⟩ := e
    simp only [wfFrom, Bool.and_eq_true, decide_eq_true_eq] at hm ⊢
    exact ⟨⟨by omega, hm.1.2⟩, hm.2⟩

/-- A canonical map lists nothing below its bound. -/
theorem get_below (h : wfFrom d lo m = true) (ha : a < lo) : get d m a = d := by
  cases m with
  | nil => rfl
  | cons e m =>
    obtain ⟨k, v⟩ := e
    simp only [wfFrom, Bool.and_eq_true, decide_eq_true_eq] at h
    rw [get_cons, if_neg (by omega), if_pos (by omega)]

/-- A value other than the default is read back from any map. -/
theorem get_set_same (hx : x ≠ d) : get d (set d m a x) a = x := by
  induction m with
  | nil => simp [set, hx, get_cons]
  | cons e m ih =>
    obtain ⟨k, v⟩ := e
    rcases Nat.lt_trichotomy a k with h | h | h
    · simp [set, h, hx, get_cons]
    · simp [set, h, hx, get_cons]
    · have h1 : ¬a < k := by omega
      have h2 : a ≠ k := by omega
      simp [set, h1, h2, get_cons, ih]

/-- A canonical map gives back what was written. -/
theorem get_set_wf (hm : wf d m = true) : get d (set d m a x) a = x := by
  rcases eq_or_ne x d with rfl | hx
  · suffices h : ∀ lo, wfFrom x lo m = true → get x (set x m a x) a = x from h 0 hm
    clear hm
    induction m with
    | nil => simp [set]
    | cons e m ih =>
      obtain ⟨k, v⟩ := e
      intro lo h
      simp only [wfFrom, Bool.and_eq_true, decide_eq_true_eq] at h
      rcases Nat.lt_trichotomy a k with h1 | h1 | h1
      · have h2 : a ≠ k := by omega
        simp [set, h1, h2, get_cons]
      · subst h1
        simpa [set] using get_below h.2 (by omega)
      · have h2 : ¬a < k := by omega
        have h3 : a ≠ k := by omega
        simp [set, h2, h3, get_cons, ih _ h.2]
  · exact get_set_same hx

/-- A write leaves every other key of a canonical map alone. -/
theorem get_set_other (hm : wf d m = true) (hb : b ≠ a) : get d (set d m a x) b = get d m b := by
  suffices h : ∀ lo, wfFrom d lo m = true → get d (set d m a x) b = get d m b from h 0 hm
  clear hm
  induction m with
  | nil =>
    intro _ _
    by_cases hx : x = d <;> simp [set, hx, get_cons, hb]
  | cons e m ih =>
    obtain ⟨k, v⟩ := e
    intro lo h
    simp only [wfFrom, Bool.and_eq_true, decide_eq_true_eq] at h
    rcases Nat.lt_trichotomy a k with h1 | h1 | h1
    · by_cases hx : x = d
      · simp [set, h1, hx]
      · simp only [set, h1, if_true, hx, if_false, get_cons, hb]
        split_ifs <;> first | rfl | omega
    · subst h1
      by_cases hx : x = d
      · simp only [set, lt_irrefl, if_false, if_true, hx, get_cons, hb]
        split_ifs with h4
        · exact get_below h.2 (by omega)
        · rfl
      · simp [set, hx, get_cons, hb]
    · have h2 : ¬a < k := by omega
      have h3 : a ≠ k := by omega
      simp [set, h2, h3, get_cons, ih _ h.2]

/-- The last write counts. -/
theorem set_set (hx : x ≠ d) (hy : y ≠ d) : set d (set d m a x) a y = set d m a y := by
  induction m with
  | nil => simp [set, hx, hy]
  | cons e m ih =>
    obtain ⟨k, v⟩ := e
    rcases Nat.lt_trichotomy a k with h | h | h
    · simp [set, h, hx, hy]
    · simp [set, h, hx, hy]
    · have h1 : ¬a < k := by omega
      have h2 : a ≠ k := by omega
      simp [set, h1, h2, ih]

theorem set_wfFrom (hm : wfFrom d lo m = true) (ha : lo ≤ a) : wfFrom d lo (set d m a x) = true := by
  induction m generalizing lo with
  | nil => by_cases hx : x = d <;> simp [set, wfFrom, hx, ha]
  | cons e m ih =>
    obtain ⟨k, v⟩ := e
    have h := hm
    simp only [wfFrom, Bool.and_eq_true, decide_eq_true_eq, Bool.not_eq_true', decide_eq_false_iff_not] at h
    obtain ⟨⟨h0, h1⟩, h2⟩ := h
    rcases Nat.lt_trichotomy a k with h3 | h3 | h3
    · by_cases hx : x = d
      · simpa [set, h3, hx] using hm
      · have h5 : a + 1 ≤ k := h3
        simp [set, h3, hx, wfFrom, ha, h1, h2, h5]
    · subst h3
      by_cases hx : x = d
      · simpa [set, hx] using wfFrom_mono (by omega) h2
      · simp [set, hx, wfFrom, ha, h2]
    · have h4 : ¬a < k := by omega
      have h5 : a ≠ k := by omega
      simp [set, h4, h5, wfFrom, h0, h1, ih h2 h3]

/-- A write keeps the canonical form. -/
theorem set_wf (hm : wf d m = true) : wf d (set d m a x) = true := set_wfFrom hm (by omega)

theorem setMany_wf {xs : List α} (hm : wf d m = true) : wf d (setMany d m a xs) = true := by
  induction xs generalizing m a with
  | nil => exact hm
  | cons x xs ih => exact ih (set_wf hm)

theorem filter_wfFrom {p : Nat × α → Bool} (hm : wfFrom d lo m = true) : wfFrom d lo (m.filter p) = true := by
  induction m generalizing lo with
  | nil => rfl
  | cons e m ih =>
    obtain ⟨k, v⟩ := e
    have h := hm
    simp only [wfFrom, Bool.and_eq_true, decide_eq_true_eq, Bool.not_eq_true', decide_eq_false_iff_not] at h
    by_cases hp : p (k, v) = true
    · simp [hp, wfFrom, h.1.1, h.1.2, ih h.2]
    · simpa [hp] using ih (wfFrom_mono (by omega) h.2)

/-- A part of a canonical map is canonical. -/
theorem filter_wf {p : Nat × α → Bool} (hm : wf d m = true) : wf d (m.filter p) = true := filter_wfFrom hm

theorem clearRange_wf (hm : wf d m = true) : wf d (clearRange lo n m) = true := filter_wf hm

omit [DecidableEq α] in
/-- Equal reads give equal ranges. -/
theorem getMany_eq_of_get {m' : Sparse α} (h : ∀ i, i < n → get d m (a + i) = get d m' (a + i)) :
    getMany d m a n = getMany d m' a n := by
  induction n generalizing a with
  | zero => rfl
  | succ n ih =>
    simp only [getMany]
    rw [show get d m a = get d m' a from by simpa using h 0 (by omega)]
    rw [ih fun i hi => by simpa [Nat.add_assoc, Nat.add_comm 1] using h (i + 1) (by omega)]

/-- A write of consecutive keys leaves every key outside them alone. -/
theorem get_setMany_outside {xs : List α} (hm : wf d m = true) (hb : b < a ∨ a + xs.length ≤ b) :
    get d (setMany d m a xs) b = get d m b := by
  induction xs generalizing m a with
  | nil => rfl
  | cons x xs ih =>
    simp only [List.length_cons] at hb
    rw [setMany, ih (set_wf hm) (by omega), get_set_other hm (by omega)]

/-- A write of consecutive keys is read back. -/
theorem get_setMany_inside {xs : List α} {i : Nat} (hm : wf d m = true) (hi : i < xs.length) :
    get d (setMany d m a xs) (a + i) = xs[i] := by
  induction xs generalizing m a i with
  | nil => simp at hi
  | cons x xs ih =>
    cases i with
    | zero => simpa [setMany] using (get_setMany_outside (set_wf hm) (by omega)).trans (get_set_wf hm)
    | succ i =>
      have := ih (m := set d m a x) (a := a + 1) (i := i) (set_wf hm) (by simpa using hi)
      simpa [setMany, Nat.add_assoc, Nat.add_comm 1] using this

end Sys2Proof.Machine.Sparse
end

