-- ==== Sys2Proof/Laws/State.lean ====
section
/-!
SUPPORT. What the named updates of the state leave alone, field by field, and what they are read back as.
-/
namespace Sys2Proof.Machine
open Sys2Proof

variable (s : State)

/-! setSeat changes seats only. -/

@[simp] theorem State.setSeat_agenda (k : Nat) (x : Seat) : (s.setSeat k x).agenda = s.agenda := rfl
@[simp] theorem State.setSeat_cur (k : Nat) (x : Seat) : (s.setSeat k x).cur = s.cur := rfl
@[simp] theorem State.setSeat_cycle (k : Nat) (x : Seat) : (s.setSeat k x).cycle = s.cycle := rfl
@[simp] theorem State.setSeat_freeCtr (k : Nat) (x : Seat) : (s.setSeat k x).freeCtr = s.freeCtr := rfl
@[simp] theorem State.setSeat_pkgid (k : Nat) (x : Seat) : (s.setSeat k x).pkgid = s.pkgid := rfl
@[simp] theorem State.setSeat_cores (k : Nat) (x : Seat) : (s.setSeat k x).cores = s.cores := rfl
@[simp] theorem State.setSeat_dies (k : Nat) (x : Seat) : (s.setSeat k x).dies = s.dies := rfl
@[simp] theorem State.setSeat_queues (k : Nat) (x : Seat) : (s.setSeat k x).queues = s.queues := rfl
@[simp] theorem State.setSeat_tasks (k : Nat) (x : Seat) : (s.setSeat k x).tasks = s.tasks := rfl
@[simp] theorem State.setSeat_steps (k : Nat) (x : Seat) : (s.setSeat k x).steps = s.steps := rfl
@[simp] theorem State.setSeat_chans (k : Nat) (x : Seat) : (s.setSeat k x).chans = s.chans := rfl
@[simp] theorem State.setSeat_mem (k : Nat) (x : Seat) : (s.setSeat k x).mem = s.mem := rfl
@[simp] theorem State.setSeat_poisonMem (k : Nat) (x : Seat) : (s.setSeat k x).poisonMem = s.poisonMem := rfl
@[simp] theorem State.setSeat_errs (k : Nat) (x : Seat) : (s.setSeat k x).errs = s.errs := rfl
@[simp] theorem State.setSeat_stamps (k : Nat) (x : Seat) : (s.setSeat k x).stamps = s.stamps := rfl
@[simp] theorem State.setSeat_serial (k : Nat) (x : Seat) : (s.setSeat k x).serial = s.serial := rfl
@[simp] theorem State.setSeat_anns (k : Nat) (x : Seat) : (s.setSeat k x).anns = s.anns := rfl
@[simp] theorem State.setSeat_accs (k : Nat) (x : Seat) : (s.setSeat k x).accs = s.accs := rfl
@[simp] theorem State.setSeat_stackTab (k : Nat) (x : Seat) : (s.setSeat k x).stackTab = s.stackTab := rfl
@[simp] theorem State.setSeat_parts (k : Nat) (x : Seat) : (s.setSeat k x).parts = s.parts := rfl
@[simp] theorem State.setSeat_host (k : Nat) (x : Seat) : (s.setSeat k x).host = s.host := rfl
@[simp] theorem State.setSeat_fw (k : Nat) (x : Seat) : (s.setSeat k x).fw = s.fw := rfl
@[simp] theorem State.setSeat_near (k : Nat) (x : Seat) : (s.setSeat k x).near = s.near := rfl
@[simp] theorem State.setSeat_fab (k : Nat) (x : Seat) : (s.setSeat k x).fab = s.fab := rfl
@[simp] theorem State.setSeat_events (k : Nat) (x : Seat) : (s.setSeat k x).events = s.events := rfl
@[simp] theorem State.setSeat_linksDown (k : Nat) (x : Seat) : (s.setSeat k x).linksDown = s.linksDown := rfl

/-! updSeat changes seats only. -/

@[simp] theorem State.updSeat_agenda (k : Nat) (f : Seat → Seat) : (s.updSeat k f).agenda = s.agenda := rfl
@[simp] theorem State.updSeat_cur (k : Nat) (f : Seat → Seat) : (s.updSeat k f).cur = s.cur := rfl
@[simp] theorem State.updSeat_cycle (k : Nat) (f : Seat → Seat) : (s.updSeat k f).cycle = s.cycle := rfl
@[simp] theorem State.updSeat_freeCtr (k : Nat) (f : Seat → Seat) : (s.updSeat k f).freeCtr = s.freeCtr := rfl
@[simp] theorem State.updSeat_pkgid (k : Nat) (f : Seat → Seat) : (s.updSeat k f).pkgid = s.pkgid := rfl
@[simp] theorem State.updSeat_cores (k : Nat) (f : Seat → Seat) : (s.updSeat k f).cores = s.cores := rfl
@[simp] theorem State.updSeat_dies (k : Nat) (f : Seat → Seat) : (s.updSeat k f).dies = s.dies := rfl
@[simp] theorem State.updSeat_queues (k : Nat) (f : Seat → Seat) : (s.updSeat k f).queues = s.queues := rfl
@[simp] theorem State.updSeat_tasks (k : Nat) (f : Seat → Seat) : (s.updSeat k f).tasks = s.tasks := rfl
@[simp] theorem State.updSeat_steps (k : Nat) (f : Seat → Seat) : (s.updSeat k f).steps = s.steps := rfl
@[simp] theorem State.updSeat_chans (k : Nat) (f : Seat → Seat) : (s.updSeat k f).chans = s.chans := rfl
@[simp] theorem State.updSeat_mem (k : Nat) (f : Seat → Seat) : (s.updSeat k f).mem = s.mem := rfl
@[simp] theorem State.updSeat_poisonMem (k : Nat) (f : Seat → Seat) : (s.updSeat k f).poisonMem = s.poisonMem := rfl
@[simp] theorem State.updSeat_errs (k : Nat) (f : Seat → Seat) : (s.updSeat k f).errs = s.errs := rfl
@[simp] theorem State.updSeat_stamps (k : Nat) (f : Seat → Seat) : (s.updSeat k f).stamps = s.stamps := rfl
@[simp] theorem State.updSeat_serial (k : Nat) (f : Seat → Seat) : (s.updSeat k f).serial = s.serial := rfl
@[simp] theorem State.updSeat_anns (k : Nat) (f : Seat → Seat) : (s.updSeat k f).anns = s.anns := rfl
@[simp] theorem State.updSeat_accs (k : Nat) (f : Seat → Seat) : (s.updSeat k f).accs = s.accs := rfl
@[simp] theorem State.updSeat_stackTab (k : Nat) (f : Seat → Seat) : (s.updSeat k f).stackTab = s.stackTab := rfl
@[simp] theorem State.updSeat_parts (k : Nat) (f : Seat → Seat) : (s.updSeat k f).parts = s.parts := rfl
@[simp] theorem State.updSeat_host (k : Nat) (f : Seat → Seat) : (s.updSeat k f).host = s.host := rfl
@[simp] theorem State.updSeat_fw (k : Nat) (f : Seat → Seat) : (s.updSeat k f).fw = s.fw := rfl
@[simp] theorem State.updSeat_near (k : Nat) (f : Seat → Seat) : (s.updSeat k f).near = s.near := rfl
@[simp] theorem State.updSeat_fab (k : Nat) (f : Seat → Seat) : (s.updSeat k f).fab = s.fab := rfl
@[simp] theorem State.updSeat_events (k : Nat) (f : Seat → Seat) : (s.updSeat k f).events = s.events := rfl
@[simp] theorem State.updSeat_linksDown (k : Nat) (f : Seat → Seat) : (s.updSeat k f).linksDown = s.linksDown := rfl

/-! updCtx changes seats only. -/

@[simp] theorem State.updCtx_agenda (k : Nat) (f : Ctx → Ctx) : (s.updCtx k f).agenda = s.agenda := rfl
@[simp] theorem State.updCtx_cur (k : Nat) (f : Ctx → Ctx) : (s.updCtx k f).cur = s.cur := rfl
@[simp] theorem State.updCtx_cycle (k : Nat) (f : Ctx → Ctx) : (s.updCtx k f).cycle = s.cycle := rfl
@[simp] theorem State.updCtx_freeCtr (k : Nat) (f : Ctx → Ctx) : (s.updCtx k f).freeCtr = s.freeCtr := rfl
@[simp] theorem State.updCtx_pkgid (k : Nat) (f : Ctx → Ctx) : (s.updCtx k f).pkgid = s.pkgid := rfl
@[simp] theorem State.updCtx_cores (k : Nat) (f : Ctx → Ctx) : (s.updCtx k f).cores = s.cores := rfl
@[simp] theorem State.updCtx_dies (k : Nat) (f : Ctx → Ctx) : (s.updCtx k f).dies = s.dies := rfl
@[simp] theorem State.updCtx_queues (k : Nat) (f : Ctx → Ctx) : (s.updCtx k f).queues = s.queues := rfl
@[simp] theorem State.updCtx_tasks (k : Nat) (f : Ctx → Ctx) : (s.updCtx k f).tasks = s.tasks := rfl
@[simp] theorem State.updCtx_steps (k : Nat) (f : Ctx → Ctx) : (s.updCtx k f).steps = s.steps := rfl
@[simp] theorem State.updCtx_chans (k : Nat) (f : Ctx → Ctx) : (s.updCtx k f).chans = s.chans := rfl
@[simp] theorem State.updCtx_mem (k : Nat) (f : Ctx → Ctx) : (s.updCtx k f).mem = s.mem := rfl
@[simp] theorem State.updCtx_poisonMem (k : Nat) (f : Ctx → Ctx) : (s.updCtx k f).poisonMem = s.poisonMem := rfl
@[simp] theorem State.updCtx_errs (k : Nat) (f : Ctx → Ctx) : (s.updCtx k f).errs = s.errs := rfl
@[simp] theorem State.updCtx_stamps (k : Nat) (f : Ctx → Ctx) : (s.updCtx k f).stamps = s.stamps := rfl
@[simp] theorem State.updCtx_serial (k : Nat) (f : Ctx → Ctx) : (s.updCtx k f).serial = s.serial := rfl
@[simp] theorem State.updCtx_anns (k : Nat) (f : Ctx → Ctx) : (s.updCtx k f).anns = s.anns := rfl
@[simp] theorem State.updCtx_accs (k : Nat) (f : Ctx → Ctx) : (s.updCtx k f).accs = s.accs := rfl
@[simp] theorem State.updCtx_stackTab (k : Nat) (f : Ctx → Ctx) : (s.updCtx k f).stackTab = s.stackTab := rfl
@[simp] theorem State.updCtx_parts (k : Nat) (f : Ctx → Ctx) : (s.updCtx k f).parts = s.parts := rfl
@[simp] theorem State.updCtx_host (k : Nat) (f : Ctx → Ctx) : (s.updCtx k f).host = s.host := rfl
@[simp] theorem State.updCtx_fw (k : Nat) (f : Ctx → Ctx) : (s.updCtx k f).fw = s.fw := rfl
@[simp] theorem State.updCtx_near (k : Nat) (f : Ctx → Ctx) : (s.updCtx k f).near = s.near := rfl
@[simp] theorem State.updCtx_fab (k : Nat) (f : Ctx → Ctx) : (s.updCtx k f).fab = s.fab := rfl
@[simp] theorem State.updCtx_events (k : Nat) (f : Ctx → Ctx) : (s.updCtx k f).events = s.events := rfl
@[simp] theorem State.updCtx_linksDown (k : Nat) (f : Ctx → Ctx) : (s.updCtx k f).linksDown = s.linksDown := rfl

/-! setCore changes cores only. -/

@[simp] theorem State.setCore_agenda (c : Nat) (x : Core) : (s.setCore c x).agenda = s.agenda := rfl
@[simp] theorem State.setCore_cur (c : Nat) (x : Core) : (s.setCore c x).cur = s.cur := rfl
@[simp] theorem State.setCore_cycle (c : Nat) (x : Core) : (s.setCore c x).cycle = s.cycle := rfl
@[simp] theorem State.setCore_freeCtr (c : Nat) (x : Core) : (s.setCore c x).freeCtr = s.freeCtr := rfl
@[simp] theorem State.setCore_pkgid (c : Nat) (x : Core) : (s.setCore c x).pkgid = s.pkgid := rfl
@[simp] theorem State.setCore_seats (c : Nat) (x : Core) : (s.setCore c x).seats = s.seats := rfl
@[simp] theorem State.setCore_dies (c : Nat) (x : Core) : (s.setCore c x).dies = s.dies := rfl
@[simp] theorem State.setCore_queues (c : Nat) (x : Core) : (s.setCore c x).queues = s.queues := rfl
@[simp] theorem State.setCore_tasks (c : Nat) (x : Core) : (s.setCore c x).tasks = s.tasks := rfl
@[simp] theorem State.setCore_steps (c : Nat) (x : Core) : (s.setCore c x).steps = s.steps := rfl
@[simp] theorem State.setCore_chans (c : Nat) (x : Core) : (s.setCore c x).chans = s.chans := rfl
@[simp] theorem State.setCore_mem (c : Nat) (x : Core) : (s.setCore c x).mem = s.mem := rfl
@[simp] theorem State.setCore_poisonMem (c : Nat) (x : Core) : (s.setCore c x).poisonMem = s.poisonMem := rfl
@[simp] theorem State.setCore_errs (c : Nat) (x : Core) : (s.setCore c x).errs = s.errs := rfl
@[simp] theorem State.setCore_stamps (c : Nat) (x : Core) : (s.setCore c x).stamps = s.stamps := rfl
@[simp] theorem State.setCore_serial (c : Nat) (x : Core) : (s.setCore c x).serial = s.serial := rfl
@[simp] theorem State.setCore_anns (c : Nat) (x : Core) : (s.setCore c x).anns = s.anns := rfl
@[simp] theorem State.setCore_accs (c : Nat) (x : Core) : (s.setCore c x).accs = s.accs := rfl
@[simp] theorem State.setCore_stackTab (c : Nat) (x : Core) : (s.setCore c x).stackTab = s.stackTab := rfl
@[simp] theorem State.setCore_parts (c : Nat) (x : Core) : (s.setCore c x).parts = s.parts := rfl
@[simp] theorem State.setCore_host (c : Nat) (x : Core) : (s.setCore c x).host = s.host := rfl
@[simp] theorem State.setCore_fw (c : Nat) (x : Core) : (s.setCore c x).fw = s.fw := rfl
@[simp] theorem State.setCore_near (c : Nat) (x : Core) : (s.setCore c x).near = s.near := rfl
@[simp] theorem State.setCore_fab (c : Nat) (x : Core) : (s.setCore c x).fab = s.fab := rfl
@[simp] theorem State.setCore_events (c : Nat) (x : Core) : (s.setCore c x).events = s.events := rfl
@[simp] theorem State.setCore_linksDown (c : Nat) (x : Core) : (s.setCore c x).linksDown = s.linksDown := rfl

/-! updCore changes cores only. -/

@[simp] theorem State.updCore_agenda (c : Nat) (f : Core → Core) : (s.updCore c f).agenda = s.agenda := rfl
@[simp] theorem State.updCore_cur (c : Nat) (f : Core → Core) : (s.updCore c f).cur = s.cur := rfl
@[simp] theorem State.updCore_cycle (c : Nat) (f : Core → Core) : (s.updCore c f).cycle = s.cycle := rfl
@[simp] theorem State.updCore_freeCtr (c : Nat) (f : Core → Core) : (s.updCore c f).freeCtr = s.freeCtr := rfl
@[simp] theorem State.updCore_pkgid (c : Nat) (f : Core → Core) : (s.updCore c f).pkgid = s.pkgid := rfl
@[simp] theorem State.updCore_seats (c : Nat) (f : Core → Core) : (s.updCore c f).seats = s.seats := rfl
@[simp] theorem State.updCore_dies (c : Nat) (f : Core → Core) : (s.updCore c f).dies = s.dies := rfl
@[simp] theorem State.updCore_queues (c : Nat) (f : Core → Core) : (s.updCore c f).queues = s.queues := rfl
@[simp] theorem State.updCore_tasks (c : Nat) (f : Core → Core) : (s.updCore c f).tasks = s.tasks := rfl
@[simp] theorem State.updCore_steps (c : Nat) (f : Core → Core) : (s.updCore c f).steps = s.steps := rfl
@[simp] theorem State.updCore_chans (c : Nat) (f : Core → Core) : (s.updCore c f).chans = s.chans := rfl
@[simp] theorem State.updCore_mem (c : Nat) (f : Core → Core) : (s.updCore c f).mem = s.mem := rfl
@[simp] theorem State.updCore_poisonMem (c : Nat) (f : Core → Core) : (s.updCore c f).poisonMem = s.poisonMem := rfl
@[simp] theorem State.updCore_errs (c : Nat) (f : Core → Core) : (s.updCore c f).errs = s.errs := rfl
@[simp] theorem State.updCore_stamps (c : Nat) (f : Core → Core) : (s.updCore c f).stamps = s.stamps := rfl
@[simp] theorem State.updCore_serial (c : Nat) (f : Core → Core) : (s.updCore c f).serial = s.serial := rfl
@[simp] theorem State.updCore_anns (c : Nat) (f : Core → Core) : (s.updCore c f).anns = s.anns := rfl
@[simp] theorem State.updCore_accs (c : Nat) (f : Core → Core) : (s.updCore c f).accs = s.accs := rfl
@[simp] theorem State.updCore_stackTab (c : Nat) (f : Core → Core) : (s.updCore c f).stackTab = s.stackTab := rfl
@[simp] theorem State.updCore_parts (c : Nat) (f : Core → Core) : (s.updCore c f).parts = s.parts := rfl
@[simp] theorem State.updCore_host (c : Nat) (f : Core → Core) : (s.updCore c f).host = s.host := rfl
@[simp] theorem State.updCore_fw (c : Nat) (f : Core → Core) : (s.updCore c f).fw = s.fw := rfl
@[simp] theorem State.updCore_near (c : Nat) (f : Core → Core) : (s.updCore c f).near = s.near := rfl
@[simp] theorem State.updCore_fab (c : Nat) (f : Core → Core) : (s.updCore c f).fab = s.fab := rfl
@[simp] theorem State.updCore_events (c : Nat) (f : Core → Core) : (s.updCore c f).events = s.events := rfl
@[simp] theorem State.updCore_linksDown (c : Nat) (f : Core → Core) : (s.updCore c f).linksDown = s.linksDown := rfl

/-! setLine changes cores only. -/

@[simp] theorem State.setLine_agenda (k p : Nat) (x : UnitW) : (s.setLine k p x).agenda = s.agenda := rfl
@[simp] theorem State.setLine_cur (k p : Nat) (x : UnitW) : (s.setLine k p x).cur = s.cur := rfl
@[simp] theorem State.setLine_cycle (k p : Nat) (x : UnitW) : (s.setLine k p x).cycle = s.cycle := rfl
@[simp] theorem State.setLine_freeCtr (k p : Nat) (x : UnitW) : (s.setLine k p x).freeCtr = s.freeCtr := rfl
@[simp] theorem State.setLine_pkgid (k p : Nat) (x : UnitW) : (s.setLine k p x).pkgid = s.pkgid := rfl
@[simp] theorem State.setLine_seats (k p : Nat) (x : UnitW) : (s.setLine k p x).seats = s.seats := rfl
@[simp] theorem State.setLine_dies (k p : Nat) (x : UnitW) : (s.setLine k p x).dies = s.dies := rfl
@[simp] theorem State.setLine_queues (k p : Nat) (x : UnitW) : (s.setLine k p x).queues = s.queues := rfl
@[simp] theorem State.setLine_tasks (k p : Nat) (x : UnitW) : (s.setLine k p x).tasks = s.tasks := rfl
@[simp] theorem State.setLine_steps (k p : Nat) (x : UnitW) : (s.setLine k p x).steps = s.steps := rfl
@[simp] theorem State.setLine_chans (k p : Nat) (x : UnitW) : (s.setLine k p x).chans = s.chans := rfl
@[simp] theorem State.setLine_mem (k p : Nat) (x : UnitW) : (s.setLine k p x).mem = s.mem := rfl
@[simp] theorem State.setLine_poisonMem (k p : Nat) (x : UnitW) : (s.setLine k p x).poisonMem = s.poisonMem := rfl
@[simp] theorem State.setLine_errs (k p : Nat) (x : UnitW) : (s.setLine k p x).errs = s.errs := rfl
@[simp] theorem State.setLine_stamps (k p : Nat) (x : UnitW) : (s.setLine k p x).stamps = s.stamps := rfl
@[simp] theorem State.setLine_serial (k p : Nat) (x : UnitW) : (s.setLine k p x).serial = s.serial := rfl
@[simp] theorem State.setLine_anns (k p : Nat) (x : UnitW) : (s.setLine k p x).anns = s.anns := rfl
@[simp] theorem State.setLine_accs (k p : Nat) (x : UnitW) : (s.setLine k p x).accs = s.accs := rfl
@[simp] theorem State.setLine_stackTab (k p : Nat) (x : UnitW) : (s.setLine k p x).stackTab = s.stackTab := rfl
@[simp] theorem State.setLine_parts (k p : Nat) (x : UnitW) : (s.setLine k p x).parts = s.parts := rfl
@[simp] theorem State.setLine_host (k p : Nat) (x : UnitW) : (s.setLine k p x).host = s.host := rfl
@[simp] theorem State.setLine_fw (k p : Nat) (x : UnitW) : (s.setLine k p x).fw = s.fw := rfl
@[simp] theorem State.setLine_near (k p : Nat) (x : UnitW) : (s.setLine k p x).near = s.near := rfl
@[simp] theorem State.setLine_fab (k p : Nat) (x : UnitW) : (s.setLine k p x).fab = s.fab := rfl
@[simp] theorem State.setLine_events (k p : Nat) (x : UnitW) : (s.setLine k p x).events = s.events := rfl
@[simp] theorem State.setLine_linksDown (k p : Nat) (x : UnitW) : (s.setLine k p x).linksDown = s.linksDown := rfl

/-! updDie changes dies only. -/

@[simp] theorem State.updDie_agenda (d : Nat) (f : Die → Die) : (s.updDie d f).agenda = s.agenda := rfl
@[simp] theorem State.updDie_cur (d : Nat) (f : Die → Die) : (s.updDie d f).cur = s.cur := rfl
@[simp] theorem State.updDie_cycle (d : Nat) (f : Die → Die) : (s.updDie d f).cycle = s.cycle := rfl
@[simp] theorem State.updDie_freeCtr (d : Nat) (f : Die → Die) : (s.updDie d f).freeCtr = s.freeCtr := rfl
@[simp] theorem State.updDie_pkgid (d : Nat) (f : Die → Die) : (s.updDie d f).pkgid = s.pkgid := rfl
@[simp] theorem State.updDie_seats (d : Nat) (f : Die → Die) : (s.updDie d f).seats = s.seats := rfl
@[simp] theorem State.updDie_cores (d : Nat) (f : Die → Die) : (s.updDie d f).cores = s.cores := rfl
@[simp] theorem State.updDie_queues (d : Nat) (f : Die → Die) : (s.updDie d f).queues = s.queues := rfl
@[simp] theorem State.updDie_tasks (d : Nat) (f : Die → Die) : (s.updDie d f).tasks = s.tasks := rfl
@[simp] theorem State.updDie_steps (d : Nat) (f : Die → Die) : (s.updDie d f).steps = s.steps := rfl
@[simp] theorem State.updDie_chans (d : Nat) (f : Die → Die) : (s.updDie d f).chans = s.chans := rfl
@[simp] theorem State.updDie_mem (d : Nat) (f : Die → Die) : (s.updDie d f).mem = s.mem := rfl
@[simp] theorem State.updDie_poisonMem (d : Nat) (f : Die → Die) : (s.updDie d f).poisonMem = s.poisonMem := rfl
@[simp] theorem State.updDie_errs (d : Nat) (f : Die → Die) : (s.updDie d f).errs = s.errs := rfl
@[simp] theorem State.updDie_stamps (d : Nat) (f : Die → Die) : (s.updDie d f).stamps = s.stamps := rfl
@[simp] theorem State.updDie_serial (d : Nat) (f : Die → Die) : (s.updDie d f).serial = s.serial := rfl
@[simp] theorem State.updDie_anns (d : Nat) (f : Die → Die) : (s.updDie d f).anns = s.anns := rfl
@[simp] theorem State.updDie_accs (d : Nat) (f : Die → Die) : (s.updDie d f).accs = s.accs := rfl
@[simp] theorem State.updDie_stackTab (d : Nat) (f : Die → Die) : (s.updDie d f).stackTab = s.stackTab := rfl
@[simp] theorem State.updDie_parts (d : Nat) (f : Die → Die) : (s.updDie d f).parts = s.parts := rfl
@[simp] theorem State.updDie_host (d : Nat) (f : Die → Die) : (s.updDie d f).host = s.host := rfl
@[simp] theorem State.updDie_fw (d : Nat) (f : Die → Die) : (s.updDie d f).fw = s.fw := rfl
@[simp] theorem State.updDie_near (d : Nat) (f : Die → Die) : (s.updDie d f).near = s.near := rfl
@[simp] theorem State.updDie_fab (d : Nat) (f : Die → Die) : (s.updDie d f).fab = s.fab := rfl
@[simp] theorem State.updDie_events (d : Nat) (f : Die → Die) : (s.updDie d f).events = s.events := rfl
@[simp] theorem State.updDie_linksDown (d : Nat) (f : Die → Die) : (s.updDie d f).linksDown = s.linksDown := rfl

/-! updQueue changes queues only. -/

@[simp] theorem State.updQueue_agenda (q : Nat) (f : Queue → Queue) : (s.updQueue q f).agenda = s.agenda := rfl
@[simp] theorem State.updQueue_cur (q : Nat) (f : Queue → Queue) : (s.updQueue q f).cur = s.cur := rfl
@[simp] theorem State.updQueue_cycle (q : Nat) (f : Queue → Queue) : (s.updQueue q f).cycle = s.cycle := rfl
@[simp] theorem State.updQueue_freeCtr (q : Nat) (f : Queue → Queue) : (s.updQueue q f).freeCtr = s.freeCtr := rfl
@[simp] theorem State.updQueue_pkgid (q : Nat) (f : Queue → Queue) : (s.updQueue q f).pkgid = s.pkgid := rfl
@[simp] theorem State.updQueue_seats (q : Nat) (f : Queue → Queue) : (s.updQueue q f).seats = s.seats := rfl
@[simp] theorem State.updQueue_cores (q : Nat) (f : Queue → Queue) : (s.updQueue q f).cores = s.cores := rfl
@[simp] theorem State.updQueue_dies (q : Nat) (f : Queue → Queue) : (s.updQueue q f).dies = s.dies := rfl
@[simp] theorem State.updQueue_tasks (q : Nat) (f : Queue → Queue) : (s.updQueue q f).tasks = s.tasks := rfl
@[simp] theorem State.updQueue_steps (q : Nat) (f : Queue → Queue) : (s.updQueue q f).steps = s.steps := rfl
@[simp] theorem State.updQueue_chans (q : Nat) (f : Queue → Queue) : (s.updQueue q f).chans = s.chans := rfl
@[simp] theorem State.updQueue_mem (q : Nat) (f : Queue → Queue) : (s.updQueue q f).mem = s.mem := rfl
@[simp] theorem State.updQueue_poisonMem (q : Nat) (f : Queue → Queue) : (s.updQueue q f).poisonMem = s.poisonMem := rfl
@[simp] theorem State.updQueue_errs (q : Nat) (f : Queue → Queue) : (s.updQueue q f).errs = s.errs := rfl
@[simp] theorem State.updQueue_stamps (q : Nat) (f : Queue → Queue) : (s.updQueue q f).stamps = s.stamps := rfl
@[simp] theorem State.updQueue_serial (q : Nat) (f : Queue → Queue) : (s.updQueue q f).serial = s.serial := rfl
@[simp] theorem State.updQueue_anns (q : Nat) (f : Queue → Queue) : (s.updQueue q f).anns = s.anns := rfl
@[simp] theorem State.updQueue_accs (q : Nat) (f : Queue → Queue) : (s.updQueue q f).accs = s.accs := rfl
@[simp] theorem State.updQueue_stackTab (q : Nat) (f : Queue → Queue) : (s.updQueue q f).stackTab = s.stackTab := rfl
@[simp] theorem State.updQueue_parts (q : Nat) (f : Queue → Queue) : (s.updQueue q f).parts = s.parts := rfl
@[simp] theorem State.updQueue_host (q : Nat) (f : Queue → Queue) : (s.updQueue q f).host = s.host := rfl
@[simp] theorem State.updQueue_fw (q : Nat) (f : Queue → Queue) : (s.updQueue q f).fw = s.fw := rfl
@[simp] theorem State.updQueue_near (q : Nat) (f : Queue → Queue) : (s.updQueue q f).near = s.near := rfl
@[simp] theorem State.updQueue_fab (q : Nat) (f : Queue → Queue) : (s.updQueue q f).fab = s.fab := rfl
@[simp] theorem State.updQueue_events (q : Nat) (f : Queue → Queue) : (s.updQueue q f).events = s.events := rfl
@[simp] theorem State.updQueue_linksDown (q : Nat) (f : Queue → Queue) : (s.updQueue q f).linksDown = s.linksDown := rfl

/-! updTask changes tasks only. -/

@[simp] theorem State.updTask_agenda (t : Nat) (f : Task → Task) : (s.updTask t f).agenda = s.agenda := rfl
@[simp] theorem State.updTask_cur (t : Nat) (f : Task → Task) : (s.updTask t f).cur = s.cur := rfl
@[simp] theorem State.updTask_cycle (t : Nat) (f : Task → Task) : (s.updTask t f).cycle = s.cycle := rfl
@[simp] theorem State.updTask_freeCtr (t : Nat) (f : Task → Task) : (s.updTask t f).freeCtr = s.freeCtr := rfl
@[simp] theorem State.updTask_pkgid (t : Nat) (f : Task → Task) : (s.updTask t f).pkgid = s.pkgid := rfl
@[simp] theorem State.updTask_seats (t : Nat) (f : Task → Task) : (s.updTask t f).seats = s.seats := rfl
@[simp] theorem State.updTask_cores (t : Nat) (f : Task → Task) : (s.updTask t f).cores = s.cores := rfl
@[simp] theorem State.updTask_dies (t : Nat) (f : Task → Task) : (s.updTask t f).dies = s.dies := rfl
@[simp] theorem State.updTask_queues (t : Nat) (f : Task → Task) : (s.updTask t f).queues = s.queues := rfl
@[simp] theorem State.updTask_steps (t : Nat) (f : Task → Task) : (s.updTask t f).steps = s.steps := rfl
@[simp] theorem State.updTask_chans (t : Nat) (f : Task → Task) : (s.updTask t f).chans = s.chans := rfl
@[simp] theorem State.updTask_mem (t : Nat) (f : Task → Task) : (s.updTask t f).mem = s.mem := rfl
@[simp] theorem State.updTask_poisonMem (t : Nat) (f : Task → Task) : (s.updTask t f).poisonMem = s.poisonMem := rfl
@[simp] theorem State.updTask_errs (t : Nat) (f : Task → Task) : (s.updTask t f).errs = s.errs := rfl
@[simp] theorem State.updTask_stamps (t : Nat) (f : Task → Task) : (s.updTask t f).stamps = s.stamps := rfl
@[simp] theorem State.updTask_serial (t : Nat) (f : Task → Task) : (s.updTask t f).serial = s.serial := rfl
@[simp] theorem State.updTask_anns (t : Nat) (f : Task → Task) : (s.updTask t f).anns = s.anns := rfl
@[simp] theorem State.updTask_accs (t : Nat) (f : Task → Task) : (s.updTask t f).accs = s.accs := rfl
@[simp] theorem State.updTask_stackTab (t : Nat) (f : Task → Task) : (s.updTask t f).stackTab = s.stackTab := rfl
@[simp] theorem State.updTask_parts (t : Nat) (f : Task → Task) : (s.updTask t f).parts = s.parts := rfl
@[simp] theorem State.updTask_host (t : Nat) (f : Task → Task) : (s.updTask t f).host = s.host := rfl
@[simp] theorem State.updTask_fw (t : Nat) (f : Task → Task) : (s.updTask t f).fw = s.fw := rfl
@[simp] theorem State.updTask_near (t : Nat) (f : Task → Task) : (s.updTask t f).near = s.near := rfl
@[simp] theorem State.updTask_fab (t : Nat) (f : Task → Task) : (s.updTask t f).fab = s.fab := rfl
@[simp] theorem State.updTask_events (t : Nat) (f : Task → Task) : (s.updTask t f).events = s.events := rfl
@[simp] theorem State.updTask_linksDown (t : Nat) (f : Task → Task) : (s.updTask t f).linksDown = s.linksDown := rfl

/-! updStep changes steps only. -/

@[simp] theorem State.updStep_agenda (n : Nat) (f : Step → Step) : (s.updStep n f).agenda = s.agenda := rfl
@[simp] theorem State.updStep_cur (n : Nat) (f : Step → Step) : (s.updStep n f).cur = s.cur := rfl
@[simp] theorem State.updStep_cycle (n : Nat) (f : Step → Step) : (s.updStep n f).cycle = s.cycle := rfl
@[simp] theorem State.updStep_freeCtr (n : Nat) (f : Step → Step) : (s.updStep n f).freeCtr = s.freeCtr := rfl
@[simp] theorem State.updStep_pkgid (n : Nat) (f : Step → Step) : (s.updStep n f).pkgid = s.pkgid := rfl
@[simp] theorem State.updStep_seats (n : Nat) (f : Step → Step) : (s.updStep n f).seats = s.seats := rfl
@[simp] theorem State.updStep_cores (n : Nat) (f : Step → Step) : (s.updStep n f).cores = s.cores := rfl
@[simp] theorem State.updStep_dies (n : Nat) (f : Step → Step) : (s.updStep n f).dies = s.dies := rfl
@[simp] theorem State.updStep_queues (n : Nat) (f : Step → Step) : (s.updStep n f).queues = s.queues := rfl
@[simp] theorem State.updStep_tasks (n : Nat) (f : Step → Step) : (s.updStep n f).tasks = s.tasks := rfl
@[simp] theorem State.updStep_chans (n : Nat) (f : Step → Step) : (s.updStep n f).chans = s.chans := rfl
@[simp] theorem State.updStep_mem (n : Nat) (f : Step → Step) : (s.updStep n f).mem = s.mem := rfl
@[simp] theorem State.updStep_poisonMem (n : Nat) (f : Step → Step) : (s.updStep n f).poisonMem = s.poisonMem := rfl
@[simp] theorem State.updStep_errs (n : Nat) (f : Step → Step) : (s.updStep n f).errs = s.errs := rfl
@[simp] theorem State.updStep_stamps (n : Nat) (f : Step → Step) : (s.updStep n f).stamps = s.stamps := rfl
@[simp] theorem State.updStep_serial (n : Nat) (f : Step → Step) : (s.updStep n f).serial = s.serial := rfl
@[simp] theorem State.updStep_anns (n : Nat) (f : Step → Step) : (s.updStep n f).anns = s.anns := rfl
@[simp] theorem State.updStep_accs (n : Nat) (f : Step → Step) : (s.updStep n f).accs = s.accs := rfl
@[simp] theorem State.updStep_stackTab (n : Nat) (f : Step → Step) : (s.updStep n f).stackTab = s.stackTab := rfl
@[simp] theorem State.updStep_parts (n : Nat) (f : Step → Step) : (s.updStep n f).parts = s.parts := rfl
@[simp] theorem State.updStep_host (n : Nat) (f : Step → Step) : (s.updStep n f).host = s.host := rfl
@[simp] theorem State.updStep_fw (n : Nat) (f : Step → Step) : (s.updStep n f).fw = s.fw := rfl
@[simp] theorem State.updStep_near (n : Nat) (f : Step → Step) : (s.updStep n f).near = s.near := rfl
@[simp] theorem State.updStep_fab (n : Nat) (f : Step → Step) : (s.updStep n f).fab = s.fab := rfl
@[simp] theorem State.updStep_events (n : Nat) (f : Step → Step) : (s.updStep n f).events = s.events := rfl
@[simp] theorem State.updStep_linksDown (n : Nat) (f : Step → Step) : (s.updStep n f).linksDown = s.linksDown := rfl

/-! updMember changes steps only. -/

@[simp] theorem State.updMember_agenda (n m : Nat) (f : Member → Member) : (s.updMember n m f).agenda = s.agenda := rfl
@[simp] theorem State.updMember_cur (n m : Nat) (f : Member → Member) : (s.updMember n m f).cur = s.cur := rfl
@[simp] theorem State.updMember_cycle (n m : Nat) (f : Member → Member) : (s.updMember n m f).cycle = s.cycle := rfl
@[simp] theorem State.updMember_freeCtr (n m : Nat) (f : Member → Member) : (s.updMember n m f).freeCtr = s.freeCtr := rfl
@[simp] theorem State.updMember_pkgid (n m : Nat) (f : Member → Member) : (s.updMember n m f).pkgid = s.pkgid := rfl
@[simp] theorem State.updMember_seats (n m : Nat) (f : Member → Member) : (s.updMember n m f).seats = s.seats := rfl
@[simp] theorem State.updMember_cores (n m : Nat) (f : Member → Member) : (s.updMember n m f).cores = s.cores := rfl
@[simp] theorem State.updMember_dies (n m : Nat) (f : Member → Member) : (s.updMember n m f).dies = s.dies := rfl
@[simp] theorem State.updMember_queues (n m : Nat) (f : Member → Member) : (s.updMember n m f).queues = s.queues := rfl
@[simp] theorem State.updMember_tasks (n m : Nat) (f : Member → Member) : (s.updMember n m f).tasks = s.tasks := rfl
@[simp] theorem State.updMember_chans (n m : Nat) (f : Member → Member) : (s.updMember n m f).chans = s.chans := rfl
@[simp] theorem State.updMember_mem (n m : Nat) (f : Member → Member) : (s.updMember n m f).mem = s.mem := rfl
@[simp] theorem State.updMember_poisonMem (n m : Nat) (f : Member → Member) : (s.updMember n m f).poisonMem = s.poisonMem := rfl
@[simp] theorem State.updMember_errs (n m : Nat) (f : Member → Member) : (s.updMember n m f).errs = s.errs := rfl
@[simp] theorem State.updMember_stamps (n m : Nat) (f : Member → Member) : (s.updMember n m f).stamps = s.stamps := rfl
@[simp] theorem State.updMember_serial (n m : Nat) (f : Member → Member) : (s.updMember n m f).serial = s.serial := rfl
@[simp] theorem State.updMember_anns (n m : Nat) (f : Member → Member) : (s.updMember n m f).anns = s.anns := rfl
@[simp] theorem State.updMember_accs (n m : Nat) (f : Member → Member) : (s.updMember n m f).accs = s.accs := rfl
@[simp] theorem State.updMember_stackTab (n m : Nat) (f : Member → Member) : (s.updMember n m f).stackTab = s.stackTab := rfl
@[simp] theorem State.updMember_parts (n m : Nat) (f : Member → Member) : (s.updMember n m f).parts = s.parts := rfl
@[simp] theorem State.updMember_host (n m : Nat) (f : Member → Member) : (s.updMember n m f).host = s.host := rfl
@[simp] theorem State.updMember_fw (n m : Nat) (f : Member → Member) : (s.updMember n m f).fw = s.fw := rfl
@[simp] theorem State.updMember_near (n m : Nat) (f : Member → Member) : (s.updMember n m f).near = s.near := rfl
@[simp] theorem State.updMember_fab (n m : Nat) (f : Member → Member) : (s.updMember n m f).fab = s.fab := rfl
@[simp] theorem State.updMember_events (n m : Nat) (f : Member → Member) : (s.updMember n m f).events = s.events := rfl
@[simp] theorem State.updMember_linksDown (n m : Nat) (f : Member → Member) : (s.updMember n m f).linksDown = s.linksDown := rfl

/-! updChan changes chans only. -/

@[simp] theorem State.updChan_agenda (c : Nat) (f : Chan → Chan) : (s.updChan c f).agenda = s.agenda := rfl
@[simp] theorem State.updChan_cur (c : Nat) (f : Chan → Chan) : (s.updChan c f).cur = s.cur := rfl
@[simp] theorem State.updChan_cycle (c : Nat) (f : Chan → Chan) : (s.updChan c f).cycle = s.cycle := rfl
@[simp] theorem State.updChan_freeCtr (c : Nat) (f : Chan → Chan) : (s.updChan c f).freeCtr = s.freeCtr := rfl
@[simp] theorem State.updChan_pkgid (c : Nat) (f : Chan → Chan) : (s.updChan c f).pkgid = s.pkgid := rfl
@[simp] theorem State.updChan_seats (c : Nat) (f : Chan → Chan) : (s.updChan c f).seats = s.seats := rfl
@[simp] theorem State.updChan_cores (c : Nat) (f : Chan → Chan) : (s.updChan c f).cores = s.cores := rfl
@[simp] theorem State.updChan_dies (c : Nat) (f : Chan → Chan) : (s.updChan c f).dies = s.dies := rfl
@[simp] theorem State.updChan_queues (c : Nat) (f : Chan → Chan) : (s.updChan c f).queues = s.queues := rfl
@[simp] theorem State.updChan_tasks (c : Nat) (f : Chan → Chan) : (s.updChan c f).tasks = s.tasks := rfl
@[simp] theorem State.updChan_steps (c : Nat) (f : Chan → Chan) : (s.updChan c f).steps = s.steps := rfl
@[simp] theorem State.updChan_mem (c : Nat) (f : Chan → Chan) : (s.updChan c f).mem = s.mem := rfl
@[simp] theorem State.updChan_poisonMem (c : Nat) (f : Chan → Chan) : (s.updChan c f).poisonMem = s.poisonMem := rfl
@[simp] theorem State.updChan_errs (c : Nat) (f : Chan → Chan) : (s.updChan c f).errs = s.errs := rfl
@[simp] theorem State.updChan_stamps (c : Nat) (f : Chan → Chan) : (s.updChan c f).stamps = s.stamps := rfl
@[simp] theorem State.updChan_serial (c : Nat) (f : Chan → Chan) : (s.updChan c f).serial = s.serial := rfl
@[simp] theorem State.updChan_anns (c : Nat) (f : Chan → Chan) : (s.updChan c f).anns = s.anns := rfl
@[simp] theorem State.updChan_accs (c : Nat) (f : Chan → Chan) : (s.updChan c f).accs = s.accs := rfl
@[simp] theorem State.updChan_stackTab (c : Nat) (f : Chan → Chan) : (s.updChan c f).stackTab = s.stackTab := rfl
@[simp] theorem State.updChan_parts (c : Nat) (f : Chan → Chan) : (s.updChan c f).parts = s.parts := rfl
@[simp] theorem State.updChan_host (c : Nat) (f : Chan → Chan) : (s.updChan c f).host = s.host := rfl
@[simp] theorem State.updChan_fw (c : Nat) (f : Chan → Chan) : (s.updChan c f).fw = s.fw := rfl
@[simp] theorem State.updChan_near (c : Nat) (f : Chan → Chan) : (s.updChan c f).near = s.near := rfl
@[simp] theorem State.updChan_fab (c : Nat) (f : Chan → Chan) : (s.updChan c f).fab = s.fab := rfl
@[simp] theorem State.updChan_events (c : Nat) (f : Chan → Chan) : (s.updChan c f).events = s.events := rfl
@[simp] theorem State.updChan_linksDown (c : Nat) (f : Chan → Chan) : (s.updChan c f).linksDown = s.linksDown := rfl

/-! Register and signal writes of a context. -/

variable (c : Ctx)

@[simp] theorem Ctx.setS_pos (r : BitVec 6) (v : Word) : (c.setS r v).pos = c.pos := by unfold Ctx.setS; split <;> rfl
@[simp] theorem Ctx.setS_saved (r : BitVec 6) (v : Word) : (c.setS r v).saved = c.saved := by unfold Ctx.setS; split <;> rfl
@[simp] theorem Ctx.setS_bud (r : BitVec 6) (v : Word) : (c.setS r v).bud = c.bud := by unfold Ctx.setS; split <;> rfl
@[simp] theorem Ctx.setS_csr (r : BitVec 6) (v : Word) : (c.setS r v).csr = c.csr := by unfold Ctx.setS; split <;> rfl
@[simp] theorem Ctx.setS_sig (r : BitVec 6) (v : Word) : (c.setS r v).sig = c.sig := by unfold Ctx.setS; split <;> rfl
@[simp] theorem Ctx.setS_mx (r : BitVec 6) (v : Word) : (c.setS r v).mx = c.mx := by unfold Ctx.setS; split <;> rfl
@[simp] theorem Ctx.setS_eng (r : BitVec 6) (v : Word) : (c.setS r v).eng = c.eng := by unfold Ctx.setS; split <;> rfl
@[simp] theorem Ctx.setS_ready (r : BitVec 6) (v : Word) : (c.setS r v).ready = c.ready := by unfold Ctx.setS; split <;> rfl
@[simp] theorem Ctx.setS_fuse (r : BitVec 6) (v : Word) : (c.setS r v).fuse = c.fuse := by unfold Ctx.setS; split <;> rfl
@[simp] theorem Ctx.setS_wait (r : BitVec 6) (v : Word) : (c.setS r v).wait = c.wait := by unfold Ctx.setS; split <;> rfl
@[simp] theorem Ctx.setS_causes (r : BitVec 6) (v : Word) : (c.setS r v).causes = c.causes := by unfold Ctx.setS; split <;> rfl
@[simp] theorem Ctx.setS_trap (r : BitVec 6) (v : Word) : (c.setS r v).trap = c.trap := by unfold Ctx.setS; split <;> rfl
@[simp] theorem Ctx.setS_flips (r : BitVec 6) (v : Word) : (c.setS r v).flips = c.flips := by unfold Ctx.setS; split <;> rfl
@[simp] theorem Ctx.setS_maskOnce (r : BitVec 6) (v : Word) : (c.setS r v).maskOnce = c.maskOnce := by unfold Ctx.setS; split <;> rfl

@[simp] theorem Ctx.setP_pos (r : BitVec 4) (b : Bool) : (c.setP r b).pos = c.pos := by unfold Ctx.setP; split <;> rfl
@[simp] theorem Ctx.setP_saved (r : BitVec 4) (b : Bool) : (c.setP r b).saved = c.saved := by unfold Ctx.setP; split <;> rfl
@[simp] theorem Ctx.setP_bud (r : BitVec 4) (b : Bool) : (c.setP r b).bud = c.bud := by unfold Ctx.setP; split <;> rfl
@[simp] theorem Ctx.setP_csr (r : BitVec 4) (b : Bool) : (c.setP r b).csr = c.csr := by unfold Ctx.setP; split <;> rfl
@[simp] theorem Ctx.setP_sig (r : BitVec 4) (b : Bool) : (c.setP r b).sig = c.sig := by unfold Ctx.setP; split <;> rfl
@[simp] theorem Ctx.setP_mx (r : BitVec 4) (b : Bool) : (c.setP r b).mx = c.mx := by unfold Ctx.setP; split <;> rfl
@[simp] theorem Ctx.setP_eng (r : BitVec 4) (b : Bool) : (c.setP r b).eng = c.eng := by unfold Ctx.setP; split <;> rfl
@[simp] theorem Ctx.setP_ready (r : BitVec 4) (b : Bool) : (c.setP r b).ready = c.ready := by unfold Ctx.setP; split <;> rfl
@[simp] theorem Ctx.setP_fuse (r : BitVec 4) (b : Bool) : (c.setP r b).fuse = c.fuse := by unfold Ctx.setP; split <;> rfl
@[simp] theorem Ctx.setP_wait (r : BitVec 4) (b : Bool) : (c.setP r b).wait = c.wait := by unfold Ctx.setP; split <;> rfl
@[simp] theorem Ctx.setP_causes (r : BitVec 4) (b : Bool) : (c.setP r b).causes = c.causes := by unfold Ctx.setP; split <;> rfl
@[simp] theorem Ctx.setP_trap (r : BitVec 4) (b : Bool) : (c.setP r b).trap = c.trap := by unfold Ctx.setP; split <;> rfl
@[simp] theorem Ctx.setP_flips (r : BitVec 4) (b : Bool) : (c.setP r b).flips = c.flips := by unfold Ctx.setP; split <;> rfl
@[simp] theorem Ctx.setP_maskOnce (r : BitVec 4) (b : Bool) : (c.setP r b).maskOnce = c.maskOnce := by unfold Ctx.setP; split <;> rfl

@[simp] theorem Ctx.setV_pos (r : BitVec 5) (v : Vec) : (c.setV r v).pos = c.pos := rfl
@[simp] theorem Ctx.setV_saved (r : BitVec 5) (v : Vec) : (c.setV r v).saved = c.saved := rfl
@[simp] theorem Ctx.setV_bud (r : BitVec 5) (v : Vec) : (c.setV r v).bud = c.bud := rfl
@[simp] theorem Ctx.setV_csr (r : BitVec 5) (v : Vec) : (c.setV r v).csr = c.csr := rfl
@[simp] theorem Ctx.setV_sig (r : BitVec 5) (v : Vec) : (c.setV r v).sig = c.sig := rfl
@[simp] theorem Ctx.setV_mx (r : BitVec 5) (v : Vec) : (c.setV r v).mx = c.mx := rfl
@[simp] theorem Ctx.setV_eng (r : BitVec 5) (v : Vec) : (c.setV r v).eng = c.eng := rfl
@[simp] theorem Ctx.setV_ready (r : BitVec 5) (v : Vec) : (c.setV r v).ready = c.ready := rfl
@[simp] theorem Ctx.setV_fuse (r : BitVec 5) (v : Vec) : (c.setV r v).fuse = c.fuse := rfl
@[simp] theorem Ctx.setV_wait (r : BitVec 5) (v : Vec) : (c.setV r v).wait = c.wait := rfl
@[simp] theorem Ctx.setV_causes (r : BitVec 5) (v : Vec) : (c.setV r v).causes = c.causes := rfl
@[simp] theorem Ctx.setV_trap (r : BitVec 5) (v : Vec) : (c.setV r v).trap = c.trap := rfl
@[simp] theorem Ctx.setV_flips (r : BitVec 5) (v : Vec) : (c.setV r v).flips = c.flips := rfl
@[simp] theorem Ctx.setV_maskOnce (r : BitVec 5) (v : Vec) : (c.setV r v).maskOnce = c.maskOnce := rfl

@[simp] theorem Ctx.setSpill_pos (n : BitVec 9) (v : Word) : (c.setSpill n v).pos = c.pos := rfl
@[simp] theorem Ctx.setSpill_saved (n : BitVec 9) (v : Word) : (c.setSpill n v).saved = c.saved := rfl
@[simp] theorem Ctx.setSpill_bud (n : BitVec 9) (v : Word) : (c.setSpill n v).bud = c.bud := rfl
@[simp] theorem Ctx.setSpill_csr (n : BitVec 9) (v : Word) : (c.setSpill n v).csr = c.csr := rfl
@[simp] theorem Ctx.setSpill_sig (n : BitVec 9) (v : Word) : (c.setSpill n v).sig = c.sig := rfl
@[simp] theorem Ctx.setSpill_mx (n : BitVec 9) (v : Word) : (c.setSpill n v).mx = c.mx := rfl
@[simp] theorem Ctx.setSpill_eng (n : BitVec 9) (v : Word) : (c.setSpill n v).eng = c.eng := rfl
@[simp] theorem Ctx.setSpill_ready (n : BitVec 9) (v : Word) : (c.setSpill n v).ready = c.ready := rfl
@[simp] theorem Ctx.setSpill_fuse (n : BitVec 9) (v : Word) : (c.setSpill n v).fuse = c.fuse := rfl
@[simp] theorem Ctx.setSpill_wait (n : BitVec 9) (v : Word) : (c.setSpill n v).wait = c.wait := rfl
@[simp] theorem Ctx.setSpill_causes (n : BitVec 9) (v : Word) : (c.setSpill n v).causes = c.causes := rfl
@[simp] theorem Ctx.setSpill_trap (n : BitVec 9) (v : Word) : (c.setSpill n v).trap = c.trap := rfl
@[simp] theorem Ctx.setSpill_flips (n : BitVec 9) (v : Word) : (c.setSpill n v).flips = c.flips := rfl
@[simp] theorem Ctx.setSpill_maskOnce (n : BitVec 9) (v : Word) : (c.setSpill n v).maskOnce = c.maskOnce := rfl

@[simp] theorem Ctx.setSg_regs (n : BitVec 7) (g : Sig) : (c.setSg n g).regs = c.regs := rfl
@[simp] theorem Ctx.setSg_pos (n : BitVec 7) (g : Sig) : (c.setSg n g).pos = c.pos := rfl
@[simp] theorem Ctx.setSg_saved (n : BitVec 7) (g : Sig) : (c.setSg n g).saved = c.saved := rfl
@[simp] theorem Ctx.setSg_bud (n : BitVec 7) (g : Sig) : (c.setSg n g).bud = c.bud := rfl
@[simp] theorem Ctx.setSg_csr (n : BitVec 7) (g : Sig) : (c.setSg n g).csr = c.csr := rfl
@[simp] theorem Ctx.setSg_mx (n : BitVec 7) (g : Sig) : (c.setSg n g).mx = c.mx := rfl
@[simp] theorem Ctx.setSg_eng (n : BitVec 7) (g : Sig) : (c.setSg n g).eng = c.eng := rfl
@[simp] theorem Ctx.setSg_ready (n : BitVec 7) (g : Sig) : (c.setSg n g).ready = c.ready := rfl
@[simp] theorem Ctx.setSg_fuse (n : BitVec 7) (g : Sig) : (c.setSg n g).fuse = c.fuse := rfl
@[simp] theorem Ctx.setSg_wait (n : BitVec 7) (g : Sig) : (c.setSg n g).wait = c.wait := rfl
@[simp] theorem Ctx.setSg_causes (n : BitVec 7) (g : Sig) : (c.setSg n g).causes = c.causes := rfl
@[simp] theorem Ctx.setSg_trap (n : BitVec 7) (g : Sig) : (c.setSg n g).trap = c.trap := rfl
@[simp] theorem Ctx.setSg_flips (n : BitVec 7) (g : Sig) : (c.setSg n g).flips = c.flips := rfl
@[simp] theorem Ctx.setSg_maskOnce (n : BitVec 7) (g : Sig) : (c.setSg n g).maskOnce = c.maskOnce := rfl

@[simp] theorem Ctx.markWritten_regs (n : BitVec 7) (i u : Nat) : (c.markWritten n i u).regs = c.regs := rfl
@[simp] theorem Ctx.markWritten_pos (n : BitVec 7) (i u : Nat) : (c.markWritten n i u).pos = c.pos := rfl
@[simp] theorem Ctx.markWritten_saved (n : BitVec 7) (i u : Nat) : (c.markWritten n i u).saved = c.saved := rfl
@[simp] theorem Ctx.markWritten_bud (n : BitVec 7) (i u : Nat) : (c.markWritten n i u).bud = c.bud := rfl
@[simp] theorem Ctx.markWritten_csr (n : BitVec 7) (i u : Nat) : (c.markWritten n i u).csr = c.csr := rfl
@[simp] theorem Ctx.markWritten_mx (n : BitVec 7) (i u : Nat) : (c.markWritten n i u).mx = c.mx := rfl
@[simp] theorem Ctx.markWritten_eng (n : BitVec 7) (i u : Nat) : (c.markWritten n i u).eng = c.eng := rfl
@[simp] theorem Ctx.markWritten_ready (n : BitVec 7) (i u : Nat) : (c.markWritten n i u).ready = c.ready := rfl
@[simp] theorem Ctx.markWritten_fuse (n : BitVec 7) (i u : Nat) : (c.markWritten n i u).fuse = c.fuse := rfl
@[simp] theorem Ctx.markWritten_wait (n : BitVec 7) (i u : Nat) : (c.markWritten n i u).wait = c.wait := rfl
@[simp] theorem Ctx.markWritten_causes (n : BitVec 7) (i u : Nat) : (c.markWritten n i u).causes = c.causes := rfl
@[simp] theorem Ctx.markWritten_trap (n : BitVec 7) (i u : Nat) : (c.markWritten n i u).trap = c.trap := rfl
@[simp] theorem Ctx.markWritten_flips (n : BitVec 7) (i u : Nat) : (c.markWritten n i u).flips = c.flips := rfl
@[simp] theorem Ctx.markWritten_maskOnce (n : BitVec 7) (i u : Nat) : (c.markWritten n i u).maskOnce = c.maskOnce := rfl

@[simp] theorem Ctx.markPoison_regs (n : BitVec 7) (i u : Nat) (b : Bool) : (c.markPoison n i u b).regs = c.regs := rfl
@[simp] theorem Ctx.markPoison_pos (n : BitVec 7) (i u : Nat) (b : Bool) : (c.markPoison n i u b).pos = c.pos := rfl
@[simp] theorem Ctx.markPoison_saved (n : BitVec 7) (i u : Nat) (b : Bool) : (c.markPoison n i u b).saved = c.saved := rfl
@[simp] theorem Ctx.markPoison_bud (n : BitVec 7) (i u : Nat) (b : Bool) : (c.markPoison n i u b).bud = c.bud := rfl
@[simp] theorem Ctx.markPoison_csr (n : BitVec 7) (i u : Nat) (b : Bool) : (c.markPoison n i u b).csr = c.csr := rfl
@[simp] theorem Ctx.markPoison_mx (n : BitVec 7) (i u : Nat) (b : Bool) : (c.markPoison n i u b).mx = c.mx := rfl
@[simp] theorem Ctx.markPoison_eng (n : BitVec 7) (i u : Nat) (b : Bool) : (c.markPoison n i u b).eng = c.eng := rfl
@[simp] theorem Ctx.markPoison_ready (n : BitVec 7) (i u : Nat) (b : Bool) : (c.markPoison n i u b).ready = c.ready := rfl
@[simp] theorem Ctx.markPoison_fuse (n : BitVec 7) (i u : Nat) (b : Bool) : (c.markPoison n i u b).fuse = c.fuse := rfl
@[simp] theorem Ctx.markPoison_wait (n : BitVec 7) (i u : Nat) (b : Bool) : (c.markPoison n i u b).wait = c.wait := rfl
@[simp] theorem Ctx.markPoison_causes (n : BitVec 7) (i u : Nat) (b : Bool) : (c.markPoison n i u b).causes = c.causes := rfl
@[simp] theorem Ctx.markPoison_trap (n : BitVec 7) (i u : Nat) (b : Bool) : (c.markPoison n i u b).trap = c.trap := rfl
@[simp] theorem Ctx.markPoison_flips (n : BitVec 7) (i u : Nat) (b : Bool) : (c.markPoison n i u b).flips = c.flips := rfl
@[simp] theorem Ctx.markPoison_maskOnce (n : BitVec 7) (i u : Nat) (b : Bool) : (c.markPoison n i u b).maskOnce = c.maskOnce := rfl

@[simp] theorem Ctx.clearSlot_regs (n : BitVec 7) (i : Nat) : (c.clearSlot n i).regs = c.regs := rfl
@[simp] theorem Ctx.clearSlot_pos (n : BitVec 7) (i : Nat) : (c.clearSlot n i).pos = c.pos := rfl
@[simp] theorem Ctx.clearSlot_saved (n : BitVec 7) (i : Nat) : (c.clearSlot n i).saved = c.saved := rfl
@[simp] theorem Ctx.clearSlot_bud (n : BitVec 7) (i : Nat) : (c.clearSlot n i).bud = c.bud := rfl
@[simp] theorem Ctx.clearSlot_csr (n : BitVec 7) (i : Nat) : (c.clearSlot n i).csr = c.csr := rfl
@[simp] theorem Ctx.clearSlot_mx (n : BitVec 7) (i : Nat) : (c.clearSlot n i).mx = c.mx := rfl
@[simp] theorem Ctx.clearSlot_eng (n : BitVec 7) (i : Nat) : (c.clearSlot n i).eng = c.eng := rfl
@[simp] theorem Ctx.clearSlot_ready (n : BitVec 7) (i : Nat) : (c.clearSlot n i).ready = c.ready := rfl
@[simp] theorem Ctx.clearSlot_fuse (n : BitVec 7) (i : Nat) : (c.clearSlot n i).fuse = c.fuse := rfl
@[simp] theorem Ctx.clearSlot_wait (n : BitVec 7) (i : Nat) : (c.clearSlot n i).wait = c.wait := rfl
@[simp] theorem Ctx.clearSlot_causes (n : BitVec 7) (i : Nat) : (c.clearSlot n i).causes = c.causes := rfl
@[simp] theorem Ctx.clearSlot_trap (n : BitVec 7) (i : Nat) : (c.clearSlot n i).trap = c.trap := rfl
@[simp] theorem Ctx.clearSlot_flips (n : BitVec 7) (i : Nat) : (c.clearSlot n i).flips = c.flips := rfl
@[simp] theorem Ctx.clearSlot_maskOnce (n : BitVec 7) (i : Nat) : (c.clearSlot n i).maskOnce = c.maskOnce := rfl

@[simp] theorem Ctx.clearMarks_regs (n : BitVec 7) : (c.clearMarks n).regs = c.regs := rfl
@[simp] theorem Ctx.clearMarks_pos (n : BitVec 7) : (c.clearMarks n).pos = c.pos := rfl
@[simp] theorem Ctx.clearMarks_saved (n : BitVec 7) : (c.clearMarks n).saved = c.saved := rfl
@[simp] theorem Ctx.clearMarks_bud (n : BitVec 7) : (c.clearMarks n).bud = c.bud := rfl
@[simp] theorem Ctx.clearMarks_csr (n : BitVec 7) : (c.clearMarks n).csr = c.csr := rfl
@[simp] theorem Ctx.clearMarks_mx (n : BitVec 7) : (c.clearMarks n).mx = c.mx := rfl
@[simp] theorem Ctx.clearMarks_eng (n : BitVec 7) : (c.clearMarks n).eng = c.eng := rfl
@[simp] theorem Ctx.clearMarks_ready (n : BitVec 7) : (c.clearMarks n).ready = c.ready := rfl
@[simp] theorem Ctx.clearMarks_fuse (n : BitVec 7) : (c.clearMarks n).fuse = c.fuse := rfl
@[simp] theorem Ctx.clearMarks_wait (n : BitVec 7) : (c.clearMarks n).wait = c.wait := rfl
@[simp] theorem Ctx.clearMarks_causes (n : BitVec 7) : (c.clearMarks n).causes = c.causes := rfl
@[simp] theorem Ctx.clearMarks_trap (n : BitVec 7) : (c.clearMarks n).trap = c.trap := rfl
@[simp] theorem Ctx.clearMarks_flips (n : BitVec 7) : (c.clearMarks n).flips = c.flips := rfl
@[simp] theorem Ctx.clearMarks_maskOnce (n : BitVec 7) : (c.clearMarks n).maskOnce = c.maskOnce := rfl

@[simp] theorem Ctx.forget_regs (n : BitVec 7) : (c.forget n).regs = c.regs := rfl
@[simp] theorem Ctx.forget_pos (n : BitVec 7) : (c.forget n).pos = c.pos := rfl
@[simp] theorem Ctx.forget_saved (n : BitVec 7) : (c.forget n).saved = c.saved := rfl
@[simp] theorem Ctx.forget_bud (n : BitVec 7) : (c.forget n).bud = c.bud := rfl
@[simp] theorem Ctx.forget_csr (n : BitVec 7) : (c.forget n).csr = c.csr := rfl
@[simp] theorem Ctx.forget_sig (n : BitVec 7) : (c.forget n).sig = c.sig := rfl
@[simp] theorem Ctx.forget_mx (n : BitVec 7) : (c.forget n).mx = c.mx := rfl
@[simp] theorem Ctx.forget_ready (n : BitVec 7) : (c.forget n).ready = c.ready := rfl
@[simp] theorem Ctx.forget_fuse (n : BitVec 7) : (c.forget n).fuse = c.fuse := rfl
@[simp] theorem Ctx.forget_wait (n : BitVec 7) : (c.forget n).wait = c.wait := rfl
@[simp] theorem Ctx.forget_causes (n : BitVec 7) : (c.forget n).causes = c.causes := rfl
@[simp] theorem Ctx.forget_trap (n : BitVec 7) : (c.forget n).trap = c.trap := rfl
@[simp] theorem Ctx.forget_flips (n : BitVec 7) : (c.forget n).flips = c.flips := rfl
@[simp] theorem Ctx.forget_maskOnce (n : BitVec 7) : (c.forget n).maskOnce = c.maskOnce := rfl
@[simp] theorem Ctx.forget_eng_handles (n : BitVec 7) : (c.forget n).eng.handles = c.eng.handles := rfl
@[simp] theorem Ctx.forget_eng_copies (n : BitVec 7) : (c.forget n).eng.copies = c.eng.copies := rfl
@[simp] theorem Ctx.forget_eng_fences (n : BitVec 7) : (c.forget n).eng.fences = c.eng.fences := rfl
@[simp] theorem Ctx.forget_eng_nextSeq (n : BitVec 7) : (c.forget n).eng.nextSeq = c.eng.nextSeq := rfl
@[simp] theorem Ctx.forget_eng_taken (n : BitVec 7) : (c.forget n).eng.taken = c.eng.taken := rfl
@[simp] theorem Ctx.forget_eng_cover (n : BitVec 7) : (c.forget n).eng.cover = c.eng.cover := rfl

/-! Reads after writes. -/

variable {s}

/-- A seat that is not the empty one is read back. -/
theorem State.seat_setSeat_same {k : Nat} {x : Seat} (hx : x ≠ {}) : (s.setSeat k x).seat k = x :=
  Sparse.get_set_same hx

theorem State.seat_setSeat_other {k j : Nat} {x : Seat} (hm : Sparse.wf {} s.seats = true) (h : j ≠ k) :
    (s.setSeat k x).seat j = s.seat j := Sparse.get_set_other hm h

/-- A seat whose phase is not idle is not the empty one. -/
theorem Seat.ne_empty {x : Seat} (h : x.phase ≠ .idle) : x ≠ {} := fun e => h (e ▸ rfl)

/-- The context of a seat that is not idle is the one just written. -/
theorem State.seat_updCtx_same {k : Nat} {f : Ctx → Ctx} (h : (s.seat k).phase ≠ .idle) :
    (s.updCtx k f).seat k = { s.seat k with ctx := f (s.seat k).ctx } :=
  State.seat_setSeat_same (Seat.ne_empty h)

theorem State.ctx_updCtx_same {k : Nat} {f : Ctx → Ctx} (h : (s.seat k).phase ≠ .idle) :
    (s.updCtx k f).ctx k = f (s.ctx k) := by
  rw [State.ctx, State.seat_updCtx_same h, State.ctx]

@[simp] theorem State.phase_updCtx {k : Nat} {f : Ctx → Ctx} (h : (s.seat k).phase ≠ .idle) :
    ((s.updCtx k f).seat k).phase = (s.seat k).phase := by
  rw [State.seat_updCtx_same h]

theorem State.seat_updCtx_other {k j : Nat} {f : Ctx → Ctx} (hm : Sparse.wf {} s.seats = true) (h : j ≠ k) :
    (s.updCtx k f).seat j = s.seat j := State.seat_setSeat_other hm h

/-- Two updates of one context are one. -/
theorem State.updCtx_updCtx {k : Nat} {f g : Ctx → Ctx} (h : (s.seat k).phase ≠ .idle) :
    (s.updCtx k f).updCtx k g = s.updCtx k fun c => g (f c) := by
  have h1 := State.seat_updCtx_same (f := f) h
  have h2 : Sparse.set {} (Sparse.set {} s.seats k { s.seat k with ctx := f (s.seat k).ctx }) k
      { s.seat k with ctx := g (f (s.seat k).ctx) } =
      Sparse.set {} s.seats k { s.seat k with ctx := g (f (s.seat k).ctx) } :=
    Sparse.set_set (Seat.ne_empty h) (Seat.ne_empty h)
  unfold State.updCtx State.updSeat at h1 ⊢
  rw [h1]
  simp only [State.setSeat, h2]

/-- A seat is read whatever the cores are. -/
@[simp] theorem State.seat_updCore {c k : Nat} {f : Core → Core} : (s.updCore c f).seat k = s.seat k := rfl
@[simp] theorem State.ctx_updCore {c k : Nat} {f : Core → Core} : (s.updCore c f).ctx k = s.ctx k := rfl
@[simp] theorem State.core_updCtx {c k : Nat} {f : Ctx → Ctx} : (s.updCtx k f).core c = s.core c := rfl
@[simp] theorem State.clk_updCtx {j k : Nat} {f : Ctx → Ctx} : (s.updCtx k f).clk j = s.clk j := rfl

/-- Updates of a seat and of a core commute. -/
theorem State.updCore_updCtx {c k : Nat} {f : Core → Core} {g : Ctx → Ctx} :
    (s.updCore c f).updCtx k g = (s.updCtx k g).updCore c f := rfl

/-! Memory. -/

/-- A write of bytes keeps the canonical form. -/
theorem memWrite_wf {m : List Host.Cell} {a : Nat} {bs : List Byte} (h : Memory.wf m = true) :
    Memory.wf (memWrite m a bs) = true := Sparse.setMany_wf h

theorem memSetByte_wf {m : List Host.Cell} {a : Nat} {b : Byte} (h : Memory.wf m = true) :
    Memory.wf (memSetByte m a b) = true := Sparse.set_wf h

/-- A write reaches no other byte. -/
theorem memByte_memWrite_outside {m : List Host.Cell} {a b : Nat} {bs : List Byte} (h : Memory.wf m = true)
    (hb : b < a ∨ a + bs.length ≤ b) : memByte (memWrite m a bs) b = memByte m b :=
  Sparse.get_setMany_outside h hb

/-- A byte that was written is read back. -/
theorem memByte_memWrite_inside {m : List Host.Cell} {a i : Nat} {bs : List Byte} (h : Memory.wf m = true)
    (hi : i < bs.length) : memByte (memWrite m a bs) (a + i) = bs[i] :=
  Sparse.get_setMany_inside h hi

theorem reset_mem_wf : Memory.wf State.reset.mem = true := rfl

end Sys2Proof.Machine
end

