-- ==== Sys2Proof/Laws/Issue.lean ====
section
/-!
SUPPORT. What the issue of a single instruction does: the one lemma per shared operation of Machine/Issue.lean.
-/
namespace Sys2Proof.Machine
open Sys2Proof

variable {i : Instr} {s : State} {o : SlotOut} {toll traffic : Nat}

/-- The checks of a bundle of one slot find no two destinations. -/
theorem overlapMask_single {α : Type} [DecidableEq α] {n : Nat} {g : Guard} {xs : List α} :
    overlapMask [(n, g, xs)] = 0 := by
  simp [overlapMask]

/-- A well-formed instruction that is not a transfer passes the static checks of R56. -/
theorem staticFault_plain {k : Nat} (hw : i.wf = true) (ht : Instr.transfer i = false) :
    staticFault k (soloBundle i k s) s = (none, s) := by
  have hd : Instr.delays i = false := by
    simp only [Instr.transfer, Bool.or_eq_false_iff] at ht
    exact ht.1
  simp [staticFault, soloBundle, hw, hd, ht, Fetched.transfer, staticOverlap, overlapMask_single]

/-- A well-formed transfer passes them outside every loop and two bundles after the last transfer. -/
theorem staticFault_straight (hw : i.wf = true) (hs : Straight s) :
    staticFault s.cur (soloBundle i s.cur s) s = (none, s) := by
  simp [staticFault, soloBundle, hw, staticOverlap, overlapMask_single, hs.apart, nearLoopEnd, hs.outside]

theorem seatHold_free (hc : CanIssue toll traffic s) (hh : o.hold = .free) (b : Fetched) :
    seatHold s b s.cur [(0, o)] = .free := by
  have h1 : scoreHold (s.ctx s.cur) (s.clk s.cur) o = false := by
    simp only [scoreHold, List.any_eq_false]
    intro e he
    have := hc.final e he
    simp [Nat.not_lt.mpr this]
  have h2 : mergeHold s b s.cur [(0, o)] = false := by simp [mergeHold, hc.first, hc.beside]
  have h3 : gateHold s b s.cur = false := by
    have := hc.ungated
    simp only [gateHold, this, Bool.false_and]
  simp [seatHold, seatWait, bankConflicts, h1, h2, h3, hc.running, hc.examined, hc.whole, hc.banks, hh, Hold.join]

theorem not_due (hc : CanIssue toll traffic s) : (s.ctx s.cur).due = false := by
  have := hc.tolls
  simp only [Ctx.due, decide_eq_false_iff_not]
  omega

theorem issueSeats_single (hc : CanIssue toll traffic s) : issueSeats s.cur s = [s.cur] := by
  simp [issueSeats, hc.single]

/-- A slot whose advances meet nothing in a later state stays as it is. -/
theorem settle_none {u : State} (h : o.late u = none) : o.settle u = o := by
  simp [SlotOut.settle, h]

theorem evalSlots_solo (hc : CanIssue toll traffic s) (ho : slotOf i s.cur s = o) (hl : o.late (o.desc s) = none) :
    evalSlots (soloBundle i s.cur s) s.cur s = [(0, o)] := by
  simp [evalSlots, soloBundle, evalSlot, hc.unmasked, ho, settle_none hl]

/-- One member follows nobody. -/
theorem followLead_single (k : Nat) (u : State) : followLead [k] u = u := by
  simp [followLead]

/-- The syllables of a single-word instruction are too few to split (R64). -/
theorem splits_solo {c : Core} {k : Nat} (hl : (encode i).length = 1) : splits c (soloBundle i k s) = false := by
  obtain ⟨w, hw⟩ := List.length_eq_one_iff.mp hl
  simp only [splits, soloBundle, hw, sealWords, Bool.and_eq_false_iff, decide_eq_false_iff_not, not_le]
  exact .inr (lt_of_le_of_lt (List.length_filter_le _ _) (by simp))

/-- The verdict on an instruction that nothing holds and nothing traps. -/
theorem verdict_go (hc : CanIssue toll o.traffic s)
    (hst : staticFault s.cur (soloBundle i s.cur s) s = (none, s))
    (hh : o.hold = .free) (ht : o.trap = none) (hcall : ∀ a, o.ctl ≠ .call a) (hskip : ∀ a, o.ctl ≠ .skip a)
    (hfuse : ∀ n, o.ctl ≠ .fuse n) (hre : o.ctl ≠ .rejoin) :
    verdict (soloBundle i s.cur s) [s.cur] [(s.cur, [(0, o)])] s =
      (.go (soloBundle i s.cur s).next, s) := by
  have hctl : ctlOf [(0, o)] = o.ctl := by
    by_cases h : o.ctl = .next <;> simp [ctlOf, h]
  have h5 : step5 (s.ctx s.cur) (soloBundle i s.cur s) [(0, o)] = none := by
    simp [step5, sampleOverlap, soloBundle, overlapMask_single, ht]
  have hah : ahead s.cur (soloBundle i s.cur s) o.ctl s = (.ok (soloBundle i s.cur s).next, s) := by
    unfold ahead
    split <;> first | rfl | exact absurd ‹_› (hcall _) | exact absurd ‹_› (hskip _)
  have hm : meets [(0, o)] = false := by
    simp only [meets, List.any_cons, List.any_nil, Bool.or_false, ht, Option.isNone_none, Bool.true_and]
  have htr := hc.traffics
  have hb : budgetVerdict (soloBundle i s.cur s) o.ctl (soloBundle i s.cur s).next [(s.cur, [(0, o)])] s =
      .go (soloBundle i s.cur s).next := by
    simp [budgetVerdict, trafficOf, not_due hc, Int.not_lt.mpr htr]
  simp only [verdict, List.headD_cons, hst, List.map_cons, List.map_nil, List.foldl_cons, List.foldl_nil,
    seatHold_free hc hh, Hold.join, ne_eq, not_true_eq_false, if_false, hm, List.filterMap_cons, h5, Option.map_none,
    List.filterMap_nil, List.isEmpty_nil, Bool.not_true, Bool.false_eq_true, hctl, hah, hb]

/-- An instruction that nothing holds and nothing traps commits. -/
theorem issueOne_commits (hl : (encode i).length = 1) (ho : slotOf i s.cur s = o) (hla : o.late (o.desc s) = none) (hc : CanIssue toll o.traffic s)
    (hst : staticFault s.cur (soloBundle i s.cur s) s = (none, s))
    (hh : o.hold = .free) (ht : o.trap = none) (hcall : ∀ a, o.ctl ≠ .call a) (hskip : ∀ a, o.ctl ≠ .skip a)
    (hbar : ∀ a b, o.ctl ≠ .bar a b) (hfuse : ∀ n, o.ctl ≠ .fuse n) (hre : o.ctl ≠ .rejoin) :
    issueOne i s = .next (commitBlock (soloBundle i s.cur s) o.ctl (soloBundle i s.cur s).next
      [(s.cur, [(0, o)])] s) := by
  have hctl : ctlOf [(0, o)] = o.ctl := by
    by_cases h : o.ctl = .next <;> simp [ctlOf, h]
  have hbarOf : barOf [(0, o)] = none := by
    unfold barOf
    rw [hctl]
    split <;> first | rfl | exact absurd ‹_› (hbar _ _)
  have hw : waiting [(s.cur, [(0, o)])] s = false := by simp [waiting, hc.here]
  have hp : passBlock (soloBundle i s.cur s) (soloBundle i s.cur s).next [(s.cur, [(0, o)])] s =
      commitBlock (soloBundle i s.cur s) o.ctl (soloBundle i s.cur s).next [(s.cur, [(0, o)])] s := by
    have hfin : ∀ ctl a, finish (soloBundle i s.cur s) ctl a [(s.cur, [(0, o)])] s =
        commitBlock (soloBundle i s.cur s) ctl a [(s.cur, [(0, o)])] s := by
      intro ctl a
      simp [finish, splits_solo hl]
    simp only [passBlock, List.map_cons, List.map_nil, List.headD_cons, hctl]
    cases hq : o.ctl <;>
      first
      | exact absurd hq (hfuse _)
      | exact absurd hq hre
      | simp [hbarOf, barsFree, hfin]
  simp only [issueOne, hc.running, if_true, issueBlock, issueSeats_single hc, List.map_cons, List.map_nil,
    evalSlots_solo hc ho hla, hw, Bool.false_eq_true, if_false, verdict_go hc hst hh ht hcall hskip hfuse hre, hp]

/-- Two updates of a core that agree on it are one. -/
theorem State.updCore_congr {s : State} {c : Nat} {f g : Core → Core} (h : f (s.core c) = g (s.core c)) :
    s.updCore c f = s.updCore c g := by
  simp [State.updCore, h]

/-- The effects of the one slot of a bundle (R152). -/
def SlotOut.effect (o : SlotOut) (s : State) : State := o.accept (o.tick (o.desc (o.write s)))

theorem effects_single : effects [(0, o)] s = o.effect s := rfl

/-- What an effect leaves alone for the bundle to commit: the seat runs on, it stands where it stood, and its budget
has not shrunk. -/
structure Keeps (u s : State) : Prop where
  cur : u.cur = s.cur
  phase : (u.seat s.cur).phase = .running
  ibud : (s.ctx s.cur).bud.ibud.toInt ≤ (u.ctx s.cur).bud.ibud.toInt
  pos : (u.ctx s.cur).pos = (s.ctx s.cur).pos

theorem keeps_refl (h : (s.seat s.cur).phase = .running) : Keeps s s := ⟨rfl, h, le_refl _, rfl⟩

theorem Keeps.busy {u : State} (h : Keeps u s) : (u.seat s.cur).phase ≠ .idle := by rw [h.phase]; decide

theorem Keeps.updCtx {u : State} {f : Ctx → Ctx} (h : Keeps u s)
    (hb : ∀ c, (f c).bud.ibud = c.bud.ibud) (hp : ∀ c, (f c).pos = c.pos) : Keeps (u.updCtx s.cur f) s := by
  refine ⟨h.cur, ?_, ?_, ?_⟩
  · rw [State.phase_updCtx h.busy, h.phase]
  · rw [State.ctx_updCtx_same h.busy, hb]; exact h.ibud
  · rw [State.ctx_updCtx_same h.busy, hp, h.pos]

/-- An effect that leaves every seat alone. -/
theorem Keeps.seats {u v : State} (h : Keeps u s) (hc : v.cur = u.cur) (hs : v.seats = u.seats) : Keeps v s := by
  have hk : ∀ k, v.seat k = u.seat k := fun k => by simp [State.seat, hs]
  exact ⟨hc.trans h.cur, by rw [hk, h.phase], by simpa [State.ctx, hk] using h.ibud,
    by simpa [State.ctx, hk] using h.pos⟩

/-- The position is all that the flow of control changes when no RESUME returns. -/
theorem flow_eq {b : Fetched} {ctl : Ctl} {after : Word} {c : Ctx} (h : ∀ p, c.pos.pend = some p → p.ret = false) :
    flow b ctl after c = { c with pos := (flow b ctl after c).pos } := by
  cases hp : c.pos.pend with
  | none => simp [flow, hp]
  | some p =>
    by_cases hl : 1 < p.left
    · simp [flow, hp, hl]
    · cases ht : p.target <;> simp [flow, hp, hl, h p hp, ht]

theorem flow_straight {b : Fetched} {after : Word} {c : Ctx} (hl : c.pos.loops = []) (hp : c.pos.pend = none) :
    (flow b .next after c).pos.pc = b.next := by
  simp [flow, hl, hp, loopEnd, endRev]

theorem soloBundle_next {k : Nat} (h : (encode i).length = 1) :
    (soloBundle i k s).next = (s.ctx k).pos.pc + 8 := by
  obtain ⟨w, hw⟩ := List.length_eq_one_iff.mp h
  simp [soloBundle, Fetched.next, Fetched.size, hw, sealWords]

/-- The commit of an instruction that leaves control alone: its effects, then what every bundle leaves. -/
theorem commitBlock_next (hs : Settled s) (hn : o.ctl = .next)
    (hk : Keeps (o.effect s) s) (hb : ((1 + o.toll : Nat) : Int) < ((o.effect s).ctx s.cur).bud.ibud.toInt)
    (hl : (encode i).length = 1) :
    Retired o.flags o.clearFpst (1 + o.toll) o.traffic (o.effect s)
      (commitBlock (soloBundle i s.cur s) o.ctl (soloBundle i s.cur s).next [(s.cur, [(0, o)])] s) := by
  have hi := hk.busy
  have hp := hk.pos
  let b := soloBundle i s.cur s
  let clk := s.clk s.cur
  let one : Ctx → Ctx := fun c => flow b .next b.next (charge (1 + o.toll) o.traffic { c with
      csr.fpst := (c.csr.fpst &&& ~~~o.clearFpst) ||| o.flags
      ready := newReady c clk [(0, o)]
      wait := { remote := c.wait.remote, bubble := bubbleOf .next, barriers := c.wait.barriers + bit (barReleased c) }
      maskOnce := 0 })
  have hone : ∀ c : Ctx, c.pos = (s.ctx s.cur).pos → one c = charge (1 + o.toll) o.traffic { c with
      pos := (one c).pos
      ready := newReady c clk [(0, o)]
      wait := { remote := c.wait.remote, bubble := bubbleOf .next, barriers := c.wait.barriers + bit (barReleased c) }
      maskOnce := 0
      csr.fpst := (c.csr.fpst &&& ~~~o.clearFpst) ||| o.flags } := by
    intro c hcp
    exact flow_eq (by simpa [charge, hcp, Settled] using hs)
  have htoll : tollOf [(0, o)] = 1 + o.toll := by simp [tollOf]
  have htraf : trafficOf [(0, o)] = o.traffic := by simp [trafficOf]
  have hseat : commitSeat b .next b.next [(0, o)] s.cur s.cur s =
      ((o.effect s).updCtx s.cur one).updCore (coreOf s.cur) fun x =>
        { x with issued := some (issuedAs b [(0, o)] s.cur false x.issued) } := by
    simp [commitSeat, useCore, splits_solo hl, b, effects_single, htoll, htraf, one, clk]
  have hdue : (one ((o.effect s).ctx s.cur)).due = false := by
    have hbud : (one ((o.effect s).ctx s.cur)).bud.ibud =
        ((o.effect s).ctx s.cur).bud.ibud - BitVec.ofNat 48 (1 + o.toll) := by
      rw [hone _ hp]
      simp [charge]
    simp only [Ctx.due, hbud, decide_eq_false_iff_not, not_le]
    have h2 : ((o.effect s).ctx s.cur).bud.ibud.toInt < 2 ^ 47 := by
      have := BitVec.toInt_lt (x := ((o.effect s).ctx s.cur).bud.ibud); simpa using this
    have h3 : ((BitVec.ofNat 48 (1 + o.toll)).toInt) = ((1 + o.toll : Nat) : Int) := by
      rw [BitVec.toInt_ofNat']
      apply Int.bmod_eq_of_le <;> push_cast at * <;> omega
    rw [BitVec.toInt_sub, h3, Int.bmod_eq_of_le] <;> push_cast at * <;> omega
  have hfin : commitBlock b .next b.next [(s.cur, [(0, o)])] s =
      ((o.effect s).updCtx s.cur one).updCore (coreOf s.cur) fun x =>
        { x with issued := some (issuedAs b [(0, o)] s.cur false x.issued) } := by
    have hid : (((o.effect s).updCtx s.cur one).updCtx s.cur fun c => { c with fuse := Ctl.fused .next c.fuse }) =
        (o.effect s).updCtx s.cur one := by
      rw [State.updCtx_updCtx hi]
      rfl
    have hd2 : (((o.effect s).updCtx s.cur one).ctx s.cur).due = false := by
      rw [State.ctx_updCtx_same hi, hdue]
    simp only [commitBlock, List.map_cons, List.map_nil, List.headD_cons, List.foldl_cons, List.foldl_nil, hseat,
      State.updCore_updCtx, hid, followLead_single, afterCommit, State.ctx_updCore, List.any_cons, List.any_nil, hd2, Bool.or_false,
      Bool.and_false, Bool.false_eq_true, if_false]
    split <;> rfl
  have hctx := hone _ hp
  refine ⟨(one ((o.effect s).ctx s.cur)).pos, newReady ((o.effect s).ctx s.cur) clk [(0, o)],
    { remote := ((o.effect s).ctx s.cur).wait.remote, bubble := bubbleOf .next,
      barriers := ((o.effect s).ctx s.cur).wait.barriers + bit (barReleased ((o.effect s).ctx s.cur)) },
    some (issuedAs b [(0, o)] s.cur false ((o.effect s).core (coreOf s.cur)).issued), ?_, ?_⟩
  · rw [hk.cur, hp]
    intro h1 h2
    have : (one ((o.effect s).ctx s.cur)).pos.pc = b.next :=
      flow_straight (by simpa [charge, hp] using h1) (by simpa [charge, hp] using h2)
    rw [this, soloBundle_next hl]
  · rw [hn, hk.cur]
    refine hfin.trans ((State.updCore_congr rfl).trans (?_ : State.updCore _ _ (fun x =>
      { x with issued := some (issuedAs b [(0, o)] s.cur false ((o.effect s).core (coreOf s.cur)).issued) }) = _))
    congr 1
    unfold State.updCtx State.updSeat
    congr 1
    exact congrArg (fun x => ({ (o.effect s).seat s.cur with ctx := x } : Seat)) hctx

/-- The one lemma on instructions that leave control alone: unless something holds or traps, the instruction
retires with the effects of its slot. -/
theorem issueOne_retired (ho : slotOf i s.cur s = o) (hla : o.late (o.desc s) = none) (hc : CanIssue (1 + o.toll) o.traffic s) (hs : Settled s)
    (hw : i.wf = true) (htr : Instr.transfer i = false) (hh : o.hold = .free) (ht : o.trap = none)
    (hn : o.ctl = .next) (hk : Keeps (o.effect s) s) (hl : (encode i).length = 1) :
    ∃ t, issueOne i s = .next t ∧ Retired o.flags o.clearFpst (1 + o.toll) o.traffic (o.effect s) t :=
  ⟨_, issueOne_commits hl ho hla hc (staticFault_plain hw htr) hh ht (by simp [hn]) (by simp [hn]) (by simp [hn])
    (by simp [hn]) (by simp [hn]), commitBlock_next hs hn hk (lt_of_lt_of_le hc.tolls hk.ibud) hl⟩

/-- An instruction completes once its slot is known. -/
theorem completes_of_slot {eff : State → State} {fl : Flags} {t' : Nat} (he : exec i s = issueOne i s)
    (ho : slotOf i s.cur s = o) (hla : o.late (o.desc s) = none) (hc : CanIssue (1 + o.toll) o.traffic s)
    (hs : Settled s)
    (hw : i.wf = true) (htr : Instr.transfer i = false) (hh : o.hold = .free) (ht : o.trap = none) (hn : o.ctl = .next)
    (hf : o.flags = fl) (hcl : o.clearFpst = 0) (htoll : 1 + o.toll = t') (htraf : o.traffic = traffic)
    (heff : o.effect s = eff s) (hk : Keeps (eff s) s) (hl : (encode i).length = 1) :
    Completes i s eff fl t' traffic := by
  subst hf htoll htraf
  obtain ⟨t, h, hr⟩ := issueOne_retired ho hla hc hs hw htr hh ht hn (heff ▸ hk) hl
  rw [heff, hcl] at hr
  exact ⟨t, he.trans h, hr⟩

/-- The same for an instruction that only changes the registers of its seat. -/
theorem computes_of_slot {f : Ctx → Ctx} {fl : Flags} (he : exec i s = issueOne i s) (ho : slotOf i s.cur s = o)
    (hla : o.late (o.desc s) = none) (hc : CanIssue 1 0 s) (hs : Settled s) (hw : i.wf = true) (htr : Instr.transfer i = false) (hh : o.hold = .free)
    (ht : o.trap = none) (hn : o.ctl = .next) (hf : o.flags = fl) (hcl : o.clearFpst = 0) (htoll : o.toll = 0)
    (htraf : o.traffic = 0) (heff : o.effect s = s.updCtx s.cur f) (hb : ∀ c, (f c).bud.ibud = c.bud.ibud)
    (hp : ∀ c, (f c).pos = c.pos) (hl : (encode i).length = 1) : Computes i s f fl :=
  completes_of_slot he ho hla (by rw [htoll, htraf]; exact hc) hs hw htr hh ht hn hf hcl (by rw [htoll]) htraf heff
    ((keeps_refl hc.running).updCtx hb hp) hl

end Sys2Proof.Machine
end

