-- ==== Sys2Proof/Laws/PerInstr.lean ====
section
/-!
SUPPORT. Laws per instruction. EncodedWords: an instruction has at most two syllables, and each has E clear and a class
that R33 defines.
-/
namespace Sys2Proof.Laws.EncodedWords
open Sys2Proof

/-- The syllables of an instruction. -/
def Statement (i : Instr) : Prop := (encode i).length ≤ 2 ∧ ∀ w ∈ encode i, w < 6 * 2 ^ 60

theorem of_one {i : Instr} {w : Nat} (h : encode i = [w]) (hw : w < 6 * 2 ^ 60) : Statement i :=
  ⟨by simp [h], fun x hx => by simp only [h, List.mem_singleton] at hx; omega⟩

theorem of_none {i : Instr} (h : encode i = []) : Statement i := by simp [Statement, h]

/-! Bounds of the parts. -/

theorem bit_le (b : Bool) : bit b ≤ 1 := by cases b <;> decide

theorem head_lt (op : Nat) (g : Guard) {cls : Nat} (hc : cls < 5) (ho : op < 256) : head cls op g ≤ 5 * 2 ^ 60 - 2 ^ 47 := by
  have := bit_le g.neg
  have := g.pred.isLt
  simp only [head, guardBits, put]
  omega

theorem condCode_lt (c : Cond) : condCode c < 8 := by cases c <;> decide
theorem scopeCode_lt (c : Scope) : scopeCode c < 8 := by cases c <;> decide
theorem fenceKindCode_lt (k : FenceKind) : fenceKindCode k < 4 := by cases k <;> decide
theorem vtyCode_lt (t : VTy) : vtyCode t < 4 := by cases t <;> decide

theorem vopCode_lt (x : VOp) : vopCode x < 2 ^ 15 := by
  cases x with
  | tap s l => have := s.isLt; have := l.isLt; simp only [vopCode, put]; omega
  | vreg r => have := r.isLt; simp only [vopCode, put]; omega
  | sreg r => have := r.isLt; simp only [vopCode, put]; omega
  | imm i => have := i.isLt; simp only [vopCode, put]; omega

theorem mkindCode_lt (k : MKind) : mkindCode k < 2 ^ 13 := by
  cases k with
  | ni8 p => have := p.isLt; simp only [mkindCode, put]; omega
  | bf16 => decide
  | fp16 => decide

theorem rowsBits_lt (r : MRows) : rowsBits r ≤ 2 ^ 29 - 2 ^ 13 := by
  have := r.rows.isLt
  have := r.off.isLt
  simp only [rowsBits, put]
  omega

/-! Bounds of the formats. -/

theorem encC_lt {op x : Nat} {g : Guard} (ho : op < 256) (hx : x < 2 ^ 47) : encC op g x < 6 * 2 ^ 60 := by
  have := head_lt op g (cls := 0) (by decide) ho
  simp only [encC]
  omega

theorem encS_lt {op x : Nat} {g : Guard} {rd ra : BitVec 6} (ho : op < 256) (hx : x < 2 ^ 35) :
    head 1 op g + put 41 rd + put 35 ra + x < 6 * 2 ^ 60 := by
  have := head_lt op g (cls := 1) (by decide) ho
  have := rd.isLt
  have := ra.isLt
  simp only [put]
  omega

theorem encSR_lt {op : Nat} {g : Guard} {rd ra rb : BitVec 6} (ho : op < 256) : encSR op g rd ra rb < 6 * 2 ^ 60 :=
  encS_lt ho (by have := rb.isLt; simp only [put]; omega)

theorem encSI_lt {op : Nat} {g : Guard} {rd ra : BitVec 6} {imm : Nat} (ho : op < 256) (hi : imm < 2 ^ 35) :
    encSI op g rd ra imm < 6 * 2 ^ 60 := encS_lt ho hi

theorem encSP_lt {op x : Nat} {g : Guard} {pd : BitVec 4} {c : Cond} {ra : BitVec 6} (ho : op < 256) (hx : x < 2 ^ 34) :
    encSP op g pd c ra x < 6 * 2 ^ 60 := by
  have := head_lt op g (cls := 1) (by decide) ho
  have := pd.isLt
  have := condCode_lt c
  have := ra.isLt
  simp only [encSP, put]
  omega

theorem encSQ_lt {op : Nat} {g : Guard} {pd pa pb : BitVec 4} (ho : op < 256) : encSQ op g pd pa pb < 6 * 2 ^ 60 := by
  have := head_lt op g (cls := 1) (by decide) ho
  have := pd.isLt
  have := pa.isLt
  have := pb.isLt
  simp only [encSQ, put]
  omega

theorem encSG_lt {op x : Nat} {g : Guard} {r : BitVec 6} {sig : BitVec 7} (ho : op < 256) (hx : x < 2 ^ 34) :
    encSG op g r sig x < 6 * 2 ^ 60 := by
  have := head_lt op g (cls := 1) (by decide) ho
  have := r.isLt
  have := sig.isLt
  simp only [encSG, put]
  omega

theorem encV_lt {op b rm : Nat} {g : Guard} {t : VTy} {d a : VOp} (ho : op < 64) (hb : b < 2 ^ 15) (hr : rm < 4) :
    encV op g t d a b rm < 6 * 2 ^ 60 := by
  have := vtyCode_lt t
  have := head_lt (vtyCode t * 64 + op) g (cls := 2) (by decide) (by omega)
  have := vopCode_lt d
  have := vopCode_lt a
  simp only [encV]
  omega

theorem encV3m_lt {op : Nat} {g : Guard} {t : VTy} {d a b : VOp} {rm : BitVec 2} (ho : op < 64) :
    encV3m op g t d a b rm < 6 * 2 ^ 60 := encV_lt ho (vopCode_lt b) rm.isLt
theorem encV3_lt {op : Nat} {g : Guard} {t : VTy} {d a b : VOp} (ho : op < 64) : encV3 op g t d a b < 6 * 2 ^ 60 :=
  encV_lt ho (vopCode_lt b) (by decide)
theorem encV2m_lt {op : Nat} {g : Guard} {t : VTy} {d a : VOp} {rm : BitVec 2} (ho : op < 64) :
    encV2m op g t d a rm < 6 * 2 ^ 60 := encV_lt ho (by decide) rm.isLt
theorem encV2_lt {op : Nat} {g : Guard} {t : VTy} {d a : VOp} (ho : op < 64) : encV2 op g t d a < 6 * 2 ^ 60 :=
  encV_lt ho (by decide) (by decide)

theorem encMA_lt {op mode : Nat} {g : Guard} {tile : BitVec 1} {sig lag : BitVec 7} {r : MRows} (ho : op < 256) (hm : mode < 4) :
    encMA op mode g tile sig lag r < 6 * 2 ^ 60 := by
  have := head_lt op g (cls := 3) (by decide) ho
  have := tile.isLt
  have := sig.isLt
  have := lag.isLt
  have := rowsBits_lt r
  simp only [encMA, put]
  omega

theorem encMM_lt {op : Nat} {g : Guard} {tile l : BitVec 1} {sig lag : BitVec 7} {r : MRows} {k : MKind} (ho : op < 256) :
    encMM op g tile l sig lag r k < 6 * 2 ^ 60 := by
  have := head_lt op g (cls := 3) (by decide) ho
  have := tile.isLt
  have := l.isLt
  have := sig.isLt
  have := lag.isLt
  have := rowsBits_lt r
  have := mkindCode_lt k
  simp only [encMM, put]
  omega

/-- M operands below the head. -/
theorem encM_lt {op x : Nat} {g : Guard} (ho : op < 256) (hx : x < 2 ^ 47) : head 3 op g + x < 6 * 2 ^ 60 := by
  have := head_lt op g (cls := 3) (by decide) ho
  omega

/-- X operands below the head. -/
theorem encX_lt {op x : Nat} {g : Guard} (ho : op < 256) (hx : x < 2 ^ 47) : head 4 op g + x < 6 * 2 ^ 60 := by
  have := head_lt op g (cls := 4) (by decide) ho
  omega

theorem encXC_lt {op : Nat} {g : Guard} {o : XcOps} (ho : op < 256) : encXC op g o < 6 * 2 ^ 60 := by
  have := head_lt op g (cls := 4) (by decide) ho
  have := o.sig.isLt
  have := o.ra.isLt
  have := o.nest.isLt
  have := o.inc.isLt
  have := o.acls.isLt
  have := o.tcls.isLt
  have := o.h.isLt
  have := o.flags.isLt
  simp only [encXC, put]
  omega

theorem encXG_lt {op : Nat} {g : Guard} {o : XgOps} (ho : op < 256) : encXG op g o < 6 * 2 ^ 60 := by
  have := head_lt op g (cls := 4) (by decide) ho
  have := o.sig.isLt
  have := o.idx.isLt
  have := o.ra.isLt
  have := o.nest.isLt
  have := o.lag.isLt
  have := o.acls.isLt
  have := o.tcls.isLt
  have := o.h.isLt
  have := o.flags.isLt
  simp only [encXG, put]
  omega

theorem encXF_lt {op : Nat} {g : Guard} {sc : Scope} {k : FenceKind} {m : BitVec 8} (ho : op < 256) :
    encXF op g sc k m < 6 * 2 ^ 60 := by
  have := head_lt op g (cls := 4) (by decide) ho
  have := scopeCode_lt sc
  have := fenceKindCode_lt k
  have := m.isLt
  simp only [encXF, put]
  omega

theorem encXN_lt {op : Nat} {g : Guard} {sig : BitVec 7} {ra : BitVec 6} {h : BitVec 4} (ho : op < 256) :
    encXN op g sig ra h < 6 * 2 ^ 60 := by
  have := head_lt op g (cls := 4) (by decide) ho
  have := sig.isLt
  have := ra.isLt
  have := h.isLt
  simp only [encXN, put]
  omega

theorem encXK_lt {op flag sig : Nat} {g : Guard} {ra rd : BitVec 6} (ho : op < 256) (hf : flag < 16) (hs : sig < 128) :
    encXK op flag sig g ra rd < 6 * 2 ^ 60 := by
  have := head_lt op g (cls := 4) (by decide) ho
  have := ra.isLt
  have := rd.isLt
  simp only [encXK, put]
  omega

theorem encBrm_lt (ts : List BrmTest) : (encBrm ts).length ≤ 2 ∧ ∀ w ∈ encBrm ts, w < 6 * 2 ^ 60 := by
  have hh := head_lt 2 .always (cls := 0) (by decide) (by decide)
  have ht : ∀ t : BrmTest, testBits t < 32 := fun t => by
    have := bit_le t.neg
    have := t.pred.isLt
    simp only [testBits]
    omega
  have hd : ∀ t : BrmTest, t.disp.toNat < 2 ^ 16 := fun t => t.disp.isLt
  match ts with
  | [] => simp [encBrm]
  | [t0] => have := ht t0; have := hd t0; simp only [encBrm, put, List.length_cons, List.length_nil, List.mem_cons, List.not_mem_nil, or_false, forall_eq]; omega
  | [t0, t1] =>
    have := ht t0; have := ht t1; have := hd t0; have := hd t1
    simp only [encBrm, put, List.length_cons, List.length_nil, List.mem_cons, List.not_mem_nil, or_false, forall_eq_or_imp, forall_eq]
    omega
  | [t0, t1, t2] =>
    have := ht t0; have := ht t1; have := ht t2; have := hd t0; have := hd t1; have := hd t2
    simp only [encBrm, put, List.length_cons, List.length_nil, List.mem_cons, List.not_mem_nil, or_false, forall_eq_or_imp, forall_eq]
    omega
  | [t0, t1, t2, t3] =>
    have := ht t0; have := ht t1; have := ht t2; have := ht t3; have := hd t0; have := hd t1; have := hd t2; have := hd t3
    simp only [encBrm, put, List.length_cons, List.length_nil, List.mem_cons, List.not_mem_nil, or_false, forall_eq_or_imp, forall_eq]
    omega
  | _ :: _ :: _ :: _ :: _ :: _ => simp [encBrm]

/-! One lemma per instruction. -/

theorem nop (g : Guard) : Statement (.nop g) := of_one rfl (encC_lt (by decide) (by decide))
theorem br (g : Guard) (disp : BitVec 32) : Statement (.br g disp) :=
  of_one rfl (encC_lt (by decide) (by have := disp.isLt; simp only [put]; omega))
theorem brm (tests : List BrmTest) : Statement (.brm tests) := encBrm_lt tests
theorem jr (g : Guard) (ra : BitVec 6) : Statement (.jr g ra) :=
  of_one rfl (encC_lt (by decide) (by have := ra.isLt; simp only [put]; omega))
theorem call (g : Guard) (disp : BitVec 32) : Statement (.call g disp) :=
  of_one rfl (encC_lt (by decide) (by have := disp.isLt; simp only [put]; omega))
theorem callr (g : Guard) (ra : BitVec 6) : Statement (.callr g ra) :=
  of_one rfl (encC_lt (by decide) (by have := ra.isLt; simp only [put]; omega))
theorem ret (g : Guard) : Statement (.ret g) := of_one rfl (encC_lt (by decide) (by decide))
theorem loop (g : Guard) (count last : BitVec 16) : Statement (.loop g count last) :=
  of_one rfl (encC_lt (by decide) (by have := count.isLt; have := last.isLt; simp only [put]; omega))
theorem loopr (g : Guard) (ra : BitVec 6) (last : BitVec 16) : Statement (.loopr g ra last) :=
  of_one rfl (encC_lt (by decide) (by have := ra.isLt; have := last.isLt; simp only [put]; omega))
theorem lexit (g : Guard) : Statement (.lexit g) := of_one rfl (encC_lt (by decide) (by decide))
theorem tick (g : Guard) (n : BitVec 8) : Statement (.tick g n) :=
  of_one rfl (encC_lt (by decide) (by have := n.isLt; simp only [put]; omega))
theorem adv (g : Guard) (sig : BitVec 7) (n : BitVec 8) : Statement (.adv g sig n) :=
  of_one rfl (encC_lt (by decide) (by have := sig.isLt; have := n.isLt; simp only [put]; omega))
theorem ypt (g : Guard) : Statement (.ypt g) := of_one rfl (encC_lt (by decide) (by decide))
theorem yield (g : Guard) : Statement (.yield g) := of_one rfl (encC_lt (by decide) (by decide))
theorem cont (g : Guard) (disp : BitVec 32) : Statement (.cont g disp) :=
  of_one rfl (encC_lt (by decide) (by have := disp.isLt; simp only [put]; omega))
theorem resume (g : Guard) : Statement (.resume g) := of_one rfl (encC_lt (by decide) (by decide))
theorem topup (g : Guard) (ra : BitVec 6) (tbud : Bool) : Statement (.topup g ra tbud) :=
  of_one rfl (encC_lt (by decide) (by have := ra.isLt; have := bit_le tbud; simp only [put]; omega))
theorem exit (g : Guard) : Statement (.exit g) := of_one rfl (encC_lt (by decide) (by decide))
theorem trap (g : Guard) (code : BitVec 16) : Statement (.trap g code) :=
  of_one rfl (encC_lt (by decide) (by have := code.isLt; simp only [put]; omega))
theorem waitev (g : Guard) (mask : BitVec 16) : Statement (.waitev g mask) :=
  of_one rfl (encC_lt (by decide) (by have := mask.isLt; simp only [put]; omega))
theorem sigev (g : Guard) (sc : Scope) (target : BitVec 6) (ev : BitVec 4) : Statement (.sigev g sc target ev) :=
  of_one rfl (encC_lt (by decide) (by have := scopeCode_lt sc; have := target.isLt; have := ev.isLt; simp only [put]; omega))
theorem bar (g : Guard) (sc : Scope) (id : BitVec 6) : Statement (.bar g sc id) :=
  of_one rfl (encC_lt (by decide) (by have := scopeCode_lt sc; have := id.isLt; simp only [put]; omega))
theorem fuse (g : Guard) (span : BitVec 3) : Statement (.fuse g span) :=
  of_one rfl (encC_lt (by decide) (by have := span.isLt; simp only [put]; omega))
theorem decouple (g : Guard) : Statement (.decouple g) := of_one rfl (encC_lt (by decide) (by decide))
theorem rejoin (g : Guard) : Statement (.rejoin g) := of_one rfl (encC_lt (by decide) (by decide))
theorem add (g : Guard) (rd ra rb : BitVec 6) : Statement (.add g rd ra rb) := of_one rfl (encSR_lt (by decide))
theorem sub (g : Guard) (rd ra rb : BitVec 6) : Statement (.sub g rd ra rb) := of_one rfl (encSR_lt (by decide))
theorem mul (g : Guard) (rd ra rb : BitVec 6) : Statement (.mul g rd ra rb) := of_one rfl (encSR_lt (by decide))
theorem mulh (g : Guard) (rd ra rb : BitVec 6) : Statement (.mulh g rd ra rb) := of_one rfl (encSR_lt (by decide))
theorem mulhu (g : Guard) (rd ra rb : BitVec 6) : Statement (.mulhu g rd ra rb) := of_one rfl (encSR_lt (by decide))
theorem div (g : Guard) (rd ra rb : BitVec 6) : Statement (.div g rd ra rb) := of_one rfl (encSR_lt (by decide))
theorem divu (g : Guard) (rd ra rb : BitVec 6) : Statement (.divu g rd ra rb) := of_one rfl (encSR_lt (by decide))
theorem rem (g : Guard) (rd ra rb : BitVec 6) : Statement (.rem g rd ra rb) := of_one rfl (encSR_lt (by decide))
theorem and (g : Guard) (rd ra rb : BitVec 6) : Statement (.and g rd ra rb) := of_one rfl (encSR_lt (by decide))
theorem or (g : Guard) (rd ra rb : BitVec 6) : Statement (.or g rd ra rb) := of_one rfl (encSR_lt (by decide))
theorem xor (g : Guard) (rd ra rb : BitVec 6) : Statement (.xor g rd ra rb) := of_one rfl (encSR_lt (by decide))
theorem andn (g : Guard) (rd ra rb : BitVec 6) : Statement (.andn g rd ra rb) := of_one rfl (encSR_lt (by decide))
theorem shl (g : Guard) (rd ra rb : BitVec 6) : Statement (.shl g rd ra rb) := of_one rfl (encSR_lt (by decide))
theorem shr (g : Guard) (rd ra rb : BitVec 6) : Statement (.shr g rd ra rb) := of_one rfl (encSR_lt (by decide))
theorem sar (g : Guard) (rd ra rb : BitVec 6) : Statement (.sar g rd ra rb) := of_one rfl (encSR_lt (by decide))
theorem min (g : Guard) (rd ra rb : BitVec 6) : Statement (.min g rd ra rb) := of_one rfl (encSR_lt (by decide))
theorem max (g : Guard) (rd ra rb : BitVec 6) : Statement (.max g rd ra rb) := of_one rfl (encSR_lt (by decide))
theorem minu (g : Guard) (rd ra rb : BitVec 6) : Statement (.minu g rd ra rb) := of_one rfl (encSR_lt (by decide))
theorem maxu (g : Guard) (rd ra rb : BitVec 6) : Statement (.maxu g rd ra rb) := of_one rfl (encSR_lt (by decide))
theorem clz (g : Guard) (rd ra : BitVec 6) : Statement (.clz g rd ra) := of_one rfl (encSR_lt (by decide))
theorem popc (g : Guard) (rd ra : BitVec 6) : Statement (.popc g rd ra) := of_one rfl (encSR_lt (by decide))
theorem sel (g : Guard) (rd ra rb : BitVec 6) (p : BitVec 4) : Statement (.sel g rd ra rb p) := by
  refine of_one rfl ?_
  have := head_lt 0x15 g (cls := 1) (by decide) (by decide)
  have := rd.isLt
  have := ra.isLt
  have := rb.isLt
  have := p.isLt
  simp only [encSR, put]
  omega
theorem addi (g : Guard) (rd ra : BitVec 6) (imm : BitVec 35) : Statement (.addi g rd ra imm) :=
  of_one rfl (encSI_lt (by decide) imm.isLt)
theorem andi (g : Guard) (rd ra : BitVec 6) (imm : BitVec 35) : Statement (.andi g rd ra imm) :=
  of_one rfl (encSI_lt (by decide) imm.isLt)
theorem ori (g : Guard) (rd ra : BitVec 6) (imm : BitVec 35) : Statement (.ori g rd ra imm) :=
  of_one rfl (encSI_lt (by decide) imm.isLt)
theorem xori (g : Guard) (rd ra : BitVec 6) (imm : BitVec 35) : Statement (.xori g rd ra imm) :=
  of_one rfl (encSI_lt (by decide) imm.isLt)
theorem shli (g : Guard) (rd ra sh : BitVec 6) : Statement (.shli g rd ra sh) :=
  of_one rfl (encSI_lt (by decide) (by have := sh.isLt; omega))
theorem shri (g : Guard) (rd ra sh : BitVec 6) : Statement (.shri g rd ra sh) :=
  of_one rfl (encSI_lt (by decide) (by have := sh.isLt; omega))
theorem sari (g : Guard) (rd ra sh : BitVec 6) : Statement (.sari g rd ra sh) :=
  of_one rfl (encSI_lt (by decide) (by have := sh.isLt; omega))
theorem movi (g : Guard) (rd : BitVec 6) (imm : BitVec 35) : Statement (.movi g rd imm) :=
  of_one rfl (encSI_lt (by decide) imm.isLt)
theorem movhi (g : Guard) (rd ra : BitVec 6) (imm : BitVec 32) : Statement (.movhi g rd ra imm) :=
  of_one rfl (encSI_lt (by decide) (by have := imm.isLt; omega))
theorem cmp (g : Guard) (pd : BitVec 4) (c : Cond) (ra rb : BitVec 6) : Statement (.cmp g pd c ra rb) :=
  of_one rfl (encSP_lt (by decide) (by have := rb.isLt; simp only [put]; omega))
theorem cmpi (g : Guard) (pd : BitVec 4) (c : Cond) (ra : BitVec 6) (imm : BitVec 34) : Statement (.cmpi g pd c ra imm) :=
  of_one rfl (encSP_lt (by decide) (by have := imm.isLt; omega))
theorem pand (g : Guard) (pd pa pb : BitVec 4) : Statement (.pand g pd pa pb) := of_one rfl (encSQ_lt (by decide))
theorem por (g : Guard) (pd pa pb : BitVec 4) : Statement (.por g pd pa pb) := of_one rfl (encSQ_lt (by decide))
theorem pxor (g : Guard) (pd pa pb : BitVec 4) : Statement (.pxor g pd pa pb) := of_one rfl (encSQ_lt (by decide))
theorem pandn (g : Guard) (pd pa pb : BitVec 4) : Statement (.pandn g pd pa pb) := of_one rfl (encSQ_lt (by decide))
theorem pset (g : Guard) (pd : BitVec 4) (ra : BitVec 6) : Statement (.pset g pd ra) := by
  refine of_one rfl ?_
  have := head_lt 0x3C g (cls := 1) (by decide) (by decide)
  have := pd.isLt
  have := ra.isLt
  simp only [put]
  omega
theorem spld (g : Guard) (rd : BitVec 6) (slot : BitVec 9) : Statement (.spld g rd slot) := by
  refine of_one rfl ?_
  have := head_lt 0x40 g (cls := 1) (by decide) (by decide)
  have := rd.isLt
  have := slot.isLt
  simp only [put]
  omega
theorem spst (g : Guard) (ra : BitVec 6) (slot : BitVec 9) : Statement (.spst g ra slot) := by
  refine of_one rfl ?_
  have := head_lt 0x41 g (cls := 1) (by decide) (by decide)
  have := ra.isLt
  have := slot.isLt
  simp only [put]
  omega
theorem csrr (g : Guard) (rd : BitVec 6) (csr : BitVec 12) : Statement (.csrr g rd csr) := by
  refine of_one rfl ?_
  have := head_lt 0x42 g (cls := 1) (by decide) (by decide)
  have := rd.isLt
  have := csr.isLt
  simp only [put]
  omega
theorem csrw (g : Guard) (ra : BitVec 6) (csr : BitVec 12) : Statement (.csrw g ra csr) := by
  refine of_one rfl ?_
  have := head_lt 0x43 g (cls := 1) (by decide) (by decide)
  have := ra.isLt
  have := csr.isLt
  simp only [put]
  omega
theorem lidx (g : Guard) (rd : BitVec 6) (level : BitVec 3) : Statement (.lidx g rd level) := by
  refine of_one rfl ?_
  have := head_lt 0x44 g (cls := 1) (by decide) (by decide)
  have := rd.isLt
  have := level.isLt
  simp only [put]
  omega
theorem fadd (g : Guard) (rd ra rb : BitVec 6) : Statement (.fadd g rd ra rb) := of_one rfl (encSR_lt (by decide))
theorem fsub (g : Guard) (rd ra rb : BitVec 6) : Statement (.fsub g rd ra rb) := of_one rfl (encSR_lt (by decide))
theorem fmul (g : Guard) (rd ra rb : BitVec 6) : Statement (.fmul g rd ra rb) := of_one rfl (encSR_lt (by decide))
theorem ffma (g : Guard) (rd ra rb : BitVec 6) : Statement (.ffma g rd ra rb) := of_one rfl (encSR_lt (by decide))
theorem fmin (g : Guard) (rd ra rb : BitVec 6) : Statement (.fmin g rd ra rb) := of_one rfl (encSR_lt (by decide))
theorem fmax (g : Guard) (rd ra rb : BitVec 6) : Statement (.fmax g rd ra rb) := of_one rfl (encSR_lt (by decide))
theorem fcmp (g : Guard) (pd : BitVec 4) (c : Cond) (ra rb : BitVec 6) : Statement (.fcmp g pd c ra rb) :=
  of_one rfl (encSP_lt (by decide) (by have := rb.isLt; simp only [put]; omega))
theorem fcvti (g : Guard) (rd ra : BitVec 6) : Statement (.fcvti g rd ra) := of_one rfl (encSR_lt (by decide))
theorem icvtf (g : Guard) (rd ra : BitVec 6) : Statement (.icvtf g rd ra) := of_one rfl (encSR_lt (by decide))
theorem sigset (g : Guard) (ra : BitVec 6) (sig : BitVec 7) (field : BitVec 4) (level : BitVec 3) : Statement (.sigset g ra sig field level) :=
  of_one rfl (encSG_lt (by decide) (by have := field.isLt; have := level.isLt; simp only [put]; omega))
theorem sigget (g : Guard) (rd : BitVec 6) (sig : BitVec 7) (field : BitVec 4) (level : BitVec 3) : Statement (.sigget g rd sig field level) :=
  of_one rfl (encSG_lt (by decide) (by have := field.isLt; have := level.isLt; simp only [put]; omega))
theorem sigclr (g : Guard) (sig : BitVec 7) : Statement (.sigclr g sig) := of_one rfl (encSG_lt (by decide) (by decide))
theorem fillmk (g : Guard) (sig : BitVec 7) (lag : BitVec 8) : Statement (.fillmk g sig lag) :=
  of_one rfl (encSG_lt (by decide) (by have := lag.isLt; simp only [put]; omega))
theorem waitfill (g : Guard) (rd : BitVec 6) (sig : BitVec 7) (k : BitVec 8) : Statement (.waitfill g rd sig k) :=
  of_one rfl (encSG_lt (by decide) (by have := k.isLt; simp only [put]; omega))
theorem taprd (g : Guard) (rd : BitVec 6) (sig : BitVec 7) (lag : BitVec 8) : Statement (.taprd g rd sig lag) :=
  of_one rfl (encSG_lt (by decide) (by have := lag.isLt; simp only [put]; omega))
theorem tapwr (g : Guard) (ra : BitVec 6) (sig : BitVec 7) (lag : BitVec 8) : Statement (.tapwr g ra sig lag) :=
  of_one rfl (encSG_lt (by decide) (by have := lag.isLt; simp only [put]; omega))
theorem vadd (g : Guard) (t : VTy) (d a b : VOp) (rm : BitVec 2) : Statement (.vadd g t d a b rm) :=
  of_one rfl (encV3m_lt (by decide))
theorem vsub (g : Guard) (t : VTy) (d a b : VOp) (rm : BitVec 2) : Statement (.vsub g t d a b rm) :=
  of_one rfl (encV3m_lt (by decide))
theorem vmul (g : Guard) (t : VTy) (d a b : VOp) (rm : BitVec 2) : Statement (.vmul g t d a b rm) :=
  of_one rfl (encV3m_lt (by decide))
theorem vfma (g : Guard) (t : VTy) (d a b : VOp) (rm : BitVec 2) : Statement (.vfma g t d a b rm) :=
  of_one rfl (encV3m_lt (by decide))
theorem vfms (g : Guard) (t : VTy) (d a b : VOp) (rm : BitVec 2) : Statement (.vfms g t d a b rm) :=
  of_one rfl (encV3m_lt (by decide))
theorem vmin (g : Guard) (t : VTy) (d a b : VOp) : Statement (.vmin g t d a b) := of_one rfl (encV3_lt (by decide))
theorem vmax (g : Guard) (t : VTy) (d a b : VOp) : Statement (.vmax g t d a b) := of_one rfl (encV3_lt (by decide))
theorem vabs (g : Guard) (t : VTy) (d a : VOp) : Statement (.vabs g t d a) := of_one rfl (encV2_lt (by decide))
theorem vneg (g : Guard) (t : VTy) (d a : VOp) : Statement (.vneg g t d a) := of_one rfl (encV2_lt (by decide))
theorem vcmpeq (g : Guard) (t : VTy) (d a b : VOp) : Statement (.vcmpeq g t d a b) := of_one rfl (encV3_lt (by decide))
theorem vcmplt (g : Guard) (t : VTy) (d a b : VOp) : Statement (.vcmplt g t d a b) := of_one rfl (encV3_lt (by decide))
theorem vcmple (g : Guard) (t : VTy) (d a b : VOp) : Statement (.vcmple g t d a b) := of_one rfl (encV3_lt (by decide))
theorem vsel (g : Guard) (t : VTy) (d a b : VOp) : Statement (.vsel g t d a b) := of_one rfl (encV3_lt (by decide))
theorem vmov (g : Guard) (t : VTy) (d a : VOp) : Statement (.vmov g t d a) := of_one rfl (encV2_lt (by decide))
theorem vbcast (g : Guard) (t : VTy) (d a b : VOp) : Statement (.vbcast g t d a b) := of_one rfl (encV3_lt (by decide))
theorem vrsum (g : Guard) (t : VTy) (d a : VOp) (rm : BitVec 2) : Statement (.vrsum g t d a rm) :=
  of_one rfl (encV2m_lt (by decide))
theorem vrmax (g : Guard) (t : VTy) (d a : VOp) : Statement (.vrmax g t d a) := of_one rfl (encV2_lt (by decide))
theorem vrcp (g : Guard) (t : VTy) (d a : VOp) (rm : BitVec 2) : Statement (.vrcp g t d a rm) :=
  of_one rfl (encV2m_lt (by decide))
theorem vrsq (g : Guard) (t : VTy) (d a : VOp) (rm : BitVec 2) : Statement (.vrsq g t d a rm) :=
  of_one rfl (encV2m_lt (by decide))
theorem vexp2 (g : Guard) (t : VTy) (d a : VOp) (rm : BitVec 2) : Statement (.vexp2 g t d a rm) :=
  of_one rfl (encV2m_lt (by decide))
theorem vlog2 (g : Guard) (t : VTy) (d a : VOp) (rm : BitVec 2) : Statement (.vlog2 g t d a rm) :=
  of_one rfl (encV2m_lt (by decide))
theorem vscale (g : Guard) (t : VTy) (d a b : VOp) (rm : BitVec 2) : Statement (.vscale g t d a b rm) :=
  of_one rfl (encV3m_lt (by decide))
theorem vcvt (g : Guard) (t : VTy) (d a : VOp) (src : VTy) (rm : BitVec 2) : Statement (.vcvt g t d a src rm) :=
  of_one rfl (encV_lt (by decide) (by have := vtyCode_lt src; omega) rm.isLt)
theorem vperm (g : Guard) (t : VTy) (d a b : VOp) : Statement (.vperm g t d a b) := of_one rfl (encV3_lt (by decide))
theorem vslide (g : Guard) (t : VTy) (d a b : VOp) : Statement (.vslide g t d a b) := of_one rfl (encV3_lt (by decide))
theorem viota (g : Guard) (t : VTy) (d a : VOp) : Statement (.viota g t d a) := of_one rfl (encV2_lt (by decide))
theorem vtapx (g : Guard) (t : VTy) (d a b : VOp) : Statement (.vtapx g t d a b) := of_one rfl (encV3_lt (by decide))
theorem vand (g : Guard) (d a b : VOp) : Statement (.vand g d a b) := of_one rfl (encV3_lt (by decide))
theorem vor (g : Guard) (d a b : VOp) : Statement (.vor g d a b) := of_one rfl (encV3_lt (by decide))
theorem vxor (g : Guard) (d a b : VOp) : Statement (.vxor g d a b) := of_one rfl (encV3_lt (by decide))
theorem vshl (g : Guard) (d a b : VOp) : Statement (.vshl g d a b) := of_one rfl (encV3_lt (by decide))
theorem vshr (g : Guard) (d a b : VOp) : Statement (.vshr g d a b) := of_one rfl (encV3_lt (by decide))
theorem vsar (g : Guard) (d a b : VOp) : Statement (.vsar g d a b) := of_one rfl (encV3_lt (by decide))
theorem mma (g : Guard) (tile latch : BitVec 1) (sig lag : BitVec 7) (r : MRows) (k : MKind) : Statement (.mma g tile latch sig lag r k) :=
  of_one rfl (encMM_lt (by decide))
theorem mmaz (g : Guard) (tile latch : BitVec 1) (sig lag : BitVec 7) (r : MRows) (k : MKind) : Statement (.mmaz g tile latch sig lag r k) :=
  of_one rfl (encMM_lt (by decide))
theorem latch (g : Guard) (l : BitVec 1) (sig lag : BitVec 7) (k : MKind) : Statement (.latch g l sig lag k) := by
  refine of_one rfl ?_
  have := head_lt 0x02 g (cls := 3) (by decide) (by decide)
  have := l.isLt
  have := sig.isLt
  have := lag.isLt
  have := mkindCode_lt k
  simp only [put]
  omega
theorem latcht (g : Guard) (l : BitVec 1) (sig lag : BitVec 7) (k : MKind) : Statement (.latcht g l sig lag k) := by
  refine of_one rfl ?_
  have := head_lt 0x03 g (cls := 3) (by decide) (by decide)
  have := l.isLt
  have := sig.isLt
  have := lag.isLt
  have := mkindCode_lt k
  simp only [put]
  omega
theorem asetId (g : Guard) (tile : BitVec 1) (r : MRows) : Statement (.asetId g tile r) := by
  refine of_one rfl ?_
  have := head_lt 0x04 g (cls := 3) (by decide) (by decide)
  have := tile.isLt
  have := rowsBits_lt r
  simp only [put]
  omega
theorem asetZero (g : Guard) (tile : BitVec 1) (r : MRows) : Statement (.asetZero g tile r) := by
  refine of_one rfl ?_
  have := head_lt 0x04 g (cls := 3) (by decide) (by decide)
  have := tile.isLt
  have := rowsBits_lt r
  simp only [put]
  omega
theorem again (g : Guard) (tile : BitVec 1) (sig lag : BitVec 7) (r : MRows) : Statement (.again g tile sig lag r) :=
  of_one rfl (encMA_lt (by decide) (by decide))
theorem aoff (g : Guard) (tile : BitVec 1) (sig lag : BitVec 7) (r : MRows) : Statement (.aoff g tile sig lag r) :=
  of_one rfl (encMA_lt (by decide) (by decide))
theorem apply (g : Guard) (tile : BitVec 1) (sig lag : BitVec 7) (r : MRows) : Statement (.apply g tile sig lag r) :=
  of_one rfl (encMA_lt (by decide) (by decide))
theorem ardOff (g : Guard) (tile : BitVec 1) (sig lag : BitVec 7) (r : MRows) : Statement (.ardOff g tile sig lag r) :=
  of_one rfl (encMA_lt (by decide) (by decide))
theorem ardGain (g : Guard) (tile : BitVec 1) (sig lag : BitVec 7) (r : MRows) : Statement (.ardGain g tile sig lag r) :=
  of_one rfl (encMA_lt (by decide) (by decide))
theorem scan (g : Guard) (tile : BitVec 1) (cy : BitVec 2) (r : MRows) : Statement (.scan g tile cy r) := by
  refine of_one rfl ?_
  have := head_lt 0x08 g (cls := 3) (by decide) (by decide)
  have := tile.isLt
  have := cy.isLt
  have := rowsBits_lt r
  simp only [put]
  omega
theorem scanUpd (g : Guard) (tile : BitVec 1) (cy : BitVec 2) (r : MRows) : Statement (.scanUpd g tile cy r) := by
  refine of_one rfl ?_
  have := head_lt 0x08 g (cls := 3) (by decide) (by decide)
  have := tile.isLt
  have := cy.isLt
  have := rowsBits_lt r
  simp only [put]
  omega
theorem cyset (g : Guard) (cy : BitVec 2) (sig lag : BitVec 7) : Statement (.cyset g cy sig lag) := by
  refine of_one rfl ?_
  have := head_lt 0x09 g (cls := 3) (by decide) (by decide)
  have := cy.isLt
  have := sig.isLt
  have := lag.isLt
  simp only [put]
  omega
theorem cysetId (g : Guard) (cy : BitVec 2) : Statement (.cysetId g cy) :=
  of_one rfl (by have := head_lt 0x09 g (cls := 3) (by decide) (by decide); have := cy.isLt; simp only [put]; omega)
theorem cyget (g : Guard) (cy : BitVec 2) (sig lag : BitVec 7) : Statement (.cyget g cy sig lag) := by
  refine of_one rfl ?_
  have := head_lt 0x0A g (cls := 3) (by decide) (by decide)
  have := cy.isLt
  have := sig.isLt
  have := lag.isLt
  simp only [put]
  omega
theorem cld (g : Guard) (o : XcOps) : Statement (.cld g o) := of_one rfl (encXC_lt (by decide))
theorem cst (g : Guard) (o : XcOps) : Statement (.cst g o) := of_one rfl (encXC_lt (by decide))
theorem clda (g : Guard) (o : XcOps) : Statement (.clda g o) := of_one rfl (encXC_lt (by decide))
theorem cstr (g : Guard) (o : XcOps) : Statement (.cstr g o) := of_one rfl (encXC_lt (by decide))
theorem cgath (g : Guard) (o : XgOps) : Statement (.cgath g o) := of_one rfl (encXG_lt (by decide))
theorem cscat (g : Guard) (o : XgOps) : Statement (.cscat g o) := of_one rfl (encXG_lt (by decide))
theorem scacc (g : Guard) (o : XsOps) : Statement (.scacc g o) := by
  refine of_one rfl ?_
  have := head_lt 0x06 g (cls := 4) (by decide) (by decide)
  have := o.tbl.isLt
  have := o.idx.isLt
  have := o.val.isLt
  have := o.op.isLt
  have := o.w.isLt
  have := o.h.isLt
  simp only [put]
  omega
theorem ccancel (g : Guard) (h : BitVec 4) : Statement (.ccancel g h) :=
  of_one rfl (by have := head_lt 0x07 g (cls := 4) (by decide) (by decide); have := h.isLt; simp only [put]; omega)
theorem cwait (g : Guard) (h : BitVec 4) : Statement (.cwait g h) :=
  of_one rfl (by have := head_lt 0x08 g (cls := 4) (by decide) (by decide); have := h.isLt; simp only [put]; omega)
theorem dset (g : Guard) (d field : BitVec 4) (ra : BitVec 6) : Statement (.dset g d field ra) := by
  refine of_one rfl ?_
  have := head_lt 0x09 g (cls := 4) (by decide) (by decide)
  have := d.isLt
  have := field.isLt
  have := ra.isLt
  simp only [put]
  omega
theorem fence (g : Guard) (sc : Scope) (k : FenceKind) (mask : BitVec 8) : Statement (.fence g sc k mask) :=
  of_one rfl (encXF_lt (by decide))
theorem csub (g : Guard) (o : XcOps) : Statement (.csub g o) := of_one rfl (encXC_lt (by decide))
theorem cpull (g : Guard) (o : XcOps) : Statement (.cpull g o) := of_one rfl (encXC_lt (by decide))
theorem cunsub (g : Guard) (h : BitVec 4) : Statement (.cunsub g h) :=
  of_one rfl (by have := head_lt 0x0D g (cls := 4) (by decide) (by decide); have := h.isLt; simp only [put]; omega)
theorem nmcmd (g : Guard) (sig : BitVec 7) (ra : BitVec 6) (h : BitVec 4) : Statement (.nmcmd g sig ra h) :=
  of_one rfl (encXN_lt (by decide))
theorem nmfence (g : Guard) (sc : Scope) (k : FenceKind) (mask : BitVec 8) : Statement (.nmfence g sc k mask) :=
  of_one rfl (encXF_lt (by decide))
theorem nmatom (g : Guard) (sig : BitVec 7) (ra : BitVec 6) (h : BitVec 4) : Statement (.nmatom g sig ra h) :=
  of_one rfl (encXN_lt (by decide))
theorem chsend (g : Guard) (sig : BitVec 7) (ra rd : BitVec 6) : Statement (.chsend g sig ra rd) :=
  of_one rfl (encXK_lt (by decide) (by decide) sig.isLt)
theorem chsendTry (g : Guard) (sig : BitVec 7) (ra rd : BitVec 6) : Statement (.chsendTry g sig ra rd) :=
  of_one rfl (encXK_lt (by decide) (by decide) sig.isLt)
theorem chbind (g : Guard) (sig : BitVec 7) (ra rd : BitVec 6) : Statement (.chbind g sig ra rd) :=
  of_one rfl (encXK_lt (by decide) (by decide) sig.isLt)
theorem chbindW (g : Guard) (ra rd : BitVec 6) : Statement (.chbindW g ra rd) :=
  of_one rfl (encXK_lt (by decide) (by decide) (by decide))
theorem chclose (g : Guard) (ra rd : BitVec 6) : Statement (.chclose g ra rd) :=
  of_one rfl (encXK_lt (by decide) (by decide) (by decide))
theorem chcloseW (g : Guard) (ra rd : BitVec 6) : Statement (.chcloseW g ra rd) :=
  of_one rfl (encXK_lt (by decide) (by decide) (by decide))
theorem chstat (g : Guard) (ra rd : BitVec 6) : Statement (.chstat g ra rd) :=
  of_one rfl (encXK_lt (by decide) (by decide) (by decide))
theorem launch (g : Guard) (sig : BitVec 7) (ra : BitVec 6) (h : BitVec 4) : Statement (.launch g sig ra h) :=
  of_one rfl (encXN_lt (by decide))
theorem wsend (g : Guard) (sig : BitVec 7) (ra : BitVec 6) (h : BitVec 4) : Statement (.wsend g sig ra h) :=
  of_one rfl (encXN_lt (by decide))

theorem heldBundleRelease (k : Nat) : Statement (.heldBundleRelease k) := of_none rfl
theorem eventLatch (n : Nat) : Statement (.eventLatch n) := of_none rfl
theorem barrierRelease (k : Nat) : Statement (.barrierRelease k) := of_none rfl
theorem stallToll (k : Nat) : Statement (.stallToll k) := of_none rfl
theorem maxrunOverrun (k : Nat) : Statement (.maxrunOverrun k) := of_none rfl
theorem tapDeadlock (k : Nat) : Statement (.tapDeadlock k) := of_none rfl
theorem fuseTimeout (k : Nat) : Statement (.fuseTimeout k) := of_none rfl
theorem mResultFinal (k : Nat) : Statement (.mResultFinal k) := of_none rfl
theorem takeTrap (k : Nat) : Statement (.takeTrap k) := of_none rfl
theorem asynchronousCause (k : Nat) (c : Cause) : Statement (.asynchronousCause k c) := of_none rfl
theorem trapDisposition (k : Nat) : Statement (.trapDisposition k) := of_none rfl
theorem yieldTaken (k : Nat) : Statement (.yieldTaken k) := of_none rfl
theorem contextSave (k : Nat) : Statement (.contextSave k) := of_none rfl
theorem contextRestore (k : Nat) : Statement (.contextRestore k) := of_none rfl
theorem spareMap (core : Nat) : Statement (.spareMap core) := of_none rfl
theorem mirrorSourceSearch (k : Nat) (sig : BitVec 7) : Statement (.mirrorSourceSearch k sig) := of_none rfl
theorem streamSampleSend (die n : Nat) : Statement (.streamSampleSend die n) := of_none rfl
theorem streamSampleArrival (die n : Nat) : Statement (.streamSampleArrival die n) := of_none rfl
theorem copyElementIssue (k : Nat) (h : BitVec 4) : Statement (.copyElementIssue k h) := of_none rfl
theorem copyAccessComplete (k : Nat) (h : BitVec 4) (n : Nat) : Statement (.copyAccessComplete k h n) := of_none rfl
theorem scaccWindow (k : Nat) (h : BitVec 4) : Statement (.scaccWindow k h) := of_none rfl
theorem loaderSamplePush (k : Nat) (h : BitVec 4) : Statement (.loaderSamplePush k h) := of_none rfl
theorem storerSampleWrite (k : Nat) (h : BitVec 4) : Statement (.storerSampleWrite k h) := of_none rfl
theorem combinerFlush (die n : Nat) : Statement (.combinerFlush die n) := of_none rfl
theorem announcementApply (die n : Nat) : Statement (.announcementApply die n) := of_none rfl
theorem translationWalk (die n : Nat) : Statement (.translationWalk die n) := of_none rfl
theorem faultTimeout (die n : Nat) : Statement (.faultTimeout die n) := of_none rfl
theorem stackRead (n : Nat) : Statement (.stackRead n) := of_none rfl
theorem stackWrite (n : Nat) : Statement (.stackWrite n) := of_none rfl
theorem bankRefresh (stack pc bank : Nat) (hint : BitVec 6) : Statement (.bankRefresh stack pc bank hint) := of_none rfl
theorem retryReissue (n : Nat) : Statement (.retryReissue n) := of_none rfl
theorem rowPrecharge (stack pc bank : Nat) : Statement (.rowPrecharge stack pc bank) := of_none rfl
theorem rowOpenLimit (stack pc bank : Nat) : Statement (.rowOpenLimit stack pc bank) := of_none rfl
theorem patrolScrub (stack granule : Nat) : Statement (.patrolScrub stack granule) := of_none rfl
theorem stackLost (stack : Nat) : Statement (.stackLost stack) := of_none rfl
theorem nearMemoryGranule (n : Nat) : Statement (.nearMemoryGranule n) := of_none rfl
theorem nmAtomicRecord (n : Nat) : Statement (.nmAtomicRecord n) := of_none rfl
theorem timetableVisit (die : Nat) : Statement (.timetableVisit die) := of_none rfl
theorem reservedPlacement (die : Nat) : Statement (.reservedPlacement die) := of_none rfl
theorem convoyPlacement (die : Nat) : Statement (.convoyPlacement die) := of_none rfl
theorem graphReturn (die n : Nat) : Statement (.graphReturn die n) := of_none rfl
theorem launchEntryWrite (die n : Nat) : Statement (.launchEntryWrite die n) := of_none rfl
theorem groupPark (die step : Nat) : Statement (.groupPark die step) := of_none rfl
theorem groupWake (die step : Nat) : Statement (.groupWake die step) := of_none rfl
theorem waitExamination (k : Nat) : Statement (.waitExamination k) := of_none rfl
theorem messageDelivery (die chan : Nat) : Statement (.messageDelivery die chan) := of_none rfl
theorem messageSpill (die chan : Nat) : Statement (.messageSpill die chan) := of_none rfl
theorem cisternDrain (die chan : Nat) : Statement (.cisternDrain die chan) := of_none rfl
theorem triggerFire (die chan : Nat) : Statement (.triggerFire die chan) := of_none rfl
theorem deadlockSample (die part : Nat) : Statement (.deadlockSample die part) := of_none rfl
theorem permitAudit (die : Nat) : Statement (.permitAudit die) := of_none rfl
theorem doorbellTailWrite (die queue : Nat) (t : BitVec 32) : Statement (.doorbellTailWrite die queue t) := of_none rfl
theorem ctailWrite (v : Word) : Statement (.ctailWrite v) := of_none rfl
theorem pheadWrite (v : Word) : Statement (.pheadWrite v) := of_none rfl
theorem eheadWrite (v : Word) : Statement (.eheadWrite v) := of_none rfl
theorem ltrWrite (v : Word) : Statement (.ltrWrite v) := of_none rfl
theorem resetctlWrite (v : Word) : Statement (.resetctlWrite v) := of_none rfl
theorem slotmapWrite (core : Nat) (v : BitVec 32) : Statement (.slotmapWrite core v) := of_none rfl
theorem configRegisterWrite (r : CfgReg) (v : Word) : Statement (.configRegisterWrite r v) := of_none rfl
theorem hostWrite (aperture off : Nat) (bytes : List Byte) (ep : Bool) : Statement (.hostWrite aperture off bytes ep) := of_none rfl
theorem hostRead (aperture off n : Nat) : Statement (.hostRead aperture off n) := of_none rfl
theorem identify (c : Cmd) : Statement (.identify c) := of_none rfl
theorem attest (c : Cmd) : Statement (.attest c) := of_none rfl
theorem fwStage (c : Cmd) : Statement (.fwStage c) := of_none rfl
theorem partCreate (c : Cmd) : Statement (.partCreate c) := of_none rfl
theorem partDestroy (c : Cmd) : Statement (.partDestroy c) := of_none rfl
theorem partXlat (c : Cmd) : Statement (.partXlat c) := of_none rfl
theorem partWindow (c : Cmd) : Statement (.partWindow c) := of_none rfl
theorem partInval (c : Cmd) : Statement (.partInval c) := of_none rfl
theorem partSwapOut (c : Cmd) : Statement (.partSwapOut c) := of_none rfl
theorem partSwapIn (c : Cmd) : Statement (.partSwapIn c) := of_none rfl
theorem partReserve (c : Cmd) : Statement (.partReserve c) := of_none rfl
theorem trapPolicy (c : Cmd) : Statement (.trapPolicy c) := of_none rfl
theorem trapDisposeRetry (c : Cmd) : Statement (.trapDisposeRetry c) := of_none rfl
theorem trapDisposeMaskedRetry (c : Cmd) : Statement (.trapDisposeMaskedRetry c) := of_none rfl
theorem trapDisposeEnd (c : Cmd) : Statement (.trapDisposeEnd c) := of_none rfl
theorem trapDisposeRestart (c : Cmd) : Statement (.trapDisposeRestart c) := of_none rfl
theorem trapRead (c : Cmd) : Statement (.trapRead c) := of_none rfl
theorem shareRelease (c : Cmd) : Statement (.shareRelease c) := of_none rfl
theorem faultResolveRetry (c : Cmd) : Statement (.faultResolveRetry c) := of_none rfl
theorem faultResolveFail (c : Cmd) : Statement (.faultResolveFail c) := of_none rfl
theorem aperture (c : Cmd) : Statement (.aperture c) := of_none rfl
theorem queueCreate (c : Cmd) : Statement (.queueCreate c) := of_none rfl
theorem queueDestroy (c : Cmd) : Statement (.queueDestroy c) := of_none rfl
theorem queueAssign (c : Cmd) : Statement (.queueAssign c) := of_none rfl
theorem taskEnd (c : Cmd) : Statement (.taskEnd c) := of_none rfl
theorem slotSet (c : Cmd) : Statement (.slotSet c) := of_none rfl
theorem rowSet (c : Cmd) : Statement (.rowSet c) := of_none rfl
theorem chanCreate (c : Cmd) : Statement (.chanCreate c) := of_none rfl
theorem chanDestroy (c : Cmd) : Statement (.chanDestroy c) := of_none rfl
theorem chanSet (c : Cmd) : Statement (.chanSet c) := of_none rfl
theorem codeLoad (c : Cmd) : Statement (.codeLoad c) := of_none rfl
theorem coreRetire (c : Cmd) : Statement (.coreRetire c) := of_none rfl
theorem powerCap (c : Cmd) : Statement (.powerCap c) := of_none rfl
theorem reset (c : Cmd) : Statement (.reset c) := of_none rfl
theorem unknownOpcode (opcode : BitVec 16) (c : Cmd) : Statement (.unknownOpcode opcode c) := of_none rfl
theorem coldReset : Statement (.coldReset) := of_none rfl
theorem warmReset (keepmem : Bool) : Statement (.warmReset keepmem) := of_none rfl
theorem boot : Statement (.boot) := of_none rfl
theorem linkDown (link : Nat) : Statement (.linkDown link) := of_none rfl
theorem powerSample (watts : Nat) (hot shutdown : Bool) (dies : BitVec 4) : Statement (.powerSample watts hot shutdown dies) := of_none rfl
theorem powerStateEntry (die : Nat) : Statement (.powerStateEntry die) := of_none rfl
theorem wakeEvent (die : Nat) : Statement (.wakeEvent die) := of_none rfl
theorem flitReceive (port : Nat) (f : Flit) : Statement (.flitReceive port f) := of_none rfl
theorem replayTimeout (port : Nat) : Statement (.replayTimeout port) := of_none rfl
theorem portDown (port : Nat) (why : PortCause) : Statement (.portDown port why) := of_none rfl
theorem portTraining (port : Nat) (ok : Bool) (peer : BitVec 18) (epoch : BitVec 32) : Statement (.portTraining port ok peer epoch) := of_none rfl
theorem flowResend (n : Nat) : Statement (.flowResend n) := of_none rfl
theorem packageLost (pkg : BitVec 18) : Statement (.packageLost pkg) := of_none rfl
theorem msg (m : Msg) : Statement (.msg m) := of_none rfl
theorem close (m : Msg) : Statement (.close m) := of_none rfl
theorem waybill (m : Msg) : Statement (.waybill m) := of_none rfl
theorem loss (m : Msg) : Statement (.loss m) := of_none rfl
theorem refused (m : Msg) : Statement (.refused m) := of_none rfl
theorem xfault (m : Msg) : Statement (.xfault m) := of_none rfl
theorem read (m : Msg) : Statement (.read m) := of_none rfl
theorem readresp (m : Msg) : Statement (.readresp m) := of_none rfl
theorem write (m : Msg) : Statement (.write m) := of_none rfl
theorem writeack (m : Msg) : Statement (.writeack m) := of_none rfl
theorem ack (m : Msg) : Statement (.ack m) := of_none rfl
theorem bindreq (m : Msg) : Statement (.bindreq m) := of_none rfl
theorem bindreply (m : Msg) : Statement (.bindreply m) := of_none rfl
theorem grant (m : Msg) : Statement (.grant m) := of_none rfl
theorem drained (m : Msg) : Statement (.drained m) := of_none rfl
theorem statreq (m : Msg) : Statement (.statreq m) := of_none rfl
theorem statreply (m : Msg) : Statement (.statreply m) := of_none rfl
theorem grow (m : Msg) : Statement (.grow m) := of_none rfl
theorem fault (m : Msg) : Statement (.fault m) := of_none rfl
theorem bararr (m : Msg) : Statement (.bararr m) := of_none rfl
theorem barrel (m : Msg) : Statement (.barrel m) := of_none rfl
theorem workdone (m : Msg) : Statement (.workdone m) := of_none rfl
theorem linkstate (m : Msg) : Statement (.linkstate m) := of_none rfl
theorem refuse (m : Msg) : Statement (.refuse m) := of_none rfl
theorem powerLoss : Statement (.powerLoss) := of_none rfl

end Sys2Proof.Laws.EncodedWords

namespace Sys2Proof.Laws
open Sys2Proof

theorem EncodedWords.recall (k : Nat) : EncodedWords.Statement (.recall k) := EncodedWords.of_none rfl

end Sys2Proof.Laws
end

