-- ==== Sys2Proof/Tests/Witness.lean ====
section
/-!
SUPPORT. A state and operands that meet the hypotheses of each statement, clause by clause.
-/
namespace Sys2Proof.Tests
set_option Elab.async false
open Sys2Proof Sys2Proof.Machine

/-! A running seat, and checks that compute. -/

/-- Seat 0 runs member 0 of step 0, a group of one of partition 1, with budgets of 1,000. -/
def demoCtx : Ctx := { bud := { ibud := 1000, tbud := 1000 }, csr := { groupsz := 1 } }
def demo : State :=
  { seats := [(0, { phase := .running, step := some (0, 0), share := 2048, ctx := demoCtx })]
    steps := [(0, { present := true, uid := 1, fresh := false, members := [{ place := .onSeat 0 }] })]
    tasks := [(0, { present := true, part := 1, steps := 2, next := 2 })]
    parts := [(1, { present := true, depotBytes := 2 ^ 24 })]
    host := { resetting := false } }

/-- The demo with another context on its seat. -/
def demoWith (f : Ctx → Ctx) : State := demo.updCtx 0 f

/-- The row of address 0 stands open and its predictor has learnt so: another read of it changes nothing. -/
def warm (s : State) : State := touchRow 0 (touchRow 0 s)

/-- The demo in another phase. -/
def demoIn (p : Phase) (f : Ctx → Ctx) : State := demo.updSeat 0 fun x => { x with phase := p, ctx := f x.ctx }

def unheldB (s : State) : Bool :=
  decide ((s.seat s.cur).phase = .running) && !(s.ctx s.cur).fuse.isFused && decide ((s.ctx s.cur).wait.arrival = none) &&
  !(s.ctx s.cur).wait.exam && decide ((s.ctx s.cur).maskOnce = 0) &&
  (s.ctx s.cur).ready.all (fun e => decide (e.final ≤ s.clk s.cur)) &&
  decide ((s.core (coreOf s.cur)).issued = none) && decide ((s.seat s.cur).split = none) &&
  decide ((s.seat (otherSeat s.cur)).split = none) && decide ((s.core (coreOf s.cur)).busy = []) &&
  !s.fw.gated.contains (dieOf s.cur)

theorem unheld_of {s : State} (h : unheldB s = true) : Unheld s := by
  simp only [unheldB, Bool.and_eq_true, decide_eq_true_eq, Bool.not_eq_true', List.all_eq_true] at h
  obtain ⟨⟨⟨⟨⟨⟨⟨⟨⟨⟨h1, h2⟩, h3⟩, h4⟩, h5⟩, h6⟩, h7⟩, h8⟩, h9⟩, h10⟩, h11⟩ := h
  exact ⟨h1, h2, h3, h4, h5, h6, h7, h8, h9, h10, h11⟩

def canIssueB (toll traffic : Nat) (s : State) : Bool :=
  unheldB s && decide ((toll : Int) < (s.ctx s.cur).bud.ibud.toInt) &&
  decide ((traffic : Int) ≤ (s.ctx s.cur).bud.tbud.toInt)

theorem canIssue_of {toll traffic : Nat} {s : State} (h : canIssueB toll traffic s = true) : CanIssue toll traffic s := by
  simp only [canIssueB, Bool.and_eq_true, decide_eq_true_eq] at h
  exact ⟨unheld_of h.1.1, h.1.2, h.2⟩

def settledB (s : State) : Bool := match (s.ctx s.cur).pos.pend with
  | some p => !p.ret
  | none => true

theorem settled_of {s : State} (h : settledB s = true) : Settled s := by
  intro p hp
  simpa [settledB, hp] using h

def runsB (g : Guard) (toll traffic : Nat) (s : State) : Bool :=
  canIssueB toll traffic s && settledB s && Guard.holds g (s.ctx s.cur)

theorem runs_of {g : Guard} {toll traffic : Nat} {s : State} (h : runsB g toll traffic s = true) :
    Runs g toll traffic s := by
  simp only [runsB, Bool.and_eq_true] at h
  exact ⟨canIssue_of h.1.1, settled_of h.1.2, h.2⟩

def straightB (s : State) : Bool :=
  (s.ctx s.cur).pos.loops.isEmpty && decide ((s.ctx s.cur).pos.pend = none) && decide ((s.ctx s.cur).pos.xferAge = 0)

theorem straight_of {s : State} (h : straightB s = true) : Straight s := by
  simp only [straightB, Bool.and_eq_true, decide_eq_true_eq, List.isEmpty_iff] at h
  exact ⟨h.1.1, h.1.2, h.2⟩

theorem demo_wf : demo.Wf := ⟨rfl, rfl, by decide⟩

/-! Scalar instructions. -/

/-- ScalarInteger, ImmediateAndSpill, ScalarFloat, PlainControl: seat 0 of the demo can issue. -/
theorem witness_runs : Guard.always.ok = true ∧ Runs .always 1 0 demo ∧ Straight demo ∧ demo.Wf :=
  ⟨rfl, runs_of rfl, straight_of rfl, demo_wf⟩

/-- The same under a guard that holds: (!p1). -/
theorem witness_runs_negated : Guard.ok ⟨true, 1⟩ = true ∧ Runs ⟨true, 1⟩ 1 0 demo :=
  ⟨rfl, runs_of rfl⟩

/-- The least budget that lets a bundle of toll 1 issue without a yield is 2. -/
theorem witness_runs_least : Runs .always 1 0 (demoWith fun c => { c with bud.ibud := 2, bud.tbud := 0 }) := runs_of rfl

/-- s1 = -2^63, s2 = -1, s3 = 7, s4 = 2, s5 = 63, s6 = 64. -/
def demoRegs : State := demoWith fun c =>
  ((((((c.setS 1 0x8000000000000000).setS 2 (-1)).setS 3 7).setS 4 2).setS 5 63).setS 6 64)

theorem witness_divide : Runs .always 1 0 demoRegs ∧
    (demoRegs.ctx demoRegs.cur).s 0 = 0 ∧ (demoRegs.ctx demoRegs.cur).s 4 ≠ 0 ∧
    ((demoRegs.ctx demoRegs.cur).s 1).toInt = -2 ^ 63 ∧ ((demoRegs.ctx demoRegs.cur).s 2).toInt = -1 ∧
    ¬(((demoRegs.ctx demoRegs.cur).s 3).toInt = -2 ^ 63 ∧ ((demoRegs.ctx demoRegs.cur).s 4).toInt = -1) :=
  ⟨runs_of rfl, rfl, by decide, by decide, by decide, by decide⟩

theorem witness_shift : Runs .always 1 0 demoRegs ∧
    ((demoRegs.ctx demoRegs.cur).s 5).toNat < 64 ∧ 64 ≤ ((demoRegs.ctx demoRegs.cur).s 6).toNat :=
  ⟨runs_of rfl, by decide, by decide⟩

theorem witness_predicates : predDestOk 1 = true ∧ predDestOk 12 = true ∧ predDestOk 0 = false ∧ predDestOk 13 = false :=
  ⟨rfl, rfl, rfl, rfl⟩

theorem witness_csr : Runs .always 1 0 demo ∧ (demo.ctx demo.cur).mx.pend = [] ∧
    ∀ n ∈ [0x001, 0x002, 0x010, 0x011, 0x013, 0x014, 0x018, 0x019, 0x01A, 0x020, 0x021, 0x022, 0x030, 0x031, 0x032,
      0x033, 0x034, 0x035, 0x036, 0x040, 0x050], csrListed n = true :=
  ⟨runs_of rfl, rfl, by decide⟩

theorem witness_guarded_false : (encode (.add ⟨false, 1⟩ 1 2 3)).length = 1 ∧ (Instr.add ⟨false, 1⟩ 1 2 3).wf = true ∧
    CanIssue 1 0 demo ∧ Settled demo ∧ Guard.holds ⟨false, 1⟩ (demo.ctx demo.cur) = false ∧
    (Instr.br ⟨false, 1⟩ 2).wf = true ∧ Straight demo :=
  ⟨rfl, rfl, canIssue_of rfl, settled_of rfl, rfl, rfl, straight_of rfl⟩

/-! Signals. -/

/-- A manual signal of 8 units and two samples. -/
def demoSig : Sig := { width := 8, depth := 2, rate := 255, planes := 8, scalesig := 127 }
/-- The demo with a signal 5. -/
def withSig (g : Sig) : State := demoWith (·.setSg 5 g)

/-- The hypotheses of SigsetCompletes, of a SIGSET of field f of signal 5 from s1 = x. -/
def sigsetB (f : BitVec 4) (l : BitVec 3) (x : Word) : Bool :=
  let s := (withSig demoSig).updCtx 0 (·.setS 1 x)
  let g := (s.ctx s.cur).sg 5
  (Instr.sigset .always 1 5 f l).wf && runsB .always 1 0 s && !attached s s.cur (s.ctx s.cur) 5 &&
    sigLimit g f.toNat x && (decide (3 < f.toNat) || (g.setField f.toNat l.toNat x).fits (s.seat s.cur).share)

/-- SIGSET of each field within its limits. -/
theorem witness_sigset :
    ([(0, 0, 1), (1, 0, 128), (2, 0, 2), (3, 0, 254), (4, 0, 255)].all fun e => sigsetB e.1 e.2.1 e.2.2) = true ∧
    ([(5, 0, 0), (6, 0, 6), (7, 0, 8), (8, 0, 127), (9, 0, 0x60)].all fun e => sigsetB e.1 e.2.1 e.2.2) = true ∧
    ([(10, 0, 3), (11, 0, 1), (12, 5, -128), (13, 5, 127), (14, 0, 0xFFFFFFFFFFF)].all fun e =>
      sigsetB e.1 e.2.1 e.2.2) = true := by decide

/-- A RATE of 0 changes the kind of a manual signal. -/
theorem witness_sigset_kind : ((demoSig.setField 4 0 0).kind ≠ demoSig.kind) ∧ (demoSig.setField 4 0 255).kind = demoSig.kind :=
  ⟨by decide, by decide⟩

/-- A tap of a signal that a seat feeds, with no copy and no error about, neither traps nor waits. -/
theorem tap_ready {s : State} {t : Tap} (pl : Option Nat) (es : List Nat) (hp : t.preTrap = none) (hf : t.g.feed = 0)
    (hi : t.g.init = 0) (hn : (t.g.fmt == .ni8) = false) (hq : (s.ctx s.cur).sig.poison = [])
    (hl : (s.core (coreOf s.cur)).lineBad = []) (hc : (s.ctx s.cur).eng.copies = []) : TapReady s t pl es := by
  have hpend : t.pending (s.ctx s.cur) = false := by simp [Tap.pending, Ctx.scaccBusy, hf, hc]
  have hlane : ∀ e, laneTrap s s.cur (s.ctx s.cur) t pl e = none := by
    intro e
    unfold laneTrap
    split
    · rfl
    · simp [List.findSome?_eq_none_iff, Tap.unitBad, Ctx.poisoned, State.lineBad, hq, hl, hi]
  constructor
  · have hne : (t.g.fmt != .ni8) = true := by simp [bne, hn]
    have hes : es.findSome? (laneTrap s s.cur (s.ctx s.cur) t pl) = none := by
      simp [List.findSome?_eq_none_iff, hlane]
    simp [tapTrap, hp, Tap.closedTrap, hpend, hes, hne]
  · simp [tapHold, Tap.unfilled, hpend, hn]

theorem witness_signal_access :
    let s := withSig demoSig
    let c := s.ctx s.cur
    sigOk 5 = true ∧ Runs .always 1 0 s ∧ (c.sg 5).present = true ∧ attached s s.cur c 5 = false ∧
      sigFieldOk 15 15 0 = true ∧ (c.sg 5).feed = 0 ∧ (resolve c 5 0).inLag = true ∧
      TapReady s (resolve c 5 0) none [(resolve c 5 0).off.toNat] ∧ (c.sg 5).fmt ∉ [Fmt.int32, Fmt.int8] ∧
      writeTrap (resolve c 5 0) = none :=
  ⟨rfl, runs_of rfl, rfl, rfl, rfl, rfl, rfl, tap_ready _ _ rfl rfl rfl rfl rfl rfl rfl, by decide, rfl⟩

theorem witness_taprd_int32 :
    let s := withSig { demoSig with format := 3 }
    let c := s.ctx s.cur
    TapReady s (resolve c 5 1) none [(resolve c 5 1).off.toNat] ∧ (c.sg 5).fmt ∈ [Fmt.int32, Fmt.int8] :=
  ⟨tap_ready _ _ rfl rfl rfl rfl rfl rfl rfl, by decide⟩

/-- An engine-fed signal that is filled up to HEAD. -/
theorem witness_waitfill :
    let s := withSig { demoSig with feed := 1 }
    let c := s.ctx s.cur
    Runs .always 1 0 s ∧ (c.sg 5).present = true ∧ (c.sg 5).feed ≠ 0 ∧
      (if (c.sg 5).isTable then (0 : Int) else (c.sg 5).head.toNat) + (0 : BitVec 8).toInt ≤ (c.sg 5).fillMark :=
  ⟨runs_of rfl, rfl, by decide, by decide⟩

/-- A ticked signal 5 of period 2, and the manual signal 6. -/
def demoTick : State := demoWith fun c => (c.setSg 5 { demoSig with rate := 2, phase := 1 }).setSg 6 demoSig

theorem witness_adv_and_tick :
    let c := demoTick.ctx demoTick.cur
    Runs .always 1 0 demoTick ∧ sigOk 6 = true ∧ (c.sg 6).present = true ∧ (c.sg 6).rate = 255 ∧
      advHold demoTick demoTick.cur c 6 255 = false ∧ advTrap demoTick demoTick.cur c 6 255 = none ∧
      (tickSet c 1).filter (·.2 > 0) = [(5, 1)] ∧
      ∀ x ∈ (tickSet c 1).filter (·.2 > 0), advHold demoTick demoTick.cur c x.1 x.2 = false ∧
        advTrap demoTick demoTick.cur c x.1 x.2 = none := by
  refine ⟨runs_of rfl, rfl, rfl, rfl, by decide +kernel, by decide +kernel, by decide, by decide⟩

theorem witness_advance_frame : (demoTick.seat 0).phase = .running ∧ ((demoTick.ctx 0).sg 6).present = true ∧
    Sparse.wf {} (demoTick.ctx 0).sig.table = true ∧ Sparse.wf 0 (demoTick.ctx 0).sig.written = true ∧
    Sparse.wf 0 (demoTick.ctx 0).sig.poison = true :=
  ⟨rfl, rfl, by decide, rfl, rfl⟩

/-! The vector unit. -/

/-- Signal 5 is FP32, signal 6 FP16, signal 7 INT32, each of one vector and more. -/
def demoVec : State := demoWith fun c =>
  ((c.setSg 5 demoSig).setSg 6 { demoSig with format := 1 }).setSg 7 { demoSig with format := 3 }

theorem readable_vreg (s : State) (t : VTy) (r : BitVec 5) : Readable s t (.vreg r) := ⟨rfl, rfl⟩
theorem readable_imm (s : State) (t : VTy) (i : BitVec 12) : Readable s t (.imm i) := ⟨rfl, rfl⟩
theorem readable_sreg (s : State) (t : VTy) (r : BitVec 6) : Readable s t (.sreg r) := ⟨rfl, rfl⟩
theorem readable_of_tap {s : State} {t : VTy} {n lag : BitVec 7}
    (h : TapReady s (resolve (s.ctx s.cur) n lag.toNat) none ((resolve (s.ctx s.cur) n lag.toNat).span (VTy.lanes t))) :
    Readable s t (.tap n lag) := h
theorem readable_tap : Readable demoVec .fp32 (.tap 5 1) ∧ Readable demoVec .fp16 (.tap 6 0) ∧
    Readable demoVec .int32 (.tap 7 0) :=
  ⟨readable_of_tap (tap_ready _ _ rfl rfl rfl rfl rfl rfl rfl), readable_of_tap (tap_ready _ _ rfl rfl rfl rfl rfl rfl rfl),
    readable_of_tap (tap_ready _ _ rfl rfl rfl rfl rfl rfl rfl)⟩
theorem writable_tap : Writable demoVec (.tap 5 0) ∧ Writable demoVec (.tap 6 1) ∧ Writable demoVec (.vreg 31) :=
  ⟨rfl, rfl, rfl⟩

/-- Two and three sources: registers, a scalar register, a signal and an immediate as sources, a register and a signal as destinations. -/
theorem witness_elementwise : Runs .always 1 0 demoVec ∧ Readable demoVec .fp32 (.tap 5 1) ∧
    Readable demoVec .fp32 (.imm (-2048)) ∧ Writable demoVec (.tap 5 0) ∧
    (Instr.vadd .always .fp32 (.tap 5 0) (.tap 5 1) (.sreg 9) 3).wf = true ∧
    (Instr.vfma .always .fp32 (.vreg 3) (.tap 5 1) (.imm (-2048)) 1).wf = true ∧ Readable demoVec .fp32 (.vreg 3) ∧
    (Instr.vmin .always .fp32 (.tap 5 0) (.tap 5 1) (.vreg 0)).wf = true ∧
    (Instr.vcmpeq .always .int32 (.vreg 1) (.tap 7 0) (.vreg 2)).wf = true :=
  ⟨runs_of rfl, readable_tap.1, readable_imm .., rfl, rfl, rfl, readable_vreg .., rfl, rfl⟩

theorem witness_lanes : Runs .always 1 0 demoVec ∧ Readable demoVec .fp16 (.tap 6 0) ∧ Readable demoVec .int32 (.tap 7 0) ∧
    Writable demoVec (.vreg 31) ∧ (Instr.vmov .always .fp16 (.vreg 31) (.tap 6 0)).wf = true ∧
    (Instr.vrcp .always .fp16 (.vreg 31) (.tap 6 0) 2).wf = true ∧
    (Instr.vand .always (.vreg 31) (.tap 7 0) (.imm 31)).wf = true ∧ Readable demoVec .int32 (.imm 31) :=
  ⟨runs_of rfl, readable_tap.2.1, readable_tap.2.2, rfl, rfl, rfl, rfl, readable_imm ..⟩

theorem witness_across : Runs .always 1 0 demoVec ∧ Writable demoVec (.vreg 31) ∧ Readable demoVec .fp32 (.tap 5 1) ∧
    (Instr.vbcast .always .fp32 (.vreg 31) (.tap 5 1) (.imm 63)).wf = true ∧
    (Instr.viota .always .fp32 (.vreg 31) (.tap 5 1)).wf = true ∧
    (Instr.vrsum .always .fp32 (.vreg 31) (.tap 5 1) 0).wf = true ∧ (Instr.vrmax .always .fp32 (.vreg 31) (.tap 5 1)).wf = true ∧
    (Instr.vperm .always .fp32 (.vreg 31) (.tap 5 1) (.vreg 2)).wf = true ∧
    (Instr.vcvt .always .fp16 (.vreg 31) (.tap 6 0) .fp32 1).wf = true ∧
    (Instr.vscale .always .fp32 (.vreg 31) (.tap 5 1) (.imm (-512)) 0).wf = true ∧
    (Instr.vscale .always .fp32 (.vreg 31) (.tap 5 1) (.vreg 2) 0).wf = true ∧
    (Instr.vtapx .always .fp32 (.vreg 31) (.tap 5 0) (.vreg 2)).wf = true ∧
    ∀ es, TapReady demoVec (resolve (demoVec.ctx demoVec.cur) 5 0) none es :=
  ⟨runs_of rfl, rfl, readable_tap.1, rfl, rfl, rfl, rfl, rfl, rfl, rfl, rfl, rfl,
    fun es => tap_ready _ es rfl rfl rfl rfl rfl rfl rfl⟩

end Sys2Proof.Tests
end

