-- ==== Sys2Proof/Tests/Slice0.lean ====
section
/-!
SUPPORT. Tests: the words of the spec decode to the instructions that they stand for, what is not well formed is refused
by name, and single steps give the values that the spec's rules give by hand.
-/
namespace Sys2Proof.Tests
set_option Elab.async false
open Sys2Proof Sys2Proof.Machine

/-! Decoding. The words are written from the field tables of R33 to R50, with operands at the ends of their ranges. -/

def decodes (xs : List (Nat × Instr)) : Bool := xs.all fun x => decide (decodeTableWord 64 x.1 = some x.2)

/-- R41, R46. -/
theorem test_decode_control : decodes [
    (0x0E80_0000_0000_0000, .nop ⟨true, 13⟩),
    (0x0E83_0000_0000_0000, .ret ⟨true, 13⟩),
    (0x0E85_0000_0000_0000, .lexit ⟨true, 13⟩),
    (0x0E8C_0000_0000_0000, .ypt ⟨true, 13⟩),
    (0x0E8C_8000_0000_0000, .yield ⟨true, 13⟩),
    (0x0E8D_8000_0000_0000, .resume ⟨true, 13⟩),
    (0x0E8E_8000_0000_0000, .exit ⟨true, 13⟩),
    (0x0E98_8000_0000_0000, .decouple ⟨true, 13⟩),
    (0x0E99_0000_0000_0000, .rejoin ⟨true, 13⟩),
    (0x0000_FFFF_FFFE_8000, .br .always (-3)),
    (0x0002_7FFF_FFFE_8000, .call .always (-3)),
    (0x000D_7FFF_FFFE_8000, .cont .always (-3)),
    (0x0001_CA00_0000_0000, .jr .always 37),
    (0x0002_CA00_0000_0000, .callr .always 37),
    (0x0004_7FFF_8000_8000, .loop .always 0xFFFF 1),
    (0x0004_B200_7FFF_8000, .loopr .always 25 0xFFFF),
    (0x0008_7F80_0000_0000, .tick .always 255),
    (0x0008_FE01_0000_0000, .adv .always 126 1),
    (0x000E_4300_0000_0000, .topup .always 33 true),
    (0x000E_4200_0000_0000, .topup .always 33 false),
    (0x000F_4000_8000_0000, .trap .always 0x8001),
    (0x0010_4000_8000_0000, .waitev .always 0x8001),
    (0x0010_A3E4_0000_0000, .sigev .always .die 15 9),
    (0x0014_5FC0_0000_0000, .bar .always .sys 63),
    (0x0018_4000_0000_0000, .fuse .always 4)] = true := by decide +kernel

/-- R39, R47. -/
theorem test_decode_integer : decodes [
    (0x1000_7E14_2000_0000, .add .always 63 2 33),
    (0x1000_FE14_2000_0000, .sub .always 63 2 33),
    (0x1001_7E14_2000_0000, .mul .always 63 2 33),
    (0x1001_FE14_2000_0000, .mulh .always 63 2 33),
    (0x1002_7E14_2000_0000, .mulhu .always 63 2 33),
    (0x1002_FE14_2000_0000, .div .always 63 2 33),
    (0x1003_7E14_2000_0000, .divu .always 63 2 33),
    (0x1003_FE14_2000_0000, .rem .always 63 2 33),
    (0x1004_7E14_2000_0000, .and .always 63 2 33),
    (0x1004_FE14_2000_0000, .or .always 63 2 33),
    (0x1005_7E14_2000_0000, .xor .always 63 2 33),
    (0x1005_FE14_2000_0000, .andn .always 63 2 33),
    (0x1006_7E14_2000_0000, .shl .always 63 2 33),
    (0x1006_FE14_2000_0000, .shr .always 63 2 33),
    (0x1007_7E14_2000_0000, .sar .always 63 2 33),
    (0x1007_FE14_2000_0000, .min .always 63 2 33),
    (0x1008_7E14_2000_0000, .max .always 63 2 33),
    (0x1008_FE14_2000_0000, .minu .always 63 2 33),
    (0x1009_7E14_2000_0000, .maxu .always 63 2 33),
    (0x1009_FE10_0000_0000, .clz .always 63 2),
    (0x100A_7E10_0000_0000, .popc .always 63 2),
    (0x100A_8210_7C00_0000, .sel .always 1 2 3 14),
    (0x1010_7E17_FFFF_FFFB, .addi .always 63 2 (-5)),
    (0x1010_FE17_FFFF_FFFB, .andi .always 63 2 (-5)),
    (0x1011_7E17_FFFF_FFFB, .ori .always 63 2 (-5)),
    (0x1011_FE17_FFFF_FFFB, .xori .always 63 2 (-5)),
    (0x1012_7E10_0000_003F, .shli .always 63 2 63),
    (0x1012_FE10_0000_003F, .shri .always 63 2 63),
    (0x1013_7E10_0000_003F, .sari .always 63 2 63),
    (0x1013_FE07_FFFF_FFFB, .movi .always 63 (-5)),
    (0x1014_7E10_FFFF_FFFF, .movhi .always 63 2 0xFFFFFFFF)] = true := by decide +kernel

/-- R39, R47. -/
theorem test_decode_scalar : decodes [
    (0x1018_600A_1000_0000, .cmp .always 12 .eq 2 33),
    (0x1018_610A_1000_0000, .cmp .always 12 .ne 2 33),
    (0x1018_620A_1000_0000, .cmp .always 12 .lt 2 33),
    (0x1018_630A_1000_0000, .cmp .always 12 .le 2 33),
    (0x1018_640A_1000_0000, .cmp .always 12 .ltu 2 33),
    (0x1018_650A_1000_0000, .cmp .always 12 .leu 2 33),
    (0x1018_8D0B_FFFF_FFFF, .cmpi .always 1 .leu 2 (-1)),
    (0x101C_66F8_0000_0000, .pand .always 12 13 15),
    (0x101C_E6F8_0000_0000, .por .always 12 13 15),
    (0x101D_66F8_0000_0000, .pxor .always 12 13 15),
    (0x101D_E6F8_0000_0000, .pandn .always 12 13 15),
    (0x101E_18F0_0000_0000, .pset .always 3 60),
    (0x1020_13FF_0000_0000, .spld .always 9 511),
    (0x1020_93FF_0000_0000, .spst .always 9 511),
    (0x1021_120A_0000_0000, .csrr .always 9 0x050),
    (0x1021_920A_0000_0000, .csrw .always 9 0x050),
    (0x1022_1200_0280_0000, .lidx .always 9 5),
    (0x1028_7E14_2000_0000, .fadd .always 63 2 33),
    (0x1028_FE14_2000_0000, .fsub .always 63 2 33),
    (0x1029_7E14_2000_0000, .fmul .always 63 2 33),
    (0x1029_FE14_2000_0000, .ffma .always 63 2 33),
    (0x102A_7E14_2000_0000, .fmin .always 63 2 33),
    (0x102A_FE14_2000_0000, .fmax .always 63 2 33),
    (0x102B_630A_1000_0000, .fcmp .always 12 .le 2 33),
    (0x102B_FE10_0000_0000, .fcvti .always 63 2),
    (0x102C_7E10_0000_0000, .icvtf .always 63 2)] = true := by decide +kernel

/-- R39, R47. -/
theorem test_decode_signal : decodes [
    (0x1030_13F8_3800_0000, .sigset .always 9 126 14 0),
    (0x1030_13F8_3680_0000, .sigset .always 9 126 13 5),
    (0x1030_93F8_3C00_0000, .sigget .always 9 126 15 0),
    (0x1031_01F8_0000_0000, .sigclr .always 126),
    (0x1031_81FB_FC00_0000, .fillmk .always 126 255),
    (0x1032_13FA_0000_0000, .waitfill .always 9 126 128),
    (0x1032_93FA_0000_0000, .taprd .always 9 126 128),
    (0x1033_13FA_0000_0000, .tapwr .always 9 126 128)] = true := by decide +kernel

/-- R37, R38, R48. -/
theorem test_decode_vector : decodes [
    (0x2000_7F7F_207E_A007, .vadd .always .fp32 (.tap 126 127) (.sreg 63) (.imm 0x801) 3),
    (0x2020_FF7F_207E_A007, .vsub .always .fp16 (.tap 126 127) (.sreg 63) (.imm 0x801) 3),
    (0x2041_7F7F_207E_A007, .vmul .always .bf16 (.tap 126 127) (.sreg 63) (.imm 0x801) 3),
    (0x2001_FF7F_207E_A007, .vfma .always .fp32 (.tap 126 127) (.sreg 63) (.imm 0x801) 3),
    (0x2022_7F7F_207E_A007, .vfms .always .fp16 (.tap 126 127) (.sreg 63) (.imm 0x801) 3),
    (0x2062_FF7F_207E_A004, .vmin .always .int32 (.tap 126 127) (.sreg 63) (.imm 0x801)),
    (0x2063_7F7F_207E_A004, .vmax .always .int32 (.tap 126 127) (.sreg 63) (.imm 0x801)),
    (0x2043_FF7F_207E_0000, .vabs .always .bf16 (.tap 126 127) (.sreg 63)),
    (0x2044_7F7F_207E_0000, .vneg .always .bf16 (.tap 126 127) (.sreg 63)),
    (0x2046_FF7F_207E_0000, .vmov .always .bf16 (.tap 126 127) (.sreg 63)),
    (0x2048_7F7F_207E_0000, .vrmax .always .bf16 (.tap 126 127) (.sreg 63)),
    (0x204C_FF7F_207E_0000, .viota .always .bf16 (.tap 126 127) (.sreg 63)),
    (0x2024_801F_207E_A004, .vcmpeq .always .fp16 (.vreg 31) (.sreg 63) (.imm 0x801)),
    (0x2025_001F_207E_A004, .vcmplt .always .fp16 (.vreg 31) (.sreg 63) (.imm 0x801)),
    (0x2025_801F_207E_A004, .vcmple .always .fp16 (.vreg 31) (.sreg 63) (.imm 0x801)),
    (0x2026_001F_207E_A004, .vsel .always .fp16 (.vreg 31) (.sreg 63) (.imm 0x801)),
    (0x2007_7F7F_207E_401C, .vbcast .always .fp32 (.tap 126 127) (.sreg 63) (.sreg 7)),
    (0x200C_7F7F_207E_401C, .vslide .always .fp32 (.tap 126 127) (.sreg 63) (.sreg 7)),
    (0x2007_FF7F_207E_0002, .vrsum .always .fp32 (.tap 126 127) (.sreg 63) 2),
    (0x2008_FF7F_207E_0001, .vrcp .always .fp32 (.tap 126 127) (.sreg 63) 1),
    (0x2029_7F7F_207E_0001, .vrsq .always .fp16 (.tap 126 127) (.sreg 63) 1),
    (0x2009_FF7F_207E_0001, .vexp2 .always .fp32 (.tap 126 127) (.sreg 63) 1),
    (0x202A_7F7F_207E_0001, .vlog2 .always .fp16 (.tap 126 127) (.sreg 63) 1),
    (0x204A_FF7F_207E_A005, .vscale .always .bf16 (.tap 126 127) (.sreg 63) (.imm 0x801) 1),
    (0x206B_7F7F_207E_8001, .vcvt .always .int32 (.tap 126 127) (.sreg 63) .fp32 1),
    (0x206B_7F7F_207E_8005, .vcvt .always .int32 (.tap 126 127) (.sreg 63) .fp16 1),
    (0x206B_7F7F_207E_8009, .vcvt .always .int32 (.tap 126 127) (.sreg 63) .bf16 1),
    (0x206B_7F7F_207E_800D, .vcvt .always .int32 (.tap 126 127) (.sreg 63) .int32 1),
    (0x206B_FF7F_207E_A004, .vperm .always .int32 (.tap 126 127) (.sreg 63) (.imm 0x801)),
    (0x206D_7F7F_850C_A004, .vtapx .always .int32 (.tap 126 127) (.tap 5 6) (.imm 0x801)),
    (0x2070_7F7F_207E_A004, .vand .always (.tap 126 127) (.sreg 63) (.imm 0x801)),
    (0x2070_FF7F_207E_A004, .vor .always (.tap 126 127) (.sreg 63) (.imm 0x801)),
    (0x2071_7F7F_207E_A004, .vxor .always (.tap 126 127) (.sreg 63) (.imm 0x801)),
    (0x2071_FF7F_207E_A004, .vshl .always (.tap 126 127) (.sreg 63) (.imm 0x801)),
    (0x2072_7F7F_207E_A004, .vshr .always (.tap 126 127) (.sreg 63) (.imm 0x801)),
    (0x2072_FF7F_207E_A004, .vsar .always (.tap 126 127) (.sreg 63) (.imm 0x801))] = true := by decide +kernel

/-- R43, R49. -/
theorem test_decode_matrix : decodes [
    (0x3000_27EF_EFE0_3C00, .mma .always 1 0 126 127 ⟨127, 1⟩ (.ni8 7)),
    (0x3000_A7EF_EFE0_3C00, .mmaz .always 1 0 126 127 ⟨127, 1⟩ (.ni8 7)),
    (0x3000_0FEF_E000_0100, .mma .always 0 1 126 127 ⟨0, 0⟩ .bf16),
    (0x3001_0FEF_E000_0200, .latch .always 1 126 127 .fp16),
    (0x3001_8FEF_E000_0200, .latcht .always 1 126 127 .fp16),
    (0x3002_2000_010F_0000, .asetId .always 1 ⟨8, 120⟩),
    (0x3002_2000_010F_0800, .asetZero .always 1 ⟨8, 120⟩),
    (0x3002_A7EF_E10F_0000, .again .always 1 126 127 ⟨8, 120⟩),
    (0x3003_27EF_E10F_0000, .aoff .always 1 126 127 ⟨8, 120⟩),
    (0x3005_A7EF_E10F_0000, .apply .always 1 126 127 ⟨8, 120⟩),
    (0x3006_27EF_E10F_0000, .ardOff .always 1 126 127 ⟨8, 120⟩),
    (0x3006_27EF_E10F_0800, .ardGain .always 1 126 127 ⟨8, 120⟩),
    (0x3004_3800_010F_0000, .scan .always 1 3 ⟨8, 120⟩),
    (0x3004_3800_010F_1000, .scanUpd .always 1 3 ⟨8, 120⟩),
    (0x3004_9FEF_E000_0000, .cyset .always 3 126 127),
    (0x3004_9800_0000_0800, .cysetId .always 3),
    (0x3005_1FEF_E000_0000, .cyget .always 3 126 127)] = true := by decide +kernel

/-- R44, R50. -/
theorem test_decode_copy : decodes [
    (0x4000_7EFE_6000_6E77, .cld .always ⟨126, 63, 9, 0x8001, 5, 6, 7, 7⟩),
    (0x4000_FEFE_6000_6E76, .cst .always ⟨126, 63, 9, 0x8001, 5, 6, 7, 6⟩),
    (0x4005_FEFE_6000_6E71, .csub .always ⟨126, 63, 9, 0x8001, 5, 6, 7, 1⟩),
    (0x4006_7EFE_6000_6E70, .cpull .always ⟨126, 63, 9, 0x8001, 5, 6, 7, 0⟩),
    (0x4001_7EFE_6000_6E7A, .clda .always ⟨126, 63, 9, 0x8001, 5, 6, 7, 10⟩),
    (0x4001_FEFE_6000_6E76, .cstr .always ⟨126, 63, 9, 0x8001, 5, 6, 7, 6⟩),
    (0x4002_7EFB_F4E4_5CE6, .cgath .always ⟨126, 125, 62, 9, 200, 5, 6, 7, 6⟩),
    (0x4002_FEFB_F4E4_5CE6, .cscat .always ⟨126, 125, 62, 9, 200, 5, 6, 7, 6⟩),
    (0x4003_7EFB_F129_C000, .scacc .always ⟨126, 125, 124, 2, 10, 7⟩),
    (0x4003_F800_0000_0000, .ccancel .always 15),
    (0x4004_7800_0000_0000, .cwait .always 15),
    (0x4006_F800_0000_0000, .cunsub .always 15),
    (0x4004_FEFC_0000_0000, .dset .always 15 13 62),
    (0x4005_4604_0000_0000, .fence .always .pod .release 0x81),
    (0x4008_C604_0000_0000, .nmfence .always .pod .release 0x81)] = true := by decide +kernel

/-- R44, R50, R349. -/
theorem test_decode_engines : decodes [
    (0x4008_7EF8_0000_00F0, .nmcmd .always 126 62 15),
    (0x4009_7EF8_0000_00F0, .nmatom .always 126 62 15),
    (0x4010_7EF8_0000_00F0, .launch .always 126 62 15),
    (0x4010_FEF8_0000_00F0, .wsend .always 126 62 15),
    (0x400C_7EFB_D000_0000, .chsend .always 126 62 61),
    (0x400C_7EFB_D100_0000, .chsendTry .always 126 62 61),
    (0x400C_FEFB_D000_0000, .chbind .always 126 62 61),
    (0x400C_80FB_D100_0000, .chbindW .always 62 61),
    (0x400D_00FB_D000_0000, .chclose .always 62 61),
    (0x400D_00FB_D100_0000, .chcloseW .always 62 61),
    (0x400D_80FB_D000_0000, .chstat .always 62 61)] = true := by decide +kernel

/-- Words that the spec itself prints. -/
theorem test_decode_printed : decodes [
    (0x1180_0A30_E000_0000, .add ⟨false, 3⟩ 5 6 7),
    (0xA020_0002_8502_0010, .vadd .always .fp16 (.vreg 2) (.tap 5 1) (.vreg 4) 0),
    (0x9013_9400_1234_5678, .movi .always 10 0x12345678),
    (0x9014_1450_9ABC_DEF0, .movhi .always 10 10 0x9ABCDEF0),
    (0x1018_9A28_0000_0000, .cmpi .always 3 .lt 10 0),
    (0x9980_1850_0000_0000, .add ⟨true, 3⟩ 12 10 0),
    (0x9003_1A61_6000_0000, .divu .always 13 12 11),
    (0x9020_9A07_0000_0000, .spst .always 13 7),
    (0x800E_8000_0000_0000, .exit .always),
    (0x8004_0002_8001_0000, .loop .always 5 2),
    (0xA001_8003_8404_4025, .vfma .always .fp32 (.vreg 3) (.tap 4 2) (.sreg 9) 1),
    (0xC004_9028_0000_0000, .dset .always 2 0 20),
    (0xC000_0004_8001_0410, .cld .always ⟨0, 1, 2, 4, 0, 4, 1, 0⟩),
    (0xB000_8010_0100_0100, .mmaz .always 0 0 1 0 ⟨8, 0⟩ .bf16),
    (0xB004_0000_0100_1000, .scanUpd .always 0 0 ⟨8, 0⟩),
    (0xC010_0550_0000_0030, .launch .always 5 20 3),
    (0xC00C_8051_5100_0000, .chbindW .always 20 21),
    (0xC008_0160_0000_0020, .nmcmd .always 1 24 2),
    (0xC001_0631_0000_4446, .clda .always ⟨6, 12, 4, 1, 0, 4, 4, 6⟩),
    (0xC005_27FC_0000_0000, .fence .always .die .release 0xFF),
    (0x10B0_1210_2800_0000, .sigset ⟨false, 1⟩ 9 4 10 0),
    (0xC002_0202_7180_0860, .cgath .always ⟨2, 1, 14, 3, 0, 0, 4, 3, 0⟩),
    (0x8004_B200_0005_8000, .loopr .always 25 11),
    (0xA8A6_C202_0006_0000, .vmov ⟨true, 1⟩ .fp16 (.tap 4 2) (.vreg 3))] = true := by decide +kernel

/-- R42: one test, and four with their extension syllable (displacements -1, 2, -3 and 4). -/
theorem test_decode_brm :
    decodeTableWord 64 (0x0001_0000_0000_0000 + 19 * 2 ^ 42 + 0xFFFF * 2 ^ 9) = some (.brm [⟨true, 3, -1⟩]) ∧
    decodeTableWord 128 (0x0001_0000_0000_0000 + 1 * 2 ^ 42 + 18 * 2 ^ 37 + 3 * 2 ^ 32 + 16 * 2 ^ 27 + 3 * 2 ^ 25 + 0xFFFF * 2 ^ 9 +
      (5 * 2 ^ 60 + 2 * 2 ^ 44 + 0xFFFD * 2 ^ 28 + 4 * 2 ^ 12) * 2 ^ 64) =
      some (.brm [⟨false, 1, -1⟩, ⟨true, 2, 2⟩, ⟨false, 3, -3⟩, ⟨true, 0, 4⟩]) := by
  decide +kernel

/-- R33, R36, R37, R42: refusals by name. -/
theorem test_decode_refusals :
    let r := fun w => match decodeSyllable w with
      | .ok _ => none
      | .error e => some e
    r 0x6000_0000_0000_0000 = some .reservedClass ∧ r 0x7000_0000_0000_0000 = some .reservedClass ∧
    r 0x5000_0000_0000_0000 = some .loneExtension ∧ r 0x0003_8000_0000_0000 = some .opcode ∧
    r 0x100B_0000_0000_0000 = some .opcode ∧ r 0x200D_8000_0000_0000 = some .opcode ∧ r 0x3003_8000_0000_0000 = some .opcode ∧
    r 0x4007_0000_0000_0000 = some .opcode ∧ r 0x2010_0000_0000_0000 = some .opcode ∧
    r 0x0000_0000_0000_0001 = some .unusedBits ∧ r 0x0800_0000_0000_0000 = some .fieldLimit ∧
    r 0x1018_0600_0000_0000 = some .fieldLimit ∧ r 0x2000_3000_0000_0000 = some .fieldLimit ∧
    r 0x0001_0000_0200_0000 = some .missingExtension ∧ r 0x400D_8000_0100_0000 = some .fieldLimit := by
  decide +kernel

/-- R33, R51, R52: a bundle ends with E; S before C is out of order, and a second C is one too many. -/
theorem test_decode_bundles :
    delimit [1, 2 ^ 63, 3] = some [1, 2 ^ 63] ∧ delimit [1, 2] = none ∧
    orderMask [] [0x1180_0A30_E000_0000, 0x0008_0080_0000_0000] = 2 ∧
    orderMask [] [0x0008_0080_0000_0000, 0x0000_0000_0000_0000] = 2 ∧
    orderMask [] [0x0008_0080_0000_0000, 0x1180_0A30_E000_0000, 0x1180_0A30_E000_0000, 0xA020_0002_8502_0010] = 0 := by
  decide +kernel

/-! What is not well formed: one term for each check. -/

theorem test_ill_formed : ([
    .nop ⟨true, 0⟩, .br ⟨true, 0⟩ 1, .jr ⟨true, 0⟩ 1, .brm [], .brm [default, default, default, default, default],
    .loop .always 5 0, .loop ⟨true, 0⟩ 5 1, .loopr .always 1 0, .tick .always 0, .adv .always 127 1, .adv .always 1 0, .trap ⟨true, 0⟩ 1,
    .waitev .always 0, .sigev .always .core 2 0, .sigev .always .quad 8 0, .sigev .always .die 16 0, .sigev .always .pkg 0 0,
    .sigev .always .pod 0 0, .sigev .always .sys 0 0, .bar ⟨true, 0⟩ .sys 0, .fuse .always 5, .add ⟨true, 0⟩ 1 2 3, .clz ⟨true, 0⟩ 1 2,
    .sel ⟨true, 0⟩ 1 2 3 4, .addi ⟨true, 0⟩ 1 2 3, .shli ⟨true, 0⟩ 1 2 3, .movi ⟨true, 0⟩ 1 2, .movhi ⟨true, 0⟩ 1 2 3,
    .cmp .always 0 .eq 1 2, .cmpi .always 13 .eq 1 2, .pand .always 14 1 2, .pset .always 15 1, .spld ⟨true, 0⟩ 1 2,
    .csrr .always 1 0x003, .csrw .always 1 0x051, .lidx .always 1 6, .fadd ⟨true, 0⟩ 1 2 3, .fcmp .always 1 .ltu 1 2,
    .fcmp .always 1 .leu 1 2, .fcmp .always 0 .eq 1 2, .fcvti ⟨true, 0⟩ 1 2, .sigset .always 1 127 0 0, .sigset .always 1 1 15 0,
    .sigset .always 1 1 12 6, .sigset .always 1 1 0 1, .sigget .always 1 127 0 0, .sigget .always 1 1 13 6, .sigclr .always 127,
    .fillmk .always 127 0, .taprd .always 1 127 0] : List Instr).all (fun i => !i.wf) = true := by decide +kernel

theorem test_ill_formed_wide : ([
    .vadd .always .fp32 (.sreg 1) (.vreg 1) (.vreg 2) 0, .vadd .always .fp32 (.imm 1) (.vreg 1) (.vreg 2) 0,
    .vadd .always .fp32 (.tap 127 0) (.vreg 1) (.vreg 2) 0, .vadd .always .fp32 (.vreg 1) (.tap 127 0) (.vreg 2) 0,
    .vadd .always .fp32 (.vreg 1) (.vreg 1) (.tap 127 0) 0, .vadd .always .int32 (.vreg 1) (.vreg 1) (.vreg 2) 1,
    .vmin ⟨true, 0⟩ .fp32 (.vreg 1) (.vreg 1) (.vreg 2), .vabs .always .fp32 (.vreg 1) (.tap 127 0),
    .vcmpeq .always .fp32 (.tap 1 0) (.vreg 1) (.vreg 2), .vsel .always .fp32 (.tap 1 0) (.vreg 1) (.vreg 2),
    .vbcast .always .fp32 (.vreg 1) (.vreg 1) (.vreg 2), .vslide .always .fp32 (.vreg 1) (.vreg 1) (.tap 1 0),
    .vrsum .always .int32 (.vreg 1) (.vreg 2) 1, .vrcp .always .bf16 (.vreg 1) (.vreg 2) 0, .vlog2 .always .int32 (.vreg 1) (.vreg 2) 0,
    .vscale .always .int32 (.vreg 1) (.vreg 2) (.vreg 3) 0, .vcvt .always .fp32 (.imm 0) (.vreg 2) .fp16 0,
    .vtapx .always .fp32 (.vreg 1) (.vreg 2) (.vreg 3), .vand .always (.sreg 1) (.vreg 2) (.vreg 3),
    .mma .always 0 0 127 0 ⟨8, 0⟩ .bf16, .mma .always 0 0 1 0 ⟨0, 1⟩ .bf16, .mma .always 0 0 1 0 ⟨8, 121⟩ .bf16,
    .mmaz .always 0 0 1 0 ⟨8, 0⟩ (.ni8 0), .latch .always 0 127 0 .bf16, .latcht .always 0 1 0 (.ni8 0), .asetId .always 0 ⟨8, 121⟩,
    .again .always 0 127 0 ⟨8, 0⟩, .scan .always 0 0 ⟨8, 121⟩, .cyset .always 0 127 0, .cysetId ⟨true, 0⟩ 0,
    .cld .always ⟨1, 1, 0, 1, 0, 0, 1, 8⟩, .cld .always ⟨1, 1, 0, 0, 0, 0, 1, 0⟩, .cld .always ⟨127, 1, 0, 1, 0, 0, 1, 0⟩,
    .cst .always ⟨1, 1, 0, 1, 0, 0, 1, 1⟩, .csub .always ⟨1, 1, 0, 1, 0, 0, 1, 2⟩, .cpull .always ⟨1, 1, 0, 1, 0, 0, 1, 1⟩,
    .clda .always ⟨1, 1, 0, 1, 0, 0, 1, 1⟩, .cstr .always ⟨1, 1, 0, 1, 0, 0, 1, 12⟩, .cgath .always ⟨1, 127, 1, 0, 0, 0, 0, 1, 0⟩,
    .cscat .always ⟨1, 2, 1, 0, 0, 0, 0, 1, 8⟩, .scacc .always ⟨1, 2, 3, 3, 0, 1⟩, .scacc .always ⟨1, 2, 3, 0, 11, 1⟩,
    .scacc .always ⟨1, 2, 127, 0, 0, 1⟩, .ccancel ⟨true, 0⟩ 1, .dset .always 1 14 1, .fence .always .sys .full 0,
    .nmfence .always .sys .full 0, .nmcmd .always 127 1 1, .launch .always 127 1 1, .chsend .always 127 1 1, .chbind .always 127 1 1,
    .chstat ⟨true, 0⟩ 1 1] : List Instr).all (fun i => !i.wf) = true := by decide +kernel

theorem test_ill_formed_events : ([
    .heldBundleRelease 512, .asynchronousCause 512 default, .spareMap 256, .mirrorSourceSearch 0 127, .streamSampleSend 4 0,
    .copyElementIssue 512 0, .copyAccessComplete 512 0 0, .combinerFlush 4 0, .bankRefresh 8 0 0 1, .bankRefresh 0 0 0 0,
    .bankRefresh 0 0 0 41, .rowPrecharge 8 0 0, .patrolScrub 8 0, .stackLost 8, .timetableVisit 4, .graphReturn 4 0,
    .doorbellTailWrite 4 0 0, .slotmapWrite 256 0, .hostWrite 64 0 [] false, .hostRead 64 0 1, .linkDown 4, .replayTimeout 16,
    .portTraining 16 true 0 0] : List Instr).all (fun i => !i.wf) = true := by decide +kernel

/-! Single steps on the demo's seat. -/

/-- The context of seat 0 after an instruction. -/
def after (s : State) (i : Instr) : Ctx :=
  match exec i s with
  | .next t => t.ctx 0
  | .fault _ => {}
  | .refused _ => {}

/-- s1, s2 and s3 hold these. -/
def holding (a b c : Word) : State := demoWith fun x => ((x.setS 1 a).setS 2 b).setS 3 c

theorem test_add_wraps : (after (holding (-1) 2 0) (.add .always 1 1 2)).s 1 = 1 := by decide +kernel
theorem test_sub_order : (after (holding 2 5 0) (.sub .always 4 1 2)).s 4 = -3 := by decide +kernel
theorem test_s0_discards : (after (holding 2 5 0) (.add .always 0 1 2)).s 0 = 0 := by decide +kernel
theorem test_mulh_signed : (after (holding (-1) 2 0) (.mulh .always 4 1 2)).s 4 = -1 := by decide +kernel
theorem test_mulhu_unsigned : (after (holding (-1) 2 0) (.mulhu .always 4 1 2)).s 4 = 1 := by decide +kernel
theorem test_div_truncates : (after (holding (-7) 2 0) (.div .always 4 1 2)).s 4 = -3 := by decide +kernel
theorem test_rem_sign : (after (holding (-7) 2 0) (.rem .always 4 1 2)).s 4 = -1 := by decide +kernel
theorem test_andn : (after (holding 0xF0 0x30 0) (.andn .always 4 1 2)).s 4 = 0xC0 := by decide +kernel
theorem test_sar : (after (holding (-8) 1 0) (.sar .always 4 1 2)).s 4 = -4 := by decide +kernel
theorem test_shl_wide : (after (holding 1 64 0) (.shl .always 4 1 2)).s 4 = 0 := by decide +kernel
theorem test_minu : (after (holding (-1) 2 0) (.minu .always 4 1 2)).s 4 = 2 := by decide +kernel
theorem test_clz : (after (holding 1 0 0) (.clz .always 4 1)).s 4 = 63 := by decide +kernel
theorem test_popc : (after (holding 0xF1 0 0) (.popc .always 4 1)).s 4 = 5 := by decide +kernel
theorem test_addi_sign : (after (holding 2 0 0) (.addi .always 4 1 (-3))).s 4 = -1 := by decide +kernel
theorem test_movhi : (after (holding 0x12345678 0 0) (.movhi .always 1 1 0x9ABCDEF0)).s 1 = 0x9ABCDEF012345678 := by
  decide +kernel
theorem test_cmp_signed : (after (holding (-1) 1 0) (.cmp .always 3 .lt 1 2)).p 3 = true ∧
    (after (holding (-1) 1 0) (.cmp .always 3 .ltu 1 2)).p 3 = false := by decide +kernel
/-- 1.0 + 2.0 = 3.0 in FP32. -/
theorem test_fadd : (after (holding 0x3F800000 0x40000000 0) (.fadd .always 4 1 2)).s 4 = 0x40400000 := by decide +kernel
/-- 3.0 × 2.0 + 1.0 = 7.0: the destination is the addend. -/
theorem test_ffma : (after (holding 0x40400000 0x40000000 0x3F800000) (.ffma .always 3 1 2)).s 3 = 0x40E00000 := by
  decide +kernel
/-- R75, R79: a branch waits for its two delay bundles. -/
theorem test_branch_waits : (after demo (.br .always 2)).pos.pc = 8 ∧
    (after demo (.br .always 2)).pos.pend.map (fun p => (p.target, p.left)) = some (some 16, 2) := by decide +kernel
/-- R80: a loop enters with its count, from the bundle that follows to 3 syllables on. -/
theorem test_loop_enters : (after demo (.loop .always 5 3)).pos.loops.length = 1 ∧
    (after demo (.loop .always 0 3)).pos.loops.length = 0 := by decide +kernel
/-- R94: a software trap keeps its syllable, and the pc stays. -/
theorem test_trap_record : (after demo (.trap .always 0x1234)).trap.info.toNat % 256 = 0x0F ∧
    (after demo (.trap .always 0x1234)).trap.syll = [0x800F091A00000000] ∧
    (after demo (.trap .always 0x1234)).pos.pc = 0 := by decide +kernel
/-- INT32 lanes of two immediates: 2,047 − (−2,048) = 4,095 in each lane. -/
theorem test_vsub_lanes : (after demo (.vsub .always .int32 (.vreg 1) (.imm 0x7FF) (.imm 0x800) 0)).v 1 =
    BitVec.ofNat 2048 (4095 * ((2 ^ 2048 - 1) / (2 ^ 32 - 1))) := by decide +kernel
theorem test_toll : (after demo (.nop .always)).bud.ibud = 999 := by decide +kernel

end Sys2Proof.Tests
end

