-- ==== Sys2Proof/Tests/WitnessControl.lean ====
section
/-!
SUPPORT. States and operands that meet the hypotheses of the statements on control, traps, budgets, blocks, barriers, the
step, held bundles and yields.
-/
namespace Sys2Proof.Tests
set_option Elab.async false
open Sys2Proof Sys2Proof.Machine

/-! Control. -/

theorem witness_plain_control :
    let s := demoWith fun c => { c with csr.evpend := 2 }
    Runs .always 1 0 s ∧ (2 : BitVec 16) ≠ 0 ∧ (s.ctx s.cur).csr.evpend &&& 2 ≠ 0 ∧ s.Wf ∧
      sigevOk .core 0 = true ∧ evTarget s s.cur .core 0 = some (0, 0) ∧ evTarget s s.cur .core 1 = none ∧
      sigevOk .die 0 = true ∧ evTarget s s.cur .die 0 = some (0, 0) ∧ evTarget s s.cur .die 1 = none :=
  ⟨runs_of rfl, by decide, by decide, ⟨rfl, rfl, by decide⟩, rfl, rfl, rfl, rfl, rfl, rfl⟩

theorem witness_waitev : Runs .always 1 0 demo ∧ (demo.ctx demo.cur).csr.evpend &&& 0x8000 = 0 :=
  ⟨runs_of rfl, rfl⟩

/-- s1 = 64 and s62 = 64 are targets; s2 = 65 is none. -/
def demoTargets : State := demoWith fun c => ((c.setS 1 64).setS 2 65).setS 62 64

theorem witness_transfers :
    let c := demoTargets.ctx demoTargets.cur
    Runs .always 1 0 demoTargets ∧ Straight demoTargets ∧ (c.s 1).toNat % 8 = 0 ∧ (c.s 2).toNat % 8 ≠ 0 ∧
      (c.s 62).toNat % 8 = 0 ∧ ((demoWith (·.setS 62 1)).ctx 0).s 62 = 1 ∧ Runs .always 1 0 (demoWith (·.setS 62 1)) ∧
      Straight (demoWith (·.setS 62 1)) :=
  ⟨runs_of rfl, straight_of rfl, rfl, by decide, rfl, rfl, runs_of rfl, straight_of rfl⟩

theorem witness_brm :
    (Instr.brm [⟨true, 1, 5⟩, ⟨false, 2, -1⟩]).wf = true ∧ CanIssue 1 0 demo ∧ Straight demo :=
  ⟨rfl, canIssue_of rfl, straight_of rfl⟩

theorem witness_delay :
    let one := demoWith fun c => { c with pos.pend := some ⟨some 64, 1, false, true⟩ }
    let two := demoWith fun c => { c with pos.pend := some ⟨some 64, 2, false, true⟩ }
    Runs .always 1 0 one ∧ (one.ctx one.cur).pos.loops = [] ∧
      (one.ctx one.cur).pos.pend = some ⟨some 64, 1, false, true⟩ ∧
      Runs .always 1 0 two ∧ (two.ctx two.cur).pos.loops = [] ∧
      (two.ctx two.cur).pos.pend = some ⟨some 64, 2, false, true⟩ :=
  ⟨runs_of rfl, rfl, rfl, runs_of rfl, rfl, rfl⟩

/-- A transfer to 64 lands in a body that holds 64 and, inside it, one that does not. -/
theorem witness_delay_pops (pops : Bool) :
    let front : List Machine.Loop := [⟨8, 64, 2, 0⟩]
    let inner : List Machine.Loop := [⟨8, 56, 2, 0⟩]
    let s := demoWith fun c => { c with pos.loops := front ++ inner, pos.pend := some ⟨some 64, 1, false, pops⟩ }
    Runs .always 1 0 s ∧ (s.ctx s.cur).pos.loops = front ++ inner ∧
      (s.ctx s.cur).pos.pend = some ⟨some 64, 1, false, pops⟩ ∧
      (∀ l, (s.ctx s.cur).pos.loops.getLast? = some l → l.stop ≠ (s.ctx s.cur).pos.pc) ∧
      (∀ l ∈ inner, ¬(l.start.toNat ≤ (64 : Word).toNat ∧ (64 : Word).toNat ≤ l.stop.toNat)) ∧
      (∀ l, front.getLast? = some l → l.start.toNat ≤ (64 : Word).toNat ∧ (64 : Word).toNat ≤ l.stop.toNat) := by
  refine ⟨runs_of ?_, rfl, rfl, ?_, ?_, ?_⟩ <;> revert pops <;> decide

/-- The demo with a syllable at 0, 8 and 16 of memory and its translation cached. -/
def demoCode (w : Nat) : State :=
  let s := warm (demo.withFetchWord 64 w)
  let bs := (tableSyllables 64 w).flatMap fun x => leBytes 8 x.toNat
  { s with mem := memWrite (memWrite s.mem 8 bs) 16 bs }

/-- A bundle of one syllable is delimited where it is fetched. -/
theorem delimit_of {k : Nat} {a : Word} {s : State} {w : Nat} (h : fetch k a s = (.bundle [w], s)) :
    delimitAt k a s = (.ok 8, s) := by
  simp only [delimitAt, h, List.length_singleton]

theorem witness_call :
    let s := demoCode 0x8000_0000_0000_0000
    Runs .always 1 0 s ∧ Straight s ∧ delimitAt s.cur ((s.ctx s.cur).pos.pc + 8) s = (.ok 8, s) ∧
      delimitAt s.cur ((s.ctx s.cur).pos.pc + 8 + BitVec.ofNat 64 8) s = (.ok 8, s) ∧ ((s.ctx s.cur).s 0).toNat % 8 = 0 :=
  ⟨runs_of rfl, straight_of rfl, delimit_of (w := 0x8000_0000_0000_0000) (by decide +kernel),
    delimit_of (w := 0x8000_0000_0000_0000) (by decide +kernel), rfl⟩

def aLoop : Loop := ⟨0, 0, 2, 0⟩

theorem witness_loops :
    let deep := demoWith fun c => { c with pos.loops := List.replicate 6 { aLoop with stop := 64 } }
    let last := demoWith fun c => { c with pos.loops := [aLoop] }
    let done := demoWith fun c => { c with pos.loops := [{ aLoop with remaining := 1 }] }
    Runs .always 1 0 (demoWith (·.setS 1 3)) ∧ Straight (demoWith (·.setS 1 3)) ∧ ((demoWith (·.setS 1 3)).ctx 0).s 1 ≠ 0 ∧
      Runs .always 1 0 deep ∧ (deep.ctx deep.cur).pos.loops.length = 6 ∧ (deep.ctx deep.cur).pos.xferAge = 0 ∧
      (deep.ctx deep.cur).pos.loops = List.replicate 5 { aLoop with stop := 64 } ++ [{ aLoop with stop := 64 }] ∧
      (64 : Word) ≠ (deep.ctx deep.cur).pos.pc ∧ (deep.ctx deep.cur).pos.pend = none ∧
      Runs .always 1 0 last ∧ (last.ctx last.cur).pos.loops = [aLoop] ∧ aLoop.stop = (last.ctx last.cur).pos.pc ∧
      1 < aLoop.remaining.toNat ∧ Runs .always 1 0 done ∧
      (done.ctx done.cur).pos.loops = [{ aLoop with remaining := 1 }] :=
  ⟨runs_of rfl, straight_of rfl, by decide, runs_of rfl, rfl, rfl, rfl, by decide, rfl, runs_of rfl, rfl, rfl, by decide,
    runs_of rfl, rfl⟩

/-- A loop inside an active one, at its end and beyond it. -/
theorem witness_nested_loops :
    let inner := demoWith fun c => { c.setS 1 3 with pos.loops := [{ aLoop with stop := 64 }] }
    let beyond := demoWith fun c => { c with pos.loops := [aLoop] }
    Runs .always 1 0 inner ∧ (inner.ctx inner.cur).pos.loops = [] ++ [{ aLoop with stop := 64 }] ∧
      (inner.ctx inner.cur).pos.pend = none ∧ (inner.ctx inner.cur).pos.xferAge = 0 ∧
      ((inner.ctx inner.cur).pos.pc + BitVec.ofNat 64 (8 * (8 : BitVec 16).toNat)).toNat ≤ (64 : Word).toNat ∧
      (inner.ctx inner.cur).s 1 ≠ 0 ∧ Runs .always 1 0 beyond ∧ (beyond.ctx beyond.cur).pos.loops = [] ++ [aLoop] ∧
      aLoop.stop.toNat < ((beyond.ctx beyond.cur).pos.pc + BitVec.ofNat 64 (8 * (1 : BitVec 16).toNat)).toNat :=
  ⟨runs_of rfl, rfl, rfl, rfl, by decide, by decide, runs_of rfl, rfl, by decide⟩

/-- A count of 0 outside every loop, inside one, on the end of one, and with an end that has no translation. -/
theorem witness_loop_skips :
    let s := demoCode 0x8000_0000_0000_0000
    let inner := s.updCtx 0 fun c => { c with pos.loops := [{ aLoop with stop := 64 }] }
    let ends := s.updCtx 0 fun c => { c with pos.loops := [{ aLoop with stop := 8 }] }
    let far := demoWith fun c => { c with pos.pc := 2 ^ 48 - 8 }
    Runs .always 1 0 s ∧ Straight s ∧ (s.ctx s.cur).s 0 = 0 ∧ delimitAt s.cur 8 s = (.ok 8, s) ∧
      Runs .always 1 0 inner ∧ (inner.ctx inner.cur).pos.loops = [] ++ [{ aLoop with stop := 64 }] ∧
      delimitAt inner.cur 8 inner = (.ok 8, inner) ∧
      Runs .always 1 0 ends ∧ (ends.ctx ends.cur).pos.loops = [] ++ [{ aLoop with stop := 8 }] ∧
      1 < ({ aLoop with stop := 8 } : Loop).remaining.toNat ∧ delimitAt ends.cur 8 ends = (.ok 8, ends) ∧
      Runs .always 1 0 far ∧ Straight far ∧ (far.ctx far.cur).pos.pc + BitVec.ofNat 64 (8 * (1 : BitVec 16).toNat) = 2 ^ 48 ∧
      delimitAt far.cur (2 ^ 48) far = (.error 0x0B, far) :=
  ⟨runs_of rfl, straight_of rfl, rfl, delimit_of (w := 0x8000_0000_0000_0000) (by decide +kernel),
    runs_of rfl, rfl, delimit_of (w := 0x8000_0000_0000_0000) (by decide +kernel),
    runs_of rfl, rfl, by decide, delimit_of (w := 0x8000_0000_0000_0000) (by decide +kernel),
    runs_of rfl, straight_of rfl, rfl, rfl⟩

/-! Traps of operands and of privilege. -/

theorem witness_control_traps :
    let inside := demoWith fun c => { c with bud.incont := true }
    Runs .always 1 0 demo ∧ (demo.ctx demo.cur).bud.toppriv = false ∧ Runs .always 1 0 inside ∧
      (inside.ctx inside.cur).bud.incont = true ∧ (demo.ctx demo.cur).bud.incont = false ∧ Straight demo :=
  ⟨runs_of rfl, rfl, runs_of rfl, rfl, rfl, straight_of rfl⟩

theorem witness_software_trap : Guard.always.ok = true ∧ Runs .always 1 0 demo ∧ Guard.ok ⟨false, 1⟩ = true ∧
    CanIssue 1 0 demo ∧ Settled demo ∧ Guard.holds ⟨false, 1⟩ (demo.ctx demo.cur) = false :=
  ⟨rfl, runs_of rfl, rfl, canIssue_of rfl, settled_of rfl, rfl⟩

/-- A mirror is attached to its stream's agent. -/
theorem witness_attached :
    let s := withSig { demoSig with feed := 2 }
    Runs .always 1 0 s ∧ attached s s.cur (s.ctx s.cur) 5 = true ∧ ((s.ctx s.cur).sg 5).present = true ∧
      (Instr.sigset .always 1 5 14 0).wf = true ∧ (Instr.sigclr .always 5).wf = true :=
  ⟨runs_of rfl, rfl, rfl, rfl, rfl⟩

theorem witness_copy_traps :
    let o : XcOps := ⟨5, 9, 0, 1, 0, 0, 3, 0⟩
    Runs .always 1 0 demo ∧ handleHold (demo.ctx demo.cur) o.h = false ∧ (Instr.cld .always o).wf = true ∧
      (Instr.cst .always o).wf = true ∧ ((demo.ctx demo.cur).sg o.sig).present = false ∧ Runs .always 1 0 (withSig demoSig) ∧
      (((withSig demoSig).ctx 0).sg o.sig).present = true ∧ (((withSig demoSig).ctx 0).sg o.sig).feed ≠ 1 :=
  ⟨runs_of rfl, rfl, rfl, rfl, rfl, runs_of rfl, rfl, by decide⟩

theorem witness_channel_traps :
    Runs .always 1 0 demo ∧ isRemote demo ((demo.ctx demo.cur).s 0) = false ∧ ((demo.ctx demo.cur).s 0).toNat < 2 ^ 32 ∧
      chanUsable demo demo.cur ((demo.ctx demo.cur).s 0) = false :=
  ⟨runs_of rfl, rfl, by decide, rfl⟩

/-! Budgets, yields, continuations. -/

theorem witness_topup :
    let s := demoWith fun c => { c with bud.toppriv := true }
    Runs .always 1 0 s ∧ (s.ctx s.cur).bud.toppriv = true :=
  ⟨runs_of rfl, rfl⟩

theorem witness_yield_begins :
    let one := demoWith fun c => { c with bud.ibud := 1 }
    Runs .always 0 0 demo ∧ (demo.ctx demo.cur).bud.incont = false ∧ 1 < (demo.ctx demo.cur).bud.ibud.toInt ∧
      Runs .always 0 0 one ∧ (one.ctx one.cur).bud.ibud = 1 :=
  ⟨runs_of rfl, rfl, by decide, runs_of rfl, rfl⟩

theorem witness_resume :
    let inside := demoWith fun c => { c with bud.incont := true }
    let back := demoWith fun c => { c with bud.incont := true, pos.pend := some ⟨none, 1, true, false⟩ }
    CanIssue 1 0 inside ∧ Guard.holds .always (inside.ctx inside.cur) = true ∧ Straight inside ∧
      (inside.ctx inside.cur).bud.incont = true ∧ CanIssue 1 0 back ∧ Guard.holds .always (back.ctx back.cur) = true ∧
      (back.ctx back.cur).pos.pend = some ⟨none, 1, true, false⟩ :=
  ⟨canIssue_of rfl, rfl, straight_of rfl, rfl, canIssue_of rfl, rfl, rfl⟩

/-! Barriers and blocks. -/

/-- Members 0 and 1 of a group of two on seats 0 and 2; FUSED is set. -/
def demoPair (f g : Ctx → Ctx) : State :=
  let c : Ctx := { demoCtx with csr.groupsz := 2 }
  { seats := [(0, { phase := .running, step := some (0, 0), share := 2048, ctx := f c }),
      (2, { phase := .running, step := some (0, 1), share := 2048, ctx := g { c with csr.member := 1 } })]
    steps := [(0, { present := true, uid := 1, fresh := false, members := [{ place := .onSeat 0 }, { place := .onSeat 2 }] })]
    tasks := [(0, { present := true, part := 1, steps := 2, next := 2, wb := { size := 2, fused := true } })]
    parts := [(1, { present := true })]
    host := { resetting := false } }

theorem pair_wf : (demoPair id id).Wf := ⟨rfl, rfl, by decide⟩

theorem witness_barriers :
    let s := demoPair id id
    Runs .always 1 0 demo ∧ demo.Wf ∧ memberSeat demo 0 0 = some 0 ∧ (demo.step1 0).members.length = 1 ∧
      (demo.step1 0).uid ≠ 0 ∧ windowPkgs demo (demo.partOf 0) = [] ∧ findBar demo (demo.partOf 0) 5 63 = none ∧
      Runs .always 1 0 s ∧ s.Wf ∧ memberSeat s 0 0 = some 0 ∧
      1 ∈ barMembers s (s.stepKey s.cur) (Scope.num .quad) (instanceOf (Scope.num .quad) s.cur) ∧ 1 ≠ s.memberNo s.cur ∧
      memberSeat s 0 1 ≠ some 0 ∧ atBar s 0 (Scope.num .quad) 63 1 = false ∧ Scope.num .quad ≤ 3 ∧
      fenceOpen demo 0 = false ∧ fenceOpen s 0 = false :=
  ⟨runs_of rfl, demo_wf, rfl, rfl, by decide, rfl, rfl, runs_of rfl, pair_wf, rfl, by decide, by decide, by decide, rfl,
    by decide, rfl, rfl⟩

theorem witness_fusion :
    let s := demoPair id fun c => { c with wait.arrival := some (.fuse 2) }
    let w := demoPair id id
    Runs .always 1 0 s ∧ s.Wf ∧ memberSeat s 0 0 = some 0 ∧ (s.ctx s.cur).fuse = .alone ∧ (s.waybill s.cur).fused = true ∧
      2 ^ (1 : BitVec 3).toNat ≤ (s.ctx s.cur).csr.groupsz.toNat ∧ spanClash s 0 0 (2 ^ (1 : BitVec 3).toNat) = [] ∧
      (∀ j ∈ blockOf 2 0, j ≠ 0 → arrivedAs s 0 (.fuse 2) j = true ∧ samePlace (s.memberCtx 0 j) (s.ctx 0) = true ∧
        (s.memberCtx 0 j).fuse = (s.ctx 0).fuse) ∧
      Runs .always 1 0 w ∧ spanClash w 0 0 2 = [] ∧ 1 ∈ blockOf 2 0 ∧ memberSeat w 0 1 ≠ some 0 ∧
      arrivedAs w 0 (.fuse 2) 1 = false ∧ (w.ctx 0).wait.fuseCount + 1 < (w.ctx 0).csr.tapwait.toNat :=
  ⟨runs_of rfl, ⟨rfl, rfl, by decide⟩, rfl, rfl, rfl, by decide, by decide, by decide, runs_of rfl, by decide, by decide,
    by decide, by decide, by decide⟩

/-- Eight members on the seats of eight cores; the others have arrived at FUSE 8. -/
def demoEight (f g : Ctx → Ctx) : State :=
  let c : Ctx := { demoCtx with csr.groupsz := 8 }
  let at' := fun (j : Nat) (x : Ctx) =>
    (2 * j, ({ phase := .running, step := some (0, j), share := 2048, ctx := x } : Seat))
  let others := (List.range 7).map fun i => at' (i + 1) (g { c with csr.member := BitVec.ofNat 4 (i + 1) })
  let members : List Member := (List.range 8).map fun j => { place := .onSeat (2 * j) }
  { seats := at' 0 (f c) :: others
    steps := [(0, { present := true, uid := 1, fresh := false, members := members })]
    tasks := [(0, { present := true, part := 1, steps := 2, next := 2, wb := { size := 8, fused := true } })]
    parts := [(1, { present := true })]
    host := { resetting := false } }

def here8 (c : Ctx) : Ctx := { c with wait.arrival := some (.fuse 8) }

theorem witness_wide_fusion :
    let s := demoEight id here8
    Runs .always 1 0 s ∧ s.Wf ∧ memberSeat s 0 0 = some 0 ∧ (s.ctx s.cur).fuse = .alone ∧ (s.waybill s.cur).fused = true ∧
      2 ^ (3 : BitVec 3).toNat ≤ (s.ctx s.cur).csr.groupsz.toNat ∧ spanClash s 0 0 8 = [] ∧
      (∀ j ∈ blockOf 8 0, j ≠ 0 → arrivedAs s 0 (.fuse 8) j = true ∧ samePlace (s.memberCtx 0 j) (s.ctx 0) = true ∧
        (s.memberCtx 0 j).fuse = (s.ctx 0).fuse) ∧
      (s.ctx 0).wait.fuseCount + 1 < (s.ctx 0).csr.tapwait.toNat :=
  ⟨runs_of rfl, ⟨rfl, rfl, by decide⟩, rfl, rfl, rfl, by decide, by decide, by decide, by decide⟩

def passesB (i : Instr) (a : Arrival) (span k : Nat) (u : State) : Bool :=
  (blockOf span (u.memberNo k)).all fun j => match memberSeat u (u.stepKey k) j with
    | none => true
    | some q => (joinVerdict (soloBundle i k u) a u (q, evalSlots (soloBundle i k u) q u)).isGo

theorem passes_of {i : Instr} {a : Arrival} {span k : Nat} {u : State} (h : passesB i a span k u = true) :
    Claims.BlockPasses i a span k u := by
  intro j hj q hq
  simpa [hq] using List.all_eq_true.mp h j hj

/-- Blocks of two and of eight whose members pass their checks once all have arrived. -/
theorem witness_block_passes :
    let s := demoPair id fun c => { c with wait.arrival := some (.fuse 2) }
    let d := fun (c : Ctx) => { c with fuse := .decoupled 2 }
    let r := demoPair d fun c => { d c with wait.arrival := some .rejoin }
    let e := demoEight here8 here8
    Claims.BlockPasses (.fuse .always 1) (.fuse 2) 2 0 (s.updCtx 0 fun c => { c with wait.arrival := some (.fuse 2) }) ∧
      Claims.BlockPasses (.rejoin .always) .rejoin 2 0 (r.updCtx 0 fun c => { c with wait.arrival := some .rejoin }) ∧
      Claims.BlockPasses (.fuse .always 3) (.fuse 8) 8 0 (e.updCtx 0 fun c => { c with wait.line := 0 }) :=
  ⟨passes_of (by decide +kernel), passes_of (by decide +kernel), passes_of (by decide +kernel)⟩

/-- The last arriver of eight has two stalled cycles to count, or one. -/
theorem witness_line (n : Nat) (h : n = 1 ∨ n = 2) :
    let s := demoEight (fun c => { here8 c with wait.line := n }) here8
    s.Wf ∧ memberSeat s 0 0 = some 0 ∧ (s.seat 0).phase = .running ∧ (s.ctx 0).fuse.isFused = false ∧
      (s.ctx 0).wait.arrival = some (.fuse 8) ∧ spanClash s 0 0 8 = [] ∧ (s.ctx 0).wait.line = n ∧ (s.ctx 0).due = false ∧
      (s.ctx 0).wait.fuseCount + 1 < (s.ctx 0).csr.tapwait.toNat ∧ 1 < (s.ctx 0).bud.ibud.toInt ∧
      ∀ j ∈ blockOf 8 0, arrivedAs s 0 (.fuse 8) j = true ∧ samePlace (s.memberCtx 0 j) (s.ctx 0) = true ∧
        (s.memberCtx 0 j).fuse = (s.ctx 0).fuse := by
  rcases h with rfl | rfl <;>
    exact ⟨⟨rfl, rfl, by decide⟩, rfl, rfl, rfl, rfl, by decide, rfl, rfl, by decide, by decide, by decide⟩

/-- The same at REJOIN, in a block of two. -/
theorem witness_line_rejoin :
    let f := fun (c : Ctx) => { c with fuse := .decoupled 2, wait.arrival := some .rejoin }
    let s := demoPair (fun c => { f c with wait.line := 1 }) f
    s.Wf ∧ memberSeat s 0 0 = some 0 ∧ (s.ctx 0).fuse.span = 2 ∧ (s.ctx 0).wait.arrival = some .rejoin ∧
      (s.ctx 0).wait.line = 1 ∧ ∀ j ∈ blockOf 2 0, arrivedAs s 0 .rejoin j = true ∧
        samePlace (s.memberCtx 0 j) (s.ctx 0) = true ∧ (s.memberCtx 0 j).fuse = (s.ctx 0).fuse :=
  ⟨⟨rfl, rfl, by decide⟩, rfl, rfl, rfl, rfl, by decide⟩

theorem witness_rejoin :
    let f := fun (c : Ctx) => { c with fuse := .decoupled 2 }
    let s := demoPair f fun c => { f c with wait.arrival := some .rejoin }
    let w := demoPair f f
    Runs .always 1 0 s ∧ s.Wf ∧ (s.ctx s.cur).fuse = .decoupled 2 ∧
      (∀ j ∈ blockOf 2 0, j ≠ 0 → arrivedAs s 0 .rejoin j = true ∧ samePlace (s.memberCtx 0 j) (s.ctx 0) = true ∧
        (s.memberCtx 0 j).fuse = (s.ctx 0).fuse) ∧
      Runs .always 1 0 w ∧ arrivedAs w 0 .rejoin 1 = false ∧ memberSeat w 0 1 ≠ some 0 :=
  ⟨runs_of rfl, ⟨rfl, rfl, by decide⟩, rfl, by decide, runs_of rfl, by decide, by decide⟩

theorem witness_decouple :
    let f := fun (c : Ctx) => { c with fuse := .fused 2 }
    let s := demoPair f f
    s.Wf ∧ (s.ctx s.cur).fuse = .fused 2 ∧ blockSeats s s.cur ≠ [] ∧ (s.seat s.cur).phase = .running ∧
      ∀ q ∈ blockSeats s s.cur, (s.ctx q).fuse = .fused 2 ∧ Guard.holds .always (s.lead q) = true ∧
        (s.seat q).phase = .running ∧ (s.ctx q).wait.arrival = none ∧
        (s.ctx q).wait.exam = false ∧ (s.ctx q).maskOnce = 0 ∧ (∀ e ∈ (s.ctx q).ready, e.final ≤ s.clk q) ∧
        (s.core (coreOf q)).issued = none ∧ (s.seat q).split = none ∧ (s.seat (otherSeat q)).split = none ∧
        s.fw.gated.contains (dieOf q) = false ∧
        1 < (s.ctx q).bud.ibud.toInt ∧ 0 ≤ (s.ctx q).bud.tbud.toInt :=
  ⟨⟨rfl, rfl, by decide⟩, rfl, by decide, rfl, by decide⟩

theorem witness_exit :
    Runs .always 1 0 demo ∧ demo.Wf ∧ (demo.ctx demo.cur).mx.pend = [] ∧ exitHandles (demo.ctx demo.cur) = false ∧
      sentPending demo demo.cur = false ∧ (demo.step1 (demo.stepKey demo.cur)).members.length = 1 ∧
      demo.memberNo demo.cur = 0 :=
  ⟨runs_of rfl, demo_wf, rfl, rfl, rfl, rfl, rfl⟩

/-! The step. -/

/-- An ADDI at the position of seat 0; the step fetches and runs it. -/
def demoStep : State := warm (demo.withFetchWord 64 ((encode (.addi .always 1 0 5)).headD 0))

theorem witness_step :
    let s := demoStep
    let u := cycleStart (coreOf s.cur) { s with cycle := s.cycle + 1 }
    s.agenda = [] ∧ s.host.resetting = false ∧ coreOf s.cur < 256 ∧ (u.core 0).primary = 0 ∧ seatTurn 0 u = .issue ∧
      (u.ctx 0).fuse.isFused = false ∧
      ∃ ws b, fetch 0 (u.ctx 0).pos.pc u = (.bundle ws, u) ∧ decodeBundle ws = .ok b ∧
        b.slots = [⟨0, .addi .always 1 0 5⟩] ∧ ws.map (BitVec.ofNat 64) = sealWords (encode (.addi .always 1 0 5)) :=
  ⟨rfl, rfl, by decide, rfl, rfl, rfl, [10380799340112248837], _, by decide +kernel, rfl, rfl, rfl⟩

/-- An event, and the boot of a machine right after reset. -/
theorem witness_step_event :
    ({ demo with agenda := [.event (.recall 0)] } : State).agenda = .event (.recall 0) :: [] ∧ State.reset.agenda = [] ∧
      State.reset.host.resetting = true ∧ State.reset.host.booterr = 0 :=
  ⟨rfl, rfl, rfl, rfl⟩

theorem witness_encode : (Instr.vfma .always .fp16 (.vreg 3) (.tap 5 1) (.sreg 9) 1).wf = true ∧
    (Instr.vfma .always .fp16 (.vreg 3) (.tap 5 1) (.sreg 9) 1).isSyllable = true :=
  ⟨rfl, rfl⟩

/-! Held bundles. -/

/-- The demo with one instruction at its position. -/
def demoAt (i : Instr) (f : Ctx → Ctx) : State := (warm (demo.withFetchWord 64 ((encode i).headD 0))).updCtx 0 f

/-- What an instruction is read as at the position of seat 0. -/
def standsB (i : Instr) (s : State) : Bool :=
  match nextBundle 0 s with
  | (.ok b, t) => decide (b = soloBundle i 0 s) && decide (t = s)
  | (.error _, _) => false

theorem stands_of {i : Instr} {s : State} (h : standsB i s = true) : Stands i 0 s := by
  unfold standsB at h
  unfold Stands
  split at h
  · next b t hb =>
    simp only [Bool.and_eq_true, decide_eq_true_eq] at h
    rw [hb, h.1, h.2]
  · exact absurd h (by simp)

theorem witness_held_waitev :
    let i : Instr := .waitev .always 2
    let s := demoAt i id
    let go := demoAt i fun c => { c with csr.evpend := 2 }
    let late := demoAt i fun c => { c with bud.ibud := 0, bud.maxrun := 8192, bud.run := 8193, bud.incont := true }
    Stands i 0 s ∧ Runs .always 1 0 s ∧ (s.ctx 0).csr.evpend &&& 2 = 0 ∧ Stands i 0 go ∧ Runs .always 1 0 go ∧
      (go.ctx 0).csr.evpend &&& 2 ≠ 0 ∧ Stands i 0 late ∧ Unheld late ∧ (late.ctx 0).due = true ∧ (late.ctx 0).bud.incont = true ∧
      (late.ctx 0).bud.maxrun.toNat < (late.ctx 0).bud.run.toNat ∧ (late.ctx 0).csr.evpend &&& 2 = 0 :=
  ⟨stands_of (by decide +kernel), runs_of rfl, rfl, stands_of (by decide +kernel), runs_of rfl, by decide,
    stands_of (by decide +kernel), unheld_of rfl, rfl, rfl, by decide, rfl⟩

theorem witness_held_barrier :
    let i : Instr := .bar .always .pkg 7
    let s := demoAt i fun c => { c with wait.arrival := some (.bar (Scope.num .pkg) 7 true false) }
    Stands i 0 s ∧ (s.seat 0).phase = .running ∧ (s.ctx 0).fuse.isFused = false ∧ (s.ctx 0).maskOnce = 0 ∧ Settled s ∧
      1 < (s.ctx 0).bud.ibud.toInt ∧ (s.ctx 0).pos.loops = [] ∧
      (s.ctx 0).wait.arrival = some (.bar (Scope.num .pkg) (7 : BitVec 6).toNat true false) :=
  ⟨stands_of (by decide +kernel), rfl, rfl, rfl, settled_of rfl, by decide, rfl, rfl⟩

/-- A tap of a signal that nothing has filled, at the limit of TAPWAIT. -/
theorem witness_deadlock :
    let i : Instr := .taprd .always 1 5 0
    let s := demoAt i fun c =>
      { c.setSg 5 ({ demoSig with feed := 1 }.setFill (-1)) with csr.tapwait := 9, wait.tapCount := 9 }
    sigOk 5 = true ∧ Stands i 0 s ∧ Unheld s ∧ (resolve (s.ctx 0) 5 0).unfilled s 0 (s.ctx 0) = true ∧
      (s.ctx 0).csr.tapwait.toNat ≤ (s.ctx 0).wait.tapCount :=
  ⟨rfl, stands_of (by decide +kernel), unheld_of rfl, rfl, by decide⟩

theorem witness_fuse_timeout :
    let s := (demoAt (.fuse .always 1) fun c =>
      { c with csr.tapwait := 5, wait.fuseCount := 5, wait.arrival := some (.fuse 2) })
    (s.seat 0).phase = .running ∧ (s.ctx 0).csr.tapwait.toNat ≤ (s.ctx 0).wait.fuseCount ∧
      (s.ctx 0).wait.arrival = some (.fuse 2) ∧ memberSeat s (s.stepKey 0) (s.memberNo 0) = some 0 ∧
      (∀ j ∈ blockOf 2 (s.memberNo 0), j ≠ s.memberNo 0 → arrivedAs s (s.stepKey 0) (.fuse 2) j = false) ∧
      ∃ ws, fetch 0 (s.ctx 0).pos.pc s = (.bundle ws, s) :=
  ⟨rfl, by decide, rfl, rfl, by decide, (encode (.fuse .always 1)).map (· + 2 ^ 63), by decide +kernel⟩

/-! The way of a trap, and the yield. -/

theorem witness_trap_flow :
    let quiet := demoIn .trapping id
    let busy := demoIn .trapping fun c => { c with mx.pend := [⟨7, 0⟩] }
    let policy : BitVec 2 → State := fun p =>
      { demoIn .trapped (fun c => { c with csr.trapcause := 0x0F, trap.info := 0x0F }) with
        parts := [(1, { present := true, policies := [(15, p)] })] }
    (quiet.seat 0).phase = .trapping ∧ (quiet.ctx 0).mx.pend = [] ∧ (∀ e ∈ (quiet.ctx 0).ready, e.use = true ∨ e.final ≤ quiet.clk 0) ∧
      (busy.seat 0).phase = .trapping ∧ (∃ e ∈ (busy.ctx 0).mx.pend, busy.clk 0 < e.final) ∧
      (demo.seat 0).phase = .running ∧ (demo.ctx 0).causes = [] ∧ barReleased (demo.ctx 0) = false ∧
      (quiet.seat 0).phase ≠ .running ∧ (quiet.seat 0).phase ≠ .idle ∧
      trapPolicyOf 0 (policy 3) = 3 ∧ trapCode ((policy 3).ctx 0) ∈ [0x0E, 0x0F] ∧ trapPolicyOf 0 (policy 2) = 2 ∧
      trapCode ((policy 2).ctx 0) ∈ [0x0B, 0x0E, 0x0F, 0x12] ∧ (demo.seat 0).split = none ∧
      (((policy 3).core (coreOf 0)).retired = false ∧
        ((policy 3).part ((policy 3).partOf 0)).swapped.getLsbD (dieOf 0) = false) ∧
      (busy.seat 0).phase ≠ .idle ∧ (busy.ctx 0).mx.pend ≠ [] :=
  ⟨rfl, rfl, by decide, rfl, ⟨_, .head _, by decide⟩, rfl, rfl, rfl, by decide, by decide, by decide, by decide, by decide,
    by decide, rfl, ⟨rfl, rfl⟩, by decide, by decide⟩

/-- The parts of Lone that compute. -/
def loneB (k : Nat) (s : State) : Bool :=
  let st := s.stepKey k
  let d := s.die (dieOf k)
  decide ((s.seat k).step = some (st, 0)) && decide (memberSeat s st 0 = some k) &&
    decide ((s.step1 st).members.length = 1) && (s.step1 st).present && decide ((s.waybill k).convoy = 0) &&
    (s.ctx k).eng.handles.isEmpty && s.chans.isEmpty && s.fab.proxies.isEmpty && s.near.isEmpty && s.accs.isEmpty &&
    d.streams.isEmpty && d.ghosts.isEmpty && d.convoy.isNone && !(s.step1 st).aborted && (s.ctx k).flips.isEmpty

theorem lone_of {k : Nat} {s : State} (h : loneB k s = true) (w : s.Wf) : Lone k s := by
  simp only [loneB, Bool.and_eq_true, decide_eq_true_eq, List.isEmpty_iff, Option.isNone_iff_eq_none,
    Bool.not_eq_true'] at h
  obtain ⟨⟨⟨⟨⟨⟨⟨⟨⟨⟨⟨⟨⟨⟨h1, h2⟩, h3⟩, h4⟩, h5⟩, h6⟩, h7⟩, h8⟩, h9⟩, h10⟩, h11⟩, h12⟩, h13⟩, h14⟩, h15⟩ := h
  exact ⟨⟨_, h1⟩, h2, h3, h4, h5, h6, h7, h8, h9, h10, h11, h12, h13, h14, h15, w⟩

theorem witness_yields :
    let saving := demoIn .saving id
    let back := demoIn .restoring fun c => { c with csr.contpc := 64 }
    let exam := demoIn .running fun c => { c with wait.exam := true }
    Lone 0 (demoIn .running id) ∧ Lone 0 (demoIn .draining id) ∧ Lone 0 saving ∧ saving.anns = [] ∧
      fitsDepot saving (dieOf 0) (saving.partOf 0) (ctxSize (saving.seat 0).share) = true ∧
      (saving.step1 0).ready = none ∧ (saving.step1 0).parked = none ∧ Lone 0 back ∧ (back.ctx 0).causes = [] ∧
      (∀ e ∈ (back.ctx 0).sig.table, e.2.feed ≠ 2) ∧ (∀ m ∈ (back.step1 0).members, m.spilled = none) ∧
      (back.ctx 0).csr.contpc ≠ 0 ∧ (back.core (coreOf 0)).retired = false ∧
      (back.part (back.partOf 0)).swapped.getLsbD (dieOf 0) = false ∧ Lone 0 exam ∧ (exam.ctx 0).wait.exam = true :=
  ⟨lone_of rfl ⟨rfl, rfl, by decide⟩, lone_of rfl ⟨rfl, rfl, by decide⟩, lone_of rfl ⟨rfl, rfl, by decide⟩, rfl, by decide,
    rfl, rfl, lone_of rfl ⟨rfl, rfl, by decide⟩, rfl, by decide, by decide, by decide, rfl, rfl,
    lone_of rfl ⟨rfl, rfl, by decide⟩, rfl⟩

/-- A bundle that waits for an examination, on a step that stands alone. -/
theorem witness_examination :
    let i : Instr := .waitev .always 2
    let s := demoAt i fun c => { c with csr.evpend := 2, wait.exam := true }
    Lone 0 s ∧ Stands i 0 s ∧ Guard.holds .always (s.ctx 0) = true ∧ (s.seat 0).phase = .running ∧
      (s.ctx 0).fuse.isFused = false ∧ (s.ctx 0).maskOnce = 0 ∧ (s.ctx 0).csr.evpend &&& 2 ≠ 0 ∧ (s.ctx 0).wait.exam = true :=
  ⟨lone_of (by decide +kernel) ⟨by decide +kernel, rfl, by decide⟩, stands_of (by decide +kernel), rfl,
    rfl, rfl, rfl, by decide, rfl⟩

end Sys2Proof.Tests
end

