-- ==== Sys2Proof/Tests/WitnessEngines.lean ====
section
/-!
SUPPORT. States and operands that meet the hypotheses of the statements on matrices, copies, near memories, channels and
launches.
-/
namespace Sys2Proof.Tests
set_option Elab.async false
open Sys2Proof Sys2Proof.Machine

/-! The matrix array and the affine unit. -/

/-- Signal 5: BF16 rows of 192 elements, a table. Signal 6: FP32 rows of 192. -/
def demoRows : State := demoWith fun c =>
  (c.setSg 5 { demoSig with width := 12, depth := 192, rate := 0, format := 2 }).setSg 6
    { demoSig with width := 24, depth := 128, rate := 0 }

/-- The rows of a table of a seat are ready within its depth. -/
theorem rows_ready {s : State} {t : Tap} (rows elems : Nat) (pl : Option Nat) (ha : mAbsent (s.ctx s.cur) t = none)
    (hm : mScale (s.ctx s.cur) t = none) (hp : ∀ j < rows, (t.row rows j).preTrap = none) (hf : t.g.feed = 0)
    (hi : t.g.init = 0) (hn : (t.g.fmt == .ni8) = false) (hq : (s.ctx s.cur).sig.poison = [])
    (hl : (s.core (coreOf s.cur)).lineBad = []) (hc : (s.ctx s.cur).eng.copies = []) : RowsReady s t rows elems pl :=
  ⟨ha, hm, fun j hj => tap_ready pl _ (hp j hj) hf hi hn hq hl hc⟩

/-- Latches of both orders, and products of one row up to 128, in a pipe that is free from cycle 0 on. -/
theorem witness_products :
    let t := resolve (demoRows.ctx demoRows.cur) 5 0
    (Instr.mma .always 1 0 5 0 ⟨8, 0⟩ .bf16).wf = true ∧ (Instr.mma .always 1 0 5 0 ⟨0, 0⟩ .bf16).wf = true ∧
      Runs .always (1 + 64) 0 demoRows ∧ PipeFree demoRows .loader ∧ t.g.fmt = MKind.fmt .bf16 ∧
      RowsReady demoRows t 64 192 (MKind.planes .bf16) ∧ RowsReady demoRows t 192 64 (MKind.planes .bf16) ∧
      Runs .always (1 + 256) 0 demoRows ∧ PipeFree demoRows (.array 256) ∧
      (∀ x, ((demoRows.ctx demoRows.cur).latch 0).kind = some x → MKind.same x .bf16 = true) ∧
      RowsReady demoRows t 128 64 (MKind.planes .bf16) :=
  ⟨rfl, rfl, runs_of rfl, Nat.le_refl _, rfl,
    rows_ready 64 192 _ rfl rfl (by decide +kernel) rfl rfl rfl rfl rfl rfl,
    rows_ready 192 64 _ rfl rfl (by decide +kernel) rfl rfl rfl rfl rfl rfl,
    runs_of rfl, Nat.le_refl _, by simp [demoRows, demoWith, demo, demoCtx, Ctx.latch, State.ctx, State.seat, State.updCtx, State.updSeat, State.setSeat, Sparse.get, Sparse.set, Ctx.setSg],
    rows_ready 128 64 _ rfl rfl (by decide +kernel) rfl rfl rfl rfl rfl rfl⟩

theorem witness_affine :
    let t := resolve (demoRows.ctx demoRows.cur) 6 0
    (Instr.again .always 0 6 0 ⟨1, 127⟩).wf = true ∧ (Instr.again .always 0 6 0 ⟨0, 0⟩).wf = true ∧
      (Instr.scan .always 0 3 ⟨8, 0⟩).wf = true ∧ sigOk 6 = true ∧ Runs .always 1 0 demoRows ∧
      PipeFree demoRows (.affine 1) ∧ Runs .always (1 + 128) 0 demoRows ∧ PipeFree demoRows (.affine 128) ∧
      RowsReady demoRows t 128 192 none ∧ RowsReady demoRows t 1 192 none ∧
      mDestTrap t ((List.range 128).map fun j => t.row 128 j) = none ∧ mDestTrap (t.row 1 0) [t.row 1 0] = none :=
  ⟨rfl, rfl, rfl, rfl, runs_of rfl, Nat.le_refl _, runs_of rfl, Nat.le_refl _,
    rows_ready 128 192 _ rfl rfl (by decide +kernel) rfl rfl rfl rfl rfl rfl,
    rows_ready 1 192 _ rfl rfl (by decide +kernel) rfl rfl rfl rfl rfl rfl, by decide, by decide⟩

/-! The copy engine. -/

/-- Signal 5 feeds from the engine and holds one element of FP32 in its first 8; signal 6 is a seat's INT32 index. -/
def demoCopy : State := demoWith fun c =>
  ((c.setSg 5 { demoSig with feed := 1 }).setSg 6 { demoSig with format := 3 }).setSg 7 demoSig

def demoXc : XcOps := ⟨5, 9, 0, 1, 0, 0, 3, 0⟩
def demoXg : XgOps := ⟨5, 6, 9, 0, 0, 0, 0, 3, 0⟩

/-- Nest 0 walks 64 elements: one sample of 64. -/
def demoNest : State := demoCopy.updCtx 0 fun c =>
  { c with eng.nests := [(0, { count := [(0, 64)], stride := [(0, 4)], pack := 64 })] }

theorem witness_copy :
    let s := demoNest
    (Instr.cld .always demoXc).wf = true ∧ (Machine.xcForm 0 demoXc).trap s s.cur = none ∧
      handleHold (s.ctx s.cur) demoXc.h = false ∧ (Machine.xcForm 0 demoXc).idx = none ∧ Runs .always 1 4 s ∧
      ((Machine.xcForm 0 demoXc).plan s s.cur).samples * ((Machine.xcForm 0 demoXc).plan s s.cur).perSample = 4 ∧
      (Instr.cst .always { demoXc with sig := 7 }).wf = true ∧ (Machine.xcForm 1 { demoXc with sig := 7 }).trap s s.cur = none ∧
      (Instr.clda .always { demoXc with flags := 6 }).wf = true ∧
      (Machine.xcScoped 2 { demoXc with flags := 6 }).trap s s.cur = none ∧
      (Instr.cstr .always { demoXc with sig := 7, flags := 6 }).wf = true ∧
      (Machine.xcScoped 3 { demoXc with sig := 7, flags := 6 }).trap s s.cur = none ∧
      (Instr.csub .always demoXc).wf = true ∧ (Machine.xcForm 0x0B demoXc).trap s s.cur = none ∧
      (Instr.cpull .always { demoXc with sig := 7 }).wf = true ∧ (Machine.xcForm 0x0C { demoXc with sig := 7 }).trap s s.cur = none :=
  ⟨rfl, rfl, rfl, rfl, runs_of rfl, rfl, rfl, rfl, rfl, rfl, rfl, rfl, rfl, rfl, rfl, rfl⟩

theorem witness_gather :
    let s := demoNest
    (Instr.cgath .always demoXg).wf = true ∧ (Machine.xgForm 4 demoXg).trap s s.cur = none ∧
      (Instr.cscat .always { demoXg with sig := 7 }).wf = true ∧ (Machine.xgForm 5 { demoXg with sig := 7 }).trap s s.cur = none ∧
      tapHold s s.cur (s.ctx s.cur) (resolve (s.ctx s.cur) 6 0) = false ∧ Runs .always 1 4 s :=
  ⟨rfl, rfl, rfl, rfl, rfl, runs_of rfl⟩

/-- A handle in each state that CWAIT tells apart. -/
def demoHandle (op : BitVec 8) (st : BitVec 4) : State := demoWith fun c =>
  { c with eng.handles := [(3, { opcode := op, state := st, total := 1 })] }

theorem witness_handles :
    Runs .always 1 0 demo ∧ ((demo.ctx demo.cur).handle 3).state ∉ [1, 2, 4, 6] ∧
      ((((demoHandle 0 5).ctx 0).handle 3).state ∉ [1, 2, 4, 6]) ∧ (((demoHandle 0 5).ctx 0).handle 3).opcode ≠ 0x0C ∧
      Runs .always 1 0 (demoHandle 0x0C 5) ∧ (((demoHandle 0x0C 5).ctx 0).handle 3).state ∉ [1, 2, 4, 6] ∧
      (((demoHandle 0x0C 5).ctx 0).handle 3).opcode = 0x0C ∧ (((demoHandle 0 6).ctx 0).handle 3).state = 6 ∧
      Runs .always 1 0 (demoHandle 0 6) ∧ dsetOk 0 65535 = true ∧ dsetOk 1 0x7FFFFFFFFFFF = true ∧ dsetOk 12 6 = true ∧
      dsetOk 13 65535 = true ∧ (1 : BitVec 8) ≠ 0 :=
  ⟨runs_of rfl, by decide, by decide, by decide, runs_of rfl, by decide, rfl, rfl, runs_of rfl, rfl, rfl, rfl, rfl,
    by decide⟩

theorem witness_cancel :
    Runs .always 1 0 (demoHandle 6 1) ∧ (demoHandle 6 1).Wf ∧
      (((demo.memberCtx 0 0).handle 3).busy = false) ∧
      (((demoHandle 6 1).memberCtx 0 0).handle 3).busy = true ∧ (((demoHandle 6 1).memberCtx 0 0).handle 3).opcode = 6 ∧
      (((demoHandle 0x10 1).memberCtx 0 0).handle 3).busy = true ∧
      (((demoHandle 0x10 1).memberCtx 0 0).handle 3).opcode ∈ [0x10, 0x12] ∧
      (((demoHandle 0 1).memberCtx 0 0).handle 3).busy = true ∧ (((demoHandle 0 1).memberCtx 0 0).handle 3).state ≠ 4 ∧
      isCopyOp (((demoHandle 0 1).memberCtx 0 0).handle 3).opcode = true ∧
      (((demoHandle 0 1).memberCtx 0 0).handle 3).opcode ≠ 6 ∧
      (((demoHandle 6 1).memberCtx 0 0).handle 3).state ≠ 4 ∧ (((demoHandle 0x10 1).memberCtx 0 0).handle 3).state ≠ 4 ∧
      (((demoHandle 0x10 4).memberCtx 0 0).handle 3).state = 4 :=
  ⟨runs_of rfl, ⟨rfl, rfl, by decide⟩, rfl, rfl, rfl, rfl, by decide, rfl, by decide, rfl, by decide, by decide, by decide,
    rfl⟩

/-! SCACC, near memories. -/

/-- Signal 5: an FP32 table of the engine. Signal 6: INT32, signal 7: FP32, one unit each. -/
def demoScacc : State := demoWith fun c =>
  ((c.setSg 5 { demoSig with feed := 1, rate := 0, depth := 16 }).setSg 6 { demoSig with format := 3, width := 1 }).setSg 7
    { demoSig with width := 1 }

theorem witness_scacc :
    let s := demoScacc
    let c := s.ctx s.cur
    let o : XsOps := ⟨5, 6, 7, 0, 4, 3⟩
    (Instr.scacc .always o).wf = true ∧ Runs .always 1 0 s ∧ (c.sg 5).present = true ∧ (c.sg 5).feed = 1 ∧
      (c.sg 5).isTable = true ∧ (c.sg 5).fmt ∈ [Fmt.fp32, .fp16, .bf16, .int32] ∧ (resolve c 6 0).g.present = true ∧
      (resolve c 7 0).g.present = true ∧ (resolve c 6 0).g.fmt = .int32 ∧
      TapReady s (resolve c 6 0) none ((resolve c 6 0).span (resolve c 6 0).g.elems) ∧
      TapReady s (resolve c 7 0) none ((resolve c 7 0).span (resolve c 6 0).g.elems) ∧ handleHold c o.h = false :=
  ⟨rfl, runs_of rfl, rfl, rfl, rfl, by decide, rfl, rfl, rfl, tap_ready _ _ rfl rfl rfl rfl rfl rfl rfl,
    tap_ready _ _ rfl rfl rfl rfl rfl rfl rfl, rfl⟩

/-- A state whose signal 5 is filled by the engine with the units of a list of bytes. -/
def demoBytes (w : BitVec 8) (bs : List Byte) : State :=
  ((withSig { demoSig with feed := 1, width := w }).updCtx 0 fun c => (c.setS 1 1)).updCore 0 fun c =>
    { c with line := Sparse.setMany 0 [] 0 (unitsOf w.toNat bs) }

/-- A fill of one granule at 0x1000, and an add of 4 bytes there. -/
def fillRecord : List Byte := padTo 64 (leBytes 4 1 ++ leBytes 4 2 ++ leBytes 8 0x1000)
def addRecord : List Byte := padTo 64 (leBytes 4 0 ++ leBytes 4 0 ++ leBytes 8 0x1000 ++ leBytes 8 7)

/-- The hypotheses of NearMemoryAccepted on a state and its records. -/
def nearReady (atomic : Bool) (s : State) : Bool :=
  let c := s.ctx s.cur
  let n := (c.s 1).toNat
  let t := { resolve c 5 0 with off := 0 }
  let rs := (List.range n).map fun j => unitsBytes s s.cur c t [2 * j, 2 * j + 1]
  let traffic := if atomic then 2 * n else n + (rs.map nmGranules).sum
  (if atomic then Instr.nmatom .always 5 1 3 else .nmcmd .always 5 1 3).wf && runsB .always 1 traffic s && t.g.present &&
    !t.unfilled s s.cur c && !handleHold c 3 && decide (1 ≤ n) && decide (2 * n ≤ t.g.width.toNat) &&
    decide (unitsTrap s s.cur c t (List.range (2 * n)) = none) &&
    rs.all fun x => (if atomic then atRecordOk x else nmRecordOk x) && (nmAddrs atomic x).all fun a => decide (a < 2 ^ 48)

theorem witness_near : nearReady false (demoBytes 2 fillRecord) = true ∧ nearReady true (demoBytes 2 addRecord) = true :=
  ⟨by decide +kernel, by decide +kernel⟩

/-! Channels. -/

/-- The demo with a channel record; s1 names channel 4, s2 a channel of package 1. -/
def demoChan (c : Chan) : State :=
  { demo with chans := [(4, c)] }.updCtx 0 fun x =>
    ((x.setS 1 4).setS 2 0x4004).setSg 5 { demoSig with feed := 3 } |>.setSg 6 demoSig

theorem witness_chan_send :
    let s := demoChan { state := 1, part := 1, width := 1, wbound := true, writer := some (0, 0), wpermits := 1, rbound := true }
    let c := s.ctx s.cur
    let t := resolve c 6 0
    sigOk 6 = true ∧ t.g.present = true ∧ t.idx ≤ t.g.fillMark ∧ sourceTrap t = none ∧ (c.s 1).toNat < 2 ^ 32 ∧
      Runs .always 1 1 s ∧ isRemote s (c.s 1) = false ∧ chanUsable s s.cur (c.s 1) = true ∧
      (s.chan 4).writer = some (s.stepKey s.cur, s.memberNo s.cur) ∧ (s.chan 4).remote = false ∧ (s.chan 4).state = 1 ∧
      chanPath s 4 = .ring ∧
      chanPath (demoChan { state := 1, part := 1, width := 1, wbound := true, writer := some (0, 0) }) 4 = .none :=
  ⟨rfl, rfl, by decide, rfl, by decide, runs_of rfl, rfl, rfl, rfl, rfl, rfl, by decide, by decide⟩

/-- The proxy of a channel of package 1. -/
def demoProxy : State := { demoChan {} with
  fab := { proxies := [⟨0x4004, 0, 1, 0, false, 0, 1, 0, 0, false, (0, 0), false, 1⟩] } }

theorem witness_proxy_send :
    let s := demoProxy
    let c := s.ctx s.cur
    isRemote s (c.s 2) = true ∧ (c.s 2).toNat < 2 ^ 32 ∧ Runs .always 1 1 s ∧
      ∃ p, s.proxy s.cur (c.s 2) = some p ∧ p.fault = false ∧ proxyPath p = .ring :=
  ⟨rfl, by decide, runs_of rfl, _, rfl, rfl, rfl⟩

theorem witness_chan_local :
    let s := demoChan { state := 1, part := 1, width := 8 }
    let b := demoChan { state := 1, part := 1, width := 8, wbound := true }
    let c := s.ctx s.cur
    sigOk 5 = true ∧ Runs .always 1 0 s ∧ isRemote s (c.s 1) = false ∧ (c.s 1).toNat < 2 ^ 32 ∧
      chanUsable s s.cur (c.s 1) = true ∧ (c.sg 5).present = true ∧ (c.sg 5).feed = 3 ∧ (c.sg 5).rate = 255 ∧
      regDie (c.s 1) = dieOf s.cur ∧ (s.chan 4).wbound = false ∧ (s.chan 4).devwriter = false ∧
      Runs .always 1 0 b ∧ (b.chan 4).wbound = true ∧ chanUsable b b.cur ((b.ctx b.cur).s 1) = true :=
  ⟨rfl, runs_of rfl, rfl, by decide, rfl, rfl, rfl, rfl, rfl, rfl, rfl, runs_of rfl, rfl, rfl⟩

theorem witness_chan_remote :
    let w : State := (demoChan {}).updCtx 0 fun c => { c with wait.remote := [⟨0, false, false, 0x4004, some 1⟩] }
    let v : State := (demoChan {}).updCtx 0 fun c => { c with wait.remote := [⟨0, false, true, 0x4004, some 1⟩] }
    Runs .always 1 0 w ∧ isRemote w ((w.ctx w.cur).s 2) = true ∧ ((w.ctx w.cur).s 2).toNat < 2 ^ 32 ∧
      ((w.ctx w.cur).wait.remote.find? fun y => y.stat == false && y.reg == (w.ctx w.cur).s 2 &&
        y.cont == (w.ctx w.cur).bud.incont) = some ⟨0, false, false, (w.ctx w.cur).s 2, some 1⟩ ∧ Runs .always 1 0 v ∧
      ((v.ctx v.cur).wait.remote.find? fun y => y.stat == true && y.reg == (v.ctx v.cur).s 2 &&
        y.cont == (v.ctx v.cur).bud.incont) = some ⟨0, false, true, (v.ctx v.cur).s 2, some 1⟩ ∧
      (∀ y ∈ (w.ctx w.cur).wait.remote, ¬(y.stat = true ∧ y.reg = (w.ctx w.cur).s 2 ∧ y.cont = (w.ctx w.cur).bud.incont)) ∧
      remoteLost v v.cur ((v.ctx v.cur).s 2) = false ∧
      w.proxy w.cur ((w.ctx w.cur).s 2) = none ∧ Runs .always 1 0 demoProxy ∧ Runs .always 1 0 (demoChan {}) ∧
      ((demoChan {}).ctx (demoChan {}).cur).wait.remote = [] ∧ remoteLost w w.cur ((w.ctx w.cur).s 2) = false :=
  ⟨runs_of rfl, rfl, by decide, rfl, runs_of rfl, rfl, by decide, rfl, rfl, runs_of rfl, runs_of rfl, rfl, rfl⟩

/-- A faulted proxy, and a lost package. -/
theorem witness_chan_lost :
    let f : State := { demoProxy with fab.proxies := demoProxy.fab.proxies.map fun p => { p with fault := true } }
    let l : State := (demoChan {}).updPeer 1 fun p => { p with lost := true }
    Runs .always 1 0 f ∧ isRemote f ((f.ctx f.cur).s 2) = true ∧
      (∃ p, f.proxy f.cur ((f.ctx f.cur).s 2) = some p ∧ p.fault = true) ∧
      remoteLost f f.cur ((f.ctx f.cur).s 2) = true ∧ Runs .always 1 0 l ∧ isRemote l ((l.ctx l.cur).s 2) = true ∧
      remoteLost l l.cur ((l.ctx l.cur).s 2) = true :=
  ⟨runs_of rfl, rfl, ⟨_, rfl, rfl⟩, rfl, runs_of rfl, rfl, rfl⟩

/-! LAUNCH and WSEND. -/

/-- A waybill of one step of one member with budgets of 1. -/
def demoWaybill : List Byte :=
  padTo 128 (leBytes 24 0 ++ (List.range 6).flatMap (fun _ => leBytes 2 1) ++ leBytes 4 (1 + 2 ^ 12) ++ leBytes 8 1 ++
    leBytes 8 1 ++ leBytes 8 0 ++ leBytes 8 1)

/-- The demo with that waybill in signal 5, s1 = 1, and a device queue 1. -/
def demoLaunch (priv : BitVec 3) : State :=
  { demoBytes 4 demoWaybill with
    tasks := [(0, { present := true, part := 1, steps := 2, next := 2, wb := { priv := priv } })]
    queues := [(1, { present := true, device := true, part := 1, sizelog := 1 })] }

def launchReady (s : State) (priv : Nat) (toll : Nat) : Bool :=
  let c := s.ctx s.cur
  let t := waybillTap c 5
  let bs := waybillBytes s s.cur c 5
  t.g.present && !t.unfilled s s.cur c && !handleHold c 3 && decide (waybillTrap s s.cur c 5 = none) &&
    waybillOk bs false && (s.waybill s.cur).priv.getLsbD priv && decide ((c.s 1).toNat < 2 ^ 18) &&
    launchQueue s (c.s 1).toNat (s.partOf s.cur) && launchAfford c (parseWaybill bs) &&
    decide ((parseWaybill bs).ibud * (parseWaybill bs).count + 1 = toll) && decide ((parseWaybill bs).graph = 0) &&
    runsB .always toll 2 s

theorem witness_launch : sigOk 5 = true ∧ (demoLaunch 2).Wf ∧ launchReady (demoLaunch 2) 1 2 = true ∧ launchReady (demoLaunch 4) 2 2 = true :=
  ⟨rfl, ⟨rfl, rfl, by decide⟩, by decide +kernel, by decide +kernel⟩

end Sys2Proof.Tests
end

