-- ==== Sys2Proof/Tests/WitnessEvents.lean ====
section
/-!
SUPPORT. States and operands that meet the hypotheses of the statements on the copy engine, the memories, the dispatcher
and the channel engine.
-/
namespace Sys2Proof.Tests
set_option Elab.async false
open Sys2Proof Sys2Proof.Machine

/-! Events, spare cores, mirrors and streams. -/

/-- An event for a member of step 0 that is at p. -/
def demoEvent (p : Place) (m : Nat) : State :=
  { demo with
    events := [⟨0, 1, m, 3, 0⟩]
    steps := [(0, { present := true, uid := 1, fresh := false, members := [{ place := p }] })] }

theorem witness_events :
    let lost : State := { demo with events := [⟨0, 2, 0, 3, 0⟩] }
    (∀ p ∈ [Place.onSeat 0, .away, .unplaced, .ended], ((demoEvent p 0).events[0]?) = some ⟨0, 1, 0, 3, 0⟩ ∧
      ((demoEvent p 0).step1 0).present = true ∧ ((demoEvent p 0).step1 0).uid = 1 ∧
      ((((demoEvent p 0).step1 0).members[0]?).map (·.place)) = some p) ∧
    ((((demoEvent .away 1).step1 0).members[1]?).map (·.place)) = none ∧
    lost.events[0]? = some ⟨0, 2, 0, 3, 0⟩ ∧ (lost.step1 0).uid ≠ 2 :=
  ⟨by decide, rfl, rfl, by decide⟩

theorem witness_spare :
    let s : State := { demo with cores := [(255, { retired := true })] }
    255 < 256 ∧ (s.core 255).retired = true ∧ coreEmpty s 255 = true ∧ (s.die (255 / 64)).sparesLeft ≠ 0 :=
  ⟨by decide, rfl, rfl, by decide⟩

/-- A step on seats 0 and 2, whose signal 5 is a mirror of the one on seat 2. -/
def demoMirror : State :=
  { demo with
    seats := [(0, { phase := .running, step := some (0, 0), ctx := ({} : Ctx).setSg 5 { demoSig with feed := 2, fill := -1 } }),
      (2, { phase := .running, step := some (0, 1), ctx := ({} : Ctx).setSg 5 { demoSig with feed := 1 } })] }

theorem witness_mirror :
    let g := (demoMirror.ctx 0).sg 5
    demoMirror.Wf ∧ (demoMirror.seat 0).phase = .running ∧ (demoMirror.seat 0).step.isSome = true ∧ g.present = true ∧
      g.feed = 2 ∧ (demoMirror.die (dieOf 0)).ghosts = [] ∧
      (∀ x ∈ (demoMirror.die (dieOf 0)).streams, ¬(x.dst = 0 ∧ x.sig = (5 : BitVec 7).toNat)) ∧
      ((mirrorCores (coreOf 0 % 64)).map (seatOnCore 0)).find? (canExport demoMirror 0 5) = some 2 ∧
      oldestLive ((demoMirror.ctx 2).sg 5) ≤ g.fillMark + 1 :=
  ⟨⟨rfl, rfl, by decide⟩, rfl, rfl, rfl, rfl, rfl, by decide, by decide, by decide⟩

/-- Their stream with a permit, and with a sample on its way. -/
def demoStream (carry : Option Nat) : State :=
  { demoMirror with dies := [(0, { streams := [{ src := 2, dst := 0, sig := 5, permits := 1, carry := carry }] })] }

theorem witness_stream :
    let s := demoStream none
    let src := (s.ctx 2).sg 5
    let i := ((s.ctx 0).sg 5).fillMark + 1
    ((s.die 0).streams[0]?) = some { src := 2, dst := 0, sig := 5, permits := 1 } ∧ dieOf 0 = 0 ∧
      oldestLive src ≤ i ∧ i ≤ src.fillMark ∧ sampleFinal s 2 5 i = true ∧
      (((demoStream (some 0)).die 0).streams[0]?) = some { src := 2, dst := 0, sig := 5, permits := 1, carry := some 0 } ∧
      ((demoStream (some 0)).seat 0).phase ≠ .idle :=
  ⟨rfl, rfl, by decide, by decide, by decide, rfl, by decide⟩

/-! The copy engine. -/

/-- A copy of 64 elements of FP32 on signal 5 under handle 3, from or to address 64. -/
def demoPlan (op : BitVec 8) : Copy :=
  { op := op, sig := 5, counts := [64, 1, 1, 1, 1, 1], strides := [4, 0, 0, 0, 0, 0], pack := 1, origin := 64, samples := 1,
    elems := 1 }

/-- The same in two samples of one element. -/
def demoTwo (op : BitVec 8) : Copy := { demoPlan op with samples := 2, elems := 2, first := 1 }

/-- The demo with that copy and with its addresses cached. -/
def demoCopying (p : Copy) (st : BitVec 4) (accs : List Access) : State :=
  ({ demo with accs := accs }.updCore 0 fun c => { c with tcache := [codeLeaf 1] }).updCtx 0 fun c =>
    { c.setSg 5 { demoSig with feed := if isLoadOp p.op then 1 else 0 } with
      eng.handles := [(3, { opcode := p.op, state := st, total := 1 })], eng.copies := [(3, p)] }

theorem witness_copy_issue :
    let s := demoCopying (demoPlan 0) 1 []
    let p := (s.ctx 0).copy 3
    memberSeat s (s.stepKey 0) (s.memberNo 0) = some 0 ∧ engineOn (s.seat 0).phase = true ∧
      ((s.ctx 0).handle 3).state = 1 ∧ p.op ∈ [0, 1] ∧ p.stop = false ∧ p.suspended = false ∧ p.issued < p.total ∧
      sampleReady s 0 p p.issued = true ∧ mayAccess s 0 p p.issued = true ∧ p.kept = [] ∧ (s.ctx 0).eng.fences = [] ∧
      (s.die (dieOf 0)).pcache = [] ∧ copyXlate 0 3 p (p.accAddr p.issued) s = (some (.dram 64, false), s) :=
  ⟨rfl, rfl, rfl, by decide, rfl, rfl, by decide, by decide, by decide, rfl, rfl, rfl, rfl⟩

/-- A store whose next piece is an element long, which is ready. -/
theorem witness_store_issue :
    let s := demoCopying { demoPlan 1 with counts := [1, 1, 1, 1, 1, 1] } 1 []
    let p := (s.ctx 0).copy 3
    engineOn (s.seat 0).phase = true ∧ ((s.ctx 0).handle 3).state = 1 ∧ p.op = 1 ∧ p.stop = false ∧ p.suspended = false ∧
      p.issued < p.total ∧ sampleReady s 0 p p.issued = true ∧ pieceReady s 0 p p.issued = true ∧ p.kept = [] ∧
      (∀ j < pieceLength p p.issued 15 1, mayAccess s 0 p (p.issued + j) = true) ∧ (s.ctx 0).eng.fences = [] ∧ (s.die (dieOf 0)).pcache = [] ∧
      copyXlate 0 3 p (p.accAddr p.issued) s = (some (.dram 64, false), s) :=
  ⟨rfl, rfl, rfl, rfl, rfl, by decide, by decide, by decide, rfl, by decide, rfl, rfl, rfl⟩

/-- A store of two elements of one piece, of which the second is still to be published. -/
theorem witness_store_hold :
    let s := demoCopying { demoTwo 1 with first := 0 } 1 []
    let p := (s.ctx 0).copy 3
    engineOn (s.seat 0).phase = true ∧ ((s.ctx 0).handle 3).state = 1 ∧ p.op = 1 ∧ p.stop = false ∧ p.suspended = false ∧
      p.issued < p.total ∧ sampleReady s 0 p p.issued = true ∧ mayAccess s 0 p p.issued = true ∧
      pieceReady s 0 p p.issued = false ∧ (s.ctx 0).eng.fences = [] ∧
      copyXlate 0 3 p (p.accAddr p.issued) s = (some (.dram 64, false), s) :=
  ⟨rfl, rfl, rfl, rfl, rfl, by decide, by decide, by decide, by decide, rfl, rfl⟩

/-- The first read of a load of two samples, served. -/
def firstRead : Access := ⟨0, 3, 0, 1, false, .dram 64, 4, leBytes 4 7, false, false, false, 0, .served, 0⟩

theorem witness_load_lands :
    let s := demoCopying { demoTwo 0 with issued := 1, flying := 1 } 1 [firstRead]
    takeFirst (fun (a : Access) => a.seat == 0 && a.h == 3 && a.elem == 0) s.accs = some (firstRead, []) ∧
      (s.seat 0).phase ≠ .idle ∧ firstRead.write = false ∧ firstRead.phase = .served ∧ ((s.ctx 0).copy 3).op = 0 ∧
      firstRead.count = 1 ∧ FillsNext s 0 3 0 :=
  ⟨rfl, by decide, rfl, rfl, rfl, rfl, rfl, rfl, rfl, rfl, rfl, rfl, rfl, rfl, rfl, by decide, by decide, rfl, by decide,
    by decide, by decide⟩

/-- The last write of a store, served. -/
def lastWrite : Access := ⟨0, 3, 0, 1, true, .dram 64, 4, leBytes 4 7, false, false, false, 0, .served, 0⟩

theorem witness_copy_end :
    let s := demoCopying { demoPlan 1 with issued := 1, flying := 1 } 1 [lastWrite]
    let p := (s.ctx 0).copy 3
    let hd := (s.ctx 0).handle 3
    takeFirst (fun (a : Access) => a.seat == 0 && a.h == 3 && a.elem == 0) s.accs = some (lastWrite, []) ∧
      (s.seat 0).phase ≠ .idle ∧ lastWrite.write = true ∧ lastWrite.phase = .served ∧ p.op = 1 ∧ hd.state = 1 ∧
      hd.poison = false ∧ p.failed = false ∧ p.stop = false ∧ p.suspended = false ∧ p.sp24 = false ∧ p.ctxStack = none ∧
      p.done = [] ∧ p.flying = lastWrite.count ∧ p.issued = p.total ∧ p.lead = 0 ∧ 0 < lastWrite.count ∧
      0 + lastWrite.count = p.total :=
  ⟨rfl, by decide, rfl, rfl, rfl, rfl, rfl, rfl, rfl, rfl, rfl, rfl, rfl, rfl, rfl, rfl,
    by decide, rfl⟩

theorem witness_scacc_window :
    let s := demoCopying { op := 6, sig := 5, isTable := true, pairs := [(0, 1)], window := 1 } 1 []
    engineOn (s.seat 0).phase = true ∧ ((s.ctx 0).copy 3).op = 6 ∧ ((s.ctx 0).handle 3).state = 1 ∧
      scaccBehind (s.ctx 0) ((s.ctx 0).copy 3) = false :=
  ⟨rfl, rfl, rfl, rfl⟩

theorem witness_stack_sample :
    let load := demoCopying { demoPlan 0x0B with ctxStack := some 0 } 1 []
    let store := demoCopying { demoPlan 0x0C with ctxStack := some 0 } 1 []
    stackReady 0 3 0x0B load = true ∧ ((load.ctx 0).copy 3).perSampleAcc = 1 ∧ ((load.ctx 0).copy 3).ctxStack = some 0 ∧
      load.accs = [] ∧ copyXlate 0 3 ((load.ctx 0).copy 3) (((load.ctx 0).copy 3).accAddr ((load.ctx 0).copy 3).issued) load =
        (some (.dram 64, false), load) ∧
      stackReady 0 3 0x0C store = true ∧ ((store.ctx 0).copy 3).perSampleAcc = 1 ∧
      ((store.ctx 0).copy 3).ctxStack = some 0 ∧
      store.accs = [] ∧ copyXlate 0 3 ((store.ctx 0).copy 3) (((store.ctx 0).copy 3).accAddr ((store.ctx 0).copy 3).issued) store =
        (some (.dram 64, false), store) ∧
      (store.stack (stackOf 64)).lost = false ∧ pieceReady store 0 ((store.ctx 0).copy 3) ((store.ctx 0).copy 3).issued = true ∧
      ((store.ctx 0).copy 3).kept = [] ∧ 64 % 16 = (((store.ctx 0).copy 3).accAddr ((store.ctx 0).copy 3).issued).toNat % 16 :=
  ⟨by decide, rfl, rfl, rfl, rfl, by decide, rfl, rfl, rfl, rfl, rfl, by decide, rfl, by decide⟩

/-- A loader with a sample of four bytes to come after the next, and a storer whose next piece is half published. -/
theorem witness_stack_next :
    let load := (demoCopying { demoTwo 0x0B with ctxStack := some 0 } 1 []).updCtx 0 (·.setSg 5 { demoSig with feed := 1, ahead := 1 })
    let store := demoCopying { demoTwo 0x0C with ctxStack := some 0, first := 0 } 1 []
    stackReady 0 3 0x0B load = true ∧ load.accs = [] ∧
      copyXlate 0 3 ((load.ctx 0).copy 3) (((load.ctx 0).copy 3).accAddr ((load.ctx 0).copy 3).issued) load =
        (some (.dram 64, false), load) ∧ FillsNext load 0 3 ((load.ctx 0).copy 3).issued ∧
      64 % 64 + ((load.ctx 0).copy 3).accSize ((load.ctx 0).copy 3).issued ≤ 64 ∧
      stackReady 0 3 0x0C store = true ∧ store.accs = [] ∧ ((store.ctx 0).copy 3).perSampleAcc = 1 ∧
      copyXlate 0 3 ((store.ctx 0).copy 3) (((store.ctx 0).copy 3).accAddr ((store.ctx 0).copy 3).issued) store =
        (some (.dram 64, false), store) ∧
      pieceReady store 0 ((store.ctx 0).copy 3) ((store.ctx 0).copy 3).issued = false :=
  ⟨by decide, rfl, rfl, ⟨rfl, rfl, rfl, rfl, rfl, rfl, rfl, rfl, rfl, by decide, by decide, rfl, by decide, by decide, by decide⟩,
    by decide, by decide, rfl, rfl, rfl, by decide⟩

/-! Near memory. -/

/-- A near-memory command of step 0 with one record, and a cached translation on its die. -/
def demoNear (atomic : Bool) (r : List Byte) : State :=
  { demo with
    dies := [(0, { tcache := [codeLeaf 1] })]
    near := [{ seat := 0, step := 0, uid := 1, member := 0, h := 3, die := 0, part := 1, atomic := atomic, records := [r] }] }

def fillRec : List Byte := padTo 64 (leBytes 4 1 ++ leBytes 4 2 ++ leBytes 8 0x1000)
def addRec : List Byte := padTo 64 (leBytes 4 0 ++ leBytes 4 0 ++ leBytes 8 0x1000 ++ leBytes 8 7)

theorem witness_near_steps :
    (∃ x, (demoNear false fillRec).near[0]? = some x ∧ x.suspended = false ∧ nmHeld (demoNear false fillRec) x = false ∧
      x.records[x.rno]? = some fillRec ∧ x.failed = false ∧ x.cancelled = false ∧ x.atomic = false ∧ x.stopped = false ∧
      x.closing = none ∧ nmOp fillRec = 2 ∧ (demoNear false fillRec).accs = [] ∧
      nmXlate x (nmDst fillRec + 64 * x.gno) .update (demoNear false fillRec) = (some 0x1000, demoNear false fillRec)) ∧
    (∃ x, (demoNear true addRec).near[0]? = some x ∧ x.suspended = false ∧ nmHeld (demoNear true addRec) x = false ∧
      x.records[x.rno]? = some addRec ∧ x.failed = false ∧ x.cancelled = false ∧ x.atomic = true ∧
      atOp addRec = 0 ∧ atResult addRec = 0 ∧ (demoNear true addRec).accs = [] ∧ 0x1000 % atSize addRec = 0 ∧
      nmXlate x (atAddr addRec) .update (demoNear true addRec) = (some 0x1000, demoNear true addRec)) :=
  ⟨⟨_, rfl, rfl, rfl, rfl, rfl, rfl, rfl, rfl, rfl, rfl, rfl, rfl⟩,
    ⟨_, rfl, rfl, rfl, rfl, rfl, rfl, rfl, rfl, rfl, rfl, rfl, rfl⟩⟩

/-! Accesses, announcements, walks and faults. -/

def waiting (wr : Bool) (ph : AccPhase) : Access := { lastWrite with write := wr, phase := ph }

theorem witness_served :
    let w : State := { demo with accs := [waiting true .waiting] }
    let r : State := { demo with accs := [waiting false .waiting] }
    w.accs[0]? = some (waiting true .waiting) ∧ unblocked w 0 (waiting true .waiting) = true ∧
      class0First w (waiting true .waiting) = false ∧ (waiting true .waiting).data ≠ [] ∧
      (w.stack (stackOf 64)).lost = false ∧ r.accs[0]? = some (waiting false .waiting) ∧
      unblocked r 0 (waiting false .waiting) = true ∧ class0First r (waiting false .waiting) = false ∧
      homeDie 64 = dieOf (waiting false .waiting).seat ∧ 64 % 64 + (waiting false .waiting).size ≤ 64 :=
  ⟨rfl, rfl, rfl, by decide, rfl, rfl, rfl, rfl, rfl, by decide⟩

def anAnn (n : BitVec 32) : Ann := ⟨0, 1, { c0 := n }, [(64, 7)], 1, false⟩

/-- Tables that map the first GiB of partition 1. -/
def demoTables : State :=
  { demo with
    parts := [(1, { present := true, enable := true, root := 1 })]
    mem := memWrite (memWrite [] 0x1000 (leBytes 8 0x2003)) 0x2000 (leBytes 8 0x7F)
    dies := [(0, { walks := [⟨1, 64, false, 0, 0, 0, [⟨.copy 0 0 3, 64, 0⟩], 0⟩] })] }

/-- The 257th request of a full line of walkers. -/
theorem witness_walk_queued :
    let r : WReq := ⟨1, 64, false, 0, 0, 0, [], 0⟩
    let s := demo.updDie 0 fun x => { x with walks := List.replicate 257 r }
    (s.die 0).walks[256]?.isSome = true ∧ walkTaken s 0 256 = false ∧ walkTaken s 0 255 = true := by
  decide +kernel

/-- The same without a translation. -/
def demoNoTables : State := { demoTables with mem := [] }

def aFault : FaultRec := ⟨5, 1, 64, 1, 0, 3, 0, false, 0, 0xFF, 0, 0, 0, []⟩
def demoFault (t : BitVec 16) : State :=
  { demo with parts := [(1, { present := true, ftimeout := t })], dies := [(0, { faults := [aFault] })] }

/-- What computes of a walk, and of a transfer. -/
def walkedB (r : WalkRes × State) : Bool := match r.1 with
  | .ok _ _ _ => true
  | .fault _ _ _ _ => false
theorem walked_ok {r : WalkRes × State} (h : walkedB r = true) : ∃ x ea e v, r = (.ok x ea e, v) := by
  obtain ⟨w, v⟩ := r
  cases w with
  | ok x ea e => exact ⟨x, ea, e, v, rfl⟩
  | fault => exact absurd h (by simp [walkedB])
theorem walked_fault {r : WalkRes × State} (h : walkedB r = false) : ∃ kind lv e po v, r = (.fault kind lv e po, v) := by
  obtain ⟨w, v⟩ := r
  cases w with
  | ok => exact absurd h (by simp [walkedB])
  | fault kind lv e po => exact ⟨kind, lv, e, po, v, rfl⟩
def movedB {α : Type} (r : XferRes α × State) : Bool := match r.1 with
  | .ok _ => true
  | .wait => false
  | .fail => false
theorem moved_ok {α : Type} {r : XferRes α × State} (h : movedB r = true) : ∃ x v, r = (.ok x, v) := by
  obtain ⟨w, v⟩ := r
  cases w with
  | ok x => exact ⟨x, v, rfl⟩
  | wait => exact absurd h (by simp [movedB])
  | fail => exact absurd h (by simp [movedB])

theorem witness_memory_accesses :
    (∃ a, ({ demo with accs := [waiting true .combined] } : State).accs[0]? = some a ∧ dieOf a.seat = 0 ∧ a.phase = .combined) ∧
    ({ demo with anns := [anAnn 1] } : State).anns[0]? = some (anAnn 1) ∧
    annReady { demo with anns := [anAnn 1] } (anAnn 1) = true ∧ annReady { demo with anns := [anAnn 2] } (anAnn 2) = false ∧
    (∃ r, (demoTables.die 0).walks[0]? = some r ∧ ∃ x ea e v,
      walk 0 r.part r.va.toNat r.agent (wantOf r) (demoTables.updDie 0 fun y => Die.fillWalks { y with walks := y.walks.eraseIdx 0 }) =
        (.ok x ea e, v)) ∧
    (∃ r, (demoNoTables.die 0).walks[0]? = some r ∧ ∃ kind lv e po v,
      walk 0 r.part r.va.toNat r.agent (wantOf r) (demoNoTables.updDie 0 fun y => Die.fillWalks { y with walks := y.walks.eraseIdx 0 }) =
        (.fault kind lv e po, v)) ∧
    ((demoFault 0).die 0).faults[0]? = some aFault ∧ ((demoFault 0).part aFault.part).ftimeout = 0 ∧
    ((demoFault 1).die 0).faults[0]? = some aFault ∧ ((demoFault 1).part aFault.part).ftimeout ≠ 0 ∧
    aFault.waiters = [] ∧ (∀ e ∈ (demoFault 1).queues, e.2.recWait = false) ∧
    (walkTaken demoTables 0 0 = true ∧ (demoTables.die 0).walkLine = []) ∧
    (walkTaken demoNoTables 0 0 = true ∧ (demoNoTables.die 0).walkLine = [] ∧ ∀ r, (demoNoTables.die 0).walks[0]? = some r →
      ∀ kind < 3, ∀ w ∈ r.waiters, r.concerns kind w = true ∧ w.remote = false) ∧
    (((demoFault 1).die 0).faults.find? fun g => g.id == aFault.id) = some aFault :=
  ⟨⟨_, rfl, rfl, rfl⟩, rfl, by decide, by decide, ⟨_, rfl, walked_ok (by decide +kernel)⟩,
    ⟨_, rfl, walked_fault (by decide +kernel)⟩, rfl, rfl, rfl,
    by decide, rfl, by decide, ⟨by decide, rfl⟩, ⟨by decide, rfl, by decide⟩, by decide⟩

/-! Banks and stacks. -/

/-- Row 5 is open in bank 0 of stack 0, with an activation count. -/
def demoRow (v : BitVec 12) : State :=
  { demo with stackTab := [(0, { banks := [(0, { row := some 5, last := 5 })], acts := [(rowKey 0 5, v)] })] }

theorem witness_banks :
    (1 : BitVec 6) ≠ 0 ∧ (40 : BitVec 6).toNat ≤ 40 ∧
    ({ demo with accs := [waiting true (.retry 40)] } : State).accs[0]? = some (waiting true (.retry 40)) ∧
    ((demo.stack 0).banks.get {} 0).row = none ∧
    ((((demoRow 2047).stack 0).banks.get {} (0 * 64 + 0)).row = some 5 ∧
      ((demoRow 2047).stack 0).parity.contains (rowKey 0 5) = false ∧
      (((demoRow 2047).stack 0).acts.get 0 (rowKey 0 5)).toNat < ((demoRow 2047).stack 0).thresh.toNat ∧
      (((demoRow 2047).stack 0).acts.get 0 (rowKey 0 5)).toNat ≠ 4095) ∧
    (((demoRow 2048).stack 0).thresh.toNat ≤ (((demoRow 2048).stack 0).acts.get 0 (rowKey 0 5)).toNat ∧
      (((demoRow 2048).stack 0).acts.get 0 (rowKey 0 5)).toNat ≠ 4095) ∧
    (2 ^ 30 - 1 < 2 ^ 30 ∧ (demo.stack 7).scrub ≠ 0 ∧
      ({ demo with errs := [(7 * 2 ^ 30 + (2 ^ 30 - 1), 1)] } : State).errs.get 0 (7 * 2 ^ 30 + (2 ^ 30 - 1)) = 1 ∧
      ({ demo with errs := [(7 * 2 ^ 30 + (2 ^ 30 - 1), 1)] } : State).granBad (7 * 2 ^ 30 + (2 ^ 30 - 1)) = false) ∧
    (demo.stack 7).lost = false :=
  ⟨by decide, by decide, rfl, rfl, ⟨rfl, rfl, by decide, by decide⟩, ⟨by decide, by decide⟩,
    ⟨by decide, by decide, rfl, rfl⟩, rfl⟩

/-! Placement. -/

/-- A seat is always found among some. -/
theorem chooseSeats_one (ks : List Nat) (s : State) (h : ks ≠ []) :
    ∃ k ∈ ks, chooseSeats 1 ks s = some ([k], s.bumpFree) := by
  have hl : 0 < ks.length := List.length_pos_iff.mpr h
  have hi : Config.choice s.freeCtr % max 1 ks.length < ks.length := by
    rw [Nat.max_eq_right hl]
    exact Nat.mod_lt _ hl
  exact ⟨ks[Config.choice s.freeCtr % max 1 ks.length], List.getElem_mem hi, by
    simp [chooseSeats, State.choose, List.getElem?_eq_getElem hi]⟩

/-- A group of one that is not fused takes one of the open seats. -/
theorem place_one {d i tr m : Nat} {c : Cand} {s : State} {g : Group} (hg : groupsOf s c = [g]) (hm : g.members = [m])
    (hr : recordsFree s d [g] = true) (hf : (s.task c.task).wb.fused = false) (ho : openSeats s d c ≠ []) :
    ∃ k ∈ openSeats s d c, place d c i tr s =
      some (placeGroup d c.task i tr (endReserve d c [k] s.bumpFree) (g, [(m, k)])) := by
  obtain ⟨k, hk, e⟩ := chooseSeats_one (openSeats s d c) s ho
  exact ⟨k, hk, by simp [place, hg, hr, assignSeats, hf, hm, e]⟩

/-- Step 0 is ready in slot 0 of die 0, whose first row grants it a visit. -/
def demoReady : State :=
  { demo with
    seats := []
    steps := [(0, { present := true, uid := 1, members := [{}], ready := some 0 })]
    tasks := [(0, { present := true, part := 1, steps := 2, next := 2, wb := { share := 1 } })]
    dies := [(0, { slots := [(0, { valid := true, part := 1 })], rows := [(0, { valid := true, part := 1, grant := 5 })] })] }

def demoVisit : State := demoReady.updDie 0 fun x => { x with rowPtr := (x.rowPtr + 1) % 256 }
def visited (k : Nat) : State := placeGroup 0 0 5 0 (endReserve 0 ⟨0, some 0⟩ [k] demoVisit.bumpFree) (⟨some 0, 0, [0]⟩, [(0, k)])

theorem witness_visit :
    let r := (demoReady.die 0).rows.get {} (demoReady.die 0).rowPtr
    (demoReady.die 0).pstate = 0 ∧ demoReady.fab.work = [] ∧ (∀ e ∈ demoReady.queues, e.2.recWait = false) ∧ ((demo.die 0).rows.get {} 0).valid = false ∧ r.valid = true ∧
      (hwSlot demoVisit 0 r.slot.toNat).valid = true ∧ r.part = (hwSlot demoVisit 0 r.slot.toNat).part ∧
      earliestReady demoVisit 0 r.slot.toNat = some 0 ∧
      ∃ v, place 0 ⟨(demoVisit.step1 0).task, some 0⟩ r.grant.toNat r.tgrant.toNat demoVisit = some v ∧ v.fab.work = [] := by
  refine ⟨rfl, rfl, by decide, rfl, rfl, rfl, rfl, by decide, ?_⟩
  obtain ⟨k, hk, e⟩ := place_one (d := 0) (i := 5) (tr := 0) (m := 0) (c := ⟨0, some 0⟩) (s := demoVisit)
    (g := ⟨some 0, 0, [0]⟩) (by decide) rfl (by decide) rfl (by decide +kernel)
  have hw : ∀ k ∈ openSeats demoVisit 0 ⟨0, some 0⟩, (visited k).fab.work = [] := by decide +kernel
  exact ⟨_, e, hw k hk⟩

/-- The reservation of that step, after a recall and as a convoy's. -/
def aReserve : Reserve := ⟨⟨0, some 0⟩, 7, [0], 5, 0⟩
def demoReserved : State := demoReady.updDie 0 fun x => { x with resv := [aReserve], convoy := some aReserve }

theorem witness_reserved :
    (demoReserved.die 0).resv = [aReserve] ∧ (demoReserved.die 0).convoy = some aReserve ∧
      candWaits demoReserved aReserve.cand = true ∧
      (hwSlot demoReserved 0 (demoReserved.task aReserve.cand.task).slot).valid = true ∧
      (∃ v, place 0 aReserve.cand aReserve.grantI aReserve.grantT demoReserved = some v) ∧
      candWaits ({ demoReserved with steps := [] } : State) aReserve.cand = false := by
  refine ⟨rfl, rfl, by decide, rfl, ?_, by decide⟩
  obtain ⟨k, _, e⟩ := place_one (d := 0) (i := 5) (tr := 0) (m := 0) (c := ⟨0, some 0⟩) (s := demoReserved)
    (g := ⟨some 0, 0, [0]⟩) (by decide) rfl (by decide) rfl (by decide +kernel)
  exact ⟨_, e⟩

theorem witness_first_placement : (demoReady.step1 0).fresh = true ∧ (demoReady.step1 0).restarts = 0 ∧ 15 < 16 :=
  ⟨rfl, rfl, by decide⟩

/-! Launched work, graphs, the wait table. -/

def aLaunch : Launch := ⟨0, 1, 0, 3, 0, 1, 0, 1, 0, 0, 0, 0, 0, List.replicate 128 0, 1, 1, 0, false, 0⟩
def demoLaunched (q : Sparse Queue) : State :=
  ({ demo with queues := q, dies := [(0, { launches := [aLaunch], tcache := [codeLeaf 1] })] } : State)

def demoQueued : State := demoLaunched [(1, { present := true, device := true, part := 1, sizelog := 1 })]

theorem launch_writes : movedB (putEntry 1 aLaunch.entry (.launch 0 1 0 1 1)
    (demoQueued.updDie 0 fun x => { x with launches := modifyAt (fun _ => aLaunch) x.launches 0 })) = true := by
  decide +kernel

theorem witness_launch_write :
    let bare := demoLaunched []
    let held := (demoLaunched []).updCtx 0 fun c =>
      { c with eng.copies := [(3, demoPlan 0)], eng.handles := [(3, { state := 1 })] }
    let late : Launch := { aLaunch with seq := 1 }
    (bare.die 0).launches[0]? = some aLaunch ∧ launchLives bare aLaunch = true ∧
      releaseOpen bare 0 (bare.memberCtx 0 0) 0 3 0xFF = false ∧ launchQueueLives bare aLaunch = false ∧
      releaseOpen held 0 (held.memberCtx 0 0) late.seq 3 0xFF = true ∧
      releaseOpen demoQueued 0 (demoQueued.memberCtx 0 0) 0 3 0xFF = false ∧ launchQueueLives demoQueued aLaunch = true ∧
      aLaunch.borrowed = false ∧ (demoQueued.queue 1).tail = aLaunch.k ∧
      ∃ e v, putEntry 1 aLaunch.entry (.launch 0 1 0 1 1)
        (demoQueued.updDie 0 fun x => { x with launches := modifyAt (fun _ => aLaunch) x.launches 0 }) = (.ok e, v) :=
  ⟨rfl, rfl, by decide, rfl, by decide, by decide, rfl, rfl, rfl, moved_ok launch_writes⟩

/-- Task 0 belongs to a graph at 64, and its weight is due. -/
def demoGraph : State :=
  { demo with
    tasks := [(0, { present := true, part := 1, purse := 3, wb := { graph := 64 } })]
    dies := [(0, { returns := [0], tcache := [codeLeaf 1] })] }

theorem graph_moves : movedB (nearAdd 0 1 (dispRequest 4 0) 72 3 demoGraph) = true := by decide +kernel

theorem witness_graph :
    (demoGraph.die 0).returns[0]? = some 0 ∧ (demoGraph.task 0).status = 0 ∧ (demoGraph.task 0).part = 1 ∧
      (demoGraph.task 0).wb.graph.toNat + 8 = 72 ∧ (demoGraph.task 0).purse = 3 ∧
      ∃ sum v, nearAdd 0 1 (dispRequest 4 0) 72 3 demoGraph = (.ok sum, v) :=
  ⟨rfl, rfl, rfl, rfl, rfl, moved_ok graph_moves⟩

/-- A WAITEV that has held for the slot's PARK limit. -/
def demoParking : State :=
  ((demo.withFetchWord 64 ((encode (.waitev .always 2)).headD 0)).updCtx 0 fun c => { c with wait.held := 32 * 64 }).updDie 0
    fun x => { x with slots := [(0, { valid := true, part := 1 })] }

theorem witness_park :
    stepSeats demoParking 0 = [0] ∧ parkConds 0 demoParking = some [⟨2, []⟩] ∧
      condHolds demoParking 0 0 ⟨2, []⟩ = false ∧ parkedCount demoParking 0 < 512 :=
  ⟨by decide +kernel, by decide +kernel, by decide +kernel, by decide +kernel⟩

/-- 512 parked steps of die 0. -/
def fullTable : Sparse Step :=
  (List.range 512).map fun n => (n + 1, { present := true, uid := n + 2, parked := some [] })

theorem witness_park_full :
    let s : State := { demoParking with steps := demoParking.steps ++ fullTable }
    stepSeats s 0 = [0] ∧ parkConds 0 s = some [⟨2, []⟩] ∧ condHolds s 0 0 ⟨2, []⟩ = false ∧ 512 ≤ parkedCount s 0 :=
  ⟨by decide +kernel, by decide +kernel, by decide +kernel, by decide +kernel⟩

/-- Step 0 is parked on an event, off its seat or still on it. -/
def demoParked (p : Place) (ev : BitVec 16) : State :=
  { demo with
    steps := [(0, { present := true, uid := 1, parked := some [⟨2, []⟩]
                    members := [{ place := p, ctx := { csr := { evHeld := ev } } }] })]
    seats := [(0, { phase := .draining, step := some (0, 0), ctx := { csr := { evpend := ev } } })] }

theorem witness_wake :
    ((demoParked .away 2).step1 0).parked = some [⟨2, []⟩] ∧ ((demoParked .away 2).die 0).pstate = 0 ∧
      (demoParked .away 2).host.selfRefresh = false ∧ anyHolds (demoParked .away 0) 0 [⟨2, []⟩] = false ∧
      anyHolds (demoParked .away 2) 0 [⟨2, []⟩] = true ∧ noneOnSeat ((demoParked .away 2).step1 0) = true ∧
      anyHolds (demoParked (.onSeat 0) 2) 0 [⟨2, []⟩] = true ∧ noneOnSeat ((demoParked (.onSeat 0) 2).step1 0) = false :=
  ⟨rfl, rfl, rfl, by decide, by decide, by decide, by decide, by decide⟩

/-! The channel engine. -/

/-- Channel 4 of die 0, whose reader is signal 5 of the step on seat 0. -/
def demoRing (c : Chan) : State :=
  ({ demo with chans := [(4, c)], dies := [(0, { tcache := [codeLeaf 1] })] } : State).updCtx 0 fun x =>
    x.setSg 5 { demoSig with feed := 3 }

def aMsg (permit : Bool) : ChMsg := { k := 0, binds := 0, units := [7], poison := 0, permit := permit }
def aChan : Chan := { state := 1, part := 1, width := 1, rbound := true, reader := some (0, 0, 5) }

theorem witness_delivery :
    let s := demoRing { aChan with flight := [aMsg true] }
    (s.chan 4).flight = [aMsg true] ∧ readerSeat s 4 = some (0, 5) ∧ msgFree s (aMsg true) = true ∧
      (aMsg true).k = (s.chan 4).deliv ∧ permitLive (s.chan 4) (aMsg true) = true ∧ (s.seat 0).phase ≠ .idle ∧
      ((s.ctx 0).sg 5).present = true :=
  ⟨rfl, rfl, rfl, rfl, rfl, by decide, rfl⟩

theorem witness_spill :
    let s := demoRing { aChan with flight := [aMsg false], segs := [0] }
    let c := s.chan 4
    c.flight = [aMsg false] ∧ msgFree s (aMsg false) = true ∧ permitLive c (aMsg false) = false ∧
      (({ aChan with raway := true } : Chan).raway = true ∧ ({ aChan with rbound := false } : Chan).rbound = false) ∧
      (c.segHead + c.spill.length) / segMsgs c.width < c.segs.length ∧
      ∃ v, (s.wakeDie 0).agentWrite 0 c.part (request agentChan (2 * 4)) (segAddr s c (c.segHead + c.spill.length))
        ((aMsg false).units.flatMap fun u => leBytes 32 u.toNat) = (.ok (), v) :=
  ⟨rfl, rfl, rfl, ⟨rfl, rfl⟩, by decide, _, rfl⟩

theorem witness_drain :
    let s := demoRing { aChan with spill := [aMsg false], segs := [0], wpermits := 1 }
    let c := s.chan 4
    c.spill = [aMsg false] ∧ readerSeat s 4 = some (0, 5) ∧ (aMsg false).k = c.deliv ∧ permitLive c (aMsg false) = false ∧
      c.wpermits ≠ 0 ∧ ∃ bs v, (s.wakeDie 0).agentRead 0 c.part (request agentChan (2 * 4 + 1)) (segAddr s c c.segHead) (32 * c.width) = (.ok (bs, false), v) :=
  ⟨rfl, rfl, rfl, rfl, by decide, _, _, rfl⟩

theorem witness_trigger :
    let s := demoRing { aChan with trigPending := true, trig := 128 }
    let far := demoRing { aChan with trigPending := true, trig := -1 }
    let poor := { s with mem := memWrite [] 128 (List.replicate 64 1) }
    ((demoRing aChan).chan 4).trigPending = false ∧ (s.chan 4).trigPending = true ∧ (s.chan 4).trigEntry = none ∧
      (∃ v, far.agentRead 0 1 (dispRequest 6 4) (far.chan 4).trig.toNat 128 = (.fail, v)) ∧
      (∃ bs v, s.agentRead 0 1 (dispRequest 6 4) (s.chan 4).trig.toNat 128 = (.ok (bs, false), v) ∧
        (drawReserve 1 (entryBudget (patchBytes bs 0x60 (leBytes 8 0))).1 (entryBudget (patchBytes bs 0x60 (leBytes 8 0))).2 v).isSome = true) ∧
      (∃ bs v, poor.agentRead 0 1 (dispRequest 6 4) (poor.chan 4).trig.toNat 128 = (.ok (bs, false), v) ∧
        drawReserve 1 (entryBudget (patchBytes bs 0x60 (leBytes 8 0))).1 (entryBudget (patchBytes bs 0x60 (leBytes 8 0))).2 v = none) :=
  ⟨rfl, rfl, rfl, ⟨_, rfl⟩, ⟨_, _, rfl, by decide +kernel⟩, ⟨_, _, rfl, by decide +kernel⟩⟩

/-- A seat that has been held on a WAITEV at two samples of the detector. -/
def demoStuck : State := demo.updCtx 0 fun c => { c with wait.stuck := true }

theorem witness_detector :
    allStuck demo 0 1 = false ∧ allStuck demoStuck 0 1 = true ∧ partBusy demoStuck 0 1 = true ∧
      (({ demoStuck with dies := [(0, { progress := [(1, progressOf demoStuck 0 1)] })] } : State).die 0).progress.get [] 1 =
        progressOf demoStuck 0 1 ∧ (demoStuck.die 0).stalled.get 0 1 < 2 :=
  ⟨by decide, by decide, by decide, by decide, by decide⟩

theorem witness_audit :
    let s : State := { demoRing { aChan with wpermits := 1 } with
      dies := [(0, { streams := [{ src := 2, dst := 0, sig := 5, permits := 0 }] })] }
    (s.chans.all fun e => decide (e.1 / 4096 = 0) && (permitCount s e.1).any fun x => x.1 == x.2) = true ∧
      (∀ x ∈ (s.die 0).streams, (streamCount s x).1 = (streamCount s x).2) :=
  ⟨by decide, by decide⟩

end Sys2Proof.Tests
end

