-- ==== Sys2Proof/Tests/WitnessHost.lean ====
section
/-!
SUPPORT. States and operands that meet the hypotheses of the statements on the host interface, firmware commands and
Wayline.
-/
namespace Sys2Proof.Tests
set_option Elab.async false
open Sys2Proof Sys2Proof.Machine

/-! Firmware takes commands. -/

/-- The demo with its rings set up: 16 entries each. -/
def demoHost : State := { demo with host := { resetting := false, ready := true, cpl := { size := 4 }, cmd := { size := 4 } } }

def takesB (s : State) : Bool :=
  s.host.ready && !s.host.cpl.full && !s.host.fatal && (List.range 4).all (fun d => decide ((s.die d).pstate = 0)) &&
  !s.host.selfRefresh && s.fw.taken.isNone

theorem takes_of {s : State} (h : takesB s = true) (op : BitVec 16) : Takes op s := by
  simp only [takesB, Bool.and_eq_true, List.all_eq_true, List.mem_range, decide_eq_true_eq, Bool.not_eq_true',
    Option.isNone_iff_eq_none] at h
  obtain ⟨⟨⟨⟨⟨h1, h2⟩, h3⟩, h4⟩, h5⟩, h6⟩ := h
  exact ⟨by simp [canTake, h1, h2, h3, h6], h4, h5⟩

/-- A command of partition 1 on die 0 without arguments. -/
def cmd0 : Cmd := ⟨0, 1, 7, 0, 0, 0, 0, 0, 0, 0⟩
/-- One of partition 2, which does not exist. -/
def cmdNew : Cmd := { cmd0 with part := 2 }

theorem demoHost_takes : ∀ op, Takes op demoHost := takes_of rfl

/-! Registers. -/

def demoQueue (x : Queue) : State := { demoHost with queues := [(5, x)] }
def userQueue : Queue := { present := true, ring := 0x10000, record := 0x20000, sizelog := 4, part := 1 }

theorem witness_doorbell :
    let ok := fun (s : State) (t : BitVec 32) => let x := s.queue (0 * 65536 + 5)
      decide ((t - x.tail).toNat ≤ x.size) && decide ((t - x.live).toNat ≤ x.size)
    demoHost.host.resetting = false ∧ (demoHost.die 0).pstate = 0 ∧ demoHost.host.selfRefresh = false ∧
      (demoHost.queue 5).present = false ∧
      ((demoQueue { userQueue with mapped := true }).queue 5).mapped = true ∧
      ok (demoQueue { userQueue with mapped := true }) 16 = true ∧ ((demoQueue userQueue).queue 5).mapped = false ∧
      ok (demoQueue userQueue) 16 = true ∧ ok (demoQueue userQueue) 17 = false ∧
      ((demoQueue { userQueue with device := true }).queue 5).device = true :=
  ⟨rfl, rfl, rfl, rfl, rfl, rfl, rfl, rfl, rfl, rfl⟩

theorem witness_rings :
    let r := demoHost.host.cmd
    demoHost.host.resetting = false ∧ ((16 : Word).setWidth 32 - r.head).toNat ≤ r.entries ∧
      r.entries < ((17 : Word).setWidth 32 - r.head).toNat ∧ demoHost.host.kept = [] ∧
      (∀ d < 4, (demoHost.die d).pstate = 0) ∧ (0xA501 : Word).extractLsb' 8 8 = 0xA5 ∧
      (0xA501 : Word).getLsbD 0 = true ∧ (0x5A01 : Word).extractLsb' 8 8 ≠ 0xA5 ∧ State.reset.host.resetting = true :=
  ⟨rfl, by decide, by decide, rfl, by decide, by decide, by decide, by decide, rfl⟩

theorem witness_slotmap :
    ((demoHost.updCore 3 fun x => { x with slotmap := 0x144 }).core 3).slotmap.getLsbD 8 = true ∧
      (demoHost.core 3).slotmap.getLsbD 8 = false ∧ (0x144 : BitVec 32).getLsbD 8 = true ∧
      slotmapOk (0x144 &&& 0x1FF) = true ∧ 255 < 256 ∧ 7 < 8 :=
  ⟨rfl, rfl, by decide, by decide, by decide, by decide⟩

/-! Apertures. -/

/-- Aperture 2 at virtual address 0x1000 of partition 1, with a cached translation of the die. -/
def demoAperture : State :=
  { demoHost with
    host.apertures := [(2, { valid := true, part := 1, base := 0x1000 })]
    dies := [(0, { tcache := [codeLeaf 1] })] }

theorem witness_aperture :
    let x := demoAperture.host.apertures.get {} 2
    (demoAperture.die 0).pstate = 0 ∧ demoAperture.host.selfRefresh = false ∧ x.valid = true ∧
      (demoAperture.host.apertures.get {} 3).valid = false ∧ 64 + [1, 2].length ≤ 2 ^ 30 ∧
      (x.base.toNat + 64) % 4096 + [1, 2].length ≤ 4096 ∧
      hostXlate x.part (x.base.toNat + 64) .write demoAperture = (some (0x1040, 0), demoAperture) ∧
      hostXlate x.part (x.base.toNat + 64) .read demoAperture = (some (0x1040, 0), demoAperture) ∧
      (demoAperture.stack (stackOf 0x1040)).lost = false ∧ homeDie 0x1040 = 0 ∧ 0x1040 % 64 + 2 ≤ 64 ∧ 2 ^ 30 < 2 ^ 30 - 1 + 2 ∧
      demoAperture.accs = [] :=
  ⟨rfl, rfl, rfl, rfl, by decide, by decide, rfl, rfl, rfl, rfl, by decide, by decide, rfl⟩

/-! Commands. -/

/-- The package without the demo's task, and with partition 1. -/
def demoBare : State := { demoHost with seats := [], steps := [], tasks := [] }

theorem bare_takes : ∀ op, Takes op demoBare := takes_of rfl

theorem witness_partition_commands :
    (∀ op, Takes op demoBare) ∧ (∀ n, Cmd.zeroFrom cmd0 n = true) ∧
      Cmd.zeroFrom { cmd0 with a0 := 2400 } 1 = true ∧ (600 : Word).toNat ≤ 2400 ∧
      cmd0.part.toNat ≠ 0 ∧ (demoBare.part cmd0.part.toNat).present = true ∧ (demoBare.part cmdNew.part.toNat).present = false ∧
      hostBad demoBare 0 64 = false ∧ liveTask demoHost 1 = true ∧ liveTask demoBare 1 = false ∧ demoBare.queues = [] ∧
      demoBare.chans = [] ∧ (∀ d < 4, (demoBare.die d).faults = [] ∧ (demoBare.die d).xfails = []) ∧ demoBare.host.apertures = [] ∧
      partQuiet demoBare 1 = true ∧ restoring demoBare 0 1 = false ∧ unsaved demoBare 0 1 = [] ∧
      ((demoBare.updPart 1 fun x => { x with swapped := 1 }).part 1).swapped.getLsbD 0 = true ∧ readySteps demoBare 0 1 = [] ∧
      (255 : Word).toNat ≤ 255 ∧ (0x14 : Word).toNat ≤ 0x14 ∧ (63 : Word).toNat ≤ 63 ∧ (0x1000 : Word).toNat % 4096 = 0 :=
  ⟨bare_takes, fun n => by simp [Cmd.zeroFrom, cmd0, List.all_eq_true]; intro x hx; exact (by
      have := List.mem_of_mem_drop hx; simpa using this), rfl, by decide, by decide, rfl, rfl, rfl, rfl, rfl, rfl, rfl, by decide, rfl, rfl, rfl, rfl,
    by decide, by decide +kernel, by decide, by decide, by decide, by decide⟩

/-- PART_RESERVE: a reserve that can give 5 and no more. -/
theorem witness_reserve :
    let x := (demoBare.updPart 1 fun x => { x with ibud := 5 }).part 1
    0 ≤ (x.ibud.toNat : Int) + ((-5 : Word).toInt) ∧ (x.ibud.toNat : Int) + ((-5 : Word).toInt) < 2 ^ 64 ∧
      (x.ibud.toNat : Int) + ((-6 : Word).toInt) < 0 := by
  decide

/-! Commands on seats. -/

/-- The demo trapped for firmware with a code. -/
def demoTrapped (code : BitVec 64) : State :=
  { demoHost with
    seats := [(0, { phase := .trapHeld, step := some (0, 0), share := 2048, ctx := { demoCtx with trap.info := code } })]
    tasks := [(0, { present := true, part := 1, steps := 2, next := 2, wb := { restart := true } })]
    parts := [(1, { present := true, depotBytes := 2 ^ 24, restarts := 1 })] }

def TrapReady (s : State) : Prop :=
  Takes 0x0018 s ∧ partMatches s cmd0 0 = true ∧ (s.seat 0).phase = .trapHeld ∧ (s.ctx 0).fuse.isFused = false ∧ Lone 0 s ∧
    TaskGoesOn 0 s ∧ mayRestart 0 s = true

theorem witness_trap_commands :
    handleSeat cmd0.a0 = some 0 ∧ handleSeat 0x4000 = none ∧ (0x4000 : Word).toNat < 2 ^ 32 ∧ Takes 0x001B demoHost ∧ cmd0.a3 = 0 ∧ cmd0.a0.toNat < 2 ^ 32 ∧ cmd0.die.toNat < 4 ∧
      TrapReady (demoTrapped 0x0B) ∧ trapCode ((demoTrapped 0x0B).ctx 0) ∈ [0x0B, 0x0E, 0x0F] ∧
      TrapReady (demoTrapped 0x0F) ∧ trapCode ((demoTrapped 0x0F).ctx 0) = 0x0F ∧
      ((demoHost.updSeat 0 fun x => { x with phase := .shareHeld }).seat 0).phase = .shareHeld :=
  ⟨rfl, rfl, by decide, demoHost_takes _, rfl, by decide, by decide,
    ⟨takes_of rfl _, rfl, rfl, rfl, ⟨⟨0, rfl⟩, rfl, rfl, rfl, rfl, rfl, rfl, rfl, rfl, rfl, rfl, rfl, rfl, rfl, rfl,
      ⟨rfl, rfl, by decide⟩⟩, ⟨rfl, by decide, rfl, rfl, rfl⟩, rfl⟩, by decide,
    ⟨takes_of rfl _, rfl, rfl, rfl, ⟨⟨0, rfl⟩, rfl, rfl, rfl, rfl, rfl, rfl, rfl, rfl, rfl, rfl, rfl, rfl, rfl, rfl,
      ⟨rfl, rfl, by decide⟩⟩, ⟨rfl, by decide, rfl, rfl, rfl⟩, rfl⟩, rfl, rfl⟩

/-! Commands on queues, slots, channels, code and cores. -/

/-- The demo's package with channel 4 and with queue 5, which holds one task whose steps are all made. -/
def demoWorkshop : State :=
  { demoBare with
    queues := [(5, userQueue)]
    tasks := [(0, { present := true, part := 1, queue := 5, steps := 2, next := 2 })]
    chans := [(4, { state := 1, part := 1, qmax := 2, width := 8 })] }

/-- A code object of one section of eight bytes. -/
def demoObject : List Byte :=
  padTo 64 (leBytes 4 0x424F4B5A ++ leBytes 2 1 ++ leBytes 2 1 ++ leBytes 16 0 ++ leBytes 8 64) ++
    leBytes 4 1 ++ leBytes 4 3 ++ leBytes 8 8 ++ leBytes 8 96 ++ leBytes 8 0 ++ leBytes 8 0x8008008000000000

/-- It lies at address 0 of host memory; the die has a translation of partition 1. -/
def demoLoaded : State :=
  { demoBare with host.mem := memWrite [] 0 demoObject, dies := [(0, { tcache := [codeLeaf 1] })] }

theorem object_ok : objectOk (hostRead demoLoaded 0 104) = true := by decide +kernel
theorem object_sections : loadedSections (hostRead demoLoaded 0 104) 0x1000 = [(0x1000, leBytes 8 0x8008008000000000)] := by
  decide +kernel
theorem object_write : (demoLoaded.fwWrite 0 1 0x1000 (leBytes 8 0x8008008000000000)).1 = true := by decide +kernel

theorem witness_code_load :
    let xs := loadedSections (hostRead demoLoaded 0 104) 0x1000
    Takes 0x0038 demoLoaded ∧ hostBad demoLoaded 0 104 = false ∧ objectOk (hostRead demoLoaded 0 104) = true ∧ xs ≠ [] ∧
      objectOk (hostRead demoBare 0 104) = false ∧
      (xs.map (·.1)).headD 0x1000 + (joinSections xs).length ≤ 2 ^ 64 ∧
      ∃ v, demoLoaded.fwWrite 0 1 ((xs.map (·.1)).headD 0x1000) (joinSections xs) = (true, v) := by
  refine ⟨takes_of rfl _, rfl, object_ok, by rw [object_sections]; simp, by decide +kernel, ?_, ?_⟩
  · rw [object_sections]
    decide
  · rw [object_sections]
    exact ⟨_, Prod.ext object_write rfl⟩

/-- The record of a queue can be written, or lies where no address translates. -/
theorem witness_queue_record :
    (∃ v, fwReaches 0 1 0x1000 64 demoLoaded = (true, v)) ∧ ∃ v, fwReaches 0 1 (2 ^ 48) 64 demoLoaded = (false, v) :=
  ⟨⟨_, Prod.ext (by decide +kernel) rfl⟩, ⟨_, Prod.ext (by decide +kernel) rfl⟩⟩

theorem witness_dispatch_commands :
    (∀ op, Takes op demoWorkshop) ∧ (∀ op, Takes op demoBare) ∧ cmd0.die.toNat < 4 ∧ cmd0.part.toNat ≠ 0 ∧
      (demoWorkshop.part cmd0.part.toNat).present = true ∧ (demoWorkshop.queue 6).present = false ∧
      (demoWorkshop.queue 5).present = true ∧ (demoWorkshop.queue 5).part = cmd0.part.toNat ∧
      Cmd.zeroFrom { cmd0 with a0 := 6, a2 := 0x1000, a3 := 16, a4 := 1 } 5 = true ∧
      taskOf demoWorkshop 5 0 = some 0 ∧ (demoWorkshop.task 0).part = 1 ∧ (demoWorkshop.task 0).present = true ∧
      (∀ e ∈ demoWorkshop.steps, ¬(e.2.present = true ∧ e.2.task = 0)) ∧
      (demoWorkshop.task 0).next = (demoWorkshop.task 0).steps ∧ (demoWorkshop.chan 5).state = 0 ∧
      ((0x300020080 : Word).extractLsb' 0 8).toNat ≤ 128 ∧
      ((0x300020080 : Word).extractLsb' 16 12).toNat ≤ ((0x300020080 : Word).extractLsb' 32 12).toNat ∧
      (demoWorkshop.chan 4).state ≠ 0 ∧ (demoWorkshop.chan 4).part = cmd0.part.toNat ∧ (demoWorkshop.chan 4).rbound = false ∧
      (demoWorkshop.chan 4).wbound = false ∧ (2 : Word).toNat ≤ (demoWorkshop.chan 4).qmax ∧
      (demoWorkshop.core 3).retired = false ∧ coreEmpty demoBare 3 = true ∧ demoBare.Wf ∧
      (∀ e ∈ demoBare.seats, e.2.phase ≠ .idle) ∧ cmdOf (0xFFFF : BitVec 16).toNat = none :=
  ⟨takes_of rfl, bare_takes, by decide, by decide, rfl, rfl, rfl, rfl, rfl, rfl, rfl, rfl, by decide, rfl, rfl, by decide,
    by decide, by decide, rfl, rfl, rfl, by decide, rfl, rfl, ⟨rfl, rfl, rfl⟩, by decide, rfl⟩

/-! Resets, boot, links and power. Whether an image verifies, a fuse fails or a die is lost is open (Config): the statements
say what follows in each case and suppose none. -/

/-- FW_STAGE is the next command of the ring. -/
def demoStaging : State :=
  { demoHost with host.cmd := { size := 4, tail := 1 }, host.mem := memWrite [] 0 (leBytes 2 3) }

theorem witness_resets :
    let staging := fun (s : State) =>
      s.host.ready && s.host.cmd.used != 0 && leNat (hostRead s (s.host.cmd.slot s.host.cmd.head) 2) == 3
    staging demoHost = false ∧ staging demoStaging = true ∧ Sparse.wf ({} : Core) demoHost.cores = true ∧
      demoHost.host.resetting = false ∧ State.reset.host.resetting = true ∧ State.reset.host.booterr = 0 ∧
      ({ State.reset with fw.reset := .warm true } : State).fw.reset = .warm true ∧ State.reset.fw.reset ≠ .warm true :=
  ⟨rfl, by decide +kernel, rfl, rfl, rfl, rfl, rfl, by decide⟩

theorem witness_links_power :
    let s (n : BitVec 32) : State := { demoBare with host.ltr := n }
    demoHost.linksDown = [] ∧ ({ demoHost with linksDown := [2] } : State).linksDown = [2] ∧ demoHost.host.fatal = false ∧
      Sparse.wf ({} : Die) demoHost.dies = true ∧ demoHost.host.resetting = false ∧ quietDie demoHost 0 = false ∧
      deepest demoHost.host.ltr < 4 ∧ (∀ d < 4, quietDie demoBare d = true ∧ (demoBare.die d).pstate < 1) ∧
      deepest (s 1000).host.ltr = 1 ∧ deepest (s 199999).host.ltr = 2 ∧ deepest (s 200000).host.ltr = 3 :=
  ⟨rfl, rfl, rfl, rfl, rfl, rfl, by decide, by decide, rfl, rfl, rfl⟩

/-! Ports. -/

/-- A flit of port 2 with its CRC. -/
def demoFlit (seq : BitVec 12) (ty : BitVec 2) (payload : List Byte) : Flit :=
  let f : Flit := ⟨seq, ty, false, -1, false, 0, 0, payload, 0⟩
  { f with crc := crc64 (flitBytes f) }

/-- A STATREQ to channel 4. -/
def demoWire : Wire := ⟨4, 5, 0, 1, 0, 0, 4, 9, 3, [], 0⟩

def demoPort (p : Port) : State := { demoBare with fab.ports := [(2, p)] }
def upPort : Port := { st := .up, peer := some 1, given := List.replicate 8 1 }

theorem flits_ok : flitOk (demoFlit 0 0 demoWire.bytes) = true ∧ flitOk (demoFlit 1 0 demoWire.bytes) = true ∧
    flitOk (demoFlit 0 3 []) = true := by
  simp [flitOk, demoFlit, flitBytes]

theorem witness_ports :
    let s := demoPort upPort
    let p := s.port 2
    let f := demoFlit 0 0 demoWire.bytes
    Sparse.wf ({} : Port) s.fab.ports = true ∧ (s.port 3).st ≠ .up ∧ p.st = .up ∧ p.replay = [] ∧ p.queue = [] ∧ p.going = [] ∧ p.rx = [] ∧
      flitOk { f with rsv := true } = false ∧ f.ftype = 0 ∧ f.nack = false ∧ f.fseq = p.aseq + 1 ∧
      (demoFlit 1 0 demoWire.bytes).fseq ≠ p.aseq + 1 ∧ (demoFlit 0 3 []).ftype = 3 ∧
      (∀ m < 8, p.given.getD m 0 ≠ 0) ∧ ((demoPort { upPort with given := [] }).port 2).given.getD 0 0 = 0 ∧
      s.fab.peers = [] ∧ s.fab.noPath = [] ∧ (1 : BitVec 18) ≠ s.pkgid :=
  ⟨rfl, by decide, rfl, rfl, rfl, rfl, rfl, rfl, rfl, rfl, by decide, by decide, rfl, by decide, rfl, rfl, rfl, by decide⟩

theorem witness_flit_message :
    wireReserved (padTo 240 demoWire.bytes) = false ∧ 32 + fieldAt (padTo 240 demoWire.bytes) 2 2 ≤ 240 ∧
      (parseWire 0 (padTo 240 demoWire.bytes)).lengthOk (demoPort upPort) = true := by
  decide +kernel

theorem witness_port_states :
    let r (n : Nat) : Port := { upPort with replay := [(0, demoWire, 0)], rounds := n }
    (∀ n ∈ [14, 15], ((demoPort (r n)).port 2).st = .up ∧ ((demoPort (r n)).port 2).replay ≠ [] ∧
      ((demoPort (r n)).port 2).rounds = n) ∧
      (∀ a ∈ [1, 2], ((demoPort { st := .training a }).port 2).st = .training a) ∧
      ((demoPort { st := .failed }).port 2).st ≠ .up :=
  ⟨by decide, by decide, by decide⟩

/-! Messages. -/

/-- Package 1 is known by EPOCH 9; window 1 of partition 1 admits it. -/
def demoNet : State :=
  { demoBare with
    fab.peers := [(1, { epoch := some 9 })]
    dies := [(0, { tcache := [codeLeaf 1] })]
    parts := [(1, { present := true, windows := [(1, { v := true, kind := 2, w := true, pkg := 1 })] })] }

/-- A message of package 1 to die 0 of package 0. -/
def demoMsg (target : Word) (payload : List Byte) : Msg := ⟨0, 1, 0, 0, target, 9, 3, payload⟩

def arrivesB (w : Wire) (s : State) : Bool :=
  endPkg w.dst == s.pkgid && w.lengthOk s && !workFull s w && decide ((s.die w.actsOn).pstate = 0) &&
  !s.host.selfRefresh && decide ((s.peer (endPkg w.src)).epoch = some w.epoch) && !(s.peer (endPkg w.src)).lost &&
  decide (w.flowseq = nextTaken s w)

theorem arrives_of {w : Wire} {s : State} (h : arrivesB w s = true) : Arrives w s := by
  simp only [arrivesB, Bool.and_eq_true, beq_iff_eq, decide_eq_true_eq, Bool.not_eq_true'] at h
  obtain ⟨⟨⟨⟨⟨⟨⟨h1, h2⟩, h3⟩, h4⟩, h5⟩, h6⟩, h7⟩, h8⟩ := h
  exact ⟨h1, h2, h3, h4, h5, .inr ⟨h6, h7⟩, fun _ _ => h8⟩

/-- Every class and OP arrives with a payload of its length. -/
theorem every_message_arrives :
    ([((0, 0), leBytes 64 0), ((0, 1), leBytes 8 0), ((1, 0), leBytes 128 0), ((2, 0), leBytes 8 0), ((2, 1), leBytes 8 0),
      ((2, 2), leBytes 32 0), ((3, 0), leBytes 8 8), ((3, 1), leBytes 24 0), ((3, 2), leBytes 16 0), ((3, 3), leBytes 8 0),
      ((4, 0), leBytes 8 0), ((4, 1), leBytes 8 0), ((4, 2), leBytes 24 0), ((4, 3), leBytes 16 0), ((4, 4), leBytes 8 0),
      ((4, 5), []), ((4, 6), leBytes 8 0), ((4, 7), []), ((4, 8), leBytes 8 0), ((4, 9), leBytes 8 0), ((4, 10), leBytes 8 0),
      ((4, 11), leBytes 8 0), ((4, 12), leBytes 8 0), ((4, 13), leBytes 8 0)] : List ((Nat × Nat) × List Byte)).all
        (fun x => arrivesB (Wire.ofMsg x.1.1 x.1.2 (demoMsg 4 x.2)) demoNet) = true := by
  decide +kernel

theorem witness_arrives (x : (Nat × Nat) × List Byte)
    (h : x ∈ [((0, 0), leBytes 64 0), ((0, 1), leBytes 8 0), ((1, 0), leBytes 128 0), ((2, 0), leBytes 8 1),
      ((3, 2), leBytes 16 0), ((4, 1), leBytes 8 0), ((4, 9), leBytes 8 0)]) :
    Arrives (Wire.ofMsg x.1.1 x.1.2 (demoMsg 4 x.2)) demoNet := by
  refine arrives_of ?_
  revert x
  decide +kernel

theorem witness_flows :
    let w := demoWire
    endPkg w.dst = demoNet.pkgid ∧ endPkg { w with dst := 7 }.dst ≠ demoNet.pkgid ∧
      ({ w with payload := [1] } : Wire).lengthOk demoNet = false ∧ w.lengthOk demoNet = true ∧
      endPkg w.src ≠ demoNet.pkgid ∧ (demoNet.peer (endPkg w.src)).epoch = some w.epoch ∧ w.ordered = true ∧
      w.flowseq = nextTaken demoNet w ∧ ({ w with flowseq := 1 } : Wire).flowseq ≠ nextTaken demoNet w ∧
      ({ w with cls := 3 } : Wire).ordered = false ∧ demoNet.fab.flows[0]? = none ∧
      ({ demoNet with fab.flows := [⟨true, 4, 1, 0, 1, [w]⟩] } : State).fab.flows[0]? = some ⟨true, 4, 1, 0, 1, [w]⟩ ∧
      (1 : BitVec 18) ≠ demoNet.pkgid ∧ (demoNet.peer 1).lost = false ∧ (0 : BitVec 18) = demoNet.pkgid :=
  ⟨rfl, by decide, rfl, rfl, by decide, rfl, rfl, rfl, by decide, rfl, rfl, rfl, by decide, rfl, rfl⟩

/-- Channel 4 in each condition that the statements tell apart. -/
def demoReg (c : Chan) : State := { demoNet with chans := [(4, c)] }
def remoteChan : Chan := { state := 1, part := 1, qmax := 2, width := 1, rbound := true, wbound := true, remote := true, wpkg := 1 }

theorem witness_data :
    let w := Wire.ofMsg 0 0 (demoMsg 4 (leBytes 64 0))
    let u := fun c => taken w (demoReg c)
    arrivesB w (demoReg remoteChan) = true ∧ chanAdmits (taken w demoNet) w = false ∧
      chanAdmits (u remoteChan) w = true ∧ isWriter (u { remoteChan with wbound := false }) w = false ∧
      isWriter (u remoteChan) w = true ∧ ((u { remoteChan with state := 3 }).chan 4).state ≠ 1 ∧
      ((u remoteChan).chan 4).state = 1 ∧ ((u remoteChan).chan 4).rbound = true ∧ fieldAt w.payload 8 1 = 0 ∧
      BitVec.ofNat 32 (fieldAt w.payload 0x0C 4) = ((u remoteChan).chan 4).binds ∧ regKey w.target = 4 ∧
      arrivesB (Wire.ofMsg 0 0 (demoMsg 4 (leBytes 64 (2 ^ 64)))) (demoReg remoteChan) = true ∧
      fieldAt (leBytes 64 (2 ^ 64)) 8 1 ≠ 0 ∧
      ((u { remoteChan with rbound := false }).chan 4).rbound = false ∧ chanAdmits (u { remoteChan with rbound := false }) w = true ∧
      isWriter (u { remoteChan with rbound := false }) w = true ∧ arrivesB w (demoReg { remoteChan with rbound := false }) = true ∧
      BitVec.ofNat 32 (fieldAt (leBytes 64 (2 ^ 96)) 0x0C 4) ≠ ((u remoteChan).chan 4).binds ∧
      arrivesB (Wire.ofMsg 0 0 (demoMsg 4 (leBytes 64 (2 ^ 96)))) (demoReg remoteChan) = true := by
  decide +kernel

/-- Queue 5 for WSEND, and a waybill of one step that asks for a budget. -/
def demoWork (x : Queue) : State := { demoNet with queues := [(5, x)] }
def deviceQueue : Queue := { userQueue with device := true }
def workWire (payload : List Byte) : Wire := Wire.ofMsg 1 0 (demoMsg 5 payload)

theorem work_written : movedB (putEntry 5 (patchBytes (leBytes 128 0) 0x60 (leBytes 8 0)) (.reserve 0 0 none)
    ((drawReserve 1 0 0 (taken (workWire (leBytes 128 0)) (demoWork deviceQueue))).getD {})) = true := by
  decide +kernel

theorem witness_waybill :
    let w := workWire (leBytes 128 0)
    let u := fun x => taken w (demoWork x)
    arrivesB w (demoWork deviceQueue) = true ∧ (∀ y ∈ (u deviceQueue).fab.work, y.target ≠ w.target) ∧
      ({ u deviceQueue with fab.work := [w] } : State).fab.work = [w] ∧ ((u userQueue).queue 5).device = false ∧
      ((u deviceQueue).queue 5).present = true ∧ ((u deviceQueue).queue 5).device = true ∧
      admits (u deviceQueue) 1 (endPkg w.src) = true ∧ ((u deviceQueue).queue 5).reserved = 0 ∧
      ((u deviceQueue).queue 5).full = false ∧ ((u { deviceQueue with reserved := 1 }).queue 5).reserved ≠ 0 ∧
      entryBudget (patchBytes w.payload 0x60 (leBytes 8 0)) = (0, 0) ∧
      (drawReserve 1 0 0 (u deviceQueue)).isSome = true ∧ (drawReserve 1 1 0 (u deviceQueue)).isNone = true := by
  decide +kernel

/-- A remote fault that is open, and one that failed. -/
def remoteFault : FaultRec := ⟨5, 1, 64, 1, 0, agentRemote, 0, false, 0, 0xFF, 0, 0, 0, [⟨.agent agentRemote, 64, 0⟩]⟩

theorem witness_bulk :
    let t : Word := 2 ^ 48 + 64
    let w := Wire.ofMsg 3 0 (demoMsg t (leBytes 8 8))
    let x := Wire.ofMsg 3 2 (demoMsg t (leBytes 16 0))
    let held := demoNet.updDie 0 fun d => { d with tcache := [], faults := [remoteFault] }
    let failed := demoNet.updDie 0 fun d => { d with xfails := [(1, 64, agentRemote)] }
    arrivesB w demoNet = true ∧ arrivesB x demoNet = true ∧ bulkPart demoNet w 8 false = some 1 ∧
      bulkPart demoNet x 8 true = some 1 ∧ bulkPart demoNet (Wire.ofMsg 3 0 (demoMsg 64 (leBytes 8 8))) 8 false = none ∧
      bulkPart demoNet w 4097 false = none ∧
      (agentXlate 0 1 64 agentRemote .read demoNet).2 = demoNet ∧ homeDie 64 = 0 ∧ 8 ≤ 64 - 64 % 64 ∧
      demoNet.accs = [] ∧ (x.payload.drop 8).length ≤ 64 - 64 % 64 ∧ (demoNet.stack (stackOf 64)).lost = false ∧
      bulkPart held w 8 false = some 1 ∧ bulkPart failed x 8 true = some 1 := by
  decide +kernel

theorem witness_bulk_outcomes :
    agentXlate 0 1 64 agentRemote .read demoNet = (.ok 64 0, demoNet) ∧
    agentXlate 0 1 64 agentRemote .write demoNet = (.ok 64 0, demoNet) ∧
    (∃ v, agentXlate 0 1 64 agentRemote .read (demoNet.updDie 0 fun d => { d with tcache := [], faults := [remoteFault] }) = (.wait, v)) ∧
    (∃ v, agentXlate 0 1 64 agentRemote .write (demoNet.updDie 0 fun d => { d with xfails := [(1, 64, agentRemote)] }) =
      (.fail, v)) :=
  ⟨rfl, rfl, ⟨_, rfl⟩, ⟨_, rfl⟩⟩

/-- A response finds its access by tag 3 and package 1. -/
theorem witness_responses :
    let a (wr : Bool) : Access := ⟨0, 3, 0, 1, wr, .remote 1 1 64, 8, leBytes 8 0, false, false, false, 0, .sent 3, 0⟩
    let r := Wire.ofMsg 3 1 (demoMsg 4 (leBytes 24 0))
    let k := Wire.ofMsg 3 3 (demoMsg 4 (leBytes 8 0))
    (takeAccess r false demoNet).isNone = true ∧ (takeAccess k true demoNet).isNone = true ∧
      takeAccess r false { demoNet with accs := [a false] } = some (a false, demoNet) ∧
      takeAccess k true { demoNet with accs := [a true] } = some (a true, demoNet) ∧
      arrivesB r { demoNet with accs := [a false] } = true ∧ arrivesB k { demoNet with accs := [a true] } = true ∧
      (∀ st ∈ [0, 1, 2], fieldAt (leBytes 8 st) 0 1 = st) := by
  decide +kernel

/-- The writer of step 0 on a seat waits for a reply under tag 3. -/
def demoReq (k : ReqKind) : State :=
  ({ demoNet with
    seats := demo.seats, steps := demo.steps, tasks := demo.tasks
    fab.reqs := [⟨3, 1, 0, 1, 0, k⟩] }).updCtx 0 fun c => { c with wait.remote := [⟨3, false, k == ReqKind.stat, 4, none⟩] }

/-- A refusal meets a writer that runs on; a DATA message that its checks turn away. -/
theorem witness_refuse :
    let p : Proxy := ⟨4, 0, 1, 0, false, 0, 1, 0, 0, false, (0, 0), false, 1⟩
    let s : State := { demoReq .bind with fab.proxies := [p] }
    let w := Wire.ofMsg 4 13 (demoMsg 4 (leBytes 8 0))
    arrivesB w s = true ∧ p ∈ (taken w s).fab.proxies ∧ p.reg = 4 ∧ proxyLives (taken w s) p = true ∧
      memberSeat s p.writer.1 p.writer.2 = some 0 ∧ (s.seat 0).phase ≠ .idle ∧
      dataOk demoNet (Wire.ofMsg 0 0 (demoMsg 4 (leBytes 64 0))) = false := by
  decide +kernel

/-- A pool of two segments for partition 1. -/
def growable (s : State) : State := s.updPart 1 fun x => { x with pool := 0x100000, segments := 2 }

theorem witness_control :
    let w (op : Nat) (b : List Byte) := Wire.ofMsg 4 op (demoMsg 4 b)
    let u (op : Nat) (b : List Byte) (s : State) := taken (w op b) s
    arrivesB (w 2 (leBytes 24 0)) (demoReq .bind) = true ∧
      (takeReq (w 2 (leBytes 24 0)) (u 2 (leBytes 24 0) demoNet)).isNone = true ∧
      ((takeReq (w 2 (leBytes 24 0)) (u 2 (leBytes 24 0) (demoReq .bind))).any fun x => reqWaits x.2 x.1 4) = true ∧
      ((takeReq (w 6 (leBytes 8 0)) (u 6 (leBytes 8 0) (demoReq .stat))).any fun x => reqWaits x.2 x.1 4) = true ∧
      ((takeReq (w 6 (leBytes 8 0)) (u 6 (leBytes 8 0) (demoReq .stat))).any fun x => !reqWaits x.2 x.1 5) = true ∧
      (takeReq (w 11 (leBytes 8 0)) (u 11 (leBytes 8 0) (demoReq (.work 3)))).isSome = true ∧
      chanAdmits (u 1 (leBytes 8 0) demoNet) (w 1 (leBytes 8 0)) = false ∧
      chanAdmits (u 1 (leBytes 8 0) (demoReg remoteChan)) (w 1 (leBytes 8 0)) = true ∧
      ((u 1 (leBytes 8 0) (demoReg remoteChan)).chan 4).wbound = true ∧
      ((u 1 (leBytes 8 0) (demoReg { remoteChan with wbound := false })).chan 4).devwriter = false ∧
      isWriter (u 3 (leBytes 16 0) (demoReg remoteChan)) (w 3 (leBytes 16 0)) = true ∧
      isWriter (u 3 (leBytes 16 0) demoNet) (w 3 (leBytes 16 0)) = false ∧
      ((u 3 (leBytes 16 0) (demoReg remoteChan)).chan 4).binds = BitVec.ofNat 32 (fieldAt (leBytes 16 0) 8 4) ∧
      fieldAt (leBytes 16 (2 ^ 96)) 0x0C 1 ≠ 0 ∧ fieldAt (leBytes 16 0) 0x0C 1 = 0 ∧
      ((takeReq (w 2 (leBytes 24 0)) (u 2 (leBytes 24 0) { demoReq .bind with steps := [] })).any fun x =>
        !reqWaits x.2 x.1 4) = true ∧
      (chanAdmits (u 5 [] demoNet) (w 5 []) = false ∧ chanAdmits (u 5 [] (demoReg remoteChan)) (w 5 []) = true ∧
        ((u 5 [] (demoReg { remoteChan with state := 3 })).chan 4).state = 3 ∧
        ((u 5 [] (demoReg remoteChan)).chan 4).state ≠ 3) ∧
      (isWriter (u 7 [] (demoReg remoteChan)) (w 7 []) = true ∧ canGrow (u 7 [] (demoReg remoteChan)) 4 = false ∧
        canGrow (u 7 [] (growable (demoReg remoteChan))) 4 = true ∧
        isWriter (u 7 [] (growable (demoReg remoteChan))) (w 7 []) = true) ∧
      barPart (u 9 (leBytes 8 0) demoNet) 1 = some 1 ∧ barPart (u 9 (leBytes 8 0) demoNet) 2 = none ∧
      fieldAt (leBytes 8 0) 0 4 = demoNet.pkgid.toNat ∧ fieldAt (leBytes 8 1) 0 4 ≠ demoNet.pkgid.toNat := by
  decide +kernel

end Sys2Proof.Tests
end

section
/-!
What a trap of step 5 of R56 leaves behind, first for the state operation that takes it (R261), then for an instruction
that issues as a bundle of its own; and TRAP (R94), which is settled from the two.
-/
namespace Sys2Proof.Machine
open Sys2Proof

variable {i : Instr} {s u : State} {o : SlotOut} {toll traffic k : Nat} {c : Cause} {t : TrapIn}

/-! Taking a trap (R261). -/

/-- Streams stand in the dies: freezing them reaches no seat. -/
@[simp] theorem freezeStreams_seats (k : Nat) (s : State) : (freezeStreams k s).seats = s.seats := by
  unfold freezeStreams; split <;> rfl

@[simp] theorem freezeStreams_mem (k : Nat) (s : State) : (freezeStreams k s).mem = s.mem := by
  unfold freezeStreams; split <;> rfl

@[simp] theorem takeTrap_mem (k : Nat) (t : TrapIn) (s : State) : (takeTrap k t s).mem = s.mem := by
  simp [takeTrap]

/-- The seat that takes a trap is read back with its record, its cause and nothing else of the program's state changed,
whatever its phase was. -/
theorem takeTrap_seat (k : Nat) (t : TrapIn) (s : State) : (takeTrap k t s).seat k =
    { s.seat k with
      phase := .trapping
      split := none
      ctx := { s.ctx k with
        trap := trapRecord (s.ctx k) (decide ((s.step1 (s.stepKey k)).members.length > 1)) t
        csr.trapcause := t.code
        wait := (s.ctx k).wait.leave
        maskOnce := 0 } } := by
  rw [takeTrap, State.seat, freezeStreams_seats]
  exact State.seat_setSeat_same (Seat.ne_empty (by simp))

/-- The record keeps the syllables of the bundle (R265). -/
theorem takeTrap_syll (k : Nat) (t : TrapIn) (s : State) : ((takeTrap k t s).ctx k).trap.syll = t.syll := by
  rw [State.ctx, takeTrap_seat]; rfl

/-- A trap taken at the position of the seat is a trap in the sense of R56 and R261, seen from any state s with the same
seat and memory. -/
theorem trapsOn_takeTrap (hseat : u.seat k = s.seat k) (hmem : u.mem = s.mem) (hb : t.bundle = (s.ctx k).pos.pc) :
    TrapsOn k (.next (takeTrap k t u)) s t.code t.detail0 t.detail1 := by
  have hctx : u.ctx k = s.ctx k := by rw [State.ctx, hseat, State.ctx]
  refine ⟨takeTrap k t u, rfl, ?_⟩
  rw [State.ctx, takeTrap_seat, takeTrap_mem, hctx]
  exact ⟨rfl, rfl, hb, rfl, rfl, rfl, rfl, rfl, rfl, hmem⟩

/-! A trap of the one instruction of a bundle (R56, R262). -/

/-- What the trap of an instruction alone in its bundle reports: syllable 0 at the position of seat k. -/
def soloTrap (i : Instr) (k : Nat) (c : Cause) (s : State) : TrapIn :=
  { code := c.code, mask := 1, slots := [(0, c.code.toNat)], bundle := (s.ctx k).pos.pc
    detail0 := c.detail0, detail1 := c.detail1, syll := sealWords (encode i) }

/-- Step 5 reports the cause of the slot. -/
theorem step5_solo (ht : o.trap = some c) :
    step5 (s.ctx k) (soloBundle i k s) [(0, o)] = some (soloTrap i k c s) := by
  simp [step5, sampleOverlap, soloBundle, overlapMask_single, ht, soloTrap]

/-- A slot that traps waits for no other member (R304). -/
theorem meets_trapping (ht : o.trap = some c) : meets [(0, o)] = false := by simp [meets, ht]

/-- The verdict on an instruction that nothing holds and whose slot traps. -/
theorem verdict_fault (hc : CanIssue toll traffic s)
    (hst : staticFault s.cur (soloBundle i s.cur s) s = (none, s)) (hh : o.hold = .free) (ht : o.trap = some c) :
    verdict (soloBundle i s.cur s) [s.cur] [(s.cur, [(0, o)])] s =
      (.fault [(s.cur, soloTrap i s.cur c s)], s) := by
  simp [verdict, hst, seatHold_free hc hh, Hold.join, meets_trapping ht, step5_solo ht]

/-- The one faulting member of a block of one takes its own trap (R308). -/
theorem trapBlock_single (b : Fetched) (hp : (s.seat k).phase = .running) :
    trapBlock b [k] [(k, t)] s = takeTrap k t s := by
  simp [trapBlock, hp]

/-- An instruction that nothing holds and whose slot traps takes the trap, its units read (R144). -/
theorem issueOne_traps (ho : slotOf i s.cur s = o) (hla : o.late (o.desc s) = none) (hc : CanIssue toll traffic s)
    (hst : staticFault s.cur (soloBundle i s.cur s) s = (none, s)) (hh : o.hold = .free) (ht : o.trap = some c) :
    issueOne i s = .next (takeTrap s.cur (soloTrap i s.cur c s) (meetUnits [(s.cur, [(0, o)])] s)) := by
  have hw : waiting [(s.cur, [(0, o)])] s = false := by simp [waiting, hc.here]
  have hp : ((meetUnits [(s.cur, [(0, o)])] s).seat s.cur).phase = .running := hc.running
  simp only [issueOne, hc.running, if_true, issueBlock, issueSeats_single hc, List.map_cons, List.map_nil,
    evalSlots_solo hc ho hla, hw, Bool.false_eq_true, if_false, verdict_fault hc hst hh ht, trapBlock_single _ hp]

/-- An instruction traps once its slot is known to trap, and the record keeps its syllables. -/
theorem traps_of_slot (he : exec i s = issueOne i s) (ho : slotOf i s.cur s = o) (hla : o.late (o.desc s) = none)
    (hc : CanIssue toll traffic s) (hst : staticFault s.cur (soloBundle i s.cur s) s = (none, s))
    (hh : o.hold = .free) (ht : o.trap = some c) :
    Traps i s c.code c.detail0 c.detail1 ∧
      ∃ t, exec i s = .next t ∧ (t.ctx s.cur).trap.syll = sealWords (encode i) := by
  have h := he.trans (issueOne_traps ho hla hc hst hh ht)
  refine ⟨?_, _, h, takeTrap_syll ..⟩
  rw [Traps, h]
  exact trapsOn_takeTrap rfl rfl rfl

/-! TRAP (R94). -/

/-- A slot whose guard holds does what it says, after a read of its guard (R35). -/
theorem guarded_of_holds {g : Guard} {x : Ctx} (h : Guard.holds g x = true) :
    guarded g x o = { o with uses := predUse g.pred ++ o.uses } := by simp [guarded, h]

/-- A slot whose guard does not hold only reads its guard (R35). -/
theorem guarded_of_not_holds {g : Guard} {x : Ctx} (h : Guard.holds g x = false) :
    guarded g x o = { uses := predUse g.pred } := by simp [guarded, h]

/-- A field of 16 bits from bit 31 of a C syllable reads back: the opcode and the guard stand above it (R33). -/
theorem encC_field31 (op : Nat) (g : Guard) (x : BitVec 16) : encC op g (put 31 x) / 2 ^ 31 % 2 ^ 16 = x.toNat := by
  have hx := x.isLt
  simp only [encC, head, guardBits, put]
  omega

theorem encode_trap (g : Guard) (code : BitVec 16) : encode (.trap g code) = [encC 0x1E g (put 31 code)] := rfl

/-- The code of TRAP stands in bits 46:31 of its syllable (R94). -/
theorem encode_trap_code (g : Guard) (code : BitVec 16) :
    (encode (.trap g code)).headD 0 / 2 ^ 31 % 2 ^ 16 = code.toNat := by
  rw [encode_trap, List.headD_cons, encC_field31]

theorem trap_traps {g : Guard} (code : BitVec 16) (hw : g.ok = true) (h : Runs g toll traffic s) :
    Traps (.trap g code) s 0x0F 0 0 ∧ ∃ t, exec (.trap g code) s = .next t ∧
      (t.ctx s.cur).trap.syll = sealWords (encode (.trap g code)) :=
  traps_of_slot (c := cause 0x0F) rfl (guarded_of_holds h.guard) rfl h.can (staticFault_plain hw rfl) rfl rfl

theorem trap_passes {g : Guard} (code : BitVec 16) (hw : g.ok = true) (hc : CanIssue 1 0 s) (hs : Settled s)
    (hg : Guard.holds g (s.ctx s.cur) = false) : Passes (.trap g code) s :=
  completes_of_slot rfl (guarded_of_not_holds hg) rfl hc hs hw rfl rfl rfl rfl rfl rfl rfl rfl rfl
    (keeps_refl hc.running) rfl

end Sys2Proof.Machine

namespace Sys2Proof.Proofs
open Sys2Proof Sys2Proof.Machine

/-- Settles O28: the slot of TRAP traps by step 5 of R56 when its guard holds, and is empty when it does not (R94). -/
theorem softwareTrap : Obligations.SoftwareTrap := by
  unfold Obligations.SoftwareTrap
  intro s g code hw
  refine ⟨fun h => ?_, fun hc hs hg => trap_passes code hw hc hs hg⟩
  obtain ⟨htraps, t, hexec, hsyll⟩ := trap_traps code hw h
  exact ⟨htraps, t, hexec, hsyll, encode_trap_code g code⟩

end Sys2Proof.Proofs
end

section
/-!
The register–register integer instructions (R115 to R117): first the one lemma for every instruction whose slot is a
scalar result, then what the division and the shifts of the model give, and the three statements from the two.
-/
namespace Sys2Proof.Machine
open Sys2Proof

variable {i : Instr} {s : State} {g : Guard} {rd ra rb : BitVec 6} {v : Word} {a b : Word}

/-! Instructions whose slot is a scalar result. -/

/-- The instruction is one syllable under the guard g, it leaves control alone and issues as a bundle of its own. Every
part holds by rfl for an instruction of the formats SR and SI. -/
structure PlainSyllable (i : Instr) (g : Guard) : Prop where
  issues : exec i = issueOne i
  valid : i.wf = g.ok
  control : Instr.transfer i = false
  one : (encode i).length = 1

/-- An instruction whose slot is a scalar result writes it to its destination, and does nothing else (R40, R113). -/
theorem computes_of_sResult {lat : Nat} {uses : List Res} (hi : PlainSyllable i g) (hg : g.ok = true)
    (h : Runs g 1 0 s)
    (hslot : slotOf i s.cur s = guarded g (s.ctx s.cur) (sResult s.cur rd lat uses v)) :
    Computes i s (·.setS rd v) 0 :=
  computes_of_slot (congrFun hi.issues s) (hslot.trans (guarded_of_holds h.guard)) rfl h.can h.settled
    (hi.valid.trans hg) hi.control rfl rfl rfl rfl rfl rfl rfl rfl (by simp) (by simp) hi.one

/-- An instruction of two source registers computes its function of the two registers. What it needs of the constructor,
and the value where it is the function's own, is found by unfolding. -/
theorem computes_bin {lat : Nat} (f : Word → Word → Word) (hg : g.ok = true) (h : Runs g 1 0 s)
    (hv : f ((s.ctx s.cur).s ra) ((s.ctx s.cur).s rb) = v := by rfl)
    (hi : PlainSyllable i g := by exact ⟨rfl, rfl, rfl, rfl⟩) (hslot : slotOf i = bin f lat g rd ra rb := by rfl) :
    Computes i s (·.setS rd v) 0 := by
  subst hv
  exact computes_of_sResult hi hg h (by rw [hslot]; rfl)

/-- An instruction of one source register computes its function of the register; see computes_bin. -/
theorem computes_un {lat : Nat} (f : Word → Word) (hg : g.ok = true) (h : Runs g 1 0 s)
    (hv : f ((s.ctx s.cur).s ra) = v := by rfl)
    (hi : PlainSyllable i g := by exact ⟨rfl, rfl, rfl, rfl⟩) (hslot : slotOf i = un f lat g rd ra := by rfl) :
    Computes i s (·.setS rd v) 0 := by
  subst hv
  exact computes_of_sResult hi hg h (by rw [hslot]; rfl)

/-! Counts of bits (R115). -/

theorem clz64_eq (a : Word) :
    clz64 a = BitVec.ofNat 64 (if a = 0 then 64 else 63 - Nat.log2 a.toNat) :=
  (apply_ite (BitVec.ofNat 64) (a = 0) 64 (63 - Nat.log2 a.toNat)).symm

/-- Adding up the bits of a predicate counts where it holds. -/
theorem foldl_add_bit {α : Type} (p : α → Bool) (l : List α) (n : Nat) :
    l.foldl (fun m x => m + bit (p x)) n = n + l.countP p := by
  induction l generalizing n with
  | nil => rfl
  | cons x l ih =>
    rw [List.foldl_cons, ih, List.countP_cons, bit]
    omega

theorem popc64_eq (a : Word) : popc64 a = BitVec.ofNat 64 ((List.range 64).countP fun i => a.getLsbD i) := by
  rw [popc64, foldl_add_bit, Nat.zero_add]

/-! Division (R116). -/

theorem divS_of_zero (hb : b = 0) : divS a b = 0xFFFFFFFFFFFFFFFF := if_pos hb
theorem divU_of_zero (hb : b = 0) : divU a b = 0xFFFFFFFFFFFFFFFF := if_pos hb
theorem remS_of_zero (hb : b = 0) : remS a b = a := if_pos hb

theorem divU_of_ne_zero (hb : b ≠ 0) : divU a b = BitVec.ofNat 64 (a.toNat / b.toNat) := if_neg hb

theorem eq_intMin_of_toInt (ha : a.toInt = -2 ^ 63) : a = BitVec.intMin 64 :=
  BitVec.eq_of_toInt_eq (by rw [ha]; rfl)

theorem eq_neg_one_of_toInt (hb : b.toInt = -1) : b = -1#64 :=
  BitVec.eq_of_toInt_eq (by rw [hb]; rfl)

/-- The one quotient that does not fit. -/
theorem divS_overflow (ha : a.toInt = -2 ^ 63) (hb : b.toInt = -1) : divS a b = 0x8000000000000000 := by
  rw [eq_intMin_of_toInt ha, eq_neg_one_of_toInt hb]; rfl

theorem remS_overflow (ha : a.toInt = -2 ^ 63) (hb : b.toInt = -1) : remS a b = 0 := by
  rw [eq_intMin_of_toInt ha, eq_neg_one_of_toInt hb]; rfl

/-- Off zero, DIV and REM are the division of bit vectors that truncates toward zero. -/
theorem divS_of_ne_zero (hb : b ≠ 0) : divS a b = a.sdiv b := by
  rw [divS, if_neg hb]
  exact BitVec.eq_of_toInt_eq (by rw [BitVec.toInt_ofInt, BitVec.toInt_sdiv])

theorem remS_of_ne_zero (hb : b ≠ 0) : remS a b = a.srem b := by
  rw [remS, if_neg hb, ← BitVec.toInt_srem, BitVec.ofInt_toInt]

theorem toInt_divS (hb : b ≠ 0) (hfit : ¬(a.toInt = -2 ^ 63 ∧ b.toInt = -1)) :
    (divS a b).toInt = a.toInt.tdiv b.toInt := by
  rw [divS_of_ne_zero hb]
  refine BitVec.toInt_sdiv_of_ne_or_ne a b ?_
  by_contra! h
  obtain ⟨rfl, rfl⟩ := h
  exact hfit (by decide)

/-- The remainder is what the truncated quotient leaves of the dividend. -/
theorem toInt_remS (hb : b ≠ 0) (hfit : ¬(a.toInt = -2 ^ 63 ∧ b.toInt = -1)) :
    (remS a b).toInt = a.toInt - (divS a b).toInt * b.toInt := by
  rw [remS_of_ne_zero hb, BitVec.toInt_srem, toInt_divS hb hfit, Int.tmod_def, mul_comm]

/-! Shifts (R117). -/

theorem shl64_of_lt (h : b.toNat < 64) : shl64 a b = a <<< b.toNat := if_pos h
theorem shr64_of_lt (h : b.toNat < 64) : shr64 a b = a >>> b.toNat := if_pos h
theorem sar64_of_lt (h : b.toNat < 64) : sar64 a b = a.sshiftRight b.toNat := by rw [sar64, if_pos h]

theorem shl64_of_le (h : 64 ≤ b.toNat) : shl64 a b = 0 := if_neg h.not_gt
theorem shr64_of_le (h : 64 ≤ b.toNat) : shr64 a b = 0 := if_neg h.not_gt

/-- Every bit of the result is a copy of the sign. -/
theorem sar64_of_le (h : 64 ≤ b.toNat) : sar64 a b = if a.getLsbD 63 then 0xFFFFFFFFFFFFFFFF else 0 := by
  rw [sar64, if_neg h.not_gt]
  ext j hj
  rw [BitVec.getElem_sshiftRight, dif_neg (by omega), BitVec.msb_eq_getLsbD_last]
  split
  next hsign => exact hsign.trans (BitVec.getElem_allOnes j hj).symm
  next hsign => exact (Bool.eq_false_iff.mpr hsign).trans (BitVec.getElem_zero hj).symm

end Sys2Proof.Machine

namespace Sys2Proof.Proofs
open Sys2Proof Sys2Proof.Machine

/-- Settles O1: the slot of each instruction is its function of the registers read before the bundle (R115). -/
theorem scalarInteger : Obligations.ScalarInteger := by
  unfold Obligations.ScalarInteger
  intro s g rd ra rb p hg h
  exact ⟨computes_bin (· + ·) hg h, computes_bin (· - ·) hg h, computes_bin (· * ·) hg h, computes_bin mulHigh hg h,
    computes_bin mulHighU hg h, computes_bin (· &&& ·) hg h, computes_bin (· ||| ·) hg h, computes_bin (· ^^^ ·) hg h,
    computes_bin (fun a b => a &&& ~~~b) hg h, computes_bin minS hg h, computes_bin maxS hg h, computes_bin minU hg h,
    computes_bin maxU hg h, computes_un clz64 hg h (clz64_eq _), computes_un popc64 hg h (popc64_eq _),
    computes_of_sResult ⟨rfl, rfl, rfl, rfl⟩ hg h rfl⟩

/-- Settles O2: by zero, the quotient that does not fit, and every other division, which truncates (R116). -/
theorem scalarDivide : Obligations.ScalarDivide := by
  unfold Obligations.ScalarDivide
  intro s g rd ra rb hg h
  refine ⟨fun hb => ⟨?_, ?_, ?_⟩, fun hb => ?_, fun ha hb => ⟨?_, ?_⟩, fun hb hfit => ?_⟩
  · exact computes_bin divS hg h (divS_of_zero hb)
  · exact computes_bin divU hg h (divU_of_zero hb)
  · exact computes_bin remS hg h (remS_of_zero hb)
  · exact computes_bin divU hg h (divU_of_ne_zero hb)
  · exact computes_bin divS hg h (divS_overflow ha hb)
  · exact computes_bin remS hg h (remS_overflow ha hb)
  · exact ⟨_, _, computes_bin divS hg h, computes_bin remS hg h, toInt_divS hb hfit, toInt_remS hb hfit⟩

/-- Settles O3: the count is the whole register, and from 64 on only the sign is left (R117). -/
theorem scalarShift : Obligations.ScalarShift := by
  unfold Obligations.ScalarShift
  intro s g rd ra rb hg h
  refine ⟨fun hn => ⟨?_, ?_, ?_⟩, fun hn => ⟨?_, ?_, ?_⟩⟩
  · exact computes_bin shl64 hg h (shl64_of_lt hn)
  · exact computes_bin shr64 hg h (shr64_of_lt hn)
  · exact computes_bin sar64 hg h (sar64_of_lt hn)
  · exact computes_bin shl64 hg h (shl64_of_le hn)
  · exact computes_bin shr64 hg h (shr64_of_le hn)
  · exact computes_bin sar64 hg h (sar64_of_le hn)

end Sys2Proof.Proofs
end

section
/-!
One lemma for every instruction that issues as a bundle of its own, leaves control alone and whose slot is guarded; then
the scalar instructions beside those of registers only: immediates, the spill store, predicates, control registers,
floating point (R118 to R140).
-/
namespace Sys2Proof.Machine
set_option Elab.async false
open Sys2Proof

variable {i : Instr} {s : State} {g : Guard} {o : SlotOut} {f : Ctx → Ctx} {eff : State → State} {fl : Flags}
  {toll traffic : Nat} {rd ra rb : BitVec 6} {pd : BitVec 4} {v : Word} {b : Bool} {lat : Nat} {uses : List Res}

/-- The instruction is one syllable that leaves control alone and issues as a bundle of its own. Every part holds by rfl
for a constructor. -/
structure OneSyllable (i : Instr) : Prop where
  issues : exec i = issueOne i
  control : Instr.transfer i = false
  one : (encode i).length = 1

/-- A slot outcome that nothing holds or traps and that leaves control alone. -/
structure SlotOut.Free (o : SlotOut) (s : State) : Prop where
  late : o.late (o.desc s) = none
  hold : o.hold = .free
  trap : o.trap = none
  ctl : o.ctl = .next

/-- An instruction whose guard holds and whose slot is free completes with the effects of the slot. -/
theorem completes_of_guarded (hi : OneSyllable i) (hw : i.wf = true) (h : Runs g toll traffic s)
    (hslot : slotOf i s.cur s = guarded g (s.ctx s.cur) o) (ho : o.Free s)
    (heff : o.effect s = eff s) (hk : Keeps (eff s) s) (hf : o.flags = fl := by rfl) (hcl : o.clearFpst = 0 := by rfl)
    (htoll : 1 + o.toll = toll := by rfl) (htraf : o.traffic = traffic := by rfl) :
    Completes i s eff fl toll traffic := by
  have hc := h.can
  subst htoll htraf
  exact completes_of_slot (congrFun hi.issues s) (hslot.trans (guarded_of_holds h.guard)) ho.late hc h.settled hw
    hi.control ho.hold ho.trap ho.ctl hf hcl rfl rfl heff hk hi.one

/-- The same for a slot whose effect is an update of its seat that keeps budget and position. -/
theorem computes_of_guarded (hi : OneSyllable i) (hw : i.wf = true) (h : Runs g 1 0 s)
    (hslot : slotOf i s.cur s = guarded g (s.ctx s.cur) o) (ho : o.Free s)
    (heff : o.effect s = s.updCtx s.cur f) (hb : ∀ c, (f c).bud.ibud = c.bud.ibud) (hp : ∀ c, (f c).pos = c.pos)
    (hf : o.flags = fl := by rfl) (hcl : o.clearFpst = 0 := by rfl) (htoll : 1 + o.toll = 1 := by rfl)
    (htraf : o.traffic = 0 := by rfl) : Computes i s f fl :=
  completes_of_guarded hi hw h hslot ho heff ((keeps_refl h.can.running).updCtx hb hp) hf hcl htoll htraf

/-- A slot that writes one predicate. -/
theorem computes_of_pResult (hi : OneSyllable i) (hw : i.wf = true) (h : Runs g 1 0 s)
    (hslot : slotOf i s.cur s = guarded g (s.ctx s.cur) (pResult s.cur pd lat uses b)) :
    Computes i s (·.setP pd b) 0 :=
  computes_of_guarded hi hw h hslot ⟨rfl, rfl, rfl, rfl⟩ rfl (by simp) (by simp)

/-- A slot that writes one scalar register and raises flags. -/
theorem computes_of_sResult_flags (hi : OneSyllable i) (hw : i.wf = true) (h : Runs g 1 0 s)
    (hslot : slotOf i s.cur s = guarded g (s.ctx s.cur) { sResult s.cur rd lat uses v with flags := fl }) :
    Computes i s (·.setS rd v) fl :=
  computes_of_guarded hi hw h hslot ⟨rfl, rfl, rfl, rfl⟩ rfl (by simp) (by simp)

/-! Immediates and the spill store (R118, R119, R122). -/

/-- MOVHI puts its immediate above the lower half of the register (R119). -/
theorem movhi_value (h : BitVec 32) (a : Word) :
    (h.zeroExtend 64 <<< 32) ||| (a &&& 0xFFFFFFFF) = h ++ a.setWidth 32 := by
  apply BitVec.eq_of_toNat_eq
  have hh : h.toNat <<< 32 < 2 ^ 64 := by rw [Nat.shiftLeft_eq]; omega
  have hmask : (a &&& 0xFFFFFFFF).toNat = a.toNat % 2 ^ 32 := Nat.and_two_pow_sub_one_eq_mod a.toNat 32
  rw [BitVec.toNat_or, hmask, BitVec.toNat_append, BitVec.toNat_setWidth, BitVec.toNat_shiftLeft,
    BitVec.toNat_setWidth, Nat.mod_eq_of_lt (a := h.toNat) (by omega), Nat.mod_eq_of_lt hh]

theorem computes_spst {n : BitVec 9} (hg : g.ok = true) (h : Runs g 1 0 s) :
    Computes (.spst g ra n) s (·.setSpill n ((s.ctx s.cur).s ra)) 0 :=
  computes_of_guarded ⟨rfl, rfl, rfl⟩ hg h rfl ⟨rfl, rfl, rfl, rfl⟩ rfl (by simp) (by simp)

/-! Predicates (R120, R121). -/

/-- A predicate instruction is well formed once its guard and its destination are. -/
theorem pred_wf (hg : g.ok = true) (hp : predDestOk pd = true) : (g.ok && predDestOk pd) = true := by simp [hg, hp]

/-! Control registers (R69 to R73, R123 to R132). -/

/-- CSRR gives the value of a listed register, once matrix results are final where it reads FPST. -/
theorem computes_csrr {n : BitVec 12} (hw : (Instr.csrr g rd n).wf = true) (h : Runs g 1 0 s)
    (hfp : n = 0x020 → (s.ctx s.cur).mx.pend = []) :
    Computes (.csrr g rd n) s (·.setS rd (csrRead s s.cur (s.ctx s.cur) n.toNat)) 0 := by
  have hhold : (if n.toNat = 0x020 ∧ (s.ctx s.cur).mx.pend ≠ [] then Hold.own else .free) = .free :=
    if_neg fun ⟨hn, hp⟩ => hp (hfp (BitVec.eq_of_toNat_eq hn))
  exact computes_of_guarded ⟨rfl, rfl, rfl⟩ hw h rfl ⟨rfl, hhold, rfl, rfl⟩ rfl (by simp) (by simp)

/-- CSRW of any register but FPST is its write. -/
theorem computes_csrw {n : BitVec 12} (hw : (Instr.csrw g ra n).wf = true) (h : Runs g 1 0 s) (hn : n ≠ 0x020)
    (hf : csrWrite n.toNat ((s.ctx s.cur).s ra) = f) (hb : ∀ c, (f c).bud.ibud = c.bud.ibud)
    (hp : ∀ c, (f c).pos = c.pos) : Computes (.csrw g ra n) s f 0 := by
  have hclear : (if n.toNat = 0x020 then ((s.ctx s.cur).s ra).setWidth 6 else (0 : Flags)) = 0 :=
    if_neg fun h => hn (BitVec.eq_of_toNat_eq h)
  subst hf
  exact computes_of_guarded ⟨rfl, rfl, rfl⟩ hw h rfl ⟨rfl, rfl, rfl, rfl⟩ rfl hb hp (hcl := hclear)

end Sys2Proof.Machine
end

section
/-!
The statements on immediates, the spill store, predicates, control registers and scalar floating point.
-/
namespace Sys2Proof.Proofs
set_option Elab.async false
open Sys2Proof Sys2Proof.Machine

/-- The register-immediate instructions and MOVHI are functions of one register (R118, R119). -/
theorem scalarImmediate : Claims.ScalarImmediate := by
  unfold Claims.ScalarImmediate
  intro s g rd ra i h n hg hr
  exact ⟨computes_un (· + immS i) hg hr, computes_un (· &&& immS i) hg hr, computes_un (· ||| immS i) hg hr,
    computes_un (· ^^^ immS i) hg hr, computes_un (· <<< n.toNat) hg hr, computes_un (· >>> n.toNat) hg hr,
    computes_un (·.sshiftRight n.toNat) hg hr, computes_of_sResult ⟨rfl, rfl, rfl, rfl⟩ hg hr rfl,
    computes_un (fun a => (h.zeroExtend 64 <<< 32) ||| (a &&& 0xFFFFFFFF)) hg hr (movhi_value h _)⟩

/-- The spill store and the loop index (R122, R134). -/
theorem spillAndIndex : Claims.SpillAndIndex := by
  unfold Claims.SpillAndIndex
  intro s g rd ra n l hg hr
  refine ⟨computes_of_sResult ⟨rfl, rfl, rfl, rfl⟩ hg hr rfl, computes_spst hg hr, fun hl => ?_⟩
  have hw : (Instr.lidx g rd l).wf = true := by simp [Instr.wf, hg, hl]
  exact computes_of_sResult_flags ⟨rfl, rfl, rfl⟩ hw hr rfl

/-- Settles O4: each slot is a scalar result, or the write of one spill slot. -/
theorem immediateAndSpill : Obligations.ImmediateAndSpill := ⟨scalarImmediate, spillAndIndex⟩

/-- Settles O5: each slot writes its predicate with the relation of the registers read before the bundle. -/
theorem predicates : Obligations.Predicates := by
  unfold Obligations.Predicates
  intro s g pd pa pb ra rb i hg hp hr
  have hw := pred_wf hg hp
  have writes : ∀ {j b}, OneSyllable j → j.wf = (g.ok && predDestOk pd) →
      (∃ lat uses, slotOf j s.cur s = guarded g (s.ctx s.cur) (pResult s.cur pd lat uses b)) →
      Computes j s (·.setP pd b) 0 := fun hi hj ⟨_, _, hslot⟩ => computes_of_pResult hi (hj.trans hw) hr hslot
  refine ⟨fun cc => ⟨?_, ?_⟩, ?_, ?_, ?_, ?_, ?_⟩
  · cases cc <;> exact writes ⟨rfl, rfl, rfl⟩ rfl ⟨_, _, rfl⟩
  · cases cc <;> exact writes ⟨rfl, rfl, rfl⟩ rfl ⟨_, _, rfl⟩
  all_goals exact writes ⟨rfl, rfl, rfl⟩ rfl ⟨_, _, rfl⟩

end Sys2Proof.Proofs
end

section
/-!
Control registers and scalar floating point: the fields of BSTAT, and the three statements.
-/
namespace Sys2Proof.Machine
set_option Elab.async false
open Sys2Proof

variable {s : State} {g : Guard} {ra : BitVec 6} {c : Ctx} {x : Word} {b : Bool} {i : Nat}

/-! The fields of BSTAT (R70). -/

theorem bit_lt (b : Bool) : bit b < 2 := by cases b <;> decide

theorem getLsbD_of_digit (h : x.toNat / 2 ^ i % 2 = bit b) : x.getLsbD i = b := by
  rw [BitVec.getLsbD, Nat.testBit_eq_decide_div_mod_eq, h]
  cases b <;> rfl

theorem extractLsb'_of_digits {n : Nat} {y : BitVec n} (h : x.toNat / 2 ^ i % 2 ^ n = y.toNat) :
    x.extractLsb' i n = y := by
  apply BitVec.eq_of_toNat_eq
  rw [BitVec.extractLsb'_toNat, Nat.shiftRight_eq_div_pow, h]

theorem bstat_toNat (c : Ctx) : (bstat c).toNat = c.bud.run.toNat * 2 ^ 32 + bit c.bud.evlost * 2 ^ 7 +
    c.bud.ycause.toNat * 2 ^ 4 + bit c.bud.incont * 2 ^ 3 + bit c.bud.recallBit * 2 ^ 2 + bit c.bud.toppriv * 2 +
    bit c.due := by
  have := c.bud.run.isLt
  have := c.bud.ycause.isLt
  have := bit_lt c.bud.evlost
  have := bit_lt c.bud.incont
  have := bit_lt c.bud.recallBit
  have := bit_lt c.bud.toppriv
  have := bit_lt c.due
  rw [bstat, BitVec.toNat_ofNat, Nat.mod_eq_of_lt (by simp only [put]; omega)]
  simp only [put]

/-- BSTAT holds each field at its place and zero elsewhere (R70). -/
theorem bstat_fields (c : Ctx) : (bstat c).getLsbD 0 = c.due ∧ (bstat c).getLsbD 1 = c.bud.toppriv ∧
    (bstat c).getLsbD 2 = c.bud.recallBit ∧ (bstat c).getLsbD 3 = c.bud.incont ∧
    (bstat c).extractLsb' 4 2 = c.bud.ycause ∧ (bstat c).getLsbD 6 = false ∧ (bstat c).getLsbD 7 = c.bud.evlost ∧
    (bstat c).extractLsb' 8 24 = 0 ∧ (bstat c).extractLsb' 32 17 = c.bud.run ∧ (bstat c).extractLsb' 49 15 = 0 := by
  have hx := bstat_toNat c
  have := c.bud.run.isLt
  have := c.bud.ycause.isLt
  have := bit_lt c.bud.evlost
  have := bit_lt c.bud.incont
  have := bit_lt c.bud.recallBit
  have := bit_lt c.bud.toppriv
  have := bit_lt c.due
  have h0 : bit false = 0 := rfl
  have h24 : (0 : BitVec 24).toNat = 0 := rfl
  have h15 : (0 : BitVec 15).toNat = 0 := rfl
  refine ⟨getLsbD_of_digit ?_, getLsbD_of_digit ?_, getLsbD_of_digit ?_, getLsbD_of_digit ?_,
    extractLsb'_of_digits ?_, getLsbD_of_digit ?_, getLsbD_of_digit ?_, extractLsb'_of_digits ?_,
    extractLsb'_of_digits ?_, extractLsb'_of_digits ?_⟩
  all_goals rw [hx]; omega

/-! What a write to MAXRUN and to FPST does (R71, R128). -/

/-- A write to MAXRUN outside 1 to 65536, or above the present value, is discarded (R71). -/
theorem csrWrite_maxrun (x : Word) : csrWrite 0x014 x = fun c =>
    if 1 ≤ x.toNat % 2 ^ 17 ∧ x.toNat % 2 ^ 17 ≤ 65536 ∧ x.toNat % 2 ^ 17 ≤ c.bud.maxrun.toNat
    then { c with bud.maxrun := x.setWidth 17 } else c := by
  funext c
  have hv : BitVec.ofNat 17 (x.toNat % 2 ^ 17) = x.setWidth 17 := BitVec.eq_of_toNat_eq (by simp)
  simp only [csrWrite, hv]
  split
  next h => rw [if_neg (by omega)]
  next h => rw [if_pos (by omega)]

theorem csrWrite_tapwait (x : Word) : csrWrite 0x01A x = fun c =>
    if x.setWidth 32 = (0 : BitVec 32) then c else { c with csr.tapwait := x.setWidth 32 } := by
  funext c
  have hz : x.toNat % 2 ^ 32 = 0 ↔ x.setWidth 32 = (0 : BitVec 32) :=
    ⟨fun h => BitVec.eq_of_toNat_eq (by simpa using h), fun h => by simpa using congrArg BitVec.toNat h⟩
  simp only [csrWrite, hz]

/-- An update that changes nothing drops out of what a bundle leaves. -/
theorem Retired.of_idle_update {fl clr : Flags} {toll traffic : Nat} {u t : State} (hi : (u.seat u.cur).phase ≠ .idle)
    (h : Retired fl clr toll traffic (u.updCtx u.cur fun c => c) t) : Retired fl clr toll traffic u t := by
  obtain ⟨pos, ready, wait, issued, hpos, ht⟩ := h
  have hctx : (u.updCtx u.cur fun c => c).ctx u.cur = u.ctx u.cur := State.ctx_updCtx_same hi
  rw [State.updCtx_cur, State.updCtx_updCtx hi] at ht
  rw [State.updCtx_cur, hctx] at hpos
  exact ⟨pos, ready, wait, issued, hpos, ht⟩

/-- An instruction that leaves its seat as it is passes. -/
theorem passes_of_computes_id {i : Instr} (hrun : (s.seat s.cur).phase = .running)
    (h : Computes i s (fun c => c) 0) : Passes i s := by
  obtain ⟨t, hexec, hret⟩ := h
  exact ⟨t, hexec, Retired.of_idle_update (by simp [hrun]) hret⟩

/-- A register without a field that software may write takes none (R123). -/
theorem csrWrite_other {n : Nat} (h : n ∉ [0x013, 0x014, 0x018, 0x01A, 0x021, 0x022, 0x040]) (x : Word) :
    csrWrite n x = fun c => c := by
  funext c
  unfold csrWrite
  split <;> first | rfl | simp at h

/-- CSRW of FPST clears flags with those of its bundle (R128). -/
theorem retired_csrw_fpst (hw : (Instr.csrw g ra 0x020).wf = true) (h : Runs g 1 0 s) :
    ∃ t, exec (.csrw g ra 0x020) s = .next t ∧ Retired 0 (((s.ctx s.cur).s ra).setWidth 6) 1 0 s t := by
  have hbusy : (s.seat s.cur).phase ≠ .idle := by rw [h.can.running]; decide
  obtain ⟨t, hexec, hret⟩ := issueOne_retired (i := .csrw g ra 0x020) (guarded_of_holds h.guard) rfl h.can h.settled hw
    rfl rfl rfl rfl ((keeps_refl h.can.running).updCtx (fun _ => rfl) fun _ => rfl) rfl
  exact ⟨t, hexec, hret.of_idle_update hbusy⟩

end Sys2Proof.Machine

namespace Sys2Proof.Proofs
set_option Elab.async false
open Sys2Proof Sys2Proof.Machine

/-- Settles O6: the value read is that of the model's table of control registers, whose BSTAT is taken apart into its
fields. -/
theorem csrRead : Obligations.CsrRead := by
  unfold Obligations.CsrRead
  intro s g rd n hg hn h hfp
  have hw : (Instr.csrr g rd n).wf = true := by simp [Instr.wf, hg, hn]
  refine ⟨_, computes_csrr hw h hfp, ?_⟩
  refine ⟨?_, ?_, ?_, ?_, ?_, ?_, ?_, ?_, ?_, ?_, ?_, ?_, ?_, ?_, ?_, ?_, ?_, ?_, ?_, ?_, ?_⟩
  case refine_21 => rintro rfl; exact bstat_fields _
  all_goals rintro rfl; rfl

/-- Settles O7: the write of each register that software may write, and no effect for the others. -/
theorem csrWrite : Obligations.CsrWrite := by
  unfold Obligations.CsrWrite
  intro s g ra n hg hn h
  have hw : (Instr.csrw g ra n).wf = true := by simp [Instr.wf, hg, hn]
  refine ⟨?_, ?_, ?_, ?_, ?_, ?_, ?_, ?_, fun hother => ?_⟩
  · rintro rfl
    exact computes_csrw hw h (by decide) rfl (fun _ => rfl) fun _ => rfl
  · rintro rfl
    exact computes_csrw hw h (by decide) (csrWrite_maxrun _) (fun _ => by split <;> rfl) fun _ => by split <;> rfl
  · rintro rfl
    exact computes_csrw hw h (by decide) rfl (fun _ => rfl) fun _ => rfl
  · rintro rfl
    exact computes_csrw hw h (by decide) (csrWrite_tapwait _) (fun _ => by split <;> rfl) fun _ => by split <;> rfl
  · rintro rfl
    exact computes_csrw hw h (by decide) rfl (fun _ => rfl) fun _ => rfl
  · rintro rfl
    exact computes_csrw hw h (by decide) rfl (fun _ => by split <;> rfl) fun _ => by split <;> rfl
  · rintro rfl
    exact computes_csrw hw h (by decide) rfl (fun _ => rfl) fun _ => rfl
  · rintro rfl
    exact retired_csrw_fpst hw h
  · have hne : n ≠ 0x020 := fun e => by simp [e] at hother
    have hnone : n.toNat ∉ [0x013, 0x014, 0x018, 0x01A, 0x021, 0x022, 0x040] := fun hmem =>
      hother (by simp only [List.mem_cons, List.not_mem_nil, or_false, ← BitVec.toNat_inj, BitVec.ofNat_eq_ofNat, BitVec.toNat_ofNat] at hmem ⊢; omega)
    exact passes_of_computes_id h.can.running
      (computes_csrw hw h hne (csrWrite_other hnone _) (fun _ => rfl) fun _ => rfl)

/-- Settles O8: each slot is a scalar result with the flags of its operation. -/
theorem scalarFloat : Obligations.ScalarFloat := by
  unfold Obligations.ScalarFloat
  intro s g rd ra rb pd hg h
  have puts : ∀ {i : Instr} {r : Nat × Flags}, OneSyllable i → i.wf = g.ok →
      (∃ uses, slotOf i s.cur s = guarded g (s.ctx s.cur) (sF32 s.cur rd uses r)) →
      Computes i s (·.setS rd (BitVec.ofNat 64 r.1)) r.2 :=
    fun hi hwf ⟨_, hslot⟩ => computes_of_sResult_flags hi (hwf.trans hg) h hslot
  refine ⟨puts ⟨rfl, rfl, rfl⟩ rfl ⟨_, rfl⟩, puts ⟨rfl, rfl, rfl⟩ rfl ⟨_, rfl⟩, puts ⟨rfl, rfl, rfl⟩ rfl ⟨_, rfl⟩,
    puts ⟨rfl, rfl, rfl⟩ rfl ⟨_, rfl⟩, puts ⟨rfl, rfl, rfl⟩ rfl ⟨_, rfl⟩, puts ⟨rfl, rfl, rfl⟩ rfl ⟨_, rfl⟩,
    puts ⟨rfl, rfl, rfl⟩ rfl ⟨_, rfl⟩, computes_of_sResult_flags ⟨rfl, rfl, rfl⟩ hg h rfl, fun hp cc hltu hleu => ?_⟩
  have hw : (Instr.fcmp g pd cc ra rb).wf = true := by simp [Instr.wf, hg, hp, hltu, hleu]
  exact computes_of_guarded ⟨rfl, rfl, rfl⟩ hw h rfl ⟨rfl, rfl, rfl, rfl⟩ rfl (by simp) (by simp)

end Sys2Proof.Proofs
end

section
/-!
A slot whose guard does not hold (R35), for every instruction at once.
-/
namespace Sys2Proof.Machine
set_option Elab.async false
open Sys2Proof

variable {i : Instr} {s : State} {g : Guard} {c : Ctx} {o : SlotOut} {k toll traffic : Nat}

theorem not_always_fails {p : Prop} (h : Guard.holds .always c = false) : p := nomatch h

/-- A seat that is not fused decides control for itself (R306). -/
theorem lead_of_single (h : (s.ctx k).fuse.isFused = false) : s.lead k = s.ctx k := by
  simp [State.lead, leaderSeat, h]

/-- What the lead decides, a slot of a seat alone reads of its own context. -/
theorem guarded_lead_of_not_holds (hl : (s.ctx k).fuse.isFused = false) (h : Guard.holds g (s.ctx k) = false) :
    guarded g (s.lead k) o = { uses := predUse g.pred } := by
  rw [lead_of_single hl, guarded_of_not_holds h]

/-- A slot whose guard does not hold only reads its guard, whatever the instruction. -/
theorem slotOf_of_not_holds (hl : (s.ctx k).fuse.isFused = false) (h : Guard.holds (Instr.guard i) (s.ctx k) = false) :
    slotOf i k s = { uses := predUse (Instr.guard i).pred } := by
  cases i
  case vtapx g t d a b => cases a <;> exact guarded_of_not_holds h
  case chbindW g ra rd => simp only [slotOf, slotChbindW]; split <;> exact guarded_of_not_holds h
  case chcloseW g ra rd => simp only [slotOf, slotChcloseW]; split <;> exact guarded_of_not_holds h
  case chstat g ra rd => simp only [slotOf, slotChstat]; split <;> exact guarded_of_not_holds h
  all_goals
    first
    | exact guarded_of_not_holds h
    | exact guarded_lead_of_not_holds hl h
    | exact not_always_fails h

/-- Every instruction that has a guard issues as a bundle of its own. -/
theorem exec_eq_issueOne_of_not_holds (h : Guard.holds (Instr.guard i) c = false) : exec i = issueOne i := by
  cases i <;> first | rfl | exact not_always_fails h

/-- A well-formed instruction passes the static checks of R56 outside a transfer's reach, whether it is a transfer or not. -/
theorem staticFault_clear (hw : i.wf = true) (hst : Instr.transfer i = true → Straight s) :
    staticFault s.cur (soloBundle i s.cur s) s = (none, s) := by
  cases htr : Instr.transfer i with
  | false => exact staticFault_plain hw htr
  | true => exact staticFault_straight hw (hst htr)

/-- An instruction that has no effect, holds nothing and traps nothing passes, be it a transfer or not. -/
theorem passes_of_idle_slot {uses : List Res} (he : exec i = issueOne i) (ho : slotOf i s.cur s = { uses := uses })
    (hc : CanIssue 1 0 s) (hs : Settled s) (hw : i.wf = true) (hst : Instr.transfer i = true → Straight s)
    (hl : (encode i).length = 1) : Passes i s := by
  have hk := keeps_refl hc.running
  have hcommit := issueOne_commits hl ho rfl hc (staticFault_clear hw hst) rfl rfl (by simp) (by simp) (by simp)
    (by simp) (by simp)
  refine ⟨_, (congrFun he s).trans hcommit, ?_⟩
  exact commitBlock_next (o := { uses := uses }) hs rfl hk hc.tolls hl

end Sys2Proof.Machine

namespace Sys2Proof.Proofs
set_option Elab.async false
open Sys2Proof Sys2Proof.Machine

/-- Settles O9: the slot of every instruction is empty when its guard does not hold. -/
theorem guardedFalse : Obligations.GuardedFalse := by
  unfold Obligations.GuardedFalse
  intro s i hlen hw hc hs hst hg
  exact passes_of_idle_slot (exec_eq_issueOne_of_not_holds hg) (slotOf_of_not_holds hc.single hg) hc hs hw hst hlen

end Sys2Proof.Proofs
end

section
/-!
The instructions on one signal: SIGSET and its side effects (R165, R166), then SIGGET to TAPWR (R167 to R172).
-/
namespace Sys2Proof.Machine
set_option Elab.async false
open Sys2Proof

variable {s : State} {g : Guard} {ra rd : BitVec 6} {n : BitVec 7} {lag : BitVec 8} {k : Nat} {f f' : Ctx → Ctx}
  {u : State}

/-- Two updates of a context that agree on it are one. -/
theorem State.updCtx_congr (h : f (u.ctx k) = f' (u.ctx k)) : u.updCtx k f = u.updCtx k f' := by
  unfold State.updCtx State.updSeat
  exact congrArg (fun c => u.setSeat k { u.seat k with ctx := c }) h

/-- A tap that is ready neither holds nor traps, whatever else its slot says. -/
theorem TapReady.free_hold {t : Tap} {pl : Option Nat} {es : List Nat} (h : TapReady s t pl es) :
    (if tapHold s s.cur (s.ctx s.cur) t then Hold.unfilled else .free) = .free := by rw [h.2]; rfl

section Sigset
variable {fd : BitVec 4} {l : BitVec 3}

/-- SIGSET within its limits, on a signal to which no agent that minds is attached, does not trap (R166). -/
theorem sigsetTrap_none {c : Ctx} {x : Word} (hat : fd.toNat ∉ [11, 12, 13] → attached s k c n = false)
    (hlim : sigLimit (c.sg n) fd.toNat x = true)
    (hfit : fd.toNat ≤ 3 → ((c.sg n).setField fd.toNat l.toNat x).fits (s.seat k).share = true) :
    sigsetTrap s k c n fd.toNat l.toNat x = none := by
  have h7 : (!([11, 12, 13].contains fd.toNat) && attached s k c n) = false := by
    by_cases hm : fd.toNat ∈ [11, 12, 13]
    · simp [hm]
    · simp [hat hm]
  have h8 : (decide (fd.toNat ≤ 3) && !((c.sg n).setField fd.toNat l.toNat x).fits (s.seat k).share) = false := by
    by_cases hle : fd.toNat ≤ 3
    · simp [hfit hle]
    · simp [hle]
  rw [sigsetTrap, if_neg (by rw [h7]; decide), if_neg (by rw [hlim]; decide), if_neg (by rw [h8]; decide)]

/-- A SIGSET that does not trap completes with the update that its field calls for. -/
theorem completes_sigset (hw : (Instr.sigset g ra n fd l).wf = true) (h : Runs g 1 0 s)
    (ht : sigsetTrap s s.cur (s.ctx s.cur) n fd.toNat l.toNat ((s.ctx s.cur).s ra) = none)
    (heff : sigsetEffect s.cur n fd.toNat l.toNat ((s.ctx s.cur).s ra) s = s.updCtx s.cur f)
    (hb : ∀ c, (f c).bud.ibud = c.bud.ibud) (hp : ∀ c, (f c).pos = c.pos) :
    Completes (.sigset g ra n fd l) s (fun u => u.updCtx s.cur f) 0 1 0 :=
  computes_of_guarded ⟨rfl, rfl, rfl⟩ hw h rfl ⟨rfl, rfl, ht, rfl⟩ heff hb hp

end Sigset
/-- What a TAPRD that reads the value v and raises the flags fl is as a slot (R171). -/
def taprdOut (k : Nat) (rd : BitVec 6) (c : Ctx) (t : Tap) (s : State) (v : Word) (fl : Flags) : SlotOut :=
  { sResult k rd 2 (tapSamples c t) v with
    hold := if tapHold s k c t then .unfilled else .free
    trap := tapTrap s k c t none (t.span 1)
    flags := fl
    units := tapUnits s k t none (t.span 1) }

theorem slotTaprd_float (h : ((s.ctx k).sg n).fmt ∉ [Fmt.int32, Fmt.int8]) :
    let t := resolve (s.ctx k) n lag.toNat
    let r := tapLane s k (s.ctx k) t none .fp32 t.off.toNat
    slotTaprd g rd n lag k s = guarded g (s.ctx k) (taprdOut k rd (s.ctx k) t s (BitVec.ofNat 64 r.1) r.2) := by
  have hfmt : (resolve (s.ctx k) n lag.toNat).g.fmt ∉ [Fmt.int32, Fmt.int8] := h
  cases hx : (resolve (s.ctx k) n lag.toNat).g.fmt <;>
    first | (simp only [slotTaprd, hx]; rfl) | simp [hx] at hfmt

theorem slotTaprd_int (h : ((s.ctx k).sg n).fmt ∈ [Fmt.int32, Fmt.int8]) :
    let t := resolve (s.ctx k) n lag.toNat
    let v := BitVec.ofInt 64 (signedOf 32 (tapLane s k (s.ctx k) t none .int32 t.off.toNat).1)
    slotTaprd g rd n lag k s = guarded g (s.ctx k) (taprdOut k rd (s.ctx k) t s v 0) := by
  have hfmt : (resolve (s.ctx k) n lag.toNat).g.fmt ∈ [Fmt.int32, Fmt.int8] := h
  cases hx : (resolve (s.ctx k) n lag.toNat).g.fmt <;>
    first | (simp only [slotTaprd, hx]; rfl) | simp [hx] at hfmt

/-- The write of an element keeps budget, position and phase of its seat. -/
theorem keeps_putElem {t : Tap} {e x : Nat} (h : Keeps u s) : Keeps (putElem s.cur t e x u) s := by
  unfold putElem
  exact Keeps.updCtx (h.seats rfl rfl) (fun _ => rfl) fun _ => rfl

theorem keeps_putElems {t : Tap} {e : Nat} {xs : List Nat} (h : Keeps u s) : Keeps (putElems s.cur t e xs u) s := by
  induction xs generalizing u e with
  | nil => unfold putElems; split <;> exact h
  | cons x xs ih =>
    unfold putElems
    split
    · exact h
    · refine ih ?_
      split
      · exact keeps_putElem h
      · exact h

end Sys2Proof.Machine

namespace Sys2Proof.Proofs
set_option Elab.async false
open Sys2Proof Sys2Proof.Machine

/-- SIGSET within its limits (R165, R166): one case per side effect. -/
theorem sigsetCompletes : Claims.SigsetCompletes := by
  unfold Claims.SigsetCompletes
  intro s g ra n f l hw h c x new hat hlim hfit
  have ht := sigsetTrap_none hat hlim hfit
  have completes := fun {f'} => completes_sigset (f := f') hw h ht
  refine ⟨fun hf => ?_, fun hf hkind => ?_, fun hf => ?_, fun hf => ?_⟩
  · have hf' : f.toNat ≤ 3 ∨ f.toNat = 14 := hf.imp_right fun e => by rw [e]; rfl
    exact completes (State.updCtx_congr (if_pos hf')) (fun _ => by simp) fun _ => by simp
  · subst hf
    have h1 : ¬((4 : BitVec 4).toNat ≤ 3 ∨ (4 : BitVec 4).toNat = 14) := by decide
    have h2 : (4 : BitVec 4).toNat = 4 ∧ new.kind ≠ (c.sg n).kind := ⟨rfl, hkind⟩
    exact completes (State.updCtx_congr ((if_neg h1).trans (if_pos h2))) (fun _ => by simp) fun _ => by simp
  · subst hf
    exact completes (State.updCtx_congr rfl) (fun _ => by simp) fun _ => by simp
  · have hne : ¬(f.toNat ≤ 3 ∨ f.toNat = 14) ∧ ¬(f.toNat = 4 ∧ new.kind ≠ (c.sg n).kind) ∧ f.toNat ≠ 10 := by
      rcases hf with ⟨rfl, hkind⟩ | hf
      · exact ⟨by decide, fun ⟨_, h⟩ => h hkind, by decide⟩
      · simp only [List.mem_cons, List.not_mem_nil, or_false] at hf
        exact ⟨by omega, fun ⟨h, _⟩ => by omega, by omega⟩
    obtain ⟨h1, h2, h3⟩ := hne
    refine completes (State.updCtx_congr ?_) (fun _ => by simp) fun _ => by simp
    exact (if_neg h1).trans ((if_neg h2).trans (if_neg h3))

/-- SIGGET to TAPWR (R167 to R172). -/
theorem signalAccess : Claims.SignalAccess := by
  unfold Claims.SignalAccess
  intro s g rd n lag hg hn h c sg t head
  have hw : (g.ok && sigOk n) = true := by simp [hg, hn]
  have habs : sg.present = true → absentTrap c n = none := fun hp => if_pos hp
  refine ⟨fun hp f l hf => ?_, fun hp hat => ?_, fun hp hfeed hlag => ?_, fun hp hfeed hfill => ?_, fun ht hfmt => ?_,
    fun ht hfmt => ?_, fun ht => ?_⟩
  · have hw' : (Instr.sigget g rd n f l).wf = true := by simp [Instr.wf, hg, hn, hf]
    exact computes_of_guarded ⟨rfl, rfl, rfl⟩ hw' h rfl ⟨rfl, rfl, habs hp, rfl⟩ rfl (by simp) (by simp)
  · have ht : (absentTrap c n).or (if attached s s.cur c n then some (sigCause 0x07 n none) else none) = none := by
      rw [habs hp, hat]; rfl
    exact computes_of_guarded ⟨rfl, rfl, rfl⟩ hw h rfl ⟨rfl, rfl, ht, rfl⟩ rfl (by simp) (by simp)
  · have ht : (if !sg.present then some (sigCause 0x08 n none) else if sg.feed != 0 then some (sigCause 0x07 n (some t.idx))
        else if !t.inLag then some (sigCause 0x04 n (some t.idx)) else none) = none := by simp [hp, hfeed, hlag]
    have heff : s.updCtx s.cur (fun c => if (c.sg n).fillMark < t.idx then c.setSg n ((c.sg n).setFill t.idx) else c) =
        s.updCtx s.cur fun c => if sg.fillMark < t.idx then c.setSg n (sg.setFill t.idx) else c := State.updCtx_congr rfl
    exact computes_of_guarded ⟨rfl, rfl, rfl⟩ hw h rfl ⟨rfl, rfl, ht, rfl⟩ heff
      (fun _ => by split <;> simp) fun _ => by split <;> simp
  · have hwait : (sg.present && sg.feed != 0 && decide (sg.fillMark < head + lag.toInt)) = false := by
      simp [hfill]
    have hhold : (if (sg.present && sg.feed != 0 && decide (sg.fillMark < head + lag.toInt)) &&
        (chanClosed s s.cur sg n (head + lag.toInt)).isNone then Hold.unfilled else .free) = .free := by
      rw [hwait]; rfl
    have hfed : (sg.feed == 0) = false := by simpa using hfeed
    have ht : (if !sg.present then some (sigCause 0x08 n none) else if sg.feed == 0 then some (sigCause 0x07 n none)
        else if sg.present && sg.feed != 0 && decide (sg.fillMark < head + lag.toInt)
          then (chanClosed s s.cur sg n (head + lag.toInt)).map (addrCause 0x12) else none) = none := by
      rw [hwait, hp, hfed]; rfl
    exact computes_of_guarded ⟨rfl, rfl, rfl⟩ hw h rfl ⟨rfl, hhold, ht, rfl⟩ rfl (by simp) (by simp)
  · have hslot : slotOf (.taprd g rd n lag) s.cur s = guarded g c (taprdOut s.cur rd c t s
        (BitVec.ofNat 64 (tapLane s s.cur c t none .fp32 t.off.toNat).1) (tapLane s s.cur c t none .fp32 t.off.toNat).2) :=
      slotTaprd_float hfmt
    exact computes_of_guarded ⟨rfl, rfl, rfl⟩ hw h hslot ⟨rfl, ht.free_hold, ht.1, rfl⟩ rfl (by simp) (by simp)
  · have hslot : slotOf (.taprd g rd n lag) s.cur s = guarded g c (taprdOut s.cur rd c t s
        (BitVec.ofInt 64 (signedOf 32 (tapLane s s.cur c t none .int32 t.off.toNat).1)) 0) := slotTaprd_int hfmt
    exact computes_of_guarded ⟨rfl, rfl, rfl⟩ hw h hslot ⟨rfl, ht.free_hold, ht.1, rfl⟩ rfl (by simp) (by simp)
  · exact completes_of_guarded ⟨rfl, rfl, rfl⟩ hw h rfl ⟨rfl, rfl, ht, rfl⟩ rfl (keeps_putElems (keeps_refl h.can.running))

/-- Settles O10: SIGSET by its side effects, the other instructions by their slots. -/
theorem signalFields : Obligations.SignalFields := ⟨sigsetCompletes, signalAccess⟩

end Sys2Proof.Proofs
end

section
/-!
Advances (R148 to R151, R163, R164): what one advance of a signal changes, then ADV and TICK.
-/
namespace Sys2Proof.Machine
set_option Elab.async false
open Sys2Proof

variable {s u : State} {g : Guard} {n m : BitVec 7} {a : BitVec 8} {k : Nat} {i : Int}

/-! Permits that retired samples return stand in channels and dies. -/

@[simp] theorem returnPermit_seats (ch : Nat) (s : State) : (returnPermit ch s).seats = s.seats := rfl
@[simp] theorem returnPermit_mem (ch : Nat) (s : State) : (returnPermit ch s).mem = s.mem := rfl
@[simp] theorem returnPermit_cur (ch : Nat) (s : State) : (returnPermit ch s).cur = s.cur := rfl

@[simp] theorem streamPermit_seats : (streamPermit k n s).seats = s.seats := by unfold streamPermit; split <;> rfl
@[simp] theorem streamPermit_mem : (streamPermit k n s).mem = s.mem := by unfold streamPermit; split <;> rfl
@[simp] theorem streamPermit_cur : (streamPermit k n s).cur = s.cur := by unfold streamPermit; split <;> rfl

@[simp] theorem returnPermits_seats : (returnPermits k n i s).seats = s.seats := by
  simp only [returnPermits, streamPermit_seats]
  repeat' split
  all_goals rfl

@[simp] theorem returnPermits_mem : (returnPermits k n i s).mem = s.mem := by
  simp only [returnPermits, streamPermit_mem]
  repeat' split
  all_goals rfl

@[simp] theorem returnPermits_cur : (returnPermits k n i s).cur = s.cur := by
  simp only [returnPermits, streamPermit_cur]
  repeat' split
  all_goals rfl

@[simp] theorem returnPermits_seat (j : Nat) : (returnPermits k n i s).seat j = s.seat j := by
  simp only [State.seat, returnPermits_seats]

@[simp] theorem returnPermits_ctx (j : Nat) : (returnPermits k n i s).ctx j = s.ctx j := by
  simp only [State.ctx, returnPermits_seat]

/-! One advance (R148, R150). -/

/-- The descriptor after one advance: HEAD has risen, and FILL of a seat-written signal that no reader follows keeps up
with the lowest live sample. -/
def advancedSig (k : Nat) (n : BitVec 7) (s : State) : Sig :=
  let c := s.ctx k
  let g := c.sg n
  let outbound := c.eng.copies.any fun e => isStoreOp e.2.op && e.2.sig == n && (c.handle e.1).busy
  let g1 := { g with head := g.head + 1 }
  let low := (g1.head.toNat : Int) - g.depth.toNat
  g1.setFill (if g.feed == 0 && !outbound && !exported s k n && g.fillMark < low then low else g.fillMark)

@[simp] theorem advancedSig_head : (advancedSig k n s).head = ((s.ctx k).sg n).head + 1 := rfl

/-- The slot that comes into reach with an advance to descriptor g. -/
def enteringSlot (g : Sig) : Nat := g.slotOf ((g.head.toNat : Int) + g.ahead.toNat)

/-- An advance of a context. -/
def Ctx.advance (c : Ctx) (n : BitVec 7) (g : Sig) : Ctx := (c.setSg n g).clearSlot n (enteringSlot g)

theorem advance1_eq : ∃ i, advance1 k n s =
    returnPermits k n i (s.updCtx k fun c => c.advance n (advancedSig k n s)) := ⟨_, rfl⟩

theorem advance1_seat (h : (s.seat k).phase ≠ .idle) : (advance1 k n s).seat k =
    { s.seat k with ctx := (s.ctx k).advance n (advancedSig k n s) } := by
  obtain ⟨i, hi⟩ := advance1_eq (k := k) (n := n) (s := s)
  rw [hi, returnPermits_seat, State.seat_updCtx_same h, State.ctx]

theorem advance1_ctx (h : (s.seat k).phase ≠ .idle) :
    (advance1 k n s).ctx k = (s.ctx k).advance n (advancedSig k n s) := by
  rw [State.ctx, advance1_seat h]

@[simp] theorem advance1_mem : (advance1 k n s).mem = s.mem := by
  obtain ⟨i, hi⟩ := advance1_eq (k := k) (n := n) (s := s)
  rw [hi, returnPermits_mem, State.updCtx_mem]

@[simp] theorem advance1_cur : (advance1 k n s).cur = s.cur := by
  obtain ⟨i, hi⟩ := advance1_eq (k := k) (n := n) (s := s)
  rw [hi, returnPermits_cur, State.updCtx_cur]

/-- The signal that advances has its new descriptor. -/
theorem Ctx.advance_sg_same {c : Ctx} {x : Sig} (h : Sparse.wf {} c.sig.table = true) : (c.advance n x).sg n = x :=
  Sparse.get_set_wf h

/-- Every other signal stands. -/
theorem Ctx.advance_sg_other {c : Ctx} {x : Sig} (h : Sparse.wf {} c.sig.table = true) (hm : m ≠ n) :
    (c.advance n x).sg m = c.sg m :=
  Sparse.get_set_other h fun e => hm (BitVec.eq_of_toNat_eq e)

/-- The slot that comes into reach is unwritten and not poisoned (R148). -/
theorem Ctx.advance_marks {c : Ctx} {x : Sig} (hw : Sparse.wf 0 c.sig.written = true)
    (hp : Sparse.wf 0 c.sig.poison = true) (j : Nat) :
    (c.advance n x).written n (enteringSlot x) j = false ∧ (c.advance n x).poisoned n (enteringSlot x) j = false := by
  constructor
  · exact (congrArg (BitVec.getLsbD · j) (Sparse.get_set_wf hw)).trans (BitVec.getLsbD_zero ..)
  · exact (congrArg (BitVec.getLsbD · j) (Sparse.get_set_wf hp)).trans (BitVec.getLsbD_zero ..)

/-- An advance keeps budget, position and phase of its seat. -/
theorem keeps_advance1 (h : Keeps u s) : Keeps (advance1 s.cur n u) s := by
  have hb := h.busy
  refine ⟨advance1_cur.trans h.cur, ?_, ?_, ?_⟩
  · rw [advance1_seat hb]; exact h.phase
  · rw [advance1_ctx hb]; exact h.ibud
  · rw [advance1_ctx hb]; exact h.pos

theorem keeps_advanceN {a : Nat} (h : Keeps u s) : Keeps (advanceN s.cur n a u) s := by
  induction a generalizing u with
  | zero => exact h
  | succ a ih => exact ih (keeps_advance1 h)

theorem keeps_advances {a : Nat} (h : Keeps u s) : Keeps (advances s.cur n a u) s := by
  simp only [advances]
  split
  · exact keeps_advanceN h
  · exact h

/-- The advances of a list of signals. -/
theorem keeps_advances_foldl {due : List (BitVec 7 × Nat)} (h : Keeps u s) :
    Keeps (due.foldl (fun u x => advances s.cur x.1 x.2 u) u) s := by
  induction due generalizing u with
  | nil => exact h
  | cons x due ih => exact ih (keeps_advances h)

/-- A present signal that is no table advances (R150). -/
theorem advances_eq_advanceN {a : Nat} (hp : ((s.ctx k).sg n).present = true) (ht : ((s.ctx k).sg n).isTable = false) :
    advances k n a s = advanceN k n a s := by
  simp [advances, hp, ht]

theorem Sig.isTable_of_isTicked {x : Sig} (h : x.isTicked = true) : x.isTable = false := by
  simp only [Sig.isTicked, Bool.and_eq_true, decide_eq_true_eq] at h
  simp only [Sig.isTable, beq_eq_false_iff_ne, ne_eq]
  rintro e
  simp [e] at h

/-! The slots of ADV and TICK. -/

theorem headTrap_none {c : Ctx} {a : Nat} (h : advTrap s k c n a = none) : headTrap c n a = none :=
  (Option.or_eq_none_iff.mp h).1

theorem closedTrap_none {c : Ctx} {a : Nat} (h : advTrap s k c n a = none) : closedTrap s k c n a = none :=
  (Option.or_eq_none_iff.mp h).2

end Sys2Proof.Machine

namespace Sys2Proof.Proofs
set_option Elab.async false
open Sys2Proof Sys2Proof.Machine

/-- ADV and TICK advance what falls due (R149 to R151, R163, R164). -/
theorem signalAdvance : Claims.SignalAdvance := by
  unfold Claims.SignalAdvance
  intro s g n a hg ha h c
  have hk := keeps_refl h.can.running
  refine ⟨fun hn hp hr hhold ht => ?_, fun hdue => ?_⟩
  · have hw : (Instr.adv g n a).wf = true := by simpa [Instr.wf, hg, hn] using ha
    have hbad : (if !(c.sg n).present then some (sigCause 0x08 n none)
        else if (c.sg n).rate != 255 then some (cause 0x01) else none) = none := by rw [hp, hr]; rfl
    have hfree : (if (if !(c.sg n).present then some (sigCause 0x08 n none)
        else if (c.sg n).rate != 255 then some (cause 0x01) else none).isNone && advHold s s.cur c n a.toNat
        then Hold.unfilled else .free) = .free := by rw [hhold, Bool.and_false]; rfl
    have htab : (c.sg n).isTable = false := by rw [Sig.isTable, hr]; rfl
    exact completes_of_guarded ⟨rfl, rfl, rfl⟩ hw h rfl
      ⟨headTrap_none ht, hfree, (congrArg (Option.or · _) hbad).trans (closedTrap_none ht), rfl⟩
      (advances_eq_advanceN hp htab) (keeps_advanceN hk)
  · have hw : (Instr.tick g a).wf = true := by simpa [Instr.wf, hg] using ha
    have hfree : (if ((tickSet c a.toNat).filter (·.2 > 0)).any fun x => advHold s s.cur c x.1 x.2
        then Hold.unfilled else .free) = .free := by
      rw [List.any_eq_false.mpr fun x hx => by simp [(hdue x hx).1]]; rfl
    have hlate : (((tickSet c a.toNat).filter (·.2 > 0)).findSome? fun x => headTrap c x.1 x.2) = none :=
      List.findSome?_eq_none_iff.mpr fun x hx => headTrap_none (hdue x hx).2
    have htrap : (((tickSet c a.toNat).filter (·.2 > 0)).findSome? fun x => closedTrap s s.cur c x.1 x.2) = none :=
      List.findSome?_eq_none_iff.mpr fun x hx => closedTrap_none (hdue x hx).2
    exact completes_of_guarded ⟨rfl, rfl, rfl⟩ hw h rfl ⟨hlate, hfree, htrap, rfl⟩ rfl
      (keeps_advances_foldl (hk.updCtx (fun _ => rfl) fun _ => rfl))

/-- One advance of a signal (R148, R150). -/
theorem advanceFrame : Claims.AdvanceFrame := by
  unfold Claims.AdvanceFrame
  intro s k n hrun hpres htab hwrit hpois t new
  have hctx : t.ctx k = (s.ctx k).advance n (advancedSig k n s) := advance1_ctx (by rw [hrun]; decide)
  have hsg : (t.ctx k).sg n = advancedSig k n s := by rw [hctx, Ctx.advance_sg_same htab]
  have hnew : new = enteringSlot (advancedSig k n s) := by rw [← hsg]; rfl
  refine ⟨by rw [hsg, advancedSig_head], fun j => ?_, fun m hm => ?_, ?_, ?_, advance1_mem, fun hticked a => ?_⟩
  · rw [hctx, hnew]; exact Ctx.advance_marks hwrit hpois j
  · rw [hctx, Ctx.advance_sg_other htab hm]
  · rw [hctx]; rfl
  · rw [hctx]; rfl
  · exact advances_eq_advanceN hpres (Sig.isTable_of_isTicked hticked)

/-- Settles O11: ADV and TICK by their slots, an advance by the context it leaves. -/
theorem advances : Obligations.Advances := ⟨signalAdvance, advanceFrame⟩

end Sys2Proof.Proofs
end

section
/-!
The vector unit (R192 to R214): one lemma for what every vector slot shares, then the lanes that each instruction gives.
-/
namespace Sys2Proof.Machine
set_option Elab.async false
open Sys2Proof

variable {i : Instr} {s u : State} {g : Guard} {t : VTy} {d a b : VOp} {rm : RM} {lat : Nat} {xs : List Nat}

/-- Writing a vector destination keeps budget, position and phase of its seat. -/
theorem keeps_vWrite {c : Ctx} (h : Keeps u s) : Keeps (vWrite s.cur c t rm xs d u) s := by
  cases d with
  | vreg r => exact h.updCtx (f := fun x => x.setV r (packVec t xs)) (fun _ => rfl) fun _ => rfl
  | tap n lag => exact keeps_putElems h
  | sreg r => exact h
  | imm i => exact h

/-- Sources that are ready neither hold a vector slot nor trap it. -/
theorem vOut_free {srcs : List (VOp × VTy)} {r : List Nat × Flags} (hs : ∀ x ∈ srcs, Readable s x.2 x.1)
    (hd : Writable s d) : (vOut s s.cur (s.ctx s.cur) srcs d t rm lat r).Free s := by
  have hhold : (srcs.any fun x => vHold s s.cur (s.ctx s.cur) x.1) = false :=
    List.any_eq_false.mpr fun x hx => by simp [(hs x hx).2]
  have htrap : (srcs.findSome? fun x => vTrap s s.cur (s.ctx s.cur) x.2 x.1) = none :=
    List.findSome?_eq_none_iff.mpr fun x hx => (hs x hx).1
  refine ⟨rfl, ?_, ?_, rfl⟩
  · simp only [vOut, hhold]; rfl
  · simp only [vOut, htrap]; exact hd

/-- A vector instruction whose sources are ready and whose destination is legal writes its lanes (R194). -/
theorem writesLanes_of_vOut {srcs : List (VOp × VTy)} {r : List Nat × Flags} (hi : OneSyllable i) (hw : i.wf = true)
    (h : Runs g 1 0 s) (hs : ∀ x ∈ srcs, Readable s x.2 x.1) (hd : Writable s d)
    (hslot : slotOf i s.cur s = guarded g (s.ctx s.cur) (vOut s s.cur (s.ctx s.cur) srcs d t rm lat r)) :
    WritesLanes i s t d rm r :=
  completes_of_guarded hi hw h hslot (vOut_free hs hd) rfl (keeps_vWrite (keeps_refl h.can.running))

section Ready
variable {t' : VTy}

theorem ready_one (ha : Readable s t a) : ∀ x ∈ [(a, t)], Readable s x.2 x.1 := by simpa using ha

theorem ready_two (ha : Readable s t a) (hb : Readable s t' b) : ∀ x ∈ [(a, t), (b, t')], Readable s x.2 x.1 := by
  simpa using ⟨ha, hb⟩

theorem ready_three {e : VOp} (ha : Readable s t a) (hb : Readable s t b) (he : Readable s t e) :
    ∀ x ∈ [(a, t), (b, t), (e, t)], Readable s x.2 x.1 := by
  simpa using ⟨ha, hb, he⟩

/-- A scalar register or an immediate is always ready. -/
theorem readable_of_isScalar (h : b.isScalar = true) : Readable s t b := by
  cases b with
  | sreg r => exact ⟨rfl, rfl⟩
  | imm i => exact ⟨rfl, rfl⟩
  | tap n lag => simp [VOp.isScalar] at h
  | vreg r => simp [VOp.isScalar] at h

end Ready

/-- A vector register can always be read. -/
theorem readable_of_isVreg (h : d.isVreg = true) : Readable s t d := by
  cases d with
  | vreg r => exact ⟨rfl, rfl⟩
  | sreg r => simp [VOp.isVreg] at h
  | imm i => simp [VOp.isVreg] at h
  | tap n lag => simp [VOp.isVreg] at h

/-! Shifts of lanes (R207). -/

theorem vsar_count (n : BitVec 32) : (if n.toNat < 32 then n.toNat else 32) = min n.toNat 32 := by
  split <;> omega

/-! Exponents of VSCALE (R200). -/

theorem clamp512_eq (n : Int) : clamp512 n = max (-512) (min 512 n) := by
  unfold clamp512
  split_ifs <;> omega

/-- The magnitude that truncation toward zero leaves of m × 2^e. -/
def truncMag (m : Nat) (e : Int) : Nat := if 0 ≤ e then m * 2 ^ e.toNat else m / 2 ^ (-e).toNat

theorem roundTo_zero_eq (neg : Bool) (m : Nat) (e : Int) : (roundTo 1 neg m e 0).1 = truncMag m e := by
  unfold roundTo truncMag
  by_cases h : 0 ≤ e
  · simp [h]
  · simp [h]

/-- A value whose exponent is at least 10 is at least 512. -/
theorem le_truncMag {m : Nat} {e : Int} (h : 10 ≤ log2F m e) (hm : m ≠ 0) : 512 ≤ truncMag m e := by
  have hlog : 2 ^ Nat.log2 m ≤ m := Nat.log2_self_le hm
  simp only [log2F] at h
  unfold truncMag
  split
  next he =>
    calc 512 ≤ 2 ^ (Nat.log2 m + e.toNat) := le_trans (by norm_num) (Nat.pow_le_pow_right (by norm_num) (by omega : 9 ≤ _))
      _ = 2 ^ Nat.log2 m * 2 ^ e.toNat := pow_add ..
      _ ≤ m * 2 ^ e.toNat := Nat.mul_le_mul_right _ hlog
  next he =>
    rw [Nat.le_div_iff_mul_le (by positivity)]
    calc 512 * 2 ^ (-e).toNat = 2 ^ (9 + (-e).toNat) := by rw [pow_add]; norm_num
      _ ≤ 2 ^ Nat.log2 m := Nat.pow_le_pow_right (by norm_num) (by omega)
      _ ≤ m := hlog

/-- The exponent that the slot of VSCALE takes is the truncated value, clamped. -/
theorem vscale_exponent (neg : Bool) (m : Nat) (e : Int) :
    let n : Int := if log2F m e ≥ 10 ∧ m ≠ 0 then 512 else ((roundTo 1 neg m e 0).1 : Nat)
    some (clamp512 (if neg then -n else n)) = Claims.powerOf (.num neg m e) := by
  have hpow : Claims.powerOf (.num neg m e) =
      some (max (-512) (min 512 (if neg then -(truncMag m e : Int) else truncMag m e))) := rfl
  intro n
  simp only [n, hpow, clamp512_eq, roundTo_zero_eq]
  by_cases h : log2F m e ≥ 10 ∧ m ≠ 0
  · have := le_truncMag h.1 h.2
    cases neg <;> simp [h] <;> omega
  · simp [h]

/-- What VSCALE does with one pair of lanes, for an exponent that is no immediate (R200). -/
theorem vscale_lane (f : FFmt) (v w : Nat) :
    (match f.decode w with
      | .nan sn => scaleBy f rm v none sn
      | .inf neg => scaleBy f rm v (some (if neg then -512 else 512)) false
      | .num neg m e =>
        let n : Int := if log2F m e ≥ 10 ∧ m ≠ 0 then 512 else ((roundTo 1 neg m e 0).1 : Nat)
        scaleBy f rm v (some (clamp512 (if neg then -n else n))) false) =
      scaleBy f rm v (Claims.powerOf (f.decode w)) (f.decode w == .nan true) := by
  cases hd : f.decode w with
  | nan sn => cases sn <;> rfl
  | inf neg => cases neg <;> rfl
  | num neg m e => exact congrArg (scaleBy f rm v · false) (vscale_exponent neg m e)

/-- The slot of VSCALE with an exponent that is no immediate. -/
theorem slotVscale_lanes (hb : ∀ i, b ≠ .imm i) : slotOf (.vscale g t d a b rm) s.cur s =
    guarded g (s.ctx s.cur) (vOut s s.cur (s.ctx s.cur) [(a, t), (b, t)] d t rm 4
      (lanes2 (fun v w => scaleBy (VTy.ff t) rm v (Claims.powerOf ((VTy.ff t).decode w)) ((VTy.ff t).decode w == .nan true))
        (lanesOf s t a) (lanesOf s t b))) := by
  simp only [← vscale_lane]
  cases b with
  | imm i => exact absurd rfl (hb i)
  | tap n lag => rfl
  | vreg r => rfl
  | sreg r => rfl

/-! Flags of lanes that are collected. -/

theorem foldl_or_zero {α : Type} (ys : List α) (f : α → Nat) :
    (ys.map fun y => (f y, (0 : Flags))).foldl (fun z x => z ||| x.2) 0 = 0 := by
  induction ys with
  | nil => rfl
  | cons y ys ih => rw [List.map_cons, List.foldl_cons, BitVec.or_self, ih]

/-! Lanes that are numbered (R199). -/

/-- One lane of VIOTA: its number is added. -/
def viotaLane (t : VTy) (i v : Nat) : Nat × Flags :=
  match t with
  | .int32 => wrap32 (i32 v + i)
  | _ => (VTy.ff t).add 0 ((VTy.ff t).decode v) (.num false i 0)

theorem ofInt_natCast (i : Nat) : FVal.ofInt (i : Int) = .num false i 0 := by simp [FVal.ofInt]

/-- The lanes of VIOTA with their flags. -/
def viotaLanes (t : VTy) (x : List Nat × Flags) : List Nat × Flags :=
  ((collect (x.1.zipIdx.map fun p => viotaLane t p.2 p.1)).1, (collect (x.1.zipIdx.map fun p => viotaLane t p.2 p.1)).2 ||| x.2)

theorem slotViota_lanes : slotOf (.viota g t d a) s.cur s =
    guarded g (s.ctx s.cur) (vOut s s.cur (s.ctx s.cur) [(a, t)] d t 0 3 (viotaLanes t (lanesOf s t a))) := by
  unfold viotaLanes viotaLane
  simp only [← ofInt_natCast]
  cases t <;> rfl

theorem viotaLanes_length (x : List Nat × Flags) : (viotaLanes t x).1.length = x.1.length := by
  simp [viotaLanes, collect]

theorem viotaLanes_int32 (x : List Nat × Flags) :
    viotaLanes .int32 x = (x.1.zipIdx.map (fun p => unsignedOf 32 (i32 p.1 + (p.2 : Nat))), x.2) := by
  have hf := foldl_or_zero x.1.zipIdx fun p => unsignedOf 32 (i32 p.1 + (p.2 : Nat))
  simp only [viotaLanes, viotaLane, wrap32, collect, List.map_map, hf]
  exact congrArg (Prod.mk _) (BitVec.zero_or ..)

theorem viotaLanes_float (x : List Nat × Flags) (ht : t ≠ .int32) : viotaLanes t x =
    let sums := collect (x.1.zipIdx.map fun p => (VTy.ff t).add 0 ((VTy.ff t).decode p.1) (.num false p.2 0))
    (sums.1, sums.2 ||| x.2) := by
  cases t <;> first | rfl | exact absurd rfl ht

/-! Gathers (R204, R205). -/

/-- The element of a tap that an index lane names, none outside the sample. -/
def gathered (tp : Tap) (t : VTy) (i : Nat) : Option Nat :=
  match (indexLane t i).1 with
  | some j => if 0 ≤ j ∧ j < tp.g.elems ∧ tp.off + j < tp.g.elems then some (tp.off + j).toNat else none
  | none => none

/-- The lanes of VTAPX. -/
def vtapxLanes (s : State) (t : VTy) (tp : Tap) (y : List Nat × Flags) : List Nat × Flags :=
  let r := collect (y.1.map fun i => match gathered tp t i with
    | some e => tapLane s s.cur (s.ctx s.cur) tp none (VTy.fmt t) e
    | none => (0, 0))
  (r.1, r.2 ||| (collect (y.1.map fun i => (i, (indexLane t i).2))).2 ||| y.2)

/-- The slot of VTAPX: that of its index operand, with the tap's own hold and trap. -/
def vtapxOut (s : State) (t : VTy) (d b : VOp) (n lag : BitVec 7) : SlotOut :=
  let k := s.cur
  let c := s.ctx k
  let tp := resolve c n lag.toNat
  let o := vOut s k c [(b, t)] d t 0 3 (vtapxLanes s t tp (lanesOf s t b))
  let got := (lanesOf s t b).1.filterMap (gathered tp t)
  { o with
    uses := vUses c (.tap n lag) ++ o.uses
    hold := if tapHold s k c tp || vHold s k c b then .unfilled else .free
    trap := match tapTrap s k c tp none got with
      | some x => some x
      | none => o.trap
    units := tapUnits s k tp none got ++ o.units }

theorem slotVtapx_eq {n lag : BitVec 7} :
    slotVtapx g t d (.tap n lag) b s.cur s = guarded g (s.ctx s.cur) (vtapxOut s t d b n lag) := by
  have hflags : ∀ ys : List Nat, (collect (ys.map fun i => (i, (indexLane t i).2))).2 =
      ys.foldl (fun f i => f ||| (indexLane t i).2) 0 := fun ys => by simp only [collect, List.foldl_map]
  have hgot : ∀ (tp : Tap) (ys : List Nat), ys.filterMap (gathered tp t) = (ys.map (gathered tp t)).filterMap id :=
    fun tp ys => by rw [List.filterMap_map]; rfl
  have hlanes : ∀ (tp : Tap) (ys : List Nat) (f : Option Nat → Nat × Flags),
      (ys.map fun i => f (gathered tp t i)) = (ys.map (gathered tp t)).map f := fun tp ys f => by rw [List.map_map]; rfl
  unfold vtapxOut vtapxLanes
  simp only [hflags, hgot]
  rw [hlanes _ _ fun | some e => tapLane s s.cur (s.ctx s.cur) _ none (VTy.fmt t) e | none => (0, 0)]
  rfl

/-- An element-wise gather of lanes from their own index is a map (R204). -/
theorem lanes2_self (f : Nat → Nat → Nat × Flags) (y : List Nat × Flags) (z : Flags) :
    lanes2 f (y.1, z) y = ((collect (y.1.map fun i => f i i)).1, (collect (y.1.map fun i => f i i)).2 ||| z ||| y.2) := by
  simp only [lanes2, zipLanes, List.zipWith_self]

end Sys2Proof.Machine
end

section
/-!
The statements on the vector unit.
-/
namespace Sys2Proof.Proofs
set_option Elab.async false
open Sys2Proof Sys2Proof.Machine

/-- Settles O12: the slot of each instruction writes the lanes of its formula. -/
theorem vectorElementwise : Obligations.VectorElementwise := by
  unfold Obligations.VectorElementwise
  intro s g t d a b rm h ha hb hd x y z two
  have hab := ready_two (t' := t) ha hb
  refine ⟨fun hw => ⟨?_, ?_, ?_, fun hrd => ⟨?_, ?_⟩⟩, fun hw => ⟨?_, ?_⟩, fun hw => ⟨?_, ?_, ?_, ?_⟩⟩
  · exact writesLanes_of_vOut ⟨rfl, rfl, rfl⟩ hw h hab hd rfl
  · exact writesLanes_of_vOut ⟨rfl, rfl, rfl⟩ hw h hab hd rfl
  · exact writesLanes_of_vOut ⟨rfl, rfl, rfl⟩ hw h hab hd rfl
  · exact writesLanes_of_vOut ⟨rfl, rfl, rfl⟩ hw h (ready_three ha hb hrd) hd rfl
  · exact writesLanes_of_vOut ⟨rfl, rfl, rfl⟩ hw h (ready_three ha hb hrd) hd rfl
  · exact writesLanes_of_vOut ⟨rfl, rfl, rfl⟩ hw h hab hd rfl
  · exact writesLanes_of_vOut ⟨rfl, rfl, rfl⟩ hw h hab hd rfl
  · exact writesLanes_of_vOut ⟨rfl, rfl, rfl⟩ hw h hab hd rfl
  · exact writesLanes_of_vOut ⟨rfl, rfl, rfl⟩ hw h hab hd rfl
  · exact writesLanes_of_vOut ⟨rfl, rfl, rfl⟩ hw h hab hd rfl
  · have hv : d.isVreg = true := by
      simp only [Instr.wf, Bool.and_eq_true] at hw
      exact hw.1.1.2
    exact writesLanes_of_vOut ⟨rfl, rfl, rfl⟩ hw h (ready_three ha hb (readable_of_isVreg hv)) hd rfl

/-- The element-wise instructions of one source (R197, R198, R209 to R211). -/
theorem vectorUnary : Claims.VectorUnary := by
  unfold Claims.VectorUnary
  intro s g t d a rm h ha hd x
  have ha1 := ready_one ha
  refine ⟨fun hw => ⟨?_, ?_, ?_⟩, fun hw => ⟨?_, ?_, ?_, ?_⟩⟩
  all_goals exact writesLanes_of_vOut ⟨rfl, rfl, rfl⟩ hw h ha1 hd rfl

/-- The bitwise instructions and shifts (R207). -/
theorem vectorBits : Claims.VectorBits := by
  unfold Claims.VectorBits
  intro s g d a b hw h ha hb hd both
  have hab := ready_two (t' := .int32) ha hb
  refine ⟨?_, ?_, ?_, ?_, ?_, ?_⟩
  case refine_6 =>
    have hslot : slotVsar = vbits fun x n => x.sshiftRight (min n.toNat 32) :=
      congrArg vbits (funext fun x => funext fun n => congrArg x.sshiftRight (vsar_count n))
    exact writesLanes_of_vOut ⟨rfl, rfl, rfl⟩ hw h hab hd
      ((congrArg (fun f => f g d a b s.cur s) hslot : slotVsar g d a b s.cur s = _).trans rfl)
  all_goals exact writesLanes_of_vOut ⟨rfl, rfl, rfl⟩ hw h hab hd rfl

/-- Settles O13: one source, and the bitwise instructions. -/
theorem vectorLanes : Obligations.VectorLanes := ⟨vectorUnary, vectorBits⟩

/-- Settles O14: each instruction by the lanes that its slot gives. -/
theorem vectorAcross : Obligations.VectorAcross := by
  unfold Obligations.VectorAcross
  intro s g t src d a b rm h hd c x y every
  refine ⟨fun ha hw => ?_, fun ha hw => ?_, fun ha hw => ?_, fun ha hw => ?_, fun ha hb hw => ?_, fun ha hw => ?_,
    fun i ha hw => ?_, fun hne ha hb hw => ?_, fun n lag hn hb hw => ?_⟩
  · have hb : b.isScalar = true := by
      simp only [Instr.wf, Bool.and_eq_true] at hw
      exact hw.2
    have hab := ready_two ha (readable_of_isScalar (t := t) hb)
    exact ⟨writesLanes_of_vOut ⟨rfl, rfl, rfl⟩ hw h hab hd rfl, writesLanes_of_vOut ⟨rfl, rfl, rfl⟩ hw h hab hd rfl⟩
  · refine ⟨viotaLanes t x, writesLanes_of_vOut ⟨rfl, rfl, rfl⟩ hw h (ready_one ha) hd slotViota_lanes,
      viotaLanes_length x, fun ht => ?_, viotaLanes_float x⟩
    subst ht
    rw [viotaLanes_int32]
    exact ⟨rfl, rfl⟩
  · exact writesLanes_of_vOut ⟨rfl, rfl, rfl⟩ hw h (ready_one ha) hd rfl
  · exact writesLanes_of_vOut ⟨rfl, rfl, rfl⟩ hw h (ready_one ha) hd rfl
  · rw [lanes2_self]
    exact writesLanes_of_vOut ⟨rfl, rfl, rfl⟩ hw h (ready_two ha hb) hd rfl
  · exact writesLanes_of_vOut ⟨rfl, rfl, rfl⟩ hw h (ready_one ha) hd rfl
  · exact writesLanes_of_vOut ⟨rfl, rfl, rfl⟩ hw h (ready_two (t' := t) ha (readable_of_isScalar rfl)) hd rfl
  · exact writesLanes_of_vOut ⟨rfl, rfl, rfl⟩ hw h (ready_two ha hb) hd (slotVscale_lanes hne)
  · intro tp at' htap r
    subst hn
    have hhold : (if tapHold s s.cur c tp || vHold s s.cur c b then Hold.unfilled else .free) = .free := by
      rw [htap.2, hb.2]; rfl
    have hfree := vOut_free (lat := 3) (t := t) (rm := 0) (r := vtapxLanes s t tp y) (ready_one hb) hd
    have htrap : (vtapxOut s t d b n lag).trap = none := by
      have hnone : tapTrap s s.cur c tp none (y.1.filterMap (gathered tp t)) = none := htap.1
      simp only [vtapxOut]
      rw [hnone]
      exact hfree.trap
    exact completes_of_guarded ⟨rfl, rfl, rfl⟩ hw h slotVtapx_eq ⟨rfl, hhold, htrap, rfl⟩ rfl
      (keeps_vWrite (keeps_refl h.can.running))

end Sys2Proof.Proofs
end

section
/-!
Commands of the matrix array and the affine unit (R239 to R258): what every one of them shares, then latches, products,
affine maps and carries.
-/
namespace Sys2Proof.Machine
set_option Elab.async false
open Sys2Proof

variable {i : Instr} {s u : State} {g : Guard} {o : SlotOut} {p : Pipe} {t : Tap} {rows elems toll last : Nat}
  {pl : Option Nat} {reads writes : List (Res × Nat)} {eff : State → State} {fl : List (Nat × Flags)} {c : Ctx}

/-! What holds an M command (R245, R247). -/

/-- With every earlier result final, a later cycle waits for nothing: no read, and no write that comes after the issue. -/
theorem mHeld_false (hc : Unheld s) (hw : ∀ x ∈ writes, 0 < x.2) :
    mHeld (s.ctx s.cur) (s.clk s.cur) reads writes = false := by
  have hlate : ∀ (r : Res) (n : Nat), (s.ctx s.cur).late r (s.clk s.cur + n) = false := fun r n => by
    refine List.any_eq_false.mpr fun e he => ?_
    have := hc.final e he
    have hn : ¬ s.clk s.cur + n < e.final := by omega
    simp [hn]
  have hclash : ∀ (r : Res) (n : Nat), 0 < n → (s.ctx s.cur).clash r (s.clk s.cur + n) = false := fun r n h0 => by
    refine List.any_eq_false.mpr fun e he => ?_
    have := hc.final e he
    have hn : ¬ s.clk s.cur + n ≤ e.final := by omega
    simp [hn]
  rw [mHeld, Bool.or_eq_false_iff]
  exact ⟨List.any_eq_false.mpr fun x _ => by simp [hlate], List.any_eq_false.mpr fun x hx => by simp [hclash _ _ (hw x hx)]⟩

/-- A command whose pipe is free is held by its operands only. -/
theorem mOut_hold (hc : Unheld s) (hp : PipeFree s p) (hw : ∀ x ∈ writes, 0 < x.2) (ho : o.hold = .free) :
    (mOut s s.cur o p reads writes toll eff fl).hold = .free := by
  have hp' : ¬ s.clk s.cur < p.free s s.cur := Nat.not_lt.mpr hp
  simp [mOut, ho, hp', mHeld_false hc hw, Hold.join]

/-- A command over operands that are free is free. -/
theorem mOut_free (hc : Unheld s) (hp : PipeFree s p) (hw : ∀ x ∈ writes, 0 < x.2) (ho : o.Free s) :
    (mOut s s.cur o p reads writes toll eff fl).Free s :=
  ⟨ho.late, mOut_hold hc hp hw ho.hold, ho.trap, ho.ctl⟩

/-- Rows that are ready neither hold nor trap the command that reads them (R257). -/
theorem mReadOut_free {illegal : Bool} (hr : RowsReady s t rows elems pl) (hl : illegal = false) :
    (mReadOut s s.cur (s.ctx s.cur) t rows elems pl illegal last).Free s := by
  obtain ⟨habs, hscale, hrows⟩ := hr
  have hmem : ∀ r ∈ (List.range rows).map fun j => t.row rows j, TapReady s r pl (r.span elems) := fun r hr => by
    obtain ⟨j, hj, rfl⟩ := List.mem_map.mp hr
    exact hrows j (List.mem_range.mp hj)
  have hhold : ((List.range rows).map fun j => t.row rows j).any (tapHold s s.cur (s.ctx s.cur)) = false :=
    List.any_eq_false.mpr fun r hr => by simp [(hmem r hr).2]
  have htrap : (((List.range rows).map fun j => t.row rows j).findSome? fun r =>
      tapTrap s s.cur (s.ctx s.cur) r pl (r.span elems)) = none :=
    List.findSome?_eq_none_iff.mpr fun r hr => (hmem r hr).1
  refine ⟨rfl, ?_, ?_, rfl⟩
  · simp only [mReadOut, hhold]; rfl
  · simp only [mReadOut, habs, hscale, htrap, hl]; rfl

/-! What an M command leaves alone. -/

theorem keeps_take (h : Keeps u s) : Keeps (p.take s.cur u) s := by
  cases p with
  | array n => exact h.seats rfl rfl
  | loader => exact h.seats rfl rfl
  | affine n => exact Keeps.updCtx (f := fun c => { c with mx.affineFree := u.clk s.cur + n }) h (fun _ => rfl) fun _ => rfl

theorem keeps_pendRows (h : Keeps u s) : Keeps (pendRows s.cur fl u) s := by
  unfold pendRows
  exact h.updCtx (fun _ => rfl) fun _ => rfl

@[simp] theorem Ctx.setTileRows_bud {n r : Nat} {xs : List (List PairP)} : (c.setTileRows n r xs).bud = c.bud := by
  induction xs generalizing c r with
  | nil => rfl
  | cons x xs ih => exact ih

@[simp] theorem Ctx.setTileRows_pos {n r : Nat} {xs : List (List PairP)} : (c.setTileRows n r xs).pos = c.pos := by
  induction xs generalizing c r with
  | nil => rfl
  | cons x xs ih => exact ih

@[simp] theorem Ctx.setLatch_bud {l : BitVec 1} {x : Latch} : (c.setLatch l x).bud = c.bud := by
  unfold Ctx.setLatch; split <;> rfl

@[simp] theorem Ctx.setLatch_pos {l : BitVec 1} {x : Latch} : (c.setLatch l x).pos = c.pos := by
  unfold Ctx.setLatch; split <;> rfl

@[simp] theorem Ctx.setCarryPairs_bud {n : Nat} {xs : List PairP} : (c.setCarryPairs n xs).bud = c.bud := rfl
@[simp] theorem Ctx.setCarryPairs_pos {n : Nat} {xs : List PairP} : (c.setCarryPairs n xs).pos = c.pos := rfl

theorem keeps_marks {n : BitVec 7} {slot : Nat} {us : List Nat} (h : Keeps u s) :
    Keeps (us.foldl (fun v x => v.updCtx s.cur fun c => c.markPoison n slot x true) u) s := by
  induction us generalizing u with
  | nil => exact h
  | cons x us ih => exact ih (h.updCtx (fun _ => rfl) fun _ => rfl)

theorem keeps_putRow {xs : List (BitVec 32 × Bool)} (h : Keeps u s) : Keeps (putRow s.cur t xs u) s := by
  have h1 : Keeps (tapWrite s.cur t .fp32 0 (xs.map (·.1.toNat)) u) s := keeps_putElems h
  simp only [putRow]
  split
  · exact h1
  · exact keeps_marks h1

theorem keeps_putRows {xs : List (Tap × List (BitVec 32 × Bool))} (h : Keeps u s) :
    Keeps (xs.foldl (fun v x => putRow s.cur x.1 x.2 v) u) s := by
  induction xs generalizing u with
  | nil => exact h
  | cons x xs ih => exact ih (keeps_putRow h)

/-! The commands. -/

/-- An M command whose slot is free, and whose effect keeps budget and position, is taken by its pipe. -/
theorem feeds_of_slot (hi : OneSyllable i) (hw : i.wf = true) (h : Runs g (1 + toll) 0 s) (hk : Keeps (eff s) s)
    (ho : o.Free s) (hslot : slotOf i s.cur s = guarded g (s.ctx s.cur) o)
    (heff : o.effect s = pendRows s.cur fl (p.take s.cur (eff s)) := by rfl) (hf : o.flags = 0 := by rfl)
    (hcl : o.clearFpst = 0 := by rfl) (htoll : o.toll = toll := by rfl) (htraf : o.traffic = 0 := by rfl) :
    Feeds i s p toll eff fl :=
  completes_of_guarded hi hw h hslot ho heff (keeps_pendRows (keeps_take hk)) hf hcl (by rw [htoll]) htraf

/-- An update of the context that keeps budget and position. -/
theorem keeps_ctx {f : Ctx → Ctx} (h : Unheld s) (hb : ∀ c, (f c).bud = c.bud) (hp : ∀ c, (f c).pos = c.pos) :
    Keeps (s.updCtx s.cur f) s := (keeps_refl h.running).updCtx (fun c => by rw [hb]) hp

theorem rowsRes_pos {f : Nat → Nat → Res} {tile : BitVec 1} {r : MRows} {cyc : Nat → Nat} (h : ∀ j, 0 < cyc j) :
    ∀ x ∈ rowsRes f tile r cyc, 0 < x.2 := fun x hx => by
  obtain ⟨j, -, rfl⟩ := List.mem_map.mp hx
  exact h j

/-- No latch is still read. -/
theorem latch_idle (hc : Unheld s) (r : Res) :
    ((s.ctx s.cur).ready.any fun x => x.res == r && x.use && decide (s.clk s.cur < x.final)) = false := by
  refine List.any_eq_false.mpr fun e he => ?_
  have hn : ¬ s.clk s.cur < e.final := Nat.not_lt.mpr (hc.final e he)
  simp [hn]

end Sys2Proof.Machine
end

section
/-!
Latches, matrix products and affine maps (R249 to R253): each command over its rows, then the statements.
-/
namespace Sys2Proof.Machine
set_option Elab.async false
open Sys2Proof

variable {s : State} {g : Guard} {tile l : BitVec 1} {cy : BitVec 2} {n lag : BitVec 7} {kd : MKind} {r : MRows}

/-! Latches (R249). -/

/-- A latch load over rows that are ready is free. -/
theorem latchOut_free {o : SlotOut} {writes : List (Res × Nat)} {eff : State → State} {fl : List (Nat × Flags)}
    (hc : Unheld s) (hp : PipeFree s .loader) (hw : ∀ x ∈ writes, 0 < x.2) (ho : o.Free s) :
    let m := mOut s s.cur o .loader [] writes 64 eff fl
    let busy := (s.ctx s.cur).ready.any fun x => x.res == .latch l.toNat && x.use && decide (s.clk s.cur < x.final)
    SlotOut.Free { m with hold := m.hold.join (if busy then .own else .free), other := m.other || busy } s := by
  intro m busy
  refine ⟨ho.late, ?_, ho.trap, ho.ctl⟩
  simp only [m, busy, latch_idle hc, mOut_hold hc hp hw ho.hold]
  rfl

/-- The content of a latch after a load of rows of a tap. -/
def loadedLatch (s : State) (c : Ctx) (t : Tap) (kd : MKind) (transpose : Bool) (rows elems : Nat) : Latch :=
  ⟨some kd, Sparse.putRange (.num false 0 0) [] 0 (latchElems transpose (.num false 0 0)
    ((List.range rows).map fun j => rowValues s s.cur c (t.row rows j) (MKind.planes kd) elems)), []⟩

/-- The effect of an M command is what it does to the state before it. -/
theorem Feeds.congr {i : Instr} {p : Pipe} {toll : Nat} {eff eff' : State → State} {fl : List (Nat × Flags)}
    (h : Feeds i s p toll eff fl) (he : eff s = eff' s) : Feeds i s p toll eff' fl := by
  obtain ⟨t, hexec, hret⟩ := h
  exact ⟨t, hexec, by simpa only [he] using hret⟩

theorem feeds_latch (hw : (Instr.latch g l n lag kd).wf = true) (h : Runs g (1 + 64) 0 s) (hp : PipeFree s .loader)
    (hk : ((resolve (s.ctx s.cur) n lag.toNat).g.fmt != MKind.fmt kd) = false)
    (hr : RowsReady s (resolve (s.ctx s.cur) n lag.toNat) 64 192 (MKind.planes kd)) :
    Feeds (.latch g l n lag kd) s .loader 64 (fun u => u.updCtx s.cur fun c =>
      c.setLatch l (loadedLatch s c (resolve (s.ctx s.cur) n lag.toNat) kd false 64 192)) [(64, 0)] :=
  Feeds.congr (eff := fun u => u.updCtx s.cur fun c => c.setLatch l
      (loadedLatch s (s.ctx s.cur) (resolve (s.ctx s.cur) n lag.toNat) kd false 64 192))
    (feeds_of_slot ⟨rfl, rfl, rfl⟩ hw h (keeps_ctx h.can.toUnheld (by simp) (by simp))
      (latchOut_free h.can.toUnheld hp (by simp) (mReadOut_free hr hk)) rfl)
    (State.updCtx_congr rfl)

theorem feeds_latcht (hw : (Instr.latcht g l n lag kd).wf = true) (h : Runs g (1 + 64) 0 s) (hp : PipeFree s .loader)
    (hk : ((resolve (s.ctx s.cur) n lag.toNat).g.fmt != MKind.fmt kd) = false)
    (hr : RowsReady s (resolve (s.ctx s.cur) n lag.toNat) 192 64 (MKind.planes kd)) :
    Feeds (.latcht g l n lag kd) s .loader 64 (fun u => u.updCtx s.cur fun c =>
      c.setLatch l (loadedLatch s c (resolve (s.ctx s.cur) n lag.toNat) kd true 192 64)) [(64, 0)] :=
  Feeds.congr (eff := fun u => u.updCtx s.cur fun c => c.setLatch l
      (loadedLatch s (s.ctx s.cur) (resolve (s.ctx s.cur) n lag.toNat) kd true 192 64))
    (feeds_of_slot ⟨rfl, rfl, rfl⟩ hw h (keeps_ctx h.can.toUnheld (by simp) (by simp))
      (latchOut_free h.can.toUnheld hp (by simp) (mReadOut_free hr hk)) rfl)
    (State.updCtx_congr rfl)

/-! Products (R250, R251). -/

/-- The columns of a latch, with the poison of each. -/
def latchCols (la : Latch) : List (List FVal × Bool) :=
  (List.range 192).map fun j =>
    ((List.range 64).map fun i => la.elems.get (.num false 0 0) (i * 192 + j), la.poison.any fun e => e.1 % 192 == j)

/-- The rows of a product, with their flags. -/
def productRows (s : State) (tile l : BitVec 1) (t : Tap) (r : MRows) (kd : MKind) (zero : Bool) :
    List (List PairP × Flags) :=
  let c := s.ctx s.cur
  (List.range (MRows.n r)).map fun j =>
    mmaRow zero (latchCols (c.latch l)) (c.latch l).kind.isNone
      (rowValues s s.cur c (t.row (MRows.n r) j) (MKind.planes kd) 64) (c.tilePairs tile.toNat (MRows.base r + j))

/-- Rows with the cycles in which their flags are due. -/
def dueRows (q : Nat) (out : List (List PairP × Flags)) : List (Nat × Flags) :=
  (out.map (·.2)).zipIdx.map fun x => (x.2 * q / 4 + 24, x.1)

/-- The kind of the latch and that of the command agree (R243). -/
theorem kinds_agree {la : Latch} (h : ∀ x, la.kind = some x → MKind.same x kd = true) :
    (la.kind.any fun x => !MKind.same x kd) = false := by
  cases hx : la.kind with
  | none => rfl
  | some x => simp [h x hx]

/-- The operands and the pipe of a product are free. -/
theorem mmaOut_free {busy last : Nat} {reads : List (Res × Nat)} {writes : List (Res × Nat)} {eff : State → State}
    {fl : List (Nat × Flags)} {ms : List (Res × Bool × Nat)} {t : Tap} {illegal : Bool} (hc : Unheld s)
    (hp : PipeFree s (.array busy)) (hw : ∀ x ∈ writes, 0 < x.2) (hl : illegal = false)
    (hr : RowsReady s t (MRows.n r) 64 (MKind.planes kd)) :
    let m := mOut s s.cur (mReadOut s s.cur (s.ctx s.cur) t (MRows.n r) 64 (MKind.planes kd) illegal last) (.array busy)
      reads writes busy eff fl
    SlotOut.Free { m with marks := m.marks ++ ms } s := by
  intro m
  have hm : m.Free s := mOut_free hc hp hw (mReadOut_free hr hl)
  exact ⟨hm.late, hm.hold, hm.trap, hm.ctl⟩

/-- The offsets of a product are final 24 cycles after their row began, and so are the gains that MMAZ writes. -/
theorem productWrites_pos {zero : Bool} : ∀ x ∈ rowsRes .off tile r (fun i => i * MKind.quarters kd / 4 + 24) ++
    (if zero then rowsRes .gain tile r fun i => i * MKind.quarters kd / 4 + 24 else []), 0 < x.2 := by
  refine List.forall_mem_append.mpr ⟨rowsRes_pos fun j => by omega, ?_⟩
  split
  · exact rowsRes_pos fun j => by omega
  · simp

theorem feeds_mma (zero : Bool) (hw : (Instr.mma g tile l n lag r kd).wf = true)
    (h : Runs g (1 + (MRows.n r * MKind.quarters kd + 3) / 4) 0 s)
    (hp : PipeFree s (.array ((MRows.n r * MKind.quarters kd + 3) / 4)))
    (hl : ((resolve (s.ctx s.cur) n lag.toNat).g.fmt != MKind.fmt kd ||
      ((s.ctx s.cur).latch l).kind.any fun x => !MKind.same x kd) = false)
    (hr : RowsReady s (resolve (s.ctx s.cur) n lag.toNat) (MRows.n r) 64 (MKind.planes kd)) :
    let busy := (MRows.n r * MKind.quarters kd + 3) / 4
    let out := productRows s tile l (resolve (s.ctx s.cur) n lag.toNat) r kd zero
    Feeds (if zero then .mmaz g tile l n lag r kd else .mma g tile l n lag r kd) s (.array busy) busy
      (fun u => u.updCtx s.cur fun c => c.setTileRows tile.toNat (MRows.base r) (out.map (·.1)))
      (dueRows (MKind.quarters kd) out) := by
  have hk : ∀ out : List (List PairP), Keeps (s.updCtx s.cur fun c => c.setTileRows tile.toNat (MRows.base r) out) s :=
    fun out => keeps_ctx h.can.toUnheld (by simp) (by simp)
  have hfree := fun {reads eff fl ms last} => mmaOut_free (reads := reads) (eff := eff) (fl := fl) (ms := ms)
    (last := last) h.can.toUnheld hp (productWrites_pos (tile := tile) (r := r) (kd := kd) (zero := zero)) hl hr
  cases zero with
  | false => exact feeds_of_slot (i := .mma g tile l n lag r kd) ⟨rfl, rfl, rfl⟩ hw h (hk _) hfree rfl
  | true => exact feeds_of_slot (i := .mmaz g tile l n lag r kd) ⟨rfl, rfl, rfl⟩ hw h (hk _) hfree rfl

/-! Loading, evaluating and reading maps (R252, R253). -/

/-- A command without operands is free where its pipe is. -/
theorem noOperands_free : SlotOut.Free {} s := ⟨rfl, rfl, rfl, rfl⟩

/-- The results that a command over rows writes come after its issue. -/
theorem rowsRes_flatMap_pos {fs : List (Nat → Nat → Res)} {d : Nat} (hd : 0 < d) :
    ∀ x ∈ fs.flatMap fun f => rowsRes f tile r (· + d), 0 < x.2 := fun x hx => by
  obtain ⟨f, -, hf⟩ := List.mem_flatMap.mp hx
  exact rowsRes_pos (fun j => by omega) x hf

theorem feeds_aset {i : Instr} {gain : BitVec 32} (hi : OneSyllable i) (hw : i.wf = true) (h : Runs g 1 0 s)
    (hp : PipeFree s (.affine 1)) (hslot : slotOf i s.cur s = asetOut gain g tile r s.cur s) :
    Feeds i s (.affine 1) 0 (fun u => u.updCtx s.cur fun c => c.setTileRows tile.toNat (MRows.base r)
      (List.replicate (MRows.n r) (List.replicate 192 (⟨gain, 0⟩, 0)))) [(2, 0)] :=
  feeds_of_slot hi hw h (keeps_ctx h.can.toUnheld (by simp) (by simp))
    (mOut_free h.can.toUnheld hp
      (List.forall_mem_append.mpr ⟨rowsRes_pos fun _ => Nat.zero_lt_two, rowsRes_pos fun _ => Nat.zero_lt_two⟩)
      noOperands_free) hslot

/-- The rows that a map of pairs and elements leaves, with their flags. -/
def mappedRows (s : State) (tile : BitVec 1) (t : Tap) (r : MRows) (f : PairP → Nat → PairP × Flags) :
    List (List PairP × Flags) :=
  let c := s.ctx s.cur
  (List.range (MRows.n r)).map fun j =>
    let xs := ((c.tilePairs tile.toNat (MRows.base r + j)).zip (rowF32 s s.cur c (t.row (MRows.n r) j))).map fun x =>
      ((f x.1 x.2.1).1, (f x.1 x.2.1).2 ||| x.2.2)
    (xs.map (·.1), xs.foldl (fun f x => f ||| x.2) 0)

theorem feeds_map {i : Instr} {f : PairP → Nat → PairP × Flags} {reads writes : List (Nat → Nat → Res)}
    (hi : OneSyllable i) (hw : i.wf = true) (h : Runs g (1 + MRows.n r) 0 s) (hp : PipeFree s (.affine (MRows.n r)))
    (hr : RowsReady s (resolve (s.ctx s.cur) n lag.toNat) (MRows.n r) 192 none)
    (hslot : slotOf i s.cur s = mapOut f reads writes g tile n lag r s.cur s) :
    let out := mappedRows s tile (resolve (s.ctx s.cur) n lag.toNat) r f
    Feeds i s (.affine (MRows.n r)) (MRows.n r)
      (fun u => u.updCtx s.cur fun c => c.setTileRows tile.toNat (MRows.base r) (out.map (·.1)))
      ((out.map (·.2)).zipIdx.map fun x => (x.2 + 4, x.1)) :=
  feeds_of_slot hi hw h (keeps_ctx h.can.toUnheld (by simp) (by simp))
    (mOut_free h.can.toUnheld hp (rowsRes_flatMap_pos (by omega)) (mReadOut_free hr rfl)) hslot

/-- The offsets, or the gains, of the rows of a tile, with their poison. -/
def readRows (s : State) (tile : BitVec 1) (r : MRows) (gain : Bool) : List (List (BitVec 32 × Bool)) :=
  (List.range (MRows.n r)).map fun j =>
    ((s.ctx s.cur).tilePairs tile.toNat (MRows.base r + j)).map fun p => (if gain then p.1.gain else p.1.off, p.2 != 0)

/-- A destination that is legal does not trap. -/
theorem mWriteOut_free {t : Tap} {ts : List Tap} (ht : mDestTrap t ts = none) : (mWriteOut s s.cur t ts).Free s :=
  ⟨rfl, rfl, ht, rfl⟩

theorem feeds_ard {i : Instr} {gain : Bool} (hi : OneSyllable i) (hw : i.wf = true) (h : Runs g (1 + MRows.n r) 0 s)
    (hp : PipeFree s (.affine (MRows.n r)))
    (ht : mDestTrap (resolve (s.ctx s.cur) n lag.toNat)
      ((List.range (MRows.n r)).map fun j => (resolve (s.ctx s.cur) n lag.toNat).row (MRows.n r) j) = none)
    (hslot : slotOf i s.cur s = ardOut gain g tile n lag r s.cur s) :
    let rows := ((List.range (MRows.n r)).map fun j => (resolve (s.ctx s.cur) n lag.toNat).row (MRows.n r) j).zip
      (readRows s tile r gain)
    Feeds i s (.affine (MRows.n r)) (MRows.n r) (fun u => rows.foldl (fun u x => putRow s.cur x.1 x.2 u) u)
      (rows.zipIdx.map fun x => (x.2 + 8, putRowFlags x.1.1 x.1.2)) :=
  feeds_of_slot hi hw h (keeps_putRows (keeps_refl h.can.running))
    (mOut_free h.can.toUnheld hp (fun x hx => by obtain ⟨y, -, rfl⟩ := List.mem_map.mp hx; omega) (mWriteOut_free ht))
    hslot

end Sys2Proof.Machine

namespace Sys2Proof.Proofs
set_option Elab.async false
open Sys2Proof Sys2Proof.Machine

/-- Settles O15: a latch load and a product are M commands over the rows of their tap (R249 to R251). -/
theorem matrixProducts : Obligations.MatrixProducts := by
  unfold Obligations.MatrixProducts
  intro s g tile l n lag r kd hw c t pl rows base q busy la cols row out done
  have hfmt : t.g.fmt = MKind.fmt kd → (t.g.fmt != MKind.fmt kd) = false := fun e => by simp [e]
  have hwl : (g.ok && sigOk n && kd.ok) = true := by
    simp only [Instr.wf, Bool.and_eq_true] at hw ⊢
    exact ⟨hw.1.1, hw.2⟩
  refine ⟨fun h hp hk => ⟨fun hr => feeds_latch hwl h hp (hfmt hk) hr, fun hr => feeds_latcht hwl h hp (hfmt hk) hr⟩,
    fun h hp hk hkind hr => ?_⟩
  have hl : (t.g.fmt != MKind.fmt kd || la.kind.any fun x => !MKind.same x kd) = false := by
    rw [hfmt hk, kinds_agree hkind]; rfl
  exact ⟨feeds_mma false hw h hp hl hr, feeds_mma true hw h hp hl hr⟩

/-- Settles O16: ASET, the maps over rows and the reads of rows are M commands of the affine unit (R252, R253). -/
theorem affineMaps : Obligations.AffineMaps := by
  unfold Obligations.AffineMaps
  intro s g tile n lag r hw c t rows base fill maps loads
  have hok : g.ok = true ∧ sigOk n = true ∧ r.ok = true := by
    simp only [Instr.wf, Bool.and_eq_true] at hw
    exact ⟨hw.1.1, hw.1.2, hw.2⟩
  have hws : (Instr.asetId g tile r).wf = true := by simp [Instr.wf, hok]
  refine ⟨fun h hp => ⟨feeds_aset ⟨rfl, rfl, rfl⟩ hws h hp rfl, feeds_aset ⟨rfl, rfl, rfl⟩ hws h hp rfl⟩,
    fun h hp hr => ⟨?_, ?_, ?_⟩, fun h hp ht => ⟨?_, ?_⟩⟩
  · exact feeds_map (f := fun p x => ((⟨BitVec.ofNat 32 x, p.1.off⟩, p.2 &&& 1), 0)) ⟨rfl, rfl, rfl⟩ hw h hp hr rfl
  · exact feeds_map (f := fun p x => ((⟨p.1.gain, BitVec.ofNat 32 x⟩, p.2 &&& 2), 0)) ⟨rfl, rfl, rfl⟩ hw h hp hr rfl
  · exact feeds_map (f := fun p x =>
      let y := fp32.fma 0 (fp32.decode p.1.gain.toNat) (fp32.decode x) (fp32.decode p.1.off.toNat)
      ((⟨0, BitVec.ofNat 32 y.1⟩, 0), y.2)) ⟨rfl, rfl, rfl⟩ hw h hp hr rfl
  · exact feeds_ard (gain := false) ⟨rfl, rfl, rfl⟩ hw h hp ht rfl
  · exact feeds_ard (gain := true) ⟨rfl, rfl, rfl⟩ hw h hp ht rfl

end Sys2Proof.Proofs
end

section
/-!
Carries and scans (R254, R255): the column of a scan as a list of pairs, then the statement.
-/
namespace Sys2Proof.Machine
set_option Elab.async false
open Sys2Proof

variable {s : State} {g : Guard} {tile : BitVec 1} {cy : BitVec 2} {n lag : BitVec 7} {r : MRows} {b : Bool}
  {xs : List PairP} {i : Nat}

/-! Lengths: a scan gives a map for every row. -/

theorem prefixes_length (floor : Int) (p : AMap) (ms : List AMap) : (prefixes floor p ms).length = ms.length := by
  induction ms generalizing p with
  | nil => rfl
  | cons x ms ih => simp [prefixes, ih]

theorem scanBlocks_length (floor : Int) (c : AMap) (bs : List (List AMap)) :
    (scanBlocks floor c bs).1.length = bs.flatten.length := by
  induction bs generalizing c with
  | nil => rfl
  | cons b bs ih => simp [scanBlocks, ih, prefixes_length]

/-- Blocks of four, enough of them, are the whole list. -/
theorem chunks4_flatten {α : Type} (k : Nat) (ms : List α) (h : ms.length ≤ k) : (chunks4 k ms).flatten = ms := by
  induction k generalizing ms with
  | zero => simp_all [chunks4]
  | succ k ih =>
    unfold chunks4
    split
    next he => simpa using List.isEmpty_iff.mp he
    next he =>
      have hpos : 0 < ms.length := List.length_pos_iff.mpr fun e => he (by simp [e])
      rw [List.flatten_cons, ih _ (by rw [List.length_drop]; omega), List.take_append_drop]

theorem scanColumn_length (floor : Int) (c : AMap) (ms : List AMap) : (scanColumn floor c ms).1.length = ms.length := by
  rw [scanColumn, scanBlocks_length, chunks4_flatten _ _ (le_refl _)]

/-! Poison runs down a column. -/

/-- The poison of the carry or of one of the first pairs. -/
def badUpTo (b : Bool) (xs : List PairP) (i : Nat) : Bool := b || (xs.take (i + 1)).any fun p => p.2 != 0

theorem runBad_length : (runBad b xs).length = xs.length := by
  induction xs generalizing b with
  | nil => rfl
  | cons x xs ih => simp [runBad, ih]

theorem runBad_getElem? (h : i < xs.length) : (runBad b xs)[i]? = some (badUpTo b xs i) := by
  induction xs generalizing b i with
  | nil => simp at h
  | cons x xs ih =>
    cases i with
    | zero => simp [runBad, badUpTo]
    | succ i =>
      rw [runBad, List.getElem?_cons_succ, ih (by simpa using h)]
      simp [badUpTo, Bool.or_assoc]

theorem runBad_getLast? (h : xs ≠ []) : (runBad b xs).getLast? = some (badUpTo b xs (xs.length - 1)) := by
  have hpos := List.length_pos_iff.mpr h
  rw [List.getLast?_eq_getElem?, runBad_length, runBad_getElem? (by omega)]

@[simp] theorem mkPair_poison (m : AMap) (b : Bool) : (mkPair m b).2 = if b then 3 else 0 := rfl

theorem mkPair_map (m : AMap) (b : Bool) : PairP.map (mkPair m b) = (m.1 % 2 ^ 32, m.2 % 2 ^ 32) := by
  simp [PairP.map, mkPair]

/-! The column of a scan. -/

/-- The pairs of a column after the scan with their flags, and the pair that the carry takes. -/
def scannedColumn (floor : Int) (cp : PairP) (col : List PairP) : List (PairP × Flags) × PairP :=
  let z := scanColumn floor (PairP.map cp) (col.map PairP.map)
  let bads := runBad (cp.2 != 0) col
  ((z.1.zip bads).map (fun x => (mkPair x.1.1 x.2, x.1.2)), mkPair z.2 ((bads.getLast?).getD (cp.2 != 0)))

variable {floor : Int} {cp : PairP} {col : List PairP}

/-- Row i of a scanned column: the map of its composition, its flags, and the poison of all before it. -/
theorem scannedColumn_getElem? (h : i < col.length) :
    ∃ y, (scanColumn floor (PairP.map cp) (col.map PairP.map)).1[i]? = some y ∧
      (scannedColumn floor cp col).1[i]? = some (mkPair y.1 (badUpTo (cp.2 != 0) col i), y.2) := by
  have hlen : i < (scanColumn floor (PairP.map cp) (col.map PairP.map)).1.length := by
    rw [scanColumn_length, List.length_map]; exact h
  have hzip : ((scanColumn floor (PairP.map cp) (col.map PairP.map)).1.zip (runBad (cp.2 != 0) col))[i]? =
      some ((scanColumn floor (PairP.map cp) (col.map PairP.map)).1[i], badUpTo (cp.2 != 0) col i) :=
    List.getElem?_zip_eq_some.mpr ⟨List.getElem?_eq_getElem hlen, runBad_getElem? h⟩
  refine ⟨_, List.getElem?_eq_getElem hlen, ?_⟩
  simp only [scannedColumn, List.getElem?_map, hzip, Option.map_some]

theorem scannedColumn_carry (h : col ≠ []) : (scannedColumn floor cp col).2 =
    mkPair (scanColumn floor (PairP.map cp) (col.map PairP.map)).2 (badUpTo (cp.2 != 0) col (col.length - 1)) := by
  simp only [scannedColumn, runBad_getLast? h, Option.getD_some]

/-! The scan of the rows of a tile. -/

/-- Column j of the rows that a scan takes. -/
def tileColumn (c : Ctx) (tile : BitVec 1) (r : MRows) (j : Nat) : List PairP :=
  (List.range (MRows.n r)).map fun i => (c.tilePairs tile.toNat (MRows.base r + i)).getD j (⟨0, 0⟩, 0)

/-- Column j after the scan. -/
def scannedAt (c : Ctx) (tile : BitVec 1) (cy : BitVec 2) (r : MRows) (j : Nat) : List (PairP × Flags) × PairP :=
  scannedColumn c.csr.gfloor.toInt ((c.carryPairs cy.toNat).getD j (⟨0, 0⟩, 0)) (tileColumn c tile r j)

/-- Row i of a scan: its pairs and the flags of all of them. -/
def scannedRow (c : Ctx) (tile : BitVec 1) (cy : BitVec 2) (r : MRows) : Nat → List PairP × Flags := fun i =>
  let xs := (List.range 192).map fun j => (scannedAt c tile cy r j).1.getD i ((⟨0, 0⟩, 0), 0)
  (xs.map (·.1), xs.foldl (fun f x => f ||| x.2) 0)

def scannedRows (c : Ctx) (tile : BitVec 1) (cy : BitVec 2) (r : MRows) : List (List PairP × Flags) :=
  (List.range (MRows.n r)).map (scannedRow c tile cy r)

/-- The carry that SCAN.upd leaves. -/
def scannedCarry (c : Ctx) (tile : BitVec 1) (cy : BitVec 2) (r : MRows) : List PairP :=
  (List.range 192).map fun j => (scannedAt c tile cy r j).2

theorem MRows.n_pos (r : MRows) : 0 < MRows.n r := by
  unfold MRows.n
  split
  · decide
  next h => exact Nat.pos_of_ne_zero fun e => h (BitVec.eq_of_toNat_eq e)

theorem scanOut_eq (upd : Bool) : ∃ reads writes, (∀ x ∈ writes, 0 < x.2) ∧
    scanOut upd g tile cy r s.cur s = guarded g (s.ctx s.cur)
      (mOut s s.cur {} (.affine (MRows.n r)) reads writes (MRows.n r)
        (fun u => u.updCtx s.cur fun c =>
          let c1 := c.setTileRows tile.toNat (MRows.base r) ((scannedRows (s.ctx s.cur) tile cy r).map (·.1))
          if upd then c1.setCarryPairs cy.toNat (scannedCarry (s.ctx s.cur) tile cy r) else c1)
        (((scannedRows (s.ctx s.cur) tile cy r).map (·.2)).zipIdx.map fun x => (x.2 + 16, x.1))) := by
  refine ⟨(.carry cy.toNat, 0) :: (rowsRes .gain tile r id ++ rowsRes .off tile r id),
    rowsRes .gain tile r (· + 16) ++ rowsRes .off tile r (· + 16) ++
      if upd then [(.carry cy.toNat, MRows.n r + 15)] else [], ?_, ?_⟩
  · refine List.forall_mem_append.mpr ⟨List.forall_mem_append.mpr ⟨rowsRes_pos fun j => by omega,
      rowsRes_pos fun j => by omega⟩, ?_⟩
    cases upd <;> simp
  · simp only [scannedRows, scannedRow, scannedCarry, scannedAt, scannedColumn, tileColumn, scanOut, List.map_map,
      Function.comp_def]

theorem feeds_scan {i : Instr} {upd : Bool} (hi : OneSyllable i) (hw : i.wf = true) (h : Runs g (1 + MRows.n r) 0 s)
    (hp : PipeFree s (.affine (MRows.n r))) (hslot : slotOf i s.cur s = scanOut upd g tile cy r s.cur s) :
    Feeds i s (.affine (MRows.n r)) (MRows.n r)
      (fun u => u.updCtx s.cur fun c =>
        let c1 := c.setTileRows tile.toNat (MRows.base r) ((scannedRows (s.ctx s.cur) tile cy r).map (·.1))
        if upd then c1.setCarryPairs cy.toNat (scannedCarry (s.ctx s.cur) tile cy r) else c1)
      (((scannedRows (s.ctx s.cur) tile cy r).map (·.2)).zipIdx.map fun x => (x.2 + 16, x.1)) := by
  obtain ⟨reads, writes, hpos, heq⟩ := scanOut_eq (s := s) (g := g) (tile := tile) (cy := cy) (r := r) upd
  refine feeds_of_slot hi hw h (keeps_ctx h.can.toUnheld (fun c => ?_) fun c => ?_)
    (mOut_free h.can.toUnheld hp hpos noOperands_free) (hslot.trans heq)
  · cases upd <;> simp
  · cases upd <;> simp

/-- The row and the column of a scanned pair. -/
theorem scannedRows_getD {c : Ctx} (hi : i < MRows.n r) :
    (scannedRows c tile cy r).getD i ([], 0) = scannedRow c tile cy r i := by
  simp [scannedRows, List.getD, hi]

theorem tileColumn_length {c : Ctx} {j : Nat} : (tileColumn c tile r j).length = MRows.n r := by simp [tileColumn]

/-- A pair of the scan (R254, R255). -/
theorem scannedAt_getD {c : Ctx} {j : Nat} (hi : i < MRows.n r) :
    let cp := (c.carryPairs cy.toNat).getD j (⟨0, 0⟩, 0)
    let z := scanColumn c.csr.gfloor.toInt (PairP.map cp) ((tileColumn c tile r j).map PairP.map)
    (scannedAt c tile cy r j).1.getD i ((⟨0, 0⟩, 0), 0) =
      (mkPair (z.1.getD i ((0, 0), 0)).1 (badUpTo (cp.2 != 0) (tileColumn c tile r j) i), (z.1.getD i ((0, 0), 0)).2) := by
  intro cp z
  obtain ⟨y, hy, hrow⟩ := scannedColumn_getElem? (floor := c.csr.gfloor.toInt) (cp := cp)
    (col := tileColumn c tile r j) (i := i) (by rw [tileColumn_length]; exact hi)
  rw [scannedAt, List.getD, hrow, List.getD, hy]
  rfl

theorem scannedRow_getD {c : Ctx} {j : Nat} (hj : j < 192) :
    (scannedRow c tile cy r i).1.getD j (⟨0, 0⟩, 0) = ((scannedAt c tile cy r j).1.getD i ((⟨0, 0⟩, 0), 0)).1 := by
  simp [scannedRow, List.getD, hj]

theorem scannedCarry_getD {c : Ctx} {j : Nat} (hj : j < 192) :
    (scannedCarry c tile cy r).getD j (⟨0, 0⟩, 0) = (scannedAt c tile cy r j).2 := by
  simp [scannedCarry, List.getD, hj]

theorem scannedAt_carry {c : Ctx} {j : Nat} : (scannedAt c tile cy r j).2 =
    mkPair (scanColumn c.csr.gfloor.toInt (PairP.map ((c.carryPairs cy.toNat).getD j (⟨0, 0⟩, 0)))
      ((tileColumn c tile r j).map PairP.map)).2
      (badUpTo (((c.carryPairs cy.toNat).getD j (⟨0, 0⟩, 0)).2 != 0) (tileColumn c tile r j) (MRows.n r - 1)) := by
  have hne : tileColumn c tile r j ≠ [] := fun e => by
    have := MRows.n_pos r
    have hl := tileColumn_length (c := c) (tile := tile) (r := r) (j := j)
    rw [e, List.length_nil] at hl
    omega
  rw [scannedAt, scannedColumn_carry hne, tileColumn_length]

end Sys2Proof.Machine

namespace Sys2Proof.Proofs
set_option Elab.async false
open Sys2Proof Sys2Proof.Machine

/-- Settles O17: a scan composes down the columns of its rows; carries are loaded and read like rows (R254, R255). -/
theorem carriesAndScans : Obligations.CarriesAndScans := by
  unfold Obligations.CarriesAndScans
  intro s g tile cy n lag r hw hn c t rows base carry
  have hg : g.ok = true := by
    simp only [Instr.wf, Bool.and_eq_true] at hw
    exact hw.1
  have hwn : (g.ok && sigOk n) = true := by simp [hg, hn]
  refine ⟨fun h hp => ⟨?_, fun hr => ?_, fun ht => ?_⟩, fun h hp => ?_⟩
  · exact feeds_of_slot ⟨rfl, rfl, rfl⟩ hg h (keeps_ctx h.can.toUnheld (by simp) (by simp))
      (mOut_free h.can.toUnheld hp (by simp) noOperands_free) rfl
  · exact feeds_of_slot ⟨rfl, rfl, rfl⟩ hwn h (keeps_ctx h.can.toUnheld (by simp) (by simp))
      (mOut_free h.can.toUnheld hp (by simp) (mReadOut_free hr rfl)) rfl
  · exact feeds_of_slot ⟨rfl, rfl, rfl⟩ hwn h (keeps_putRow (keeps_refl h.can.running))
      (mOut_free h.can.toUnheld hp (by simp) (mWriteOut_free ht)) rfl
  · refine ⟨scannedRows c tile cy r, scannedCarry c tile cy r, by simp [scannedRows, rows], by simp [scannedCarry],
      ⟨feeds_scan (upd := false) ⟨rfl, rfl, rfl⟩ hw h hp rfl, feeds_scan (upd := true) ⟨rfl, rfl, rfl⟩ hw h hp rfl⟩, ?_⟩
    intro cp col column bad
    refine ⟨fun i hi => ?_, fun j hj => ⟨?_, fun i hi => ?_, ?_, fun i hi => ?_⟩⟩
    · rw [scannedRows_getD hi]
      simp only [scannedRow, scannedAt_getD hi, List.foldl_map]
      rfl
    · rw [scannedCarry_getD hj, scannedAt_carry]
      rfl
    · rw [scannedRows_getD hi, scannedRow_getD hj, scannedAt_getD hi]
      rfl
    · rw [scannedCarry_getD hj, scannedAt_carry, mkPair_map]
      rfl
    · rw [scannedRows_getD hi, scannedRow_getD hj, scannedAt_getD hi, mkPair_map]
      exact congrArg (fun y : AMap => (y.1 % 2 ^ 32, y.2 % 2 ^ 32))
        (List.getD_map (f := fun x : AMap × Flags => x.1) (d := ((0, 0), 0)) ..).symm

end Sys2Proof.Proofs
end

section
/-!
O18. The effect that CopyAccepted states leaves `eng.taken`, the number of commands that have taken a handle (R364), as
it was; the model counts the accepted command there. One accepted CLD refutes the statement.
-/
namespace Sys2Proof.Machine
set_option Elab.async false
open Sys2Proof

/-- The end of a bundle leaves the copy engine of the current seat as the effects of the bundle left it. -/
theorem Retired.eng_eq {fl clr : Flags} {toll traffic : Nat} {u t : State} (h : Retired fl clr toll traffic u t)
    (hu : (u.seat u.cur).phase ≠ .idle) :
    (t.ctx u.cur).eng = (u.ctx u.cur).eng := by
  obtain ⟨pos, ready, wait, issued, -, rfl⟩ := h
  rw [State.ctx_updCore, State.ctx_updCtx_same hu]
  rfl

/-- Seat 0 runs with budgets of 1,000; its signal 5 is fed by the engine and takes one element of FP32 in each of its 8
planes, and nest 0 walks 64 elements, one sample of it. -/
def copyingCtx : Ctx :=
  ({ bud := { ibud := 1000, tbud := 1000 }
     csr := { groupsz := 1 }
     eng := { nests := [(0, { count := [(0, 64)], stride := [(0, 4)], pack := 64 })] } } : Ctx).setSg 5
    { width := 8, depth := 2, rate := 255, planes := 8, scalesig := 127, feed := 1 }

def copying : State :=
  { seats := [(0, { phase := .running, step := some (0, 0), share := 2048, ctx := copyingCtx })]
    steps := [(0, { present := true, uid := 1, fresh := false, members := [{ place := .onSeat 0 }] })]
    tasks := [(0, { present := true, part := 1, steps := 2, next := 2 })]
    parts := [(1, { present := true, depotBytes := 2 ^ 24 })]
    host := { resetting := false } }

/-- A load of that sample under handle 3. -/
def copyingOps : XcOps := ⟨5, 9, 0, 1, 0, 0, 3, 0⟩

theorem runs_copying : Runs .always 1 4 copying :=
  ⟨⟨⟨rfl, rfl, rfl, rfl, rfl, nofun, rfl, rfl, rfl, rfl, rfl⟩, by decide, by decide⟩, nofun, rfl⟩

/-- The commands that the current seat of an outcome has taken. -/
def engTaken : Out → Nat
  | .next t => (t.ctx 0).eng.taken
  | _ => 0

/-- The model counts the load. -/
theorem engTaken_copying : engTaken (exec (.cld .always copyingOps) copying) = 1 := by decide +kernel

end Sys2Proof.Machine
namespace Sys2Proof.Proofs
set_option Elab.async false
open Sys2Proof Sys2Proof.Machine

/-- Refutes O18: a CLD that is accepted counts one more command in `eng.taken`, which the stated effect leaves alone. -/
theorem not_copyAccepted : ¬ Obligations.CopyAccepted := by
  intro h
  obtain ⟨hcld, -⟩ := h copying .always copyingOps ⟨5, 6, 9, 0, 0, 0, 0, 3, 0⟩
  obtain ⟨t, hexec, hret⟩ := hcld rfl rfl rfl nofun runs_copying
  have hstated : (t.ctx 0).eng.taken = 0 := congrArg Engine.taken (hret.eng_eq (by decide))
  have hmodel : (t.ctx 0).eng.taken = 1 := by
    have := engTaken_copying
    rwa [hexec] at this
  omega

end Sys2Proof.Proofs
end

section
/-!
What accesses of memory leave alone. Rows, error code, caches, clocks, ports, host memory and events change the memories
and the dies; the seats, the steps, the cores and the channels stand. One relation says so, and that the memories stay
canonical.
-/
namespace Sys2Proof.Machine
set_option Elab.async false
open Sys2Proof

/-- The state without what accesses of memory change. -/
def State.beside (s : State) : State :=
  { s with
    agenda := [], freeCtr := 0, dies := [], mem := [], poisonMem := [], errs := [], stamps := [], serial := 0, anns := []
    accs := [], stackTab := [], host := { replies := s.host.replies }, fab := {} }

/-- u follows from s by accesses of memory. -/
structure Aside (u s : State) : Prop where
  beside : u.beside = s.beside
  wf : s.Wf → u.Wf

namespace Aside

variable {s u v : State}

theorem refl : Aside s s := ⟨rfl, id⟩

theorem trans (h : Aside v u) (h' : Aside u s) : Aside v s := ⟨h.beside.trans h'.beside, h.wf ∘ h'.wf⟩

theorem foldl {α : Type} {f : State → α → State} (h : ∀ s x, Aside (f s x) s) :
    ∀ (xs : List α) (s : State), Aside (xs.foldl f s) s
  | [], _ => refl
  | x :: xs, s => (foldl h xs (f s x)).trans (h s x)

theorem ite {p : Prop} [Decidable p] {a b : State} (ha : Aside a s) (hb : Aside b s) : Aside (if p then a else b) s := by
  split <;> assumption

theorem field {α : Type} (f : State → α) (h : Aside u s) (hf : ∀ w : State, f w.beside = f w) : f u = f s := by
  rw [← hf u, h.beside, hf]

theorem seats (h : Aside u s) : u.seats = s.seats := field State.seats h fun _ => rfl
theorem cur (h : Aside u s) : u.cur = s.cur := field State.cur h fun _ => rfl
theorem steps (h : Aside u s) : u.steps = s.steps := field State.steps h fun _ => rfl
theorem tasks (h : Aside u s) : u.tasks = s.tasks := field State.tasks h fun _ => rfl
theorem cores (h : Aside u s) : u.cores = s.cores := field State.cores h fun _ => rfl
theorem chans (h : Aside u s) : u.chans = s.chans := field State.chans h fun _ => rfl
theorem parts (h : Aside u s) : u.parts = s.parts := field State.parts h fun _ => rfl
theorem queues (h : Aside u s) : u.queues = s.queues := field State.queues h fun _ => rfl
theorem replies (h : Aside u s) : u.host.replies = s.host.replies := field (·.host.replies) h fun _ => rfl

theorem seat (h : Aside u s) (k : Nat) : u.seat k = s.seat k := by rw [State.seat, State.seat, h.seats]
theorem ctx (h : Aside u s) (k : Nat) : u.ctx k = s.ctx k := by rw [State.ctx, State.ctx, h.seat]
theorem step1 (h : Aside u s) (n : Nat) : u.step1 n = s.step1 n := by rw [State.step1, State.step1, h.steps]

theorem memberSeat (h : Aside u s) (st m : Nat) : memberSeat u st m = memberSeat s st m := by
  rw [Machine.memberSeat, Machine.memberSeat, h.step1]

theorem memberCtx (h : Aside u s) (st m : Nat) : u.memberCtx st m = s.memberCtx st m := by
  simp only [State.memberCtx, h.memberSeat, h.step1, h.ctx]

theorem keeps (h : Aside u s) {r : State} (hs : Keeps s r) : Keeps u r := hs.seats h.cur h.seats

end Aside

variable {s : State}

/-! Updates of what the relation leaves open. -/

theorem aside_updStack {n : Nat} {f : Stack → Stack} : Aside (s.updStack n f) s := ⟨rfl, fun h => ⟨h.mem, h.host, h.seats⟩⟩
theorem aside_updDie {d : Nat} {f : Die → Die} : Aside (s.updDie d f) s := ⟨rfl, fun h => ⟨h.mem, h.host, h.seats⟩⟩
theorem aside_accs {xs : List Access} : Aside { s with accs := xs } s := ⟨rfl, fun h => ⟨h.mem, h.host, h.seats⟩⟩
theorem aside_anns {xs : List Ann} : Aside { s with anns := xs } s := ⟨rfl, fun h => ⟨h.mem, h.host, h.seats⟩⟩
theorem aside_fab {x : Fabric} : Aside { s with fab := x } s := ⟨rfl, fun h => ⟨h.mem, h.host, h.seats⟩⟩
theorem aside_poisonMem {xs : List Nat} : Aside { s with poisonMem := xs } s := ⟨rfl, fun h => ⟨h.mem, h.host, h.seats⟩⟩
theorem aside_errs {m : Sparse Nat} : Aside { s with errs := m } s := ⟨rfl, fun h => ⟨h.mem, h.host, h.seats⟩⟩

/-- The registers of the host interface, its memory as it was. -/
theorem aside_host {x : HostIf} (hm : x.mem = s.host.mem) (hr : x.replies = s.host.replies := by rfl) :
    Aside { s with host := x } s :=
  ⟨by simp only [State.beside, hr], fun h => ⟨h.mem, by rw [hm]; exact h.host, h.seats⟩⟩

theorem aside_hostStore {a : Nat} {bs : List Byte} : Aside (hostStore a bs s) s :=
  ⟨rfl, fun h => ⟨h.mem, memWrite_wf h.host, h.seats⟩⟩

theorem aside_msix {v : Nat} : Aside (s.msix v) s := aside_host rfl

/-! Events (R453, R454). -/

theorem aside_drainEvents : ∀ (n : Nat) (s : State), Aside (drainEvents n s) s
  | 0, _ => .refl
  | n + 1, s => by
    rw [drainEvents]
    split
    · exact .refl
    · next e rest _ =>
      exact .ite .refl ((aside_drainEvents n _).trans (aside_msix.trans (aside_hostStore.trans (aside_host rfl))))

theorem aside_drainKept : Aside s.drainKept s := aside_drainEvents _ s

theorem aside_post {type die part : Nat} {payload : List Byte} : Aside (s.post type die part payload) s :=
  .ite (aside_host rfl) (aside_drainKept.trans (aside_host rfl))

theorem aside_stackEvent {n : Nat} : Aside (stackEvent n s) s := aside_post
theorem aside_coreEvent {c : Nat} : Aside (coreEvent c s) s := aside_post

/-! Rows, error code and poison (R421, R422, R426). -/

theorem aside_closeRow {n bank : Nat} {closing : Bool} : Aside (closeRow n bank closing s) s := by
  simp only [closeRow]
  split
  · exact .refl
  · exact .ite (aside_stackEvent.trans aside_updStack) aside_updStack

theorem aside_openRow {n : Nat} {p : Spot} : Aside (openRow n p s) s :=
  .ite aside_updStack (aside_updStack.trans (aside_closeRow.trans aside_updStack))

theorem aside_touchRow {pa : Nat} : Aside (touchRow pa s) s :=
  .ite (aside_closeRow.trans aside_openRow) (.ite (aside_closeRow.trans aside_openRow) aside_openRow)

theorem aside_scrubGran {g : Nat} : Aside (scrubGran g s) s :=
  .ite .refl (.ite (aside_updStack.trans aside_errs) (aside_updStack.trans (aside_poisonMem.trans aside_errs)))

theorem aside_homeRead {g : Nat} : Aside (homeRead g s).2.2 s := aside_scrubGran.trans aside_touchRow

/-! Announcements (R377, R379). -/

theorem aside_patchCache {d serial : Nat} {cells : List Host.Cell} {bad : Bool} :
    Aside (patchCache d serial cells bad s) s := aside_updDie

theorem aside_applyAnn {a : Ann} : Aside (applyAnn a s) s := aside_patchCache.trans aside_updDie

theorem aside_syncDie (d : Nat) : ∀ (n : Nat) (s : State), Aside (syncDie d n s) s
  | 0, _ => .refl
  | n + 1, s => by
    rw [syncDie]
    split
    · exact (aside_syncDie d n _).trans (aside_applyAnn.trans aside_anns)
    · exact .refl

theorem aside_sync {d : Nat} : Aside (s.sync d) s := aside_syncDie d _ s

theorem aside_openWindow {d : Nat} : Aside (openWindow d s) s :=
  .ite (.foldl (fun _ _ => aside_sync) _ _) .refl

/-! Writes and reads at the home (R371, R375 to R379). -/

theorem aside_openGrans {pa n : Nat} : Aside (openGrans pa n s) s :=
  .foldl (fun _ _ => .ite aside_touchRow (aside_scrubGran.trans aside_touchRow)) _ _

/-- The write itself, on a state that the home has made ready. -/
theorem aside_written {v : State} (hv : Aside v s) {pa serial : Nat} {bs : List Byte} {p : List Nat} {e : Sparse Nat}
    {m : Sparse VClock} {xs : List Ann} :
    Aside { v with serial := serial, mem := memWrite v.mem pa bs, poisonMem := p, errs := e, stamps := m, anns := xs } s :=
  Aside.trans (u := v) ⟨rfl, fun h => ⟨memWrite_wf h.mem, h.host, h.seats⟩⟩ hv

theorem aside_putMem {d pa : Nat} {bs : List Byte} {bad : Bool} : Aside (putMem d pa bs bad s) s := by
  have hwindow : Aside (openWindow d (openGrans pa bs.length s)) s := aside_openWindow.trans aside_openGrans
  have hhome : Aside (if homeDie pa = d then openWindow d (openGrans pa bs.length s)
      else (openWindow d (openGrans pa bs.length s)).sync (homeDie pa)) s := .ite hwindow (aside_sync.trans hwindow)
  unfold putMem
  exact .ite .refl (aside_written (.ite (aside_updDie.trans hhome)
    (aside_patchCache.trans (aside_updDie.trans (aside_updDie.trans hhome)))))

theorem aside_keepLine {d g : Nat} {bytes : List Byte} {bad : Bool} : Aside (keepLine d g bytes bad s) s := aside_updDie

theorem aside_applySeen {d g : Nat} : Aside (applySeen d g s) s := .ite .refl aside_sync

theorem aside_getMem {d pa n : Nat} {via : Via} : Aside (getMem d pa n via s).2.2 s := by
  simp only [getMem]
  split
  · exact aside_homeRead
  · split
    · exact .refl
    · exact .ite (aside_keepLine.trans (aside_homeRead.trans aside_applySeen)) (aside_homeRead.trans aside_applySeen)

/-! The die port (R419, R420). -/

theorem aside_serveAcc {n : Nat} : Aside (serveAcc n s) s := by
  unfold serveAcc
  split
  · exact .refl
  · split
    · exact .ite (aside_accs.trans aside_putMem) (aside_accs.trans aside_getMem)
    · exact .refl
    · exact .refl

theorem aside_settleDue {q : Access → Bool} : Aside (settleDue q s) s := .foldl (fun _ _ => aside_serveAcc) _ _

theorem aside_settlePort {d pa n : Nat} {tc : BitVec 3} : Aside (settlePort d pa n s tc) s :=
  .ite .refl (aside_settleDue.trans aside_settleDue)

theorem aside_checkedRead {d pa n : Nat} {via : Via} {tc : BitVec 3} : Aside (checkedRead d pa n via s tc).2.2 s :=
  aside_getMem.trans aside_settlePort

theorem aside_checkedWrite {d pa : Nat} {bs : List Byte} {bad : Bool} {tc : BitVec 3} :
    Aside (checkedWrite d pa bs bad s tc) s := aside_putMem.trans aside_settlePort

theorem aside_writeMem {d pa : Nat} {bs : List Byte} {tc : BitVec 3} : Aside (writeMem d pa bs s tc) s :=
  aside_checkedWrite

theorem aside_readMem (d : Nat) (via : Via) (tc : BitVec 3) :
    ∀ (fuel pa n : Nat) (s : State), Aside (readMem d via tc fuel pa n s).2.2 s
  | 0, _, _, _ => .refl
  | fuel + 1, pa, n, s => by
    rw [readMem]
    split
    · exact .refl
    · exact (aside_readMem d via tc fuel _ _ _).trans aside_checkedRead

theorem aside_readMarked {d pa n : Nat} {via : Via} {tc : BitVec 3} : Aside (s.readMarked d pa n via tc).2.2 s :=
  aside_readMem d via tc _ _ _ s

theorem aside_read {d pa n : Nat} {via : Via} {tc : BitVec 3} : Aside (s.read d pa n via tc).2.2 s := aside_readMarked

theorem aside_writeMarked (d : Nat) (tc : BitVec 3) :
    ∀ (fuel pa : Nat) (bs : List Byte) (bads : List Bool) (s : State), Aside (writeMarked d tc fuel pa bs bads s) s
  | 0, _, _, _, _ => .refl
  | fuel + 1, pa, bs, bads, s => by
    rw [writeMarked]
    exact .ite .refl ((aside_writeMarked d tc fuel _ _ _ _).trans aside_checkedWrite)

theorem aside_fetchGran {d pa n : Nat} : Aside (fetchGran d pa n s).2.2 s := aside_checkedRead

theorem aside_casMem {d pa old new : Nat} {tc : BitVec 3} : Aside (casMem d pa old new s tc).2 s := by
  have hread : Aside (homeRead (pa / 64) (settlePort d pa 8 s tc)).2.2 s := aside_homeRead.trans aside_settlePort
  unfold casMem
  simp only
  split
  · exact aside_putMem.trans hread
  · exact aside_sync.trans hread

theorem aside_nmFetch {h pa n : Nat} {tc : BitVec 3} : Aside (nmFetch h pa n s tc).2.2 s :=
  aside_applySeen.trans aside_checkedRead

theorem aside_nmWrite {pa : Nat} {bs : List Byte} {tc : BitVec 3} : Aside (nmWrite pa bs s tc) s :=
  aside_writeMem.trans aside_sync

theorem aside_dropLines {d : Nat} {p : Nat → Bool} : Aside (dropLines d p s) s := aside_updDie

/-! Wayline sending (R470 to R478). -/

theorem aside_updPort {n : Nat} {f : Port → Port} : Aside (s.updPort n f) s := aside_fab

theorem aside_pump {n : Nat} : Aside (s.pump n) s := .ite .refl aside_updPort

theorem aside_launchWire {w : Wire} : Aside (launchWire w s) s := by
  unfold launchWire
  split
  · exact aside_fab
  · exact .ite .refl (aside_pump.trans aside_updPort)

theorem aside_enflow {w : Wire} : Aside (enflow w s).2 s := by
  unfold enflow
  simp only
  split <;> exact aside_fab

theorem aside_agenda {xs : List Turn} : Aside { s with agenda := xs } s := ⟨rfl, fun h => ⟨h.mem, h.host, h.seats⟩⟩

theorem aside_sendWire {w : Wire} : Aside (sendWire w s) s :=
  .ite aside_agenda (.ite (aside_launchWire.trans aside_enflow) aside_launchWire)

theorem aside_send {die cls op : Nat} {tcls : BitVec 3} {pkg : BitVec 18} {ddie : Nat} {target : Word} {tag : BitVec 32}
    {payload : List Byte} : Aside (s.send die cls op tcls pkg ddie target tag payload) s := aside_sendWire

theorem aside_newTag : Aside s.newTag.2 s := aside_fab

end Sys2Proof.Machine
end

section
/-!
What the copy engine leaves alone. It changes contexts in their handles, copies, signals and traffic; the phase of every
seat, its position, its registers and its instruction budget stand.
-/
namespace Sys2Proof.Machine
set_option Elab.async false
open Sys2Proof

/-- A change of a context that leaves its registers, its position and its instruction budget alone. -/
def Mild (f : Ctx → Ctx) : Prop := ∀ c, (f c).regs = c.regs ∧ (f c).pos = c.pos ∧ (f c).bud.ibud = c.bud.ibud

/-- u has the seats of s in their phases and with their steps, with their registers, positions and instruction budgets. -/
structure Still (u s : State) : Prop where
  wf : u.Wf
  cur : u.cur = s.cur
  phase : ∀ k, (u.seat k).phase = (s.seat k).phase
  step : ∀ k, (u.seat k).step = (s.seat k).step
  regs : ∀ k, (u.ctx k).regs = (s.ctx k).regs
  pos : ∀ k, (u.ctx k).pos = (s.ctx k).pos
  ibud : ∀ k, (u.ctx k).bud.ibud = (s.ctx k).bud.ibud

/-- u follows from s, if s is well formed, by steps that leave the seats in that way. -/
def Steady (u s : State) : Prop := s.Wf → Still u s

theorem Mild.id : Mild id := fun _ => ⟨rfl, rfl, rfl⟩

theorem Mild.comp {f g : Ctx → Ctx} (hf : Mild f) (hg : Mild g) : Mild (f ∘ g) := fun c =>
  have hc := hf (g c)
  have hc' := hg c
  ⟨hc.1.trans hc'.1, hc.2.1.trans hc'.2.1, hc.2.2.trans hc'.2.2⟩

theorem Mild.ite {p : Ctx → Prop} [DecidablePred p] {f g : Ctx → Ctx} (hf : Mild f) (hg : Mild g) :
    Mild fun c => if p c then f c else g c := fun c => by
  simp only
  split
  · exact hf c
  · exact hg c

namespace Steady

variable {s u v : State}

theorem refl : Steady s s := fun h =>
  ⟨h, rfl, fun _ => rfl, fun _ => rfl, fun _ => rfl, fun _ => rfl, fun _ => rfl⟩

theorem trans (h : Steady v u) (h' : Steady u s) : Steady v s := fun hs =>
  have hu := h' hs
  have hv := h hu.wf
  ⟨hv.wf, hv.cur.trans hu.cur, fun k => (hv.phase k).trans (hu.phase k),
    fun k => (hv.step k).trans (hu.step k), fun k => (hv.regs k).trans (hu.regs k),
    fun k => (hv.pos k).trans (hu.pos k), fun k => (hv.ibud k).trans (hu.ibud k)⟩

theorem foldl {α : Type} {f : State → α → State} (h : ∀ s x, Steady (f s x) s) :
    ∀ (xs : List α) (s : State), Steady (xs.foldl f s) s
  | [], _ => refl
  | x :: xs, s => (foldl h xs (f s x)).trans (h s x)

theorem ite {p : Prop} [Decidable p] {a b : State} (ha : Steady a s) (hb : Steady b s) :
    Steady (if p then a else b) s := by
  split <;> assumption

/-- A change of anything but the seats. -/
theorem of_seats (hs : u.seats = s.seats) (hc : u.cur = s.cur) (hw : s.Wf → u.Wf) : Steady u s := fun h =>
  have hk : ∀ k, u.seat k = s.seat k := fun k => by rw [State.seat, State.seat, hs]
  ⟨hw h, hc, fun k => by rw [hk], fun k => by rw [hk], fun k => by rw [State.ctx, hk, State.ctx], fun k => by rw [State.ctx, hk, State.ctx],
    fun k => by rw [State.ctx, hk, State.ctx]⟩

theorem of_aside (h : Aside u s) : Steady u s := of_seats h.seats h.cur h.wf

/-- A change of one context. -/
theorem updCtx {k : Nat} {f : Ctx → Ctx} (hf : Mild f) : Steady (s.updCtx k f) s := fun h => by
  have hseat : ∀ j, (s.updCtx k f).seat j = s.seat j ∨
      (s.updCtx k f).seat j = { s.seat j with ctx := f (s.ctx j) } := fun j => by
    by_cases hj : j = k
    · exact .inr (hj ▸ Sparse.get_set_wf h.seats)
    · exact .inl (Sparse.get_set_other h.seats hj)
  have hall : ∀ j, ((s.updCtx k f).seat j).phase = (s.seat j).phase ∧
      ((s.updCtx k f).seat j).step = (s.seat j).step ∧ ((s.updCtx k f).ctx j).regs = (s.ctx j).regs ∧
      ((s.updCtx k f).ctx j).pos = (s.ctx j).pos ∧ ((s.updCtx k f).ctx j).bud.ibud = (s.ctx j).bud.ibud := fun j => by
    rw [State.ctx]
    rcases hseat j with hj | hj <;> rw [hj]
    · exact ⟨rfl, rfl, rfl, rfl, rfl⟩
    · exact ⟨rfl, rfl, hf (s.ctx j)⟩
  exact ⟨⟨h.mem, h.host, Sparse.set_wf h.seats⟩, rfl, fun j => (hall j).1, fun j => (hall j).2.1,
    fun j => (hall j).2.2.1,
    fun j => (hall j).2.2.2.1, fun j => (hall j).2.2.2.2⟩

theorem updStep {n : Nat} {f : Step → Step} : Steady (s.updStep n f) s :=
  of_seats rfl rfl fun h => ⟨h.mem, h.host, h.seats⟩

theorem updCore {n : Nat} {f : Core → Core} : Steady (s.updCore n f) s :=
  of_seats rfl rfl fun h => ⟨h.mem, h.host, h.seats⟩

theorem updMemberCtx {st m : Nat} {f : Ctx → Ctx} (hf : Mild f) : Steady (s.updMemberCtx st m f) s := by
  unfold State.updMemberCtx
  split
  · exact updCtx hf
  · exact updStep

theorem keeps (h : Steady u s) (hw : s.Wf) (hr : (s.seat s.cur).phase = .running) : Keeps u s :=
  have hu := h hw
  ⟨hu.cur, (hu.phase _).trans hr, (congrArg BitVec.toInt (hu.ibud _)).ge, hu.pos _⟩

end Steady

/-! Changes of a context by the copy engine. -/

theorem mild_updHandle {h : Nat} {f : Handle → Handle} : Mild (·.updHandle h f) := fun _ => ⟨rfl, rfl, rfl⟩
theorem mild_updCopy {h : Nat} {f : Copy → Copy} : Mild (·.updCopy h f) := fun _ => ⟨rfl, rfl, rfl⟩
theorem mild_dropCopy {h : Nat} : Mild (·.dropCopy h) := fun _ => ⟨rfl, rfl, rfl⟩

theorem mild_raiseFill {n : BitVec 7} : ∀ f : Nat, Mild (raiseFill n f)
  | 0 => .id
  | f + 1 => fun c => by
    rw [raiseFill]
    split
    · exact (mild_raiseFill f) (c.setSg n _)
    · exact ⟨rfl, rfl, rfl⟩

theorem mild_raise {n : BitVec 7} : Mild (·.raise n) := fun c => mild_raiseFill _ c

theorem mild_landSamples {p : Copy} {n : Nat} : Mild (Ctx.landSamples p n) := fun c => by
  unfold Ctx.landSamples
  split
  · exact mild_raise _
  · exact ⟨rfl, rfl, rfl⟩

/-- A budget below the cap stays as it is when nothing is added. -/
theorem capAdd_zero (b : BitVec 48) : capAdd b 0 = b := by
  have hlt := BitVec.toInt_lt (x := b)
  have hmin : min (b.toInt + ((0 : Nat) : Int)) (2 ^ 47 - 1) = b.toInt := by omega
  rw [capAdd, hmin, BitVec.ofInt_toInt]

theorem mild_gainTraffic {stuck : Bool} {n : Nat} : Mild (Ctx.gain stuck 0 n) := fun c => by
  unfold Ctx.gain
  split
  · exact ⟨rfl, rfl, rfl⟩
  · exact ⟨rfl, rfl, capAdd_zero _⟩

theorem mild_finishCopy {stuck : Bool} {h : Nat} : Mild (Ctx.finishCopy stuck · h) := fun c => by
  have hend : ∀ f, Mild fun c => (c.dropCopy h).updHandle h f := fun f => mild_updHandle.comp mild_dropCopy
  simp only [Ctx.finishCopy]
  split
  · exact (mild_gainTraffic.comp (hend _)) c
  · split
    · exact (mild_landSamples.comp (hend _)) c
    · exact (mild_landSamples.comp (hend _)) c

/-! Accesses of a command (R234, R374). -/

section
variable {s : State}

theorem aside_sendRemote {d : Nat} {p : Copy} {pkg win off size : Nat} {data : List Byte} {bad : Bool} {tag : BitVec 32} :
    Aside (sendRemote d p pkg win off size data bad tag s) s := .ite aside_send aside_send

theorem aside_putAccess {p : Copy} {a : Access} : Aside (putAccess p a s) s := by
  simp only [putAccess]
  split
  · exact aside_sendRemote.trans (aside_accs.trans aside_newTag)
  · exact aside_accs
  · split <;> exact aside_accs

theorem steady_sendKept {k : Nat} {h : BitVec 4} {p : Copy} {t : Target} {unc : Bool} {e : Kept} :
    Steady (sendKept k h p t unc s e) s := by
  have hctx : Mild fun c =>
      let c1 := c.updCopy h.toNat fun q => { q with flying := q.flying + 1, kept := q.kept.filter fun x => x.elem != e.elem }
      if e.bad then c1.updHandle h.toNat fun x => { x with poison := true } else c1 :=
    .ite (p := fun _ => e.bad = true) (fun _ => ⟨rfl, rfl, rfl⟩) mild_updCopy
  exact (Steady.of_aside aside_putAccess).trans (.updCtx hctx)

theorem aside_pullWrite {d pa : Nat} {bs : List Byte} {bad : Bool} {tc : BitVec 3} :
    Aside (pullWrite d pa bs bad tc s) s := aside_sync.trans (aside_checkedWrite.trans aside_sync)

theorem steady_closeElem {st m h : Nat} {p : Copy} {e : Kept} : Steady (closeElem st m h p s e) s := by
  simp only [closeElem]
  split
  · exact .refl
  · split
    · exact steady_sendKept
    · exact .ite (.of_aside aside_pullWrite) (.of_aside aside_checkedWrite)
    · exact .of_aside aside_hostStore
    · exact .of_aside (aside_sendRemote.trans aside_newTag)

theorem steady_closePieces {st m h : Nat} : Steady (closePieces st m h s) s :=
  .ite .refl ((Steady.foldl (fun _ _ => steady_closeElem) _ _).trans (.updMemberCtx mild_updCopy))

theorem aside_dropWaiters {st m : Nat} {h : BitVec 4} : Aside (dropWaiters st m h s) s := by
  unfold dropWaiters
  exact aside_updDie

/-! The end of a command (R216, R221, R234). -/

theorem aside_freeStackCtx {p : Copy} : Aside (freeStackCtx p s) s := by
  unfold freeStackCtx
  split
  · exact aside_updStack
  · exact .refl

theorem steady_setLine {k p : Nat} {x : UnitW} : Steady (s.setLine k p x) s := .updCore

theorem steady_freeCtr {n : Nat} : Steady { s with freeCtr := n } s :=
  .of_seats rfl rfl fun h => ⟨h.mem, h.host, h.seats⟩

theorem steady_spoilLoad {st m h : Nat} : Steady (spoilLoad st m h s) s := by
  simp only [spoilLoad]
  split
  · exact .refl
  · exact .ite .refl (.foldl (fun _ _ => .foldl (fun _ _ => steady_freeCtr.trans steady_setLine) _ _) _ _)

theorem steady_tryFinish {st m h : Nat} : Steady (tryFinish st m h s) s :=
  .ite ((Steady.of_aside aside_freeStackCtx).trans ((Steady.updMemberCtx mild_finishCopy).trans steady_spoilLoad)) .refl

/-! Cancels (R234, R437). -/

theorem steady_cancelOne {st m h : Nat} : Steady (cancelOne st m h s) s :=
  steady_tryFinish.trans ((Steady.of_aside aside_dropWaiters).trans (steady_closePieces.trans
    (.updMemberCtx fun _ => ⟨rfl, rfl, rfl⟩)))

theorem steady_cancelCopy {st m h : Nat} : Steady (cancelCopy st m h s) s := .foldl (fun _ _ => steady_cancelOne) _ _

theorem steady_near {xs : List NmCmd} : Steady { s with near := xs } s :=
  .of_seats rfl rfl fun h => ⟨h.mem, h.host, h.seats⟩

theorem steady_cancelHandle {st m h : Nat} : Steady (cancelHandle st m h s) s :=
  .ite .refl (.ite ((Steady.of_aside aside_dropWaiters).trans (steady_near.trans (.updMemberCtx mild_updHandle)))
    (.ite (.updMemberCtx fun _ => ⟨rfl, rfl, rfl⟩) (.ite steady_cancelCopy .refl)))

end

end Sys2Proof.Machine
end

section
/-!
Handles, nests, fences and cancels (R218, R229, R233, R234, R437).
-/
namespace Sys2Proof.Machine
set_option Elab.async false
open Sys2Proof

/-- An instruction whose guard holds and whose slot traps with nothing that holds it. -/
theorem traps_of_guarded {i : Instr} {s : State} {g : Guard} {o : SlotOut} {c : Cause} {toll traffic : Nat}
    (he : exec i = issueOne i) (hw : i.wf = true) (hr : Runs g toll traffic s)
    (hslot : slotOf i s.cur s = guarded g (s.ctx s.cur) o) (hla : o.late (o.desc s) = none) (hh : o.hold = .free)
    (ht : o.trap = some c) (hst : Instr.transfer i = true → Straight s) :
    Traps i s c.code c.detail0 c.detail1 :=
  (traps_of_slot (congrFun he s) (hslot.trans (guarded_of_holds hr.guard)) hla hr.can (staticFault_clear hw hst) hh ht).1

variable {s : State} {g : Guard} {h d f : BitVec 4} {ra : BitVec 6} {sc : Scope} {k : FenceKind} {m : BitVec 8}

/-! CWAIT (R233). -/

/-- CWAIT goes on while the command of its handle is not incomplete. -/
theorem handleHold_of_state {c : Ctx} (hs : (c.handle h.toNat).state ∉ [1, 2, 4]) : handleHold c h = false := by
  have hnat : (c.handle h.toNat).state.toNat ∉ [1, 2, 4] := by
    intro hm
    apply hs
    generalize (c.handle h.toNat).state = x at hm
    revert hm x
    decide
  rw [handleHold]
  simpa using hnat

/-- The slot of CWAIT lets a handle go by that is neither incomplete nor failed. -/
theorem cwait_free {c : Ctx} (hs : (c.handle h.toNat).state ∉ [1, 2, 4, 6]) :
    (if handleHold c h then Hold.outside else .free) = .free ∧
    (if (c.handle h.toNat).state == 6 then some (⟨0x0C, 0, handleDetail h⟩ : Cause) else none) = none := by
  have hhold : handleHold c h = false := handleHold_of_state fun hm => hs (List.mem_append_left [6] hm)
  rw [hhold]
  exact ⟨rfl, if_neg fun h6 => hs (by rw [eq_of_beq h6]; decide)⟩

theorem passes_cwait (hg : g.ok = true) (hr : Runs g 1 0 s)
    (hs : ((s.ctx s.cur).handle h.toNat).state ∉ [1, 2, 4, 6]) (hop : ((s.ctx s.cur).handle h.toNat).opcode ≠ 0x0C) :
    Passes (.cwait g h) s :=
  have hfree := cwait_free hs
  completes_of_guarded ⟨rfl, rfl, rfl⟩ hg hr rfl ⟨rfl, hfree.1, hfree.2, rfl⟩
    (if_neg fun h12 => hop (eq_of_beq h12)) (keeps_refl hr.can.running)

/-- CWAIT on a pull that has ended notes what the dies have applied. -/
theorem computes_cwait (hg : g.ok = true) (hr : Runs g 1 0 s)
    (hs : ((s.ctx s.cur).handle h.toNat).state ∉ [1, 2, 4, 6]) (hop : ((s.ctx s.cur).handle h.toNat).opcode = 0x0C) :
    Computes (.cwait g h) s (fun c => { c with eng.cover := [0, 1, 2, 3].map fun e => (e, (s.die e).vc.get e) }) 0 :=
  have hfree := cwait_free hs
  computes_of_guarded ⟨rfl, rfl, rfl⟩ hg hr rfl ⟨rfl, hfree.1, hfree.2, rfl⟩ (if_pos (by rw [hop]; rfl))
    (fun _ => rfl) (fun _ => rfl)

/-- CWAIT on a failed handle traps. -/
theorem traps_cwait (hg : g.ok = true) (hr : Runs g 1 0 s) (hs : ((s.ctx s.cur).handle h.toNat).state = 6) :
    Traps (.cwait g h) s 0x0C 0 (handleDetail h) :=
  have hhold : handleHold (s.ctx s.cur) h = false := handleHold_of_state (by rw [hs]; decide)
  traps_of_guarded (c := ⟨0x0C, 0, handleDetail h⟩) rfl hg hr rfl rfl (if_neg (by rw [hhold]; decide))
    (if_pos (by rw [hs]; rfl)) nofun

/-! DSET and the fences (R218, R229). -/

theorem computes_dset (hg : g.ok = true) (hr : Runs g 1 0 s) (hf : f.toNat ≤ 13)
    (hx : dsetOk f.toNat ((s.ctx s.cur).s ra) = true) : Computes (.dset g d f ra) s (fun c =>
      { c with eng.nests :=
          c.eng.nests.set {} d.toNat ((c.eng.nests.get {} d.toNat).setField f.toNat ((s.ctx s.cur).s ra)) }) 0 := by
  have hw : (Instr.dset g d f ra).wf = true := by simp [Instr.wf, hg, hf]
  have htrap : (if dsetOk f.toNat ((s.ctx s.cur).s ra) then none else some (cause 0x01)) = none := if_pos hx
  exact computes_of_guarded ⟨rfl, rfl, rfl⟩ hw hr rfl ⟨rfl, rfl, htrap, rfl⟩ rfl (fun _ => rfl) (fun _ => rfl)

/-- What a fence does to its context. -/
def fenceAfter (nm : Bool) (sc : Scope) (k : FenceKind) (m : BitVec 8) (c : Ctx) : Ctx :=
  { c with eng.fences := c.eng.fences ++ [⟨c.eng.nextSeq, fenceScope sc, k, m, nm⟩], eng.nextSeq := c.eng.nextSeq + 1 }

theorem computes_fence (hg : g.ok = true) (hr : Runs g 1 0 s) (hm : m ≠ 0) :
    Computes (.fence g sc k m) s (fenceAfter false sc k m) 0 ∧
      Computes (.nmfence g sc k m) s (fenceAfter true sc k m) 0 := by
  have hw : (g.ok && m != 0) = true := by simpa [hg] using hm
  exact ⟨computes_of_guarded ⟨rfl, rfl, rfl⟩ hw hr rfl ⟨rfl, rfl, rfl, rfl⟩ rfl (fun _ => rfl) (fun _ => rfl),
    computes_of_guarded ⟨rfl, rfl, rfl⟩ hw hr rfl ⟨rfl, rfl, rfl, rfl⟩ rfl (fun _ => rfl) (fun _ => rfl)⟩

/-! CCANCEL and CUNSUB (R234, R437). -/

/-- Both cancel what the handle holds. -/
theorem completes_cancel {eff : State → State} (hg : g.ok = true) (hr : Runs g 1 0 s) (hw : s.Wf)
    (heff : cancelHandle (s.stepKey s.cur) (s.memberNo s.cur) h.toNat s = eff s) :
    Completes (.ccancel g h) s eff 0 1 0 ∧ Completes (.cunsub g h) s eff 0 1 0 := by
  have hk : Keeps (eff s) s := heff ▸ steady_cancelHandle.keeps hw hr.can.running
  exact ⟨completes_of_guarded ⟨rfl, rfl, rfl⟩ hg hr rfl ⟨rfl, rfl, rfl, rfl⟩ heff hk,
    completes_of_guarded ⟨rfl, rfl, rfl⟩ hg hr rfl ⟨rfl, rfl, rfl, rfl⟩ heff hk⟩

section
variable {st n : Nat}

/-- A handle that is not busy, or drains already, has nothing to cancel. -/
theorem cancelHandle_idle (hd : ((s.memberCtx st n).handle h.toNat).busy = false ∨
    ((s.memberCtx st n).handle h.toNat).state = 4) : cancelHandle st n h.toNat s = s := by
  refine if_pos ?_
  rcases hd with hb | h4
  · rw [hb]; rfl
  · rw [h4]; simp

variable (hb : ((s.memberCtx st n).handle h.toNat).busy = true) (h4 : ((s.memberCtx st n).handle h.toNat).state ≠ 4)
include hb h4

theorem cancelHandle_busy : (!((s.memberCtx st n).handle h.toNat).busy ||
    ((s.memberCtx st n).handle h.toNat).state == 4) = false := by simpa [hb] using h4

theorem cancelHandle_scacc (h6 : ((s.memberCtx st n).handle h.toNat).opcode = 6) :
    cancelHandle st n h.toNat s = s.updMemberCtx st n fun c =>
      (c.dropCopy h.toNat).updHandle h.toNat fun x => { x with state := 7 } := by
  simp only [cancelHandle, cancelHandle_busy hb h4, h6]
  rfl

theorem cancelHandle_near (hn : ((s.memberCtx st n).handle h.toNat).opcode ∈ [0x10, 0x12]) :
    cancelHandle st n h.toNat s = dropWaiters st n h
      { s.updMemberCtx st n fun c => c.updHandle h.toNat fun x => { x with state := 4 } with
        near := s.near.map fun x => if x.step == st && x.member == n && x.h.toNat == h.toNat
          then { x with cancelled := true, suspended := false } else x } := by
  have hop : (((s.memberCtx st n).handle h.toNat).opcode == 0x10 || ((s.memberCtx st n).handle h.toNat).opcode == 0x12) =
      true := by simpa using hn
  simp only [cancelHandle, cancelHandle_busy hb h4, hop, BitVec.ofNat_toNat, BitVec.setWidth_eq]
  rfl

theorem cancelHandle_copy (hc : isCopyOp ((s.memberCtx st n).handle h.toNat).opcode = true)
    (h6 : ((s.memberCtx st n).handle h.toNat).opcode ≠ 6) : cancelHandle st n h.toNat s = cancelCopy st n h.toNat s := by
  have hop : (((s.memberCtx st n).handle h.toNat).opcode == 0x10 || ((s.memberCtx st n).handle h.toNat).opcode == 0x12) =
      false := by
    generalize ((s.memberCtx st n).handle h.toNat).opcode = x at hc ⊢
    revert hc x
    decide
  have h6' : (((s.memberCtx st n).handle h.toNat).opcode == 6) = false := by simpa using h6
  simp only [cancelHandle, cancelHandle_busy hb h4, hop, h6', hc]
  rfl

end

end Sys2Proof.Machine
namespace Sys2Proof.Proofs
set_option Elab.async false
open Sys2Proof Sys2Proof.Machine

theorem handlesAndFences : Claims.HandlesAndFences := by
  intro s g h d f ra sc k m hg hr
  exact ⟨fun hs => ⟨passes_cwait hg hr hs, computes_cwait hg hr hs⟩, traps_cwait hg hr, computes_dset hg hr,
    computes_fence hg hr⟩

theorem cancels : Claims.Cancels := by
  intro s g h hg hr hw
  exact ⟨fun hd => completes_cancel hg hr hw (cancelHandle_idle hd),
    fun hb h4 h6 => completes_cancel hg hr hw (cancelHandle_scacc hb h4 h6),
    fun hb h4 hn => completes_cancel hg hr hw (cancelHandle_near hb h4 hn),
    fun hb h4 hc h6 => completes_cancel hg hr hw (cancelHandle_copy hb h4 hc h6)⟩

/-- Settles O19: the slots of CWAIT, DSET and the fences, and CCANCEL and CUNSUB by what their handle holds. -/
theorem copyControl : Obligations.CopyControl := ⟨handlesAndFences, cancels⟩

end Sys2Proof.Proofs
end

section
/-!
SCACC, NMCMD and NMATOM (R235, R236, R430 to R432, R437).
-/
namespace Sys2Proof.Machine
set_option Elab.async false
open Sys2Proof

variable {s : State} {g : Guard} {o : XsOps} {sig : BitVec 7} {ra : BitVec 6} {h : BitVec 4}

/-- A handle that was just taken is read back. -/
theorem takeHandle_handle {c : Ctx} {x : Handle} (hx : x ≠ {}) : (takeHandle h x c).handle h.toNat = x :=
  Sparse.get_set_same hx

/-- The traps of SCACC are those of its tap reads, once its signals are present and its table is one. -/
theorem computes_scacc (hw : (Instr.scacc g o).wf = true) (hr : Runs g 1 0 s)
    (hp : ((s.ctx s.cur).sg o.tbl).present = true) (hf : ((s.ctx s.cur).sg o.tbl).feed = 1)
    (ht : ((s.ctx s.cur).sg o.tbl).isTable = true)
    (hm : ((s.ctx s.cur).sg o.tbl).fmt ∈ [Fmt.fp32, .fp16, .bf16, .int32])
    (hpi : ((s.ctx s.cur).sg o.idx).present = true) (hpv : ((s.ctx s.cur).sg o.val).present = true)
    (hi : ((s.ctx s.cur).sg o.idx).fmt = .int32) 
    (hri : TapReady s (resolve (s.ctx s.cur) o.idx 0) none
      ((resolve (s.ctx s.cur) o.idx 0).span (resolve (s.ctx s.cur) o.idx 0).g.elems))
    (hrv : TapReady s (resolve (s.ctx s.cur) o.val 0) none
      ((resolve (s.ctx s.cur) o.val 0).span (resolve (s.ctx s.cur) o.idx 0).g.elems))
    (hh : handleHold (s.ctx s.cur) o.h = false) :
    Computes (.scacc g o) s (scaccAccepted o (scaccPairs s s.cur (s.ctx s.cur) ((s.ctx s.cur).sg o.tbl)
      (resolve (s.ctx s.cur) o.idx 0) (resolve (s.ctx s.cur) o.val 0))) 0 := by
  refine computes_of_guarded ⟨rfl, rfl, rfl⟩ hw hr rfl ⟨rfl, ?_, ?_, rfl⟩ rfl (fun _ => rfl) (fun _ => rfl)
  · simp only [hri.2, hrv.2, hh, Bool.and_false, Bool.or_false]
    rfl
  · have habsent : ([o.tbl, o.idx, o.val].findSome? fun x =>
        if ((s.ctx s.cur).sg x).present then none else some (sigCause 0x08 x none)) = none := by
      simp [hp, hpi, hpv]
    have hfmt : (((s.ctx s.cur).sg o.tbl).isTable && [Fmt.fp32, .fp16, .bf16, .int32].contains
        ((s.ctx s.cur).sg o.tbl).fmt && ((s.ctx s.cur).sg o.idx).fmt == .int32) = true := by
      simp only [ht, hi, List.contains_iff_mem.mpr hm]
      rfl
    have hfeed : (((s.ctx s.cur).sg o.tbl).feed != 1) = false := by rw [hf]; rfl
    show (List.findSome? _ _).or _ = none
    rw [habsent, hfeed, hri.1, hrv.1]
    exact if_pos hfmt

theorem scaccPairs_length {k : Nat} {c : Ctx} {tbl : Sig} {ix vx : Tap} :
    (scaccPairs s k c tbl ix vx).length = ix.g.elems := by simp [scaccPairs]

/-! Near memory. -/

/-- The sample that a near-memory instruction reads, from its first unit on. -/
def nearTap (c : Ctx) (sig : BitVec 7) : Tap := { resolve c sig 0 with off := 0 }

/-- The records of n pairs of units of that sample. -/
def nearRecords (s : State) (sig : BitVec 7) (n : Nat) : List (List Byte) :=
  (List.range n).map fun j => unitsBytes s s.cur (s.ctx s.cur) (nearTap (s.ctx s.cur) sig) [2 * j, 2 * j + 1]

/-- What a near-memory command is as a slot, when it reads the units us of its sample. -/
def nearOut (s : State) (atomic : Bool) (sig : BitVec 7) (ra : BitVec 6) (h : BitVec 4) (us : List Nat) : SlotOut :=
  let c := s.ctx s.cur
  let n := (c.s ra).toNat
  let t := nearTap c sig
  let rs := nearRecords s sig (us.length / 2)
  let ok := if atomic then atRecordOk else nmRecordOk
  { uses := sUse ra ++ [.sample sig.toNat t.idx]
    hold := if t.g.present && t.unfilled s s.cur c then .unfilled else if handleHold c h then .outside else .free
    listed := true
    other := handleHold c h
    trap := (absentTrap c sig).or ((if 1 ≤ n && 2 * n ≤ t.g.width.toNat then none else some (cause 0x01)).or
      ((unitsTrap s s.cur c t us).or ((if rs.all ok then none else some (cause 0x01)).or
        (((rs.flatMap (nmAddrs atomic)).find? fun a => a ≥ 2 ^ 48).map fun a =>
          ⟨0x0B, BitVec.ofNat 64 a, handleDetail h⟩))))
    accept := nmAccept atomic s.cur sig h rs
    traffic := if atomic then 2 * n else n + (rs.map nmGranules).sum
    units := if t.live then us.map (s.unitOf s.cur t.g t.slot) else [] }

variable {atomic : Bool} {n : Nat}

/-- No address of records that are in range is out of range. -/
theorem nmAddrs_low {rs : List (List Byte)} (h : ∀ x ∈ rs, ∀ a ∈ nmAddrs atomic x, a < 2 ^ 48) :
    ((rs.flatMap (nmAddrs atomic)).find? fun a => decide (a ≥ 2 ^ 48)) = none := by
  rw [List.find?_eq_none]
  intro a ha
  obtain ⟨x, hx, hax⟩ := List.mem_flatMap.mp ha
  simpa using h x hx a hax

section
variable (hn : ((s.ctx s.cur).s ra).toNat = n) (hp : (nearTap (s.ctx s.cur) sig).g.present = true)
  (h2 : 2 * n ≤ (nearTap (s.ctx s.cur) sig).g.width.toNat)
include hn h2

/-- With as many units as its records need, a near-memory command reads those. -/
theorem nmSlot_eq : nmSlot atomic g sig ra h s.cur s =
    guarded g (s.ctx s.cur) (nearOut s atomic sig ra h (List.range (2 * n))) := by
  have hmin : min (2 * ((s.ctx s.cur).s ra).toNat) (nearTap (s.ctx s.cur) sig).g.width.toNat = 2 * n := by
    rw [hn]; exact min_eq_left h2
  rw [← hmin]
  rfl

include hp

theorem nearOut_free (hf : (nearTap (s.ctx s.cur) sig).unfilled s s.cur (s.ctx s.cur) = false)
    (hh : handleHold (s.ctx s.cur) h = false) (h1 : 1 ≤ n)
    (hu : unitsTrap s s.cur (s.ctx s.cur) (nearTap (s.ctx s.cur) sig) (List.range (2 * n)) = none)
    (hok : ∀ x ∈ nearRecords s sig ((List.range (2 * n)).length / 2),
      (if atomic then atRecordOk x else nmRecordOk x) = true ∧ ∀ a ∈ nmAddrs atomic x, a < 2 ^ 48) :
    (nearOut s atomic sig ra h (List.range (2 * n))).Free s := by
  have hcheck : (nearRecords s sig ((List.range (2 * n)).length / 2)).all (if atomic then atRecordOk else nmRecordOk) =
      true := by
    rw [List.all_eq_true]
    intro x hx
    rw [ite_apply]
    exact (hok x hx).1
  have habsent : absentTrap (s.ctx s.cur) sig = none := if_pos hp
  have hcount : (decide (1 ≤ n) && decide (2 * n ≤ (nearTap (s.ctx s.cur) sig).g.width.toNat)) = true := by simp [h1, h2]
  refine ⟨rfl, ?_, ?_, rfl⟩
  · simp only [nearOut, hp, hf, hh]; rfl
  · simp only [nearOut, habsent, hn, hcount, hu, hcheck, nmAddrs_low fun x hx => (hok x hx).2]; rfl

end

theorem completes_near {us : List Nat} {traffic : Nat}
    (hw : (if atomic then Instr.nmatom g sig ra h else .nmcmd g sig ra h).wf = true) (hr : Runs g 1 traffic s)
    (hslot : nmSlot atomic g sig ra h s.cur s = guarded g (s.ctx s.cur) (nearOut s atomic sig ra h us))
    (hfree : (nearOut s atomic sig ra h us).Free s) (ht : (nearOut s atomic sig ra h us).traffic = traffic) :
    Completes (if atomic then .nmatom g sig ra h else .nmcmd g sig ra h) s
      (nmAccept atomic s.cur sig h (nearRecords s sig (us.length / 2))) 0 1 traffic := by
  have hk : Keeps (nmAccept atomic s.cur sig h (nearRecords s sig (us.length / 2)) s) s :=
    ((keeps_refl hr.can.running).updCtx (f := takeHandle h _) (fun _ => rfl) fun _ => rfl).seats rfl rfl
  cases atomic
  · exact completes_of_guarded ⟨rfl, rfl, rfl⟩ hw hr hslot hfree rfl hk (htraf := ht)
  · exact completes_of_guarded ⟨rfl, rfl, rfl⟩ hw hr hslot hfree rfl hk (htraf := ht)

end Sys2Proof.Machine
namespace Sys2Proof.Proofs
set_option Elab.async false
open Sys2Proof Sys2Proof.Machine

theorem scaccTaken : Claims.ScaccAccepted := by
  intro s g o hw hr c tb ix vx hp hf ht hm hpi hpv hi hri hrv hh pairs
  exact ⟨computes_scacc hw hr hp hf ht hm hpi hpv hi hri hrv hh, scaccPairs_length,
    congrArg Handle.state (takeHandle_handle (by simp))⟩

theorem nearMemoryAccepted : Claims.NearMemoryAccepted := by
  intro s g sig ra h atomic i c n t rs traffic hw hr hp hf hh h1 h2 hu hok
  have hhalf : ∀ n : Nat, (List.range (2 * n)).length / 2 = n := fun n => by rw [List.length_range]; omega
  have hfree := nearOut_free (s := s) (ra := ra) rfl hp h2 hf hh h1 hu (by rw [hhalf]; exact hok)
  have hdone := completes_near (traffic := traffic) hw hr (nmSlot_eq rfl h2) hfree (by simp only [nearOut, hhalf]; rfl)
  rwa [hhalf] at hdone

/-- Settles O20: the slots of SCACC, NMCMD and NMATOM, free once their checks pass. -/
theorem engineCommands : Obligations.EngineCommands := ⟨scaccTaken, nearMemoryAccepted⟩

end Sys2Proof.Proofs
end

section
/-!
CHSEND and CHSEND.try (R351, R354, R355, R484).
-/
namespace Sys2Proof.Machine
set_option Elab.async false
open Sys2Proof

variable {s u : State} {g : Guard} {n : BitVec 7} {ra rd : BitVec 6} {tri : Bool} {eff : State → State}

/-! What channels leave alone. -/

theorem wakeDie_seats (s : State) (d : Nat) : (s.wakeDie d).seats = s.seats ∧ (s.wakeDie d).cur = s.cur := by
  unfold State.wakeDie; split <;> exact ⟨rfl, rfl⟩

theorem armTrigger_seats (s : State) (ch : Nat) :
    (armTrigger ch s).seats = s.seats ∧ (armTrigger ch s).cur = s.cur := by
  simp only [armTrigger]; split <;> exact ⟨rfl, rfl⟩

theorem keeps_armTrigger {ch : Nat} (h : Keeps u s) : Keeps (armTrigger ch u) s :=
  h.seats (armTrigger_seats u ch).2 (armTrigger_seats u ch).1

theorem keeps_sendLocal {ch : Nat} {path : SendPath} {units : List UnitW} {poison : BitVec 128}
    {after : Option (Nat × Nat × Nat)} (h : Keeps u s) : Keeps (sendLocal ch path units poison after u) s := by
  have hsent : ∀ f, Keeps ((u.wakeDie (ch / 4096)).updChan ch f) s := fun f =>
    h.seats (wakeDie_seats u _).2 (wakeDie_seats u _).1
  simp only [sendLocal]
  split
  · exact hsent _
  · exact keeps_armTrigger (hsent _)

theorem aside_updProxy {r : Word} {w : Nat × Nat} {f : Proxy → Proxy} : Aside (updProxy r w f s) s := aside_fab

theorem aside_sendRemoteMsg {k : Nat} {r : Word} {path : SendPath} {units : List UnitW} {poison : BitVec 128} {seq : Nat} :
    Aside (sendRemoteMsg k r path units poison seq s) s := by
  simp only [sendRemoteMsg]
  split
  · exact .refl
  · next p _ =>
    have hcredit : Aside (if path = .ring then
        updProxy r p.writer (fun x => { x with pcred := x.pcred - 1, sent := x.sent + 1 }) s
      else updProxy r p.writer (fun x => { x with
          scred := x.scred - 1, pspill := true, pcred := if p.pspill then x.pcred else 0, sent := x.sent + 1 })
        (if p.pspill || p.pcred = 0 then s else s.send p.die 4 3 0 (regPkg r) (regDie r) r 0
            (leBytes 4 p.pcred ++ leBytes 4 0 ++ leBytes 4 p.binds.toNat ++ leBytes 4 1))) s :=
      .ite aside_updProxy (aside_updProxy.trans (.ite .refl aside_send))
    exact .ite (aside_fab.trans hcredit) (aside_sendWire.trans hcredit)

/-! CHSEND. -/

/-- A register value of a channel has nothing above bit 31 (R350). -/
theorem regTrap_none {r : Word} (h : r.toNat < 2 ^ 32) : regTrap r = none := if_pos h

/-- CHSEND.try, or CHSEND. -/
def sendInstr (tri : Bool) (g : Guard) (n : BitVec 7) (ra rd : BitVec 6) : Instr :=
  if tri then .chsendTry g n ra rd else .chsend g n ra rd

/-- What the end of a channel is for a send: whether the seat may use it, its width, its count, its path, what sends
a message, and whether a held send arms the trigger of a channel here. -/
structure SendEnd where
  own : Bool
  width : Nat
  num : Nat
  path : SendPath
  eff : State → State
  arms : Bool

/-- The slot of a send to such an end. -/
def sendOut (e : SendEnd) (s : State) (tri : Bool) (n : BitVec 7) (ra rd : BitVec 6) : SlotOut :=
  let c := s.ctx s.cur
  let r := c.s ra
  let t := resolve c n 0
  let usable := t.g.present && (regTrap r).isNone && e.own && (sourceTrap t).isNone
  let stop := usable && e.path == .none && !tri
  let early := t.g.present && (sourceTrap t).isNone && decide (0 ≤ t.idx) && decide (t.idx > t.g.fillMark)
  { sResult s.cur rd 1 (sUse ra ++ [.sample n.toNat t.idx]) (BitVec.ofNat 64 (e.num * 256 + e.path.status)) with
    hold := if early then .unfilled else if stop then .outside else .free
    listed := true
    lacks := if early then [(n, t.idx)] else []
    other := stop || t.g.feed == 0
    sendReg := if stop then some r else none
    onHold := if stop && e.arms then armTrigger (regKey r) else id
    trap := (absentTrap c n).or ((regTrap r).or ((if e.own then none else some (chanTrap r)).or (sourceTrap t)))
    accept := if e.path = .none then id else e.eff
    traffic := (e.width + 1) / 2
    units := if t.live then (List.range (min e.width t.g.width.toNat)).map (s.unitOf s.cur t.g t.slot) else [] }

/-- A channel of this package, whose writer the seat is. -/
def localEnd (s : State) (n : BitVec 7) (ra : BitVec 6) : SendEnd :=
  let k := s.cur
  let c := s.ctx k
  let r := c.s ra
  let ch := regKey r
  let x := s.chan ch
  let body := sourceUnits s k c (resolve c n 0) x.width
  { own := chanUsable s k r && x.writer == some (s.stepKey k, s.memberNo k) && !x.remote && x.state == 1
    width := x.width, num := x.sent, path := chanPath s ch
    eff := sendLocal ch (chanPath s ch) body.1 body.2 (some (s.stepKey k, s.memberNo k, c.eng.nextSeq))
    arms := !x.rbound }

/-- A channel of another package, with its proxy. -/
def remoteEnd (s : State) (n : BitVec 7) (ra : BitVec 6) (p : Proxy) : SendEnd :=
  let k := s.cur
  let c := s.ctx k
  let r := c.s ra
  let body := sourceUnits s k c (resolve c n 0) p.width
  { own := !p.fault, width := p.width, num := p.sent, path := proxyPath p
    eff := sendRemoteMsg k r (proxyPath p) body.1 body.2 c.eng.nextSeq, arms := false }

theorem chsendSlot_local (h : isRemote s ((s.ctx s.cur).s ra) = false) :
    chsendSlot tri g n ra rd s.cur s = guarded g (s.ctx s.cur) (sendOut (localEnd s n ra) s tri n ra rd) := by
  simp only [chsendSlot, h, Bool.not_false, Bool.and_true, if_false, Bool.false_eq_true]
  rfl

theorem chsendSlot_remote {p : Proxy} (h : isRemote s ((s.ctx s.cur).s ra) = true)
    (hp : s.proxy s.cur ((s.ctx s.cur).s ra) = some p) :
    chsendSlot tri g n ra rd s.cur s = guarded g (s.ctx s.cur) (sendOut (remoteEnd s n ra p) s tri n ra rd) := by
  have hheld : ∀ (stop : Bool) (f : State → State), (if stop && false then f else id) = id := by
    intro stop f; rw [Bool.and_false]; rfl
  simp only [chsendSlot, h, hp, Bool.not_true, Bool.and_false, Bool.false_and, if_true, Option.any_some, Option.map_some,
    Option.getD_some, Bool.false_eq_true, if_false]
  unfold sendOut remoteEnd
  simp only [hheld]

/-- The effect of a send: its status, then its message where it has a path. -/
def sendEffect (s : State) (rd : BitVec 6) (e : SendEnd) (u : State) : State :=
  (if e.path = .none then id else e.eff) (u.updCtx s.cur (·.setS rd (BitVec.ofNat 64 (e.num * 256 + e.path.status))))

/-- A send with a filled sample of a present signal to a usable end with room, or with .try, is free. -/
theorem sendOut_free {e : SendEnd} (hp : ((s.ctx s.cur).sg n).present = true)
    (hfill : (resolve (s.ctx s.cur) n 0).idx ≤ (resolve (s.ctx s.cur) n 0).g.fillMark)
    (hsrc : sourceTrap (resolve (s.ctx s.cur) n 0) = none) (h32 : ((s.ctx s.cur).s ra).toNat < 2 ^ 32)
    (hown : e.own = true) (hpath : tri = false → e.path ≠ .none) : (sendOut e s tri n ra rd).Free s := by
  have habsent : absentTrap (s.ctx s.cur) n = none := if_pos hp
  have hreg : regTrap ((s.ctx s.cur).s ra) = none := regTrap_none h32
  have hearly : decide ((resolve (s.ctx s.cur) n 0).idx > (resolve (s.ctx s.cur) n 0).g.fillMark) = false := by simpa using hfill
  have hstop : (e.path == .none && !tri) = false := by
    cases tri
    · simpa using hpath rfl
    · exact Bool.and_false _
  refine ⟨rfl, ?_, ?_, rfl⟩
  · simp only [sendOut, hearly, Bool.and_false, Bool.false_eq_true, if_false, Bool.and_assoc, hstop]
  · simp only [sendOut, habsent, hreg, hown, hsrc, Option.none_or, if_true]

/-- Such a send completes with its effect. -/
theorem completes_send {e : SendEnd} (hg : g.ok = true) (hn : sigOk n = true) (hr : Runs g 1 ((e.width + 1) / 2) s)
    (hslot : chsendSlot tri g n ra rd s.cur s = guarded g (s.ctx s.cur) (sendOut e s tri n ra rd))
    (hfree : (sendOut e s tri n ra rd).Free s) (hk : ∀ u, Keeps u s → Keeps (e.eff u) s) :
    Completes (sendInstr tri g n ra rd) s (sendEffect s rd e) 0 1 ((e.width + 1) / 2) := by
  have hw : (g.ok && sigOk n) = true := by simp [hg, hn]
  have hwrite : Keeps (s.updCtx s.cur (·.setS rd (BitVec.ofNat 64 (e.num * 256 + e.path.status)))) s :=
    (keeps_refl hr.can.running).updCtx (by simp) (by simp)
  have hkeeps : Keeps (sendEffect s rd e s) s := by
    unfold sendEffect
    split
    · exact hwrite
    · exact hk _ hwrite
  cases tri
  · exact completes_of_guarded ⟨rfl, rfl, rfl⟩ hw hr hslot hfree rfl hkeeps
  · exact completes_of_guarded ⟨rfl, rfl, rfl⟩ hw hr hslot hfree rfl hkeeps

end Sys2Proof.Machine
namespace Sys2Proof.Proofs
set_option Elab.async false
open Sys2Proof Sys2Proof.Machine

/-- Settles O21: one slot for both ends of a channel, free where the sample is filled and the end has room. -/
theorem channelSend : Obligations.ChannelSend := by
  intro s g n ra rd hg hn k c r t me ch hp hfill hsrc h32 both
  refine ⟨fun hrem husable hwriter hremote hstate => ?_, fun hrem p hproxy hfault => ?_⟩
  · intro body hr
    have hown : (localEnd s n ra).own = true := by
      show (chanUsable s k r && (s.chan ch).writer == some me && !(s.chan ch).remote && (s.chan ch).state == 1) = true
      rw [husable, hwriter, hremote, hstate]
      simp
    have sends := fun tri (hpath : tri = false → (localEnd s n ra).path ≠ .none) =>
      completes_send hg hn hr (chsendSlot_local (rd := rd) hrem) (sendOut_free hp hfill hsrc h32 hown hpath)
        fun _ => keeps_sendLocal
    exact ⟨fun hpath => sends false fun _ => hpath, sends true nofun⟩
  · intro body hr
    have hown : (remoteEnd s n ra p).own = true := by simp [remoteEnd, hfault]
    have sends := fun tri (hpath : tri = false → (remoteEnd s n ra p).path ≠ .none) =>
      completes_send hg hn hr (chsendSlot_remote (rd := rd) hrem hproxy) (sendOut_free hp hfill hsrc h32 hown hpath)
        fun _ h => aside_sendRemoteMsg.keeps h
    exact ⟨fun hpath => sends false fun _ => hpath, sends true nofun⟩

end Sys2Proof.Proofs
end

section
/-!
A held cycle of an instruction that waits for something outside its seat (R100, R105).
-/
namespace Sys2Proof.Machine
set_option Elab.async false
open Sys2Proof

variable {i : Instr} {s u : State} {o : SlotOut} {toll traffic : Nat}

/-- A seat whose one slot waits outside is held so. -/
theorem seatHold_outside (hc : CanIssue toll traffic s) (hh : o.hold = .outside) (b : Fetched) :
    seatWait s b s.cur [(0, o)] = .outside ∧ seatHold s b s.cur [(0, o)] = .outside := by
  have hscore : scoreHold (s.ctx s.cur) (s.clk s.cur) o = false := by
    simp only [scoreHold, List.any_eq_false]
    intro e he
    simp [Nat.not_lt.mpr (hc.final e he)]
  have hmerge : mergeHold s b s.cur [(0, o)] = false := by simp [mergeHold, hc.first, hc.beside]
  have hgate : gateHold s b s.cur = false := by simp only [gateHold, hc.ungated, Bool.false_and]
  have hwait : seatWait s b s.cur [(0, o)] = .outside := by
    simp [seatWait, hscore, hmerge, hgate, hc.running, hc.examined, hc.whole, hh, Hold.join]
  exact ⟨hwait, by simp [seatHold, hwait, bankConflicts, hc.banks, Hold.join]⟩

/-- The verdict on an instruction that waits outside. -/
theorem verdict_outside (hc : CanIssue toll traffic s) (hst : staticFault s.cur (soloBundle i s.cur s) s = (none, s))
    (hh : o.hold = .outside) :
    verdict (soloBundle i s.cur s) [s.cur] [(s.cur, [(0, o)])] s = (.held .outside [(s.cur, .outside)], s) := by
  simp [verdict, hst, (seatHold_outside hc hh _).2, Hold.join]

/-- A stalled cycle leaves a budget of more than one point above zero. -/
theorem stallSeat_due {h : Hold} {stuck : Bool} {send : Option Word} {taps : List Nat} {c : Ctx}
    (hb : 1 < c.bud.ibud.toInt) : (stallSeat h stuck send taps c).due = false := by
  have hsub : (c.bud.ibud - 1).toInt = c.bud.ibud.toInt - 1 := by
    have := BitVec.toInt_lt (x := c.bud.ibud)
    rw [BitVec.toInt_sub, show (1 : BitVec 48).toInt = 1 from rfl, Int.bmod_eq_of_le (by omega) (by omega)]
  have hpos : 0 < (stallSeat h stuck send taps c).bud.ibud.toInt := by
    unfold stallSeat
    simp only
    split <;> omega
  simp only [Ctx.due, decide_eq_false_iff_not]
  omega

/-- A held cycle of a seat alone that waits outside, and is not out of budget: it stalls. -/
theorem heldCycle_outside {b : Fetched} (hc : CanIssue 1 0 s) (hh : o.hold = .outside) (hk : Keeps (o.onHold s) s) :
    ∃ stuck send, heldCycle b .outside [(s.cur, .outside)] [(s.cur, [(0, o)])] s =
      (o.onHold s).updCtx s.cur (stallSeat .outside stuck send []) := by
  refine ⟨isStuck b (o.onHold s) s.cur [(0, o)], ([(0, o)].filterMap fun x => x.2.sendReg).head?, ?_⟩
  have hb : 1 < ((o.onHold s).ctx s.cur).bud.ibud.toInt := lt_of_lt_of_le hc.tolls hk.ibud
  have hstall : stallBlock b [(s.cur, .outside)] [(s.cur, [(0, o)])] (o.onHold s) = (o.onHold s).updCtx s.cur
      (stallSeat .outside (isStuck b (o.onHold s) s.cur [(0, o)]) ([(0, o)].filterMap fun x => x.2.sendReg).head? []) := by
    simp [stallBlock, hk.phase]
  have hdue := stallSeat_due (h := .outside) (stuck := isStuck b (o.onHold s) s.cur [(0, o)])
    (send := ([(0, o)].filterMap fun x => x.2.sendReg).head?) (taps := []) hb
  have hon : ([(s.cur, [(0, o)])].flatMap (·.2)).foldl (fun s o => if o.2.hold = .free then s else o.2.onHold s) s =
      o.onHold s := by simp [hh]
  rw [heldCycle, hon, hstall]
  simp only [holdOutcome, List.map_cons, List.map_nil, List.headD_cons, List.any_cons, List.any_nil, List.filter_cons,
    List.filter_nil, State.ctx_updCtx_same hk.busy, hdue]
  simp

/-- An instruction that waits outside stalls. -/
theorem issueOne_outside (ho : slotOf i s.cur s = o) (hla : o.late (o.desc s) = none) (hc : CanIssue 1 0 s)
    (hst : staticFault s.cur (soloBundle i s.cur s) s = (none, s)) (hh : o.hold = .outside) (hk : Keeps (o.onHold s) s) :
    ∃ stuck send, issueOne i s = .next ((o.onHold s).updCtx s.cur (stallSeat .outside stuck send [])) := by
  have hw : waiting [(s.cur, [(0, o)])] s = false := by simp [waiting, hc.here]
  obtain ⟨stuck, send, hheld⟩ := heldCycle_outside (b := soloBundle i s.cur s) hc hh hk
  have hbank : bankDelay (soloBundle i s.cur s) [(s.cur, [(0, o)])] s = s := by
    simp [bankDelay, (seatHold_outside hc hh _).1]
  refine ⟨stuck, send, ?_⟩
  simp only [issueOne, hc.running, if_true, issueBlock, issueSeats_single hc, List.map_cons, List.map_nil,
    evalSlots_solo hc ho hla, hw, Bool.false_eq_true, if_false, verdict_outside hc hst hh, hbank, hheld]

end Sys2Proof.Machine
end

section
/-!
Binding, closing and reading channels of this package and of another (R350 to R360, R366, R483 to R485, R492), and the
traps of those instructions (R351).
-/
namespace Sys2Proof.Machine
set_option Elab.async false
open Sys2Proof

variable {s u v : State} {g : Guard} {n : BitVec 7} {ra rd : BitVec 6} {i : Instr} {r : Word} {ch : Nat}

/-! What channels leave alone: the seats, and canonical memories. -/

/-- u has the seats and the steps of s, and its memories are canonical where those of s are. -/
structure Apart (u s : State) : Prop where
  seats : u.seats = s.seats
  cur : u.cur = s.cur
  steps : u.steps = s.steps
  wf : s.Wf → u.Wf

namespace Apart

theorem refl : Apart s s := ⟨rfl, rfl, rfl, id⟩

theorem trans (h : Apart v u) (h' : Apart u s) : Apart v s :=
  ⟨h.seats.trans h'.seats, h.cur.trans h'.cur, h.steps.trans h'.steps, h.wf ∘ h'.wf⟩

theorem of_aside (h : Aside u s) : Apart u s := ⟨h.seats, h.cur, h.steps, h.wf⟩

theorem ite {p : Prop} [Decidable p] {a b : State} (ha : Apart a s) (hb : Apart b s) : Apart (if p then a else b) s := by
  split <;> assumption

theorem foldl {α : Type} {f : State → α → State} (h : ∀ s x, Apart (f s x) s) :
    ∀ (xs : List α) (s : State), Apart (xs.foldl f s) s
  | [], _ => refl
  | x :: xs, s => (foldl h xs (f s x)).trans (h s x)

theorem keeps (h : Apart u s) {r : State} (hs : Keeps s r) : Keeps u r := hs.seats h.cur h.seats

theorem seat (h : Apart u s) (k : Nat) : u.seat k = s.seat k := by rw [State.seat, State.seat, h.seats]
theorem ctx (h : Apart u s) (k : Nat) : u.ctx k = s.ctx k := by rw [State.ctx, State.ctx, h.seat]

theorem steady (h : Apart u s) : Steady u s := .of_seats h.seats h.cur h.wf

end Apart

theorem apart_updChan {f : Chan → Chan} : Apart (s.updChan ch f) s := ⟨rfl, rfl, rfl, fun h => ⟨h.mem, h.host, h.seats⟩⟩

theorem apart_armTrigger : Apart (armTrigger ch s) s := .ite apart_updChan .refl

theorem apart_sendGrant {permits room : Nat} : Apart (sendGrant ch permits room s) s :=
  (Apart.of_aside aside_send).trans apart_updChan

theorem apart_bindReader {k : Nat} : Apart (bindReader k n ch s) s :=
  .ite (apart_sendGrant.trans (apart_updChan.trans apart_updChan)) apart_updChan

theorem apart_bindWriter {w : Nat × Nat} : Apart (bindWriter ch w s) s := apart_updChan

theorem apart_closeReader : Apart (closeReader ch s) s := .ite (apart_armTrigger.trans apart_updChan) apart_updChan

theorem apart_closeWriter : Apart (closeWriter ch s) s := apart_updChan

theorem aside_pruneProxies : Aside (pruneProxies s) s := aside_fab

theorem aside_closeProxy {p : Proxy} : Aside (closeProxy p s) s :=
  aside_pruneProxies.trans (.ite (aside_fab.trans aside_fab) (aside_sendWire.trans aside_fab))

theorem keeps_clearRemote {k : Nat} {stat : Bool} (hk : k = s.cur) (h : Keeps u s) : Keeps (clearRemote k stat r u) s := by
  subst hk
  exact h.updCtx (fun _ => rfl) fun _ => rfl

/-! Instructions whose result goes to a register and whose effect to the channels. -/

/-- A free slot of such an instruction completes with both. -/
theorem completes_chan {o : SlotOut} {w : Word} {eff : State → State} (hi : OneSyllable i) (hw : i.wf = true)
    (hr : Runs g 1 0 s) (hslot : slotOf i s.cur s = guarded g (s.ctx s.cur) o) (ho : o.Free s)
    (heff : o.effect s = eff (s.updCtx s.cur (·.setS rd w))) (hk : ∀ u, Keeps u s → Keeps (eff u) s)
    (hf : o.flags = 0 := by rfl) (hcl : o.clearFpst = 0 := by rfl) (htoll : 1 + o.toll = 1 := by rfl)
    (htraf : o.traffic = 0 := by rfl) :
    Completes i s (fun u => eff (u.updCtx s.cur (·.setS rd w))) 0 1 0 :=
  completes_of_guarded hi hw hr hslot ho heff (hk _ ((keeps_refl hr.can.running).updCtx (by simp) (by simp))) hf hcl htoll
    htraf

/-- The trap of an instruction on a channel of this package that the seat may use. -/
theorem chanTrap_none {s : State} {k : Nat} (h32 : r.toNat < 2 ^ 32) (hu : chanUsable s k r = true) :
    (regTrap r).or (if chanUsable s k r then none else some (chanTrap r)) = none := by
  rw [regTrap_none h32, hu]; rfl

/-- That of one on a channel that it may not use. -/
theorem chanTrap_some {s : State} {k : Nat} (h32 : r.toNat < 2 ^ 32) (hu : chanUsable s k r = false) :
    (regTrap r).or (if chanUsable s k r then none else some (chanTrap r)) = some (chanTrap r) := by
  rw [regTrap_none h32, hu]; rfl

/-! The slots on either side, once and for all. -/

section
variable (hrem : isRemote s ((s.ctx s.cur).s ra) = false)
include hrem

theorem slotChbindW_local : slotOf (.chbindW g ra rd) s.cur s =
    let r := (s.ctx s.cur).s ra
    let ok := !(s.chan (regKey r)).wbound && !(s.chan (regKey r)).devwriter
    guarded g (s.ctx s.cur) { sResult s.cur rd 1 (sUse ra) (if ok then 0 else 1) with
      trap := (regTrap r).or (if chanUsable s s.cur r then none else some (chanTrap r))
      accept := if ok then bindWriter (regKey r) (s.stepKey s.cur, s.memberNo s.cur) else id } := by
  simp only [slotOf, slotChbindW, hrem, if_false, Bool.false_eq_true]

theorem slotChcloseW_local : slotOf (.chcloseW g ra rd) s.cur s =
    let r := (s.ctx s.cur).s ra
    let x := s.chan (regKey r)
    let mine := x.wbound && !x.remote && x.writer == some (s.stepKey s.cur, s.memberNo s.cur)
    guarded g (s.ctx s.cur) { sResult s.cur rd 1 (sUse ra) (if mine then 0 else 1) with
      trap := (regTrap r).or (if chanUsable s s.cur r then none else some (chanTrap r))
      accept := if mine then closeWriter (regKey r) else id } := by
  simp only [slotOf, slotChcloseW, hrem, if_false, Bool.false_eq_true]

theorem slotChstat_local : slotOf (.chstat g ra rd) s.cur s =
    let r := (s.ctx s.cur).s ra
    guarded g (s.ctx s.cur) { sResult s.cur rd 1 (sUse ra) (statusWord (s.chan (regKey r))) with
      trap := (regTrap r).or (if chanUsable s s.cur r then none else some (chanTrap r)) } := by
  simp only [slotOf, slotChstat, hrem, if_false, Bool.false_eq_true]

/-- On a channel of this package CHCLOSE may use it or traps. -/
theorem chcloseTrap_local : (regTrap ((s.ctx s.cur).s ra)).or
      (if isRemote s ((s.ctx s.cur).s ra) || chanUsable s s.cur ((s.ctx s.cur).s ra) then none
        else some (chanTrap ((s.ctx s.cur).s ra))) =
    (regTrap ((s.ctx s.cur).s ra)).or (if chanUsable s s.cur ((s.ctx s.cur).s ra) then none
      else some (chanTrap ((s.ctx s.cur).s ra))) := by
  rw [hrem, Bool.false_or]

end

/-- What a held request on a channel of another package is as a slot: it waits for its reply, or takes it, or traps where
its package is lost or its proxy has faulted (R485, R492). -/
def requestOut (s : State) (ra rd : BitVec 6) (stat : Bool) (w : Word) : SlotOut :=
  let c := s.ctx s.cur
  let r := c.s ra
  let lost := remoteLost s s.cur r
  let wait := (regTrap r).isNone && !lost && (remoteReply c stat r).isNone
  { sResult s.cur rd 1 (sUse ra) w with
    hold := if wait then .outside else .free
    onHold := if wait then sendRequest s.cur stat r else id
    trap := (regTrap r).or (if lost then some (chanTrap r) else none)
    accept := clearRemote s.cur stat r }

section
variable (hrem : isRemote s ((s.ctx s.cur).s ra) = true)
include hrem

theorem slotChbindW_remote : slotOf (.chbindW g ra rd) s.cur s = guarded g (s.ctx s.cur)
    (requestOut s ra rd false ((remoteReply (s.ctx s.cur) false ((s.ctx s.cur).s ra)).getD 0)) := by
  simp only [slotOf, slotChbindW, hrem, if_true]
  rfl

theorem slotChstat_remote : slotOf (.chstat g ra rd) s.cur s = guarded g (s.ctx s.cur)
    (requestOut s ra rd true (withPcred ((remoteReply (s.ctx s.cur) true ((s.ctx s.cur).s ra)).getD 0)
      (s.proxy s.cur ((s.ctx s.cur).s ra)))) := by
  simp only [slotOf, slotChstat, hrem, if_true]
  rfl

theorem slotChcloseW_remote : slotOf (.chcloseW g ra rd) s.cur s =
    let r := (s.ctx s.cur).s ra
    guarded g (s.ctx s.cur) { sResult s.cur rd 1 (sUse ra) (if (s.proxy s.cur r).isSome then 0 else 1) with
      trap := (regTrap r).or (if (s.proxy s.cur r).any fun p => p.fault then some (chanTrap r) else none)
      accept := match s.proxy s.cur r with
        | some p => fun s => closeProxy p s
        | none => id } := by
  exact if_pos hrem

end

section
variable {stat : Bool} {w : Word}

/-- A request with its reply is free. -/
theorem requestOut_free {x : Word} (h32 : ((s.ctx s.cur).s ra).toNat < 2 ^ 32)
    (hl : remoteLost s s.cur ((s.ctx s.cur).s ra) = false)
    (hr : remoteReply (s.ctx s.cur) stat ((s.ctx s.cur).s ra) = some x) : (requestOut s ra rd stat w).Free s := by
  refine ⟨rfl, ?_, ?_, rfl⟩
  · simp only [requestOut, hr, Option.isNone_some, Bool.and_false, Bool.false_eq_true, if_false]
  · simp only [requestOut, regTrap_none h32, hl, Option.none_or, Bool.false_eq_true, if_false]

/-- A request that has no answer to wait for traps. -/
theorem requestOut_lost (h32 : ((s.ctx s.cur).s ra).toNat < 2 ^ 32)
    (hl : remoteLost s s.cur ((s.ctx s.cur).s ra) = true) :
    (requestOut s ra rd stat w).hold = .free ∧ (requestOut s ra rd stat w).trap = some (chanTrap ((s.ctx s.cur).s ra)) := by
  constructor
  · simp only [requestOut, hl, Bool.not_true, Bool.and_false, Bool.false_and, Bool.false_eq_true, if_false]
  · simp only [requestOut, regTrap_none h32, hl, Option.none_or, if_true]

/-- A request without a reply waits, and sends itself. -/
theorem requestOut_waits (h32 : ((s.ctx s.cur).s ra).toNat < 2 ^ 32)
    (hl : remoteLost s s.cur ((s.ctx s.cur).s ra) = false)
    (hr : remoteReply (s.ctx s.cur) stat ((s.ctx s.cur).s ra) = none) :
    (requestOut s ra rd stat w).hold = .outside ∧
      (requestOut s ra rd stat w).onHold = sendRequest s.cur stat ((s.ctx s.cur).s ra) := by
  simp only [requestOut, regTrap_none h32, hl, hr, Option.isNone_none, Bool.not_false, Bool.and_true, if_true, and_self]

end

end Sys2Proof.Machine
end

section
/-!
The settling of the channel bindings: the slots of B7 at work. -/
namespace Sys2Proof.Machine
set_option Elab.async false
open Sys2Proof

variable {s u : State} {g : Guard} {n : BitVec 7} {ra rd : BitVec 6} {i : Instr} {r : Word} {stat : Bool}

/-- A request that is not out yet goes out: the wait is on record. -/
theorem sendRequest_ctx (hi : (s.seat s.cur).phase ≠ .idle)
    (hn : ∀ y ∈ (s.ctx s.cur).wait.remote, ¬(y.stat = stat ∧ y.reg = r ∧ y.cont = (s.ctx s.cur).bud.incont)) :
    ((sendRequest s.cur stat r s).ctx s.cur) = { s.ctx s.cur with
      wait.remote := (s.ctx s.cur).wait.remote ++ [⟨s.fab.nextTag, (s.ctx s.cur).bud.incont, stat, r, none⟩] } := by
  have hnone : (s.ctx s.cur).wait.remote.any (RemoteWait.asks (s.ctx s.cur) stat r) = false := by
    rw [List.any_eq_false]
    intro y hy
    simpa [RemoteWait.asks, and_assoc] using hn y hy
  simp only [sendRequest, hnone, Bool.false_eq_true, if_false]
  rw [aside_send.ctx]
  refine (State.ctx_updCtx_same (k := s.cur) ?_).trans rfl
  exact hi

theorem sendRequest_cur {k : Nat} : (sendRequest k stat r s).cur = s.cur := by
  simp only [sendRequest]
  split
  · rfl
  · exact aside_send.cur

theorem keeps_sendRequest (h : (s.seat s.cur).phase = .running) : Keeps (sendRequest s.cur stat r s) s := by
  simp only [sendRequest]
  split
  · exact keeps_refl h
  · refine aside_send.keeps (Keeps.updCtx (f := fun c => { c with wait.remote := c.wait.remote ++ _ }) ?_
      (fun _ => rfl) fun _ => rfl)
    exact (keeps_refl h).seats rfl rfl

/-- A request without its reply goes out, and its bundle stands. -/
theorem request_waits {w : Word} (hi : OneSyllable i) (hw : i.wf = true) (hr : Runs g 1 0 s)
    (hslot : slotOf i s.cur s = guarded g (s.ctx s.cur) (requestOut s ra rd stat w))
    (h32 : ((s.ctx s.cur).s ra).toNat < 2 ^ 32) (hl : remoteLost s s.cur ((s.ctx s.cur).s ra) = false)
    (hn : ∀ y ∈ (s.ctx s.cur).wait.remote,
      ¬(y.stat = stat ∧ y.reg = (s.ctx s.cur).s ra ∧ y.cont = (s.ctx s.cur).bud.incont)) :
    ∃ t, exec i s = .next t ∧ (t.ctx s.cur).regs = (s.ctx s.cur).regs ∧ (t.ctx s.cur).pos.pc = (s.ctx s.cur).pos.pc ∧
      (t.ctx s.cur).wait.remote = (s.ctx s.cur).wait.remote ++
        [⟨s.fab.nextTag, (s.ctx s.cur).bud.incont, stat, (s.ctx s.cur).s ra, none⟩] := by
  have hreply : remoteReply (s.ctx s.cur) stat ((s.ctx s.cur).s ra) = none := by
    rw [remoteReply, List.find?_eq_none.mpr, Option.bind_none]
    intro y hy
    simpa [RemoteWait.asks, and_assoc] using hn y hy
  obtain ⟨hhold, hon⟩ := requestOut_waits (rd := rd) (w := w) h32 hl hreply
  have hk : Keeps ((requestOut s ra rd stat w).onHold s) s := by rw [hon]; exact keeps_sendRequest hr.can.running
  have hidle : (s.seat s.cur).phase ≠ .idle := by rw [hr.can.running]; decide
  obtain ⟨stuck, send, hexec⟩ := issueOne_outside (hslot.trans (guarded_of_holds hr.guard)) rfl hr.can
    (staticFault_plain hw hi.control) hhold hk
  have hctx : ∀ f, (((requestOut s ra rd stat w).onHold s).updCtx s.cur f).ctx s.cur = f { s.ctx s.cur with
      wait.remote := (s.ctx s.cur).wait.remote ++
        [⟨s.fab.nextTag, (s.ctx s.cur).bud.incont, stat, (s.ctx s.cur).s ra, none⟩] } := fun f => by
    rw [State.ctx_updCtx_same hk.busy, hon, sendRequest_ctx hidle hn]
  refine ⟨_, (congrFun hi.issues s).trans hexec, ?_, ?_, ?_⟩
  · exact (congrArg Ctx.regs (hctx _)).trans rfl
  · exact (congrArg (fun c : Ctx => c.pos.pc) (hctx _)).trans rfl
  · exact (congrArg (fun c : Ctx => c.wait.remote) (hctx _)).trans rfl

/-- A register result and a channel effect are as their conditions say. -/
theorem effect_congr {a b : State → State} {x y : Word} (h : a = b) (hx : x = y) :
    a (s.updCtx s.cur (·.setS rd x)) = b (s.updCtx s.cur (·.setS rd y)) := by rw [h, hx]

end Sys2Proof.Machine
namespace Sys2Proof.Proofs
set_option Elab.async false
open Sys2Proof Sys2Proof.Machine

/-- Channels of this package. -/
theorem channelLocal : Claims.ChannelLocal := by
  intro s g n ra rd hg hn hr k c r ch me reads writes gives hrem h32 hu
  have hok := chanTrap_none h32 hu
  have hwn : (g.ok && sigOk n) = true := by simp [hg, hn]
  refine ⟨fun hp hfeed hrate hdie => ?_, fun hwb hdev => ?_, fun hwb => ?_, ?_, ?_, ?_⟩
  · have htrap : (absentTrap c n).or ((regTrap r).or
        ((if (c.sg n).feed == 3 && (c.sg n).rate == 255 then none else some (cause 0x01)).or
          (if !isRemote s r && regDie r == dieOf k && chanUsable s k r then none else some (chanTrap r)))) = none := by
      have habsent : absentTrap c n = none := if_pos hp
      rw [habsent, regTrap_none h32, hfeed, hrate, hrem, hdie, hu]
      simp
    exact completes_chan ⟨rfl, rfl, rfl⟩ hwn hr rfl ⟨rfl, rfl, htrap, rfl⟩ rfl fun u h => by
      split
      · exact apart_bindReader.keeps h
      · exact h
  · have hfree : (!(s.chan ch).wbound && !(s.chan ch).devwriter) = true := by rw [hwb, hdev]; rfl
    exact completes_chan ⟨rfl, rfl, rfl⟩ hg hr (slotChbindW_local hrem) ⟨rfl, rfl, hok, rfl⟩
      (effect_congr (if_pos hfree) (if_pos hfree)) fun u h => apart_bindWriter.keeps h
  · have htaken : ¬(!(s.chan ch).wbound && !(s.chan ch).devwriter) = true := by
      rcases hwb with h | h <;> simp [h]
    exact completes_chan ⟨rfl, rfl, rfl⟩ hg hr (slotChbindW_local hrem) ⟨rfl, rfl, hok, rfl⟩
      (effect_congr (if_neg htaken) (if_neg htaken)) fun u h => h
  · have hmine : (!isRemote s r && (s.chan ch).rbound && match (s.chan ch).reader with
        | some x => x.1 == s.stepKey k && x.2.1 == s.memberNo k
        | none => false) = reads := by
      rw [hrem]
      simp only [reads]
      cases (s.chan ch).reader <;> rfl
    exact completes_chan ⟨rfl, rfl, rfl⟩ hg hr rfl ⟨rfl, rfl, (chcloseTrap_local hrem).trans hok, rfl⟩
      (effect_congr (congrArg (fun b : Bool => if b then closeReader ch else id) hmine)
        (congrArg (fun b : Bool => if b then (0 : Word) else 1) hmine)) fun u h => by
      split
      · exact apart_closeReader.keeps h
      · exact h
  · exact completes_chan ⟨rfl, rfl, rfl⟩ hg hr (slotChcloseW_local hrem) ⟨rfl, rfl, hok, rfl⟩ rfl fun u h => by
      split
      · exact apart_closeWriter.keeps h
      · exact h
  · exact completes_chan ⟨rfl, rfl, rfl⟩ hg hr (slotChstat_local hrem) ⟨rfl, rfl, hok, rfl⟩ rfl fun u h => h

/-- Channels of another package. -/
theorem channelRemote : Claims.ChannelRemote := by
  intro s g ra rd hg hr k c r gives hrem h32
  refine ⟨fun w v hl hv hw => ?_, fun hp => ?_, fun p hp hf => ?_, fun p hp hf => ?_, fun hl => ?_, ?_, fun stat hl hn => ?_⟩
  · have hreply : remoteReply c w.stat r = some v := by
      rw [remoteReply]
      exact (congrArg (Option.bind · RemoteWait.reply) hw).trans hv
    refine ⟨fun hs => ?_, fun hs => ?_⟩ <;> rw [hs] at hreply
    · exact completes_chan ⟨rfl, rfl, rfl⟩ hg hr (slotChbindW_remote hrem) (requestOut_free h32 hl hreply)
        (by rw [hreply]; rfl) fun u h => keeps_clearRemote rfl h
    · exact completes_chan ⟨rfl, rfl, rfl⟩ hg hr (slotChstat_remote hrem) (requestOut_free h32 hl hreply)
        (by rw [hreply]; rfl) fun u h => keeps_clearRemote rfl h
  · exact completes_chan ⟨rfl, rfl, rfl⟩ hg hr (slotChcloseW_remote hrem)
      ⟨rfl, rfl, by rw [regTrap_none h32, hp]; rfl, rfl⟩ (effect_congr (by rw [hp]) (by rw [hp]; rfl)) fun u h => h
  · exact completes_chan ⟨rfl, rfl, rfl⟩ hg hr (slotChcloseW_remote hrem)
      ⟨rfl, rfl, by rw [regTrap_none h32, hp, Option.any_some, hf]; rfl, rfl⟩
      (effect_congr (b := closeProxy p) (by rw [hp]) (by rw [hp]; rfl)) fun u h => aside_closeProxy.keeps h
  · exact traps_of_guarded (c := chanTrap r) rfl hg hr (slotChcloseW_remote hrem) rfl rfl
      (by rw [regTrap_none h32, hp, Option.any_some, hf]; rfl) nofun
  · have hlost := fun stat w => requestOut_lost (rd := rd) (stat := stat) (w := w) h32 hl
    exact ⟨traps_of_guarded (c := chanTrap r) rfl hg hr (slotChbindW_remote hrem) rfl (hlost _ _).1 (hlost _ _).2 nofun,
      traps_of_guarded (c := chanTrap r) rfl hg hr (slotChstat_remote hrem) rfl (hlost _ _).1 (hlost _ _).2 nofun⟩
  · have hnot : (!isRemote s r && (s.chan (regKey r)).rbound && match (s.chan (regKey r)).reader with
        | some x => x.1 == s.stepKey k && x.2.1 == s.memberNo k
        | none => false) = false := by rw [hrem]; rfl
    exact completes_chan ⟨rfl, rfl, rfl⟩ hg hr rfl ⟨rfl, rfl, by rw [regTrap_none h32, hrem]; rfl, rfl⟩
      (effect_congr (congrArg (fun b : Bool => if b then closeReader (regKey r) else id) hnot)
        (congrArg (fun b : Bool => if b then (0 : Word) else 1) hnot)) fun u h => h
  · cases stat
    · exact request_waits ⟨rfl, rfl, rfl⟩ hg hr (slotChbindW_remote hrem) h32 hl hn
    · exact request_waits ⟨rfl, rfl, rfl⟩ hg hr (slotChstat_remote hrem) h32 hl hn

/-- Settles O22: the slots of the channel instructions, on a channel of this package and on one of another. -/
theorem channelBindings : Obligations.ChannelBindings := ⟨channelLocal, channelRemote⟩

end Sys2Proof.Proofs
end

section
/-!
The commit of a bundle on one seat, whatever its control decision (R54, R75 to R85, R95, R152).
-/
namespace Sys2Proof.Machine
set_option Elab.async false
open Sys2Proof

variable {b : Fetched} {ctl : Ctl} {after : Word} {o : SlotOut} {k clk : Nat} {u s : State} {c : Ctx} {i : Instr}
  {toll traffic : Nat}

/-- CALL and CALLR link through s62 (R79). -/
def Ctl.link (ctl : Ctl) (after : Word) (c : Ctx) : Ctx :=
  match ctl with
  | .call _ => c.setS 62 after
  | _ => c

/-- What the end of a bundle of one slot makes of its seat, but for the flow of control. -/
def endCtx (ctl : Ctl) (after : Word) (o : SlotOut) (clk : Nat) (c : Ctx) : Ctx :=
  charge (1 + o.toll) o.traffic { ctl.link after c with
    csr.fpst := (c.csr.fpst &&& ~~~o.clearFpst) ||| o.flags
    ready := newReady c clk [(0, o)]
    wait := { remote := c.wait.remote, bubble := bubbleOf ctl, barriers := c.wait.barriers + bit (barReleased c) }
    maskOnce := 0 }

/-- What it makes of its seat. -/
def closeCtx (b : Fetched) (ctl : Ctl) (after : Word) (o : SlotOut) (clk : Nat) (c : Ctx) : Ctx :=
  let x := flow b ctl after (endCtx ctl after o clk c)
  { x with fuse := ctl.fused x.fuse }

/-- The state once the bundle has committed. -/
def closed (b : Fetched) (ctl : Ctl) (after : Word) (o : SlotOut) (k : Nat) (u : State) : State :=
  ((o.effect u).updCtx k (closeCtx b ctl after o (u.clk k))).updCore (coreOf k) fun x =>
    { x with issued := some (issuedAs b [(0, o)] k false x.issued) }

theorem link_setCtx (f : Flags) (r : List Ready) (w : Waiting) :
    ctl.link after { c with csr.fpst := f, ready := r, wait := w, maskOnce := 0 } =
      { ctl.link after c with csr.fpst := f, ready := r, wait := w, maskOnce := 0 } := by
  cases ctl <;> rfl

/-- One member commits: its effects, then the end of the bundle. -/
theorem commitSeat_one (hsp : splits (u.core (coreOf k)) b = false) :
    commitSeat b ctl after [(0, o)] k k u =
      ((o.effect u).updCtx k fun c => flow b ctl after (endCtx ctl after o (u.clk k) c)).updCore (coreOf k) fun x =>
        { x with issued := some (issuedAs b [(0, o)] k false x.issued) } := by
  have htoll : tollOf [(0, o)] = 1 + o.toll := by simp [tollOf]
  have htraf : trafficOf [(0, o)] = o.traffic := by simp [trafficOf]
  have hone : ∀ c : Ctx,
      charge (tollOf [(0, o)]) (trafficOf [(0, o)]) (ctl.link after { c with
        csr.fpst := (c.csr.fpst &&& ~~~o.clearFpst) ||| o.flags
        ready := newReady c (u.clk k) [(0, o)]
        wait := { remote := c.wait.remote, bubble := bubbleOf ctl, barriers := c.wait.barriers + bit (barReleased c) }
        maskOnce := 0 }) = endCtx ctl after o (u.clk k) c := fun c => by
    rw [htoll, htraf, link_setCtx]; rfl
  have hzero : ∀ f : Flags, 0 ||| f = f := fun f => by simp
  unfold commitSeat
  simp only [effects_single, useCore, hsp, List.foldl_cons, List.foldl_nil, hzero, ← hone, if_true]
  cases ctl <;> rfl

/-- The commit of a bundle on one seat, and what follows it. -/
theorem commitBlock_one (hsp : splits (u.core (coreOf k)) b = false) (hi : ((o.effect u).seat k).phase ≠ .idle) :
    commitBlock b ctl after [(k, [(0, o)])] u =
      afterCommit [k] ctl (isPoint (u.ctx k) b ctl) ((closed b ctl after o k u).ctx k).bud.incont
        (closed b ctl after o k u) := by
  have hfuse : (((o.effect u).updCtx k fun c => flow b ctl after (endCtx ctl after o (u.clk k) c)).updCtx k
      fun c => { c with fuse := ctl.fused c.fuse }) = (o.effect u).updCtx k (closeCtx b ctl after o (u.clk k)) :=
    State.updCtx_updCtx hi
  simp only [commitBlock, List.map_cons, List.map_nil, List.headD_cons, List.foldl_cons, List.foldl_nil,
    commitSeat_one hsp, State.updCore_updCtx, hfuse, followLead_single]
  rfl

theorem closed_ctx (hi : ((o.effect u).seat k).phase ≠ .idle) :
    (closed b ctl after o k u).ctx k = closeCtx b ctl after o (u.clk k) ((o.effect u).ctx k) :=
  State.ctx_updCtx_same hi

theorem closed_phase (hi : ((o.effect u).seat k).phase ≠ .idle) :
    ((closed b ctl after o k u).seat k).phase = ((o.effect u).seat k).phase :=
  State.phase_updCtx hi

@[simp] theorem closed_mem : (closed b ctl after o k u).mem = (o.effect u).mem := rfl

/-! What the end of a bundle leaves alone. -/

@[simp] theorem link_pos : (ctl.link after c).pos = c.pos := by cases ctl <;> rfl
@[simp] theorem link_bud : (ctl.link after c).bud = c.bud := by cases ctl <;> rfl
@[simp] theorem link_fuse : (ctl.link after c).fuse = c.fuse := by cases ctl <;> rfl
@[simp] theorem link_saved : (ctl.link after c).saved = c.saved := by cases ctl <;> rfl
@[simp] theorem endCtx_pos : (endCtx ctl after o clk c).pos = c.pos := link_pos
@[simp] theorem endCtx_saved : (endCtx ctl after o clk c).saved = c.saved := link_saved
@[simp] theorem endCtx_fuse : (endCtx ctl after o clk c).fuse = c.fuse := link_fuse
@[simp] theorem endCtx_ibud : (endCtx ctl after o clk c).bud.ibud = c.bud.ibud - BitVec.ofNat 48 (1 + o.toll) :=
  congrArg (fun x : Budget => x.ibud - BitVec.ofNat 48 (1 + o.toll)) link_bud
@[simp] theorem endCtx_incont : (endCtx ctl after o clk c).bud.incont = c.bud.incont := by
  show (ctl.link after c).bud.incont = c.bud.incont
  rw [link_bud]

/-- The position after a bundle depends on the position and on the saved one. -/
theorem flow_pos {d : Ctx} (hp : c.pos = d.pos) (hs : c.saved = d.saved) :
    (flow b ctl after c).pos = (flow b ctl after d).pos := by
  simp only [flow, hp, hs]
  split
  · rfl
  · split
    · rfl
    · split
      · rfl
      · split <;> rfl

/-- The flow of control changes no register, and no budget. -/
theorem flow_regs : (flow b ctl after c).regs = c.regs := by
  simp only [flow]
  split
  · rfl
  · split
    · rfl
    · split
      · rfl
      · split <;> rfl

theorem flow_ibud : (flow b ctl after c).bud.ibud = c.bud.ibud := by
  simp only [flow]
  split
  · rfl
  · split
    · rfl
    · split
      · rfl
      · split <;> rfl

theorem closeCtx_ibud :
    (closeCtx b ctl after o clk c).bud.ibud = c.bud.ibud - BitVec.ofNat 48 (1 + o.toll) :=
  flow_ibud.trans endCtx_ibud

theorem closeCtx_regs : (closeCtx b ctl after o clk c).regs = (ctl.link after c).regs := flow_regs

/-- No RESUME returns with a bundle of a settled seat: it moves the position and no more. -/
theorem closeCtx_eq (hs : ∀ p, c.pos.pend = some p → p.ret = false) (hf : ∀ f, ctl.fused f = f) :
    closeCtx b ctl after o clk c =
      { endCtx ctl after o clk c with pos := (flow b ctl after (endCtx ctl after o clk c)).pos } := by
  simp only [closeCtx, hf]
  exact flow_eq (by rw [endCtx_pos]; exact hs)

/-- A charge that its budget covers does not wrap. -/
theorem toInt_sub_charge {b : BitVec 48} {n : Nat} (h : (n : Int) ≤ b.toInt) : (b - BitVec.ofNat 48 n).toInt = b.toInt - n := by
  have hlt : b.toInt < 2 ^ 47 := by simpa using BitVec.toInt_lt (x := b)
  have hn : (BitVec.ofNat 48 n).toInt = n := by
    rw [BitVec.toInt_ofNat']
    apply Int.bmod_eq_of_le <;> push_cast at * <;> omega
  rw [BitVec.toInt_sub, hn, Int.bmod_eq_of_le] <;> push_cast at * <;> omega

/-- A budget that covers the toll of its bundle is not due after it. -/
theorem closeCtx_due (hb : ((1 + o.toll : Nat) : Int) < c.bud.ibud.toInt) : (closeCtx b ctl after o clk c).due = false := by
  simp only [Ctx.due, closeCtx_ibud, decide_eq_false_iff_not, not_le, toInt_sub_charge hb.le]
  omega

/-- A bundle that goes on, with budget left, is followed by nothing. -/
theorem afterCommit_none {point incont : Bool} (hd : (u.ctx k).due = false) (he : ctl ≠ .exit) (hy : ctl ≠ .yield) :
    afterCommit [k] ctl point incont u = u := by
  unfold afterCommit
  split
  · exact absurd rfl he
  · simp [hd, hy]

/-- The commit of a bundle that goes on, with budget left. -/
theorem commitBlock_closed (hsp : splits (u.core (coreOf k)) b = false) (hi : ((o.effect u).seat k).phase ≠ .idle)
    (hb : ((1 + o.toll : Nat) : Int) < ((o.effect u).ctx k).bud.ibud.toInt) (he : ctl ≠ .exit) (hy : ctl ≠ .yield) :
    commitBlock b ctl after [(k, [(0, o)])] u = closed b ctl after o k u := by
  rw [commitBlock_one hsp hi, afterCommit_none ((congrArg Ctx.due (closed_ctx hi)).trans (closeCtx_due hb)) he hy]

/-- Such a bundle retires what its slot does and its link, where no RESUME returns with it. -/
theorem closed_retired (hk : (o.effect u).cur = k) (hi : ((o.effect u).seat k).phase ≠ .idle)
    (hs : ∀ p, ((o.effect u).ctx k).pos.pend = some p → p.ret = false) (hf : ∀ f, ctl.fused f = f)
    (hpc : ((o.effect u).ctx k).pos.loops = [] → ((o.effect u).ctx k).pos.pend = none →
      (flow b ctl after ((o.effect u).ctx k)).pos.pc = ((o.effect u).ctx k).pos.pc + 8) :
    Retired o.flags o.clearFpst (1 + o.toll) o.traffic ((o.effect u).updCtx k (ctl.link after))
      (closed b ctl after o k u) := by
  have hctx : ((o.effect u).updCtx k (ctl.link after)).ctx k = ctl.link after ((o.effect u).ctx k) :=
    State.ctx_updCtx_same hi
  have hcur : ((o.effect u).updCtx k (ctl.link after)).cur = k := hk
  let c := (o.effect u).ctx k
  refine ⟨(closeCtx b ctl after o (u.clk k) c).pos, newReady c (u.clk k) [(0, o)],
    { remote := c.wait.remote, bubble := bubbleOf ctl, barriers := c.wait.barriers + bit (barReleased c) },
    some (issuedAs b [(0, o)] k false ((o.effect u).core (coreOf k)).issued), ?_, ?_⟩
  · rw [hcur, hctx, link_pos]
    intro hl hp
    rw [← hpc hl hp]
    exact congrArg Pos.pc (flow_pos endCtx_pos endCtx_saved)
  · rw [hcur, State.updCtx_updCtx hi]
    refine (State.updCore_congr rfl).trans ?_
    refine congrArg (State.updCore · (coreOf k) _) (State.updCtx_congr ?_)
    cases ctl <;> exact closeCtx_eq hs hf

end Sys2Proof.Machine
end

section
/-!
LAUNCH and WSEND (R341, R342, R346, R487, R488), on the commit of an instruction whose effect spends budget.
-/
namespace Sys2Proof.Machine
set_option Elab.async false
open Sys2Proof

variable {s u : State} {g : Guard} {i : Instr} {o : SlotOut} {sig : BitVec 7} {ra : BitVec 6} {h : BitVec 4}
  {k q n traffic toll : Nat} {bs : List Byte} {w : Word}

/-- The control decisions after which the bundle commits with no look ahead, and its seat goes on. -/
def Ctl.plain : Ctl → Bool
  | .call _ | .skip _ | .bar _ _ | .fuse _ | .rejoin | .exit | .yield => false
  | .next | .jump _ _ | .fall | .loop _ _ | .point | .resume | .decouple => true

/-- A slot that reads the guard of its instruction too. -/
def SlotOut.under (g : Guard) (o : SlotOut) : SlotOut := { o with uses := predUse g.pred ++ o.uses }

/-- The control decisions of seats that meet others. -/
def Ctl.joins : Ctl → Bool
  | .bar _ _ | .fuse _ | .rejoin => true
  | _ => false

/-- One slot decides control for its bundle. -/
theorem ctlOf_single : ctlOf [(0, o)] = o.ctl := by
  by_cases h : o.ctl = .next <;> simp [ctlOf, h]

/-- A slot that joins nothing meets no other member. -/
theorem meets_single (hj : o.ctl.joins = false) : meets [(0, o)] = false := by
  simp only [meets, List.any_cons, List.any_nil, Bool.or_false]
  cases hq : o.ctl
  case fuse n => rw [hq] at hj; cases hj
  case rejoin => rw [hq] at hj; cases hj
  all_goals exact Bool.and_false _

/-- The verdict on an instruction that nothing holds and nothing traps, once what it delimits ahead is known. -/
theorem verdict_ahead {v : State} {after : Word} (hc : CanIssue toll o.traffic s)
    (hst : staticFault s.cur (soloBundle i s.cur s) s = (none, s)) (hh : o.hold = .free) (ht : o.trap = none)
    (hj : o.ctl.joins = false) (hah : ahead s.cur (soloBundle i s.cur s) o.ctl s = (.ok after, v)) (hv : Apart v s) :
    verdict (soloBundle i s.cur s) [s.cur] [(s.cur, [(0, o)])] s = (.go after, v) := by
  have h5 : step5 (s.ctx s.cur) (soloBundle i s.cur s) [(0, o)] = none := by
    simp [step5, sampleOverlap, soloBundle, overlapMask_single, ht]
  have hb : budgetVerdict (soloBundle i s.cur s) o.ctl after [(s.cur, [(0, o)])] v = .go after := by
    simp [budgetVerdict, trafficOf, hv.ctx, not_due hc, Int.not_lt.mpr hc.traffics]
  simp only [verdict, List.headD_cons, hst, List.map_cons, List.map_nil, List.foldl_cons, List.foldl_nil,
    seatHold_free hc hh, Hold.join, ne_eq, not_true_eq_false, if_false, meets_single hj, List.filterMap_cons, h5,
    Option.map_none, List.filterMap_nil, List.isEmpty_nil, Bool.not_true, Bool.false_eq_true, ctlOf_single, hah, hb]

/-- It commits then, if its bundle is not split over two cycles. -/
theorem issueOne_ahead {v : State} {after : Word} (hsp : ∀ c, splits c (soloBundle i s.cur s) = false)
    (ho : slotOf i s.cur s = o) (hla : o.late (o.desc s) = none) (hc : CanIssue toll o.traffic s)
    (hst : staticFault s.cur (soloBundle i s.cur s) s = (none, s)) (hh : o.hold = .free) (ht : o.trap = none)
    (hj : o.ctl.joins = false) (hah : ahead s.cur (soloBundle i s.cur s) o.ctl s = (.ok after, v)) (hv : Apart v s) :
    issueOne i s = .next (commitBlock (soloBundle i s.cur s) o.ctl after [(s.cur, [(0, o)])] v) := by
  have hw : waiting [(s.cur, [(0, o)])] s = false := by simp [waiting, hc.here]
  have hpass : passBlock (soloBundle i s.cur s) after [(s.cur, [(0, o)])] v =
      commitBlock (soloBundle i s.cur s) o.ctl after [(s.cur, [(0, o)])] v := by
    simp only [passBlock, List.map_cons, List.map_nil, List.headD_cons, ctlOf_single]
    cases hq : o.ctl
    case fuse n => rw [hq] at hj; cases hj
    case rejoin => rw [hq] at hj; cases hj
    case bar a b => rw [hq] at hj; cases hj
    all_goals simp [barsFree, barOf, ctlOf_single, hq, finish, hsp]
  simp only [issueOne, hc.running, if_true, issueBlock, issueSeats_single hc, List.map_cons, List.map_nil,
    evalSlots_solo hc ho hla, hw, Bool.false_eq_true, if_false, verdict_ahead hc hst hh ht hj hah hv, hpass]

/-- A plain decision delimits nothing ahead, and joins nothing. -/
theorem ahead_plain {b : Fetched} {ctl : Ctl} (hp : ctl.plain = true) :
    ahead k b ctl s = (.ok b.next, s) ∧ ctl.joins = false := by
  cases ctl <;> first | exact ⟨rfl, rfl⟩ | cases hp

/-- An instruction that nothing holds and nothing traps closes its bundle, if its effect leaves enough budget. -/
theorem issueOne_closed (hsp : ∀ c, splits c (soloBundle i s.cur s) = false) (ho : slotOf i s.cur s = o)
    (hla : o.late (o.desc s) = none) (hc : CanIssue toll o.traffic s)
    (hst : staticFault s.cur (soloBundle i s.cur s) s = (none, s))
    (hh : o.hold = .free) (ht : o.trap = none) (hp : o.ctl.plain = true)
    (hi : ((o.effect s).seat s.cur).phase ≠ .idle)
    (hb : ((1 + o.toll : Nat) : Int) < ((o.effect s).ctx s.cur).bud.ibud.toInt) :
    issueOne i s = .next (closed (soloBundle i s.cur s) o.ctl (soloBundle i s.cur s).next o s.cur s) := by
  rw [issueOne_ahead hsp ho hla hc hst hh ht (ahead_plain (k := s.cur) (s := s) (b := soloBundle i s.cur s) hp).2
    (ahead_plain hp).1 .refl, commitBlock_closed (hsp _) hi hb]
  · exact fun he => by rw [he] at hp; cases hp
  · exact fun he => by rw [he] at hp; cases hp

/-- Only an entry of a loop and a skip of one change where a bundle outside every loop goes on. -/
def Ctl.enters : Ctl → Bool
  | .loop _ _ | .skip _ => true
  | _ => false

/-- Where the next bundle stands, and in which loops, before a pending transfer says otherwise. -/
def turnOf (b : Fetched) (ctl : Ctl) (after : Word) (ls : List Loop) : Word × List Loop :=
  match ctl with
  | .skip stop => loopEnd stop after ls
  | .loop stop n => loopEnd b.addr b.next (ls ++ [({ start := b.next, stop := stop, remaining := n, index := 0 } : Loop)])
  | _ => loopEnd b.addr b.next ls

theorem turnOf_of_not_enters {b : Fetched} {ctl : Ctl} {after : Word} {ls : List Loop} (hn : ctl.enters = false) :
    turnOf b ctl after ls = loopEnd b.addr b.next ls := by
  cases ctl
  case loop => cases hn
  case skip => cases hn
  all_goals rfl

/-- With no transfer pending a bundle goes on, and leaves its own transfer pending (R75). -/
theorem flow_pend_none {b : Fetched} {ctl : Ctl} {after : Word} {c : Ctx} (hp : c.pos.pend = none) :
    flow b ctl after c = { c with pos := { c.pos with
      pc := (turnOf b ctl after c.pos.loops).1, loops := (turnOf b ctl after c.pos.loops).2, pend := newPend ctl
      xferAge := newAge b c.pos.xferAge } } := by
  simp only [flow, hp]
  rfl

/-- Outside every loop, with no transfer pending, the next bundle follows. -/
theorem flow_outside {b : Fetched} {ctl : Ctl} {after : Word} {c : Ctx} (hn : ctl.enters = false) (hl : c.pos.loops = [])
    (hp : c.pos.pend = none) : (flow b ctl after c).pos.pc = b.next := by
  rw [flow_pend_none hp, turnOf_of_not_enters hn, hl]
  rfl

/-- The bundle of a settled seat retires the effects of its slot, where its control decision touches the position only. -/
theorem retired_closed (hl : (encode i).length = 1) (hs : Settled s) (hlink : ∀ a c, o.ctl.link a c = c)
    (hf : ∀ f, o.ctl.fused f = f)
    (hpc : ∀ c : Ctx, c.pos.loops = [] → c.pos.pend = none → c.pos = (s.ctx s.cur).pos →
      (flow (soloBundle i s.cur s) o.ctl (soloBundle i s.cur s).next c).pos.pc = (soloBundle i s.cur s).next)
    (hk : (o.effect s).cur = s.cur) (hi : ((o.effect s).seat s.cur).phase ≠ .idle)
    (hp : ((o.effect s).ctx s.cur).pos = (s.ctx s.cur).pos) :
    Retired o.flags o.clearFpst (1 + o.toll) o.traffic (o.effect s)
      (closed (soloBundle i s.cur s) o.ctl (soloBundle i s.cur s).next o s.cur s) := by
  have hr := closed_retired (b := soloBundle i s.cur s) (ctl := o.ctl) (after := (soloBundle i s.cur s).next) hk hi
    (by rw [hp]; exact hs) hf fun hlo hpe => by rw [hpc _ hlo hpe hp, soloBundle_next hl, hp]
  rw [funext (hlink _)] at hr
  rw [← hk] at hr hi ⊢
  exact Retired.of_idle_update hi hr

/-- An instruction completes whose effect spends budget of its seat, and leaves enough for its bundle. -/
theorem exec_closed (hi : OneSyllable i) (hw : i.wf = true) (hr : Runs g n o.traffic s)
    (hslot : slotOf i s.cur s = guarded g (s.ctx s.cur) o) (ho : o.Free s)
    (hp : ((o.effect s).seat s.cur).phase ≠ .idle)
    (hb : ((1 + o.toll : Nat) : Int) < ((o.effect s).ctx s.cur).bud.ibud.toInt) :
    exec i s = .next (closed (soloBundle i s.cur s) o.ctl (soloBundle i s.cur s).next (o.under g) s.cur s) :=
  (congrFun hi.issues s).trans (issueOne_closed (o := o.under g) (fun _ => splits_solo hi.one) (hslot.trans (guarded_of_holds hr.guard)) ho.late
    hr.can (staticFault_plain hw hi.control) ho.hold ho.trap (by rw [SlotOut.under, ho.ctl]; rfl) hp hb)

/-! The slots of LAUNCH and WSEND. -/

/-- What a LAUNCH or a WSEND is as a slot, with its privilege and its own checks before and after those of the waybill. -/
def workOut (s : State) (sig : BitVec 7) (ra : BitVec 6) (h : BitVec 4) (before after : Option Cause)
    (eff : State → State) : SlotOut :=
  let c := s.ctx s.cur
  let t := waybillTap c sig
  { uses := sUse ra ++ [.sample sig.toNat t.idx]
    hold := if t.g.present && t.unfilled s s.cur c then .unfilled else if handleHold c h then .outside else .free
    listed := handleHold c h
    other := handleHold c h
    trap := (absentTrap c sig).or (before.or ((waybillTrap s s.cur c sig).or after))
    accept := eff
    traffic := 2
    units := waybillUnits s s.cur c sig }

theorem workOut_free {eff : State → State} (hp : (waybillTap (s.ctx s.cur) sig).g.present = true)
    (hf : (waybillTap (s.ctx s.cur) sig).unfilled s s.cur (s.ctx s.cur) = false)
    (hh : handleHold (s.ctx s.cur) h = false) (ht : waybillTrap s s.cur (s.ctx s.cur) sig = none) :
    (workOut s sig ra h none none eff).Free s := by
  have habsent : absentTrap (s.ctx s.cur) sig = none := if_pos hp
  refine ⟨rfl, ?_, ?_, rfl⟩
  · simp only [workOut, hp, hf, hh]; rfl
  · simp only [workOut, habsent, ht]; rfl

theorem slotLaunch_eq (hpriv : (s.waybill s.cur).priv.getLsbD 1 = true) (hr : ((s.ctx s.cur).s ra).toNat < 2 ^ 18)
    (hq : launchQueue s ((s.ctx s.cur).s ra).toNat (s.partOf s.cur) = true)
    (hok : waybillOk (waybillBytes s s.cur (s.ctx s.cur) sig) false = true)
    (ha : launchAfford (s.ctx s.cur) (parseWaybill (waybillBytes s s.cur (s.ctx s.cur) sig)) = true) :
    slotOf (.launch g sig ra h) s.cur s = guarded g (s.ctx s.cur) (workOut s sig ra h none none
      (launchAccept s.cur sig ((s.ctx s.cur).s ra).toNat h (waybillBytes s s.cur (s.ctx s.cur) sig))) := by
  simp only [slotOf, slotLaunch, hpriv, hr, hq, hok, ha, if_true, Option.none_or]
  rfl

theorem slotWsend_eq (hpriv : (s.waybill s.cur).priv.getLsbD 2 = true) (hr : ((s.ctx s.cur).s ra).toNat < 2 ^ 36)
    (hok : waybillOk (waybillBytes s s.cur (s.ctx s.cur) sig) false = true)
    (hg : (parseWaybill (waybillBytes s s.cur (s.ctx s.cur) sig)).graph = 0) :
    slotOf (.wsend g sig ra h) s.cur s = guarded g (s.ctx s.cur) (workOut s sig ra h none none
      (wsendAccept s.cur sig ((s.ctx s.cur).s ra) h (waybillBytes s s.cur (s.ctx s.cur) sig))) := by
  simp only [slotOf, slotWsend, hpriv, hr, hok, hg, if_true, Option.none_or]
  rfl

/-! What an accepted LAUNCH changes of its seat. -/

theorem mild_takeHandle {x : Handle} : Mild (takeHandle h x) := fun _ => ⟨rfl, rfl, rfl⟩

theorem apart_nameDone {p : Nat} : Apart (nameDone q p bs s) s := by
  unfold nameDone
  split
  · exact apart_updChan
  · exact .refl

theorem nameDone_queues {p : Nat} : (nameDone q p bs s).queues = s.queues := by
  unfold nameDone
  split <;> rfl

theorem apart_updQueue {f : Queue → Queue} : Apart (s.updQueue q f) s := ⟨rfl, rfl, rfl, fun h => ⟨h.mem, h.host, h.seats⟩⟩
theorem apart_updTask {t : Nat} {f : Task → Task} : Apart (s.updTask t f) s := ⟨rfl, rfl, rfl, fun h => ⟨h.mem, h.host, h.seats⟩⟩

/-- Naming entries of launches again changes no seat but in its handles. -/
theorem steady_rename {l : Launch} : Steady (l.rename s) s := .updCtx mild_updHandle

theorem steady_orderLaunches {a b : Launch} : Steady (orderLaunches a b s) s :=
  steady_rename.trans (steady_rename.trans ((Apart.of_aside aside_updDie).trans (.ite apart_updTask .refl)).steady)

theorem orderLaunches_queues {a b : Launch} : (orderLaunches a b s).queues = s.queues := by
  simp only [orderLaunches]
  split <;> rfl

/-- The budgets that LAUNCH pays and its handle, of the waybill w. -/
def launchPays (sig : BitVec 7) (h : BitVec 4) (w : Waybill) (e : Nat) (c : Ctx) : Ctx :=
  { takeHandle h (workHandle 0x20 sig e) c with
    bud.ibud := c.bud.ibud - BitVec.ofNat 48 (w.ibud * w.count)
    bud.tbud := c.bud.tbud - BitVec.ofNat 48 (w.tbud * w.count) }

/-- LAUNCH pays on its own seat; all else that it does is beside the seats. -/
theorem launchCommit_pays : ∃ u e, Apart u s ∧
    Apart (launchCommit k sig q h bs s) (u.updCtx k (launchPays sig h (parseWaybill bs) e)) ∧
    (launchCommit k sig q h bs s).queues = (s.updQueue q fun y => { y with reserved := y.reserved + 1 }).queues := by
  simp only [launchCommit]
  refine ⟨_, _, ?_, .of_aside aside_updDie, nameDone_queues⟩
  exact apart_nameDone.trans (apart_updTask.trans apart_updQueue)

theorem steady_launchAccept : Steady (launchAccept k sig q h bs s) (launchCommit k sig q h bs s) := by
  simp only [launchAccept]
  split
  · exact steady_orderLaunches
  · exact .refl

theorem launchAccept_queues : (launchAccept k sig q h bs s).queues = (launchCommit k sig q h bs s).queues := by
  simp only [launchAccept]
  split
  · exact orderLaunches_queues
  · rfl

/-- An accepted LAUNCH pays the budget of the child's steps, and changes no more of its seat than its handle. -/
theorem launchAccept_seat (hw : s.Wf) (hr : (s.seat k).phase = .running) :
    (launchAccept k sig q h bs s).cur = s.cur ∧ ((launchAccept k sig q h bs s).seat k).phase = .running ∧
      ((launchAccept k sig q h bs s).ctx k).pos = (s.ctx k).pos ∧
      ((launchAccept k sig q h bs s).ctx k).bud.ibud =
        (s.ctx k).bud.ibud - BitVec.ofNat 48 ((parseWaybill bs).ibud * (parseWaybill bs).count) := by
  obtain ⟨u, e, hu, hv, -⟩ := launchCommit_pays (s := s) (k := k) (sig := sig) (q := q) (h := h) (bs := bs)
  have hur : (u.seat k).phase = .running := (congrArg Seat.phase (hu.seat k)).trans hr
  have hbusy : (u.seat k).phase ≠ .idle := by rw [hur]; decide
  have hpaid : Steady (launchAccept k sig q h bs s) (u.updCtx k (launchPays sig h (parseWaybill bs) e)) :=
    steady_launchAccept.trans hv.steady
  have hwf : (u.updCtx k (launchPays sig h (parseWaybill bs) e)).Wf := 
    have huw := hu.wf hw
    ⟨huw.mem, huw.host, Sparse.set_wf huw.seats⟩
  have hstill := hpaid hwf
  have hctx : (u.updCtx k (launchPays sig h (parseWaybill bs) e)).ctx k = launchPays sig h (parseWaybill bs) e (s.ctx k) :=
    (State.ctx_updCtx_same hbusy).trans (congrArg _ (hu.ctx k))
  refine ⟨hstill.cur.trans hu.cur, ?_, ?_, ?_⟩
  · rw [hstill.phase, State.phase_updCtx hbusy, hur]
  · rw [hstill.pos, hctx]; rfl
  · rw [hstill.ibud, hctx]; rfl

/-- It reserves one entry of its queue. -/
theorem launchAccept_reserved (hq : (s.queue q).present = true) :
    ((launchAccept k sig q h bs s).queue q).reserved = (s.queue q).reserved + 1 := by
  obtain ⟨u, e, -, -, hqueues⟩ := launchCommit_pays (s := s) (k := k) (sig := sig) (q := q) (h := h) (bs := bs)
  rw [State.queue, launchAccept_queues, hqueues]
  refine (congrArg Queue.reserved (Sparse.get_set_same fun hx => ?_)).trans rfl
  exact absurd ((congrArg Queue.present hx).symm.trans hq) (by decide)

theorem keeps_wsendAccept (hr : (s.seat s.cur).phase = .running) : Keeps (wsendAccept s.cur sig w h bs s) s :=
  (((keeps_refl hr).seats (v := s.newTag.2) rfl rfl).updCtx (f := takeHandle h _) (fun _ => rfl) fun _ => rfl).seats rfl rfl

theorem work_wf (hg : g.ok = true) (hsig : sigOk sig = true) : (g.ok && sigOk sig) = true := by rw [hg, hsig]; rfl

/-- A LAUNCH that its budget covers closes its bundle. -/
theorem exec_launch (hg : g.ok = true) (hsig : sigOk sig = true) (hwf : s.Wf) {w : Waybill} (hw : parseWaybill bs = w)
    (hr : Runs g (1 + w.ibud * w.count) 2 s)
    (hslot : slotOf (.launch g sig ra h) s.cur s =
      guarded g (s.ctx s.cur) (workOut s sig ra h none none (launchAccept s.cur sig q h bs)))
    (ho : (workOut s sig ra h none none (launchAccept s.cur sig q h bs)).Free s) :
    ∃ u, exec (.launch g sig ra h) s = .next u ∧
      Retired 0 0 1 2 (launchAccept s.cur sig q h bs s) u ∧
      (u.ctx s.cur).bud.ibud = (s.ctx s.cur).bud.ibud - BitVec.ofNat 48 (w.ibud * w.count) - 1 ∧
      u.queues = (launchAccept s.cur sig q h bs s).queues := by
  obtain ⟨hcur, hph, hpos, hbud⟩ := launchAccept_seat (sig := sig) (q := q) (h := h) (bs := bs) hwf hr.can.running
  have hbusy : ((launchAccept s.cur sig q h bs s).seat s.cur).phase ≠ .idle := by rw [hph]; decide
  have hcover := hr.can.tolls
  have hleft : ((1 + 0 : Nat) : Int) < ((launchAccept s.cur sig q h bs s).ctx s.cur).bud.ibud.toInt := by
    rw [hbud, hw, toInt_sub_charge (by push_cast at *; omega)]
    push_cast at *
    omega
  have hone : OneSyllable (.launch g sig ra h) := ⟨rfl, rfl, rfl⟩
  let o := SlotOut.under g (workOut s sig ra h none none (launchAccept s.cur sig q h bs))
  refine ⟨_, exec_closed hone (work_wf hg hsig) hr hslot ho hbusy hleft, ?_, ?_, rfl⟩
  · exact retired_closed (o := o) hone.one hr.settled (fun _ _ => rfl) (fun _ => rfl)
      (fun _ hlo hpe _ => flow_outside rfl hlo hpe) hcur hbusy hpos
  · rw [closed_ctx (o := o) hbusy, closeCtx_ibud]
    exact congrArg (· - 1) (hbud.trans (by rw [hw]))

end Sys2Proof.Machine
namespace Sys2Proof.Proofs
set_option Elab.async false
open Sys2Proof Sys2Proof.Machine

/-- Settles O23: the slots of LAUNCH and WSEND are free once their checks pass; LAUNCH pays before its bundle does. -/
theorem launchAccepted : Obligations.LaunchAccepted := by
  unfold Obligations.LaunchAccepted
  intro s g sig ra h hg hsig hwf k c r t bs w hp hf hh ht hok
  refine ⟨fun hpriv hr hq ha hruns => ?_, fun hpriv hr hgraph hruns => ?_⟩
  · obtain ⟨u, hexec, hret, hbud, hqueues⟩ := exec_launch hg hsig hwf rfl hruns (slotLaunch_eq hpriv hr hq hok ha)
      (workOut_free hp hf hh ht)
    have hpresent : (s.queue r.toNat).present = true := by
      simp only [launchQueue, Bool.and_eq_true] at hq
      exact hq.1.1
    exact ⟨⟨u, hexec, hret⟩, u, hexec, hbud,
      (congrArg (fun m => Queue.reserved (Sparse.get {} m r.toNat)) hqueues).trans (launchAccept_reserved hpresent)⟩
  · exact completes_of_guarded ⟨rfl, rfl, rfl⟩ (work_wf hg hsig) hruns (slotWsend_eq hpriv hr hok hgraph)
      (workOut_free hp hf hh ht) rfl (keeps_wsendAccept hruns.can.running)

end Sys2Proof.Proofs
end

section
/-!
Control without a transfer (R74, R86, R88, R89, R100, R107, R109).
-/
namespace Sys2Proof.Machine
set_option Elab.async false
open Sys2Proof

variable {s u : State} {g : Guard} {i : Instr} {o : SlotOut} {m : BitVec 16} {sc : Scope} {tg : BitVec 6} {ev : BitVec 4}
  {uses : List Res} {traffic toll : Nat}

/-- A bundle with no effect, whose control decision leaves the seat in its place, passes. -/
theorem exec_closed_idle {ctl : Ctl} (he : exec i = issueOne i) (hl : (encode i).length = 1) (hr : CanIssue 1 0 s)
    (hst : staticFault s.cur (soloBundle i s.cur s) s = (none, s)) (hslot : slotOf i s.cur s = { uses := uses, ctl := ctl })
    (hp : ctl.plain = true) :
    exec i s = .next (closed (soloBundle i s.cur s) ctl (soloBundle i s.cur s).next { uses := uses, ctl := ctl } s.cur s) :=
  (congrFun he s).trans (issueOne_closed (o := { uses := uses, ctl := ctl }) (fun _ => splits_solo hl) hslot rfl hr hst rfl rfl hp
    (by rw [SlotOut.effect]; exact (keeps_refl hr.running).busy) hr.tolls)

/-- YPT is a point, and goes on where the budget is not due. -/
theorem passes_ypt (hg : g.ok = true) (hr : Runs g 1 0 s) : Passes (.ypt g) s := by
  have hlead : s.lead s.cur = s.ctx s.cur := lead_of_single hr.can.single
  have hslot : slotOf (.ypt g) s.cur s = { uses := predUse g.pred ++ [], ctl := .point } :=
    (congrArg (guarded g · _) hlead).trans (guarded_of_holds hr.guard)
  exact ⟨_, exec_closed_idle rfl rfl hr.can (staticFault_plain hg rfl) hslot rfl,
    retired_closed (o := { uses := predUse g.pred ++ [], ctl := .point }) rfl hr.settled (fun _ _ => rfl) (fun _ => rfl)
      (fun _ hlo hpe _ => flow_outside rfl hlo hpe) rfl (keeps_refl hr.can.running).busy rfl⟩

/-- The 64th residue cycle of a held bundle costs one instruction (R100). -/
theorem stallSeat_ibud (h : Hold) (stuck : Bool) (send : Option Word) (taps : List Nat) (c : Ctx) :
    (stallSeat h stuck send taps c).bud.ibud = c.bud.ibud - if c.pos.residue = 63 then 1 else 0 := by
  simp only [stallSeat]
  split
  · rfl
  · exact (BitVec.sub_zero _).symm

/-- The continuation that CONT names from a bundle at pc (R109). -/
def setCont (disp : BitVec 32) (pc : Word) (c : Ctx) : Ctx :=
  { c with csr.contpc := if disp = 0 then 0 else (pc + BitVec.ofInt 64 (8 * disp.toInt)) &&& 0x0000FFFFFFFFFFF8 }

theorem slotCont_eq {disp : BitVec 32} (hl : s.lead s.cur = s.ctx s.cur) : slotOf (.cont g disp) s.cur s =
    guarded g (s.ctx s.cur) { write := fun u => u.updCtx s.cur (setCont disp (s.ctx s.cur).pos.pc) } := by
  simp only [slotOf, slotCont, hl]
  rfl

/-- SIGEV sends its event, or finds it lost (R89). -/
theorem sigevEffect_sent {st x : Nat} (h : evTarget s s.cur sc tg.toNat = some (st, x)) :
    sigevEffect s.cur sc tg.toNat ev s =
      { s with events := s.events ++ [⟨st, (s.step1 st).uid, x, ev, s.stepKey s.cur * 16 + s.memberNo s.cur⟩] } := by
  rw [sigevEffect, h]

theorem sigevEffect_lost (h : evTarget s s.cur sc tg.toNat = none) :
    sigevEffect s.cur sc tg.toNat ev s = s.updCtx s.cur fun c => { c with bud.evlost := true } := by
  rw [sigevEffect, h]

end Sys2Proof.Machine
namespace Sys2Proof.Proofs
set_option Elab.async false
open Sys2Proof Sys2Proof.Machine

theorem plainControl : Claims.PlainControl := by
  intro s g disp m sc tg ev hg hr hwf c
  have hlead : s.lead s.cur = s.ctx s.cur := lead_of_single hr.can.single
  refine ⟨?_, passes_ypt hg hr, ?_, fun hm hev => ?_, fun hsc => ⟨fun st x hx => ?_, fun hnone => ?_⟩⟩
  · exact completes_of_guarded ⟨rfl, rfl, rfl⟩ hg hr rfl ⟨rfl, rfl, rfl, rfl⟩ rfl (keeps_refl hr.can.running)
  · refine computes_of_guarded ⟨rfl, rfl, rfl⟩ hg hr (slotCont_eq hlead) ⟨rfl, rfl, rfl, rfl⟩ ?_ (fun _ => rfl)
      fun _ => rfl
    exact State.updCtx_congr (f := setCont disp c.pos.pc) rfl
  · have hhold : (if c.csr.evpend &&& m = 0 then Hold.outside else .free) = .free := if_neg hev
    refine completes_of_guarded ⟨rfl, rfl, rfl⟩ ?_ hr rfl ⟨rfl, hhold, rfl, rfl⟩ rfl (keeps_refl hr.can.running)
    simpa [Instr.wf, hg] using hm
  · refine completes_of_guarded ⟨rfl, rfl, rfl⟩ ?_ hr rfl ⟨rfl, rfl, rfl, rfl⟩ (sigevEffect_sent hx) ?_
    · simp [Instr.wf, hg, hsc]
    · exact (keeps_refl hr.can.running).seats rfl rfl
  · refine computes_of_guarded ⟨rfl, rfl, rfl⟩ ?_ hr rfl ⟨rfl, rfl, rfl, rfl⟩ (sigevEffect_lost hnone) (fun _ => rfl) fun _ => rfl
    simp [Instr.wf, hg, hsc]

theorem waitevWaits : Claims.WaitevWaits := by
  intro s g m hg hm hr hnone
  have hslot := (rfl : slotOf (.waitev g m) s.cur s = guarded g (s.ctx s.cur) _).trans (guarded_of_holds hr.guard)
  obtain ⟨stuck, send, hexec⟩ := issueOne_outside hslot rfl hr.can
    (staticFault_plain (by simpa [Instr.wf, hg] using hm) rfl) (if_pos hnone) (keeps_refl hr.can.running)
  have hbusy := (keeps_refl hr.can.running).busy
  have hctx : (s.updCtx s.cur (stallSeat .outside stuck send [])).ctx s.cur =
      stallSeat .outside stuck send [] (s.ctx s.cur) := State.ctx_updCtx_same hbusy
  exact ⟨_, hexec, (State.phase_updCtx hbusy).trans hr.can.running, (congrArg Ctx.pos hctx).trans rfl, (congrArg Ctx.regs hctx).trans rfl,
    (congrArg (·.bud.ibud) hctx).trans (stallSeat_ibud _ _ _ _ _), rfl⟩

/-- Settles O24: a slot of no effect passes, and WAITEV without its event is held from outside. -/
theorem controlPlain : Obligations.ControlPlain := ⟨plainControl, waitevWaits⟩

end Sys2Proof.Proofs
end

section
/-!
Transfers and their delay bundles (R75, R77, R79, R83).
-/
namespace Sys2Proof.Machine
set_option Elab.async false
open Sys2Proof

variable {s u : State} {g : Guard} {i : Instr} {o : SlotOut} {ra : BitVec 6} {b : Fetched} {ctl : Ctl} {after : Word}
  {uses : List Res} {c : Ctx} {k : Nat} {ls front inner : List Loop} {addr next target : Word} {pops : Bool}

theorem closed_pos (hi : ((o.effect u).seat k).phase ≠ .idle) :
    ((closed b ctl after o k u).ctx k).pos = (flow b ctl after ((o.effect u).ctx k)).pos :=
  (congrArg Ctx.pos (closed_ctx hi)).trans (flow_pos endCtx_pos endCtx_saved)

/-! The end of a loop's body, and the pops of a landing (R81, R83). -/

/-- A bundle that is not the last one of the innermost body goes on (R81). -/
theorem loopEnd_inside (h : ∀ l, ls.getLast? = some l → l.stop ≠ addr) : loopEnd addr next ls = (next, ls) := by
  cases hr : ls.reverse with
  | nil => simp [loopEnd, endRev, List.reverse_eq_nil_iff.mp hr]
  | cons l rest =>
    have hlast : ls.getLast? = some l := by rw [← List.head?_reverse, hr]; rfl
    have hend : endRev addr next (l :: rest) = (next, l :: rest) := if_pos (h l hlast)
    rw [loopEnd, hr, hend, ← hr, List.reverse_reverse]

/-- A landing pops the positions up to the first whose range holds the target (R83). -/
theorem popLoops_append (hin : ∀ l ∈ inner, ¬(l.start.toNat ≤ target.toNat ∧ target.toNat ≤ l.stop.toNat))
    (hout : ∀ l, front.getLast? = some l → l.start.toNat ≤ target.toNat ∧ target.toNat ≤ l.stop.toNat) :
    popLoops target (front ++ inner) = front := by
  have hdrop : ∀ l ∈ inner.reverse, (decide (target.toNat < l.start.toNat) || decide (l.stop.toNat < target.toNat)) = true :=
    fun l hl => by
      have := hin l (List.mem_reverse.mp hl)
      rw [Bool.or_eq_true, decide_eq_true_eq, decide_eq_true_eq]
      omega
  rw [popLoops, List.reverse_append, List.dropWhile_append_of_pos hdrop]
  cases hr : front.reverse with
  | nil => rw [List.reverse_eq_nil_iff.mp hr]; rfl
  | cons l rest =>
    have hl := hout l (by rw [← List.head?_reverse, hr]; rfl)
    have hkeep : (decide (target.toNat < l.start.toNat) || decide (l.stop.toNat < target.toNat)) = false := by
      rw [Bool.or_eq_false_iff, decide_eq_false_iff_not, decide_eq_false_iff_not]
      omega
    rw [List.dropWhile_cons_of_neg (by rw [hkeep]; decide), ← hr, List.reverse_reverse]

/-! The flow of control while a transfer is pending (R75). -/

/-- The second delay bundle lands on the target. -/
theorem flow_lands (hp : c.pos.pend = some ⟨some target, 1, false, pops⟩) : (flow b ctl after c).pos = { c.pos with
    pc := target
    loops := if pops then popLoops target (turnOf b ctl after c.pos.loops).2 else (turnOf b ctl after c.pos.loops).2
    pend := none
    xferAge := 0 } := by
  simp only [flow, hp]
  rfl

/-- The first delay bundle leaves one to go. -/
theorem flow_delays {x : Pend} (hp : c.pos.pend = some x) (hl : 1 < x.left) : (flow b ctl after c).pos = { c.pos with
    pc := (turnOf b ctl after c.pos.loops).1
    loops := (turnOf b ctl after c.pos.loops).2
    pend := some { x with left := x.left - 1 }
    xferAge := newAge b c.pos.xferAge } := by
  simp only [flow, hp, hl, if_true]
  rfl

/-- A bundle of NOP only moves its position. -/
theorem nop_flows (hg : g.ok = true) (hr : CanIssue 1 0 s) (hh : Guard.holds g (s.ctx s.cur) = true) :
    ∃ t, exec (.nop g) s = .next t ∧
      (t.ctx s.cur).pos = (flow (soloBundle (.nop g) s.cur s) .next (soloBundle (.nop g) s.cur s).next (s.ctx s.cur)).pos :=
  ⟨_, exec_closed_idle (ctl := .next) rfl rfl hr (staticFault_plain hg rfl) (guarded_of_holds hh) rfl,
    closed_pos (keeps_refl hr.running).busy⟩

/-! Taken transfers. -/

/-- A transfer outside every loop, with no other near, is left pending. -/
theorem transfer_pends (he : exec i = issueOne i) (hw : i.wf = true) (htr : Instr.transfer i = true)
    (hsp : ∀ c, splits c (soloBundle i s.cur s) = false) (hr : CanIssue 1 0 s) (hs : Straight s)
    (hslot : slotOf i s.cur s = { uses := uses, ctl := ctl }) (hp : ctl.plain = true) (hn : ctl.enters = false) :
    exec i s = .next (closed (soloBundle i s.cur s) ctl (soloBundle i s.cur s).next { uses := uses, ctl := ctl } s.cur s) ∧
      ((closed (soloBundle i s.cur s) ctl (soloBundle i s.cur s).next { uses := uses, ctl := ctl } s.cur s).ctx s.cur).pos =
        { (s.ctx s.cur).pos with pc := (soloBundle i s.cur s).next, loops := [], pend := newPend ctl, xferAge := 1 } := by
  let o : SlotOut := { uses := uses, ctl := ctl }
  have hbusy : ((o.effect s).seat s.cur).phase ≠ .idle := (keeps_refl hr.running).busy
  have hage : newAge (soloBundle i s.cur s) (s.ctx s.cur).pos.xferAge = 1 :=
    if_pos (by simp [Fetched.transfer, soloBundle, htr])
  refine ⟨(congrFun he s).trans (issueOne_closed (o := o) hsp hslot rfl hr (staticFault_straight hw hs) rfl rfl hp hbusy
    hr.tolls), (closed_pos (o := o) hbusy).trans ?_⟩
  have hpend : ((o.effect s).ctx s.cur).pos.pend = none := hs.alone
  rw [flow_pend_none hpend, turnOf_of_not_enters hn]
  show Pos.mk _ _ _ _ _ = _
  rw [show ((o.effect s).ctx s.cur).pos = (s.ctx s.cur).pos from rfl, hs.outside, hage]
  rfl

/-- It retires with no effect but that. -/
theorem transfer_retires (he : exec i = issueOne i) (hw : i.wf = true) (htr : Instr.transfer i = true)
    (hl : (encode i).length = 1) (hr : CanIssue 1 0 s) (hs : Straight s)
    (hslot : slotOf i s.cur s = { uses := uses, ctl := ctl }) (hp : ctl.plain = true) (hn : ctl.enters = false)
    (hlink : ∀ a c, ctl.link a c = c) (hf : ∀ f, ctl.fused f = f) :
    ∃ t, exec i s = .next t ∧ Retired 0 0 1 0 s t ∧ (t.ctx s.cur).pos.pend = newPend ctl ∧ (t.ctx s.cur).pos.xferAge = 1 := by
  obtain ⟨hexec, hpos⟩ := transfer_pends he hw htr (fun _ => splits_solo hl) hr hs hslot hp hn
  have hsettled : Settled s := fun p hp => by rw [hs.alone] at hp; cases hp
  exact ⟨_, hexec, retired_closed (o := { uses := uses, ctl := ctl }) hl hsettled hlink hf
    (fun _ hlo hpe _ => flow_outside hn hlo hpe) rfl (keeps_refl hr.running).busy rfl, congrArg Pos.pend hpos, congrArg Pos.xferAge hpos⟩

/-- A transfer to a register goes where that is a multiple of 8, and traps elsewhere (R77). -/
theorem targetTrap_aligned {w : Word} (h : w.toNat % 8 = 0) : targetTrap w = none := if_pos h

theorem targetTrap_misaligned {w : Word} (h : w.toNat % 8 ≠ 0) : targetTrap w = some (addrCause 0x13 w) := if_neg h

/-! BRM (R79). -/

/-- The last word of a BRM of more than one word is its CE (R42). -/
theorem encBrm_cases (ts : List BrmTest) : encBrm ts = [] ∨ (∃ w, encBrm ts = [w]) ∨
    ∃ w e, encBrm ts = [w, e] ∧ 5 * 2 ^ 60 ≤ e := by
  match ts with
  | [] => exact .inl rfl
  | [_] => exact .inr (.inl ⟨_, rfl⟩)
  | [_, _] => exact .inr (.inr ⟨_, _, rfl, by omega⟩)
  | [_, _, _] => exact .inr (.inr ⟨_, _, rfl, by omega⟩)
  | [_, _, _, _] => exact .inr (.inr ⟨_, _, rfl, by omega⟩)
  | _ :: _ :: _ :: _ :: _ :: _ => exact .inl rfl

/-- A sealed CE is no V syllable. -/
theorem classOf_sealed {e : Nat} (h1 : 5 * 2 ^ 60 ≤ e) (h2 : e < 6 * 2 ^ 60) :
    classOf (BitVec.ofNat 64 (e + 2 ^ 63)).toNat = 5 := by
  rw [classOf, BitVec.toNat_ofNat]
  omega

/-- A bundle of one BRM has at most one V syllable: it is not split (R64). -/
theorem brm_whole {ts : List BrmTest} {x : Core} : splits x (soloBundle (.brm ts) k s) = false := by
  have hlt := (Laws.EncodedWords.encBrm_lt ts).2
  have henc : encode (.brm ts) = encBrm ts := rfl
  rcases encBrm_cases ts with h | ⟨w, h⟩ | ⟨w, e, h, he⟩
  · simp [splits, soloBundle, henc, h, sealWords]
  · exact splits_solo (by rw [henc, h]; rfl)
  · have hce := classOf_sealed he (hlt e (by rw [h]; simp))
    have hfew : ((sealWords [w, e]).filter fun w => classOf w.toNat == 2).length ≤ 1 := by
      simp only [sealWords, List.filter_cons, hce]
      split <;> simp
    simp only [splits, soloBundle, henc, h, Bool.and_eq_false_iff, decide_eq_false_iff_not, not_le]
    exact .inr (by omega)

end Sys2Proof.Machine
namespace Sys2Proof.Proofs
set_option Elab.async false
open Sys2Proof Sys2Proof.Machine

theorem transferTargets : Claims.TransferTargets := by
  intro s g ra disp hg hr hs c goes
  have hlead : s.lead s.cur = s.ctx s.cur := lead_of_single hr.can.single
  have goes' : ∀ {i : Instr} {uses t pops}, exec i = issueOne i → i.wf = true → Instr.transfer i = true →
      (encode i).length = 1 → slotOf i s.cur s = guarded g (s.ctx s.cur) { uses := uses, ctl := .jump t pops } →
      goes i (some t) pops := fun he hw htr hl hslot =>
    transfer_retires he hw htr hl hr.can hs (hslot.trans (guarded_of_holds hr.guard)) rfl rfl (fun _ _ => rfl) fun _ => rfl
  have traps : ∀ {i : Instr} {o : SlotOut} {w}, exec i = issueOne i → i.wf = true →
      slotOf i s.cur s = guarded g (s.ctx s.cur) o → o.late (o.desc s) = none → o.hold = .free → o.trap = targetTrap w →
      w.toNat % 8 ≠ 0 → Traps i s 0x13 w 0 := fun he hw hslot hla hh ht hmis =>
    traps_of_guarded (c := addrCause 0x13 _) he hw hr hslot hla hh (ht.trans (targetTrap_misaligned hmis)) fun _ => hs
  refine ⟨goes' (uses := []) rfl hg rfl rfl ?_,
    fun ha => goes' (uses := sUse ra) rfl hg rfl rfl ?_, fun ha => ⟨?_, ?_⟩, fun ha => goes' (uses := [.s 62]) rfl hg rfl rfl ?_, fun ha => ?_⟩
  · simp only [slotOf, slotBr, hlead]; rfl
  · simp only [slotOf, slotJr, hlead]; rw [targetTrap_aligned ha]
  · exact traps rfl hg (by simp only [slotOf, slotJr, hlead]; rfl) rfl rfl rfl ha
  · exact traps rfl hg (by simp only [slotOf, slotCallr, hlead]; rfl) rfl rfl rfl ha
  · simp only [slotOf, slotRet, hlead]; rw [targetTrap_aligned ha]
  · exact traps rfl hg (by simp only [slotOf, slotRet, hlead]; rfl) rfl rfl rfl ha

theorem brmFirstTest : Claims.BrmFirstTest := by
  intro s ts hw hr hs c
  have hlead : s.lead s.cur = s.ctx s.cur := lead_of_single hr.single
  let first := ts.find? fun x => Guard.holds ⟨x.neg, x.pred⟩ c
  let ctl : Ctl := match first with
    | some t => .jump (dispTarget c t.disp.toInt) true
    | none => .fall
  have hslot : slotOf (.brm ts) s.cur s = { uses := ts.flatMap fun t => predUse t.pred, ctl := ctl } := by
    simp only [slotOf, slotBrm, hlead]; rfl
  have hplain : ctl.plain = true ∧ ctl.enters = false ∧ (∀ a c, ctl.link a c = c) ∧ newPend ctl =
      some ⟨first.map fun x => c.pos.pc + BitVec.ofInt 64 (8 * x.disp.toInt), 2, false, first.isSome⟩ := by
    cases h : first <;> simp only [ctl, h] <;> exact ⟨rfl, rfl, fun _ _ => rfl, rfl⟩
  obtain ⟨hp, hn, hlink, hpend⟩ := hplain
  obtain ⟨hexec, hpos⟩ := transfer_pends rfl hw rfl (fun _ => brm_whole) hr hs hslot hp hn
  have hbusy := (keeps_refl hr.running).busy
  exact ⟨_, hexec, congrArg Pos.xferAge hpos, (congrArg Ctx.regs (closed_ctx (o := { uses := _, ctl := ctl }) hbusy)).trans
    (closeCtx_regs.trans (congrArg Ctx.regs (hlink _ _))), rfl, (congrArg Pos.pend hpos).trans hpend⟩

theorem delayBundles : Claims.DelayBundles := by
  intro s g target pops hg hr
  obtain ⟨t, hexec, hpos⟩ := nop_flows hg hr.can hr.guard
  refine ⟨fun front inner hl hp hlast hin hout => ⟨t, hexec, ?_⟩, fun hl => ⟨fun hp => ⟨t, hexec, ?_⟩, fun hp => ⟨t, hexec, ?_⟩⟩⟩
  · have hturn : ∀ b : Fetched, b.addr = (s.ctx s.cur).pos.pc → ∀ a, (turnOf b .next a (s.ctx s.cur).pos.loops).2 = front ++ inner :=
      fun b hb a => by rw [turnOf_of_not_enters rfl, hb, loopEnd_inside hlast, hl]
    rw [hpos, flow_lands hp, hturn _ rfl, popLoops_append hin hout]
    exact ⟨rfl, rfl, rfl⟩
  · rw [hpos, flow_lands hp]
    exact ⟨rfl, rfl⟩
  · rw [hpos, flow_delays hp Nat.one_lt_two, turnOf_of_not_enters rfl, hl]
    exact ⟨soloBundle_next rfl, rfl⟩

/-- Settles O25: a transfer leaves its target pending, and two bundles of the flow of control land on it. -/
theorem transfers : Obligations.Transfers := ⟨transferTargets, brmFirstTest, delayBundles⟩

end Sys2Proof.Proofs
end

section
/-!
What translation and fetch leave alone (R394 to R414, R51). Walks change memory, dies and the cache of the core.
-/
namespace Sys2Proof.Machine
set_option Elab.async false
open Sys2Proof

variable {s u : State} {d p va agent n : Nat} {w : Want}

theorem aside_fab_agenda {x : Fabric} {xs : List Turn} : Aside { s with fab := x, agenda := xs } s :=
  ⟨rfl, fun h => ⟨h.mem, h.host, h.seats⟩⟩

theorem apart_updCore {c : Nat} {f : Core → Core} : Apart (s.updCore c f) s := ⟨rfl, rfl, rfl, fun h => ⟨h.mem, h.host, h.seats⟩⟩

/-! Walks (R398 to R406). -/

theorem aside_walkFrom (src : Nat → Nat) (p va : Nat) :
    ∀ (n : Nat) (l : Lvl) (table : Nat) (s : State), Aside (walkFrom src p va n l table s).2.2 s
  | 0, _, _, _ => .refl
  | n + 1, l, table, s => by
    have hread : ∀ {ea}, Aside (s.read (src ea) ea 8 .look).2.2 s := aside_read
    rw [walkFrom]
    simp only
    split
    · exact hread
    split
    · exact hread
    split
    · exact hread
    split
    · exact hread
    split
    · exact hread
    split
    · exact hread
    · exact (aside_walkFrom src p va n _ _ _).trans hread

theorem aside_keepWalk {x : Xlat} {es : List (Nat × Nat × Nat × Nat)} : Aside (keepWalk d p x es s) s := aside_updDie

theorem aside_walkPass {src : Nat → Nat} {start : Lvl × Nat × Nat} :
    Aside (walkPass src start d p va agent w s).2 s := by
  have hwalk := aside_walkFrom src p va start.2.2 start.1 start.2.1 s
  unfold walkPass
  split
  · next h => rwa [h] at hwalk
  · next s1 h =>
    rw [h] at hwalk
    have hcas : ∀ {q : Prop} [Decidable q] {a b c : Nat}, Aside (if q then (true, s1) else casMem d a b c s1).2 s := by
      intro q _ a b c
      split
      · exact hwalk
      · exact aside_casMem.trans hwalk
    split
    · exact hwalk
    · exact .ite (aside_keepWalk.trans hcas) hcas

theorem aside_walkAgain : ∀ (n : Nat) (s : State), Aside (walkAgain d p va agent w n s).2 s
  | 0, _ => .refl
  | n + 1, s => by
    have hpass : Aside (walkPass homeDie (rootStart s p) d p va agent w s).2 s := aside_walkPass
    rw [walkAgain]
    split
    · next h => rwa [h] at hpass
    · next h =>
      rw [h] at hpass
      exact (aside_walkAgain n _).trans hpass

theorem aside_wakeRemote {q : Wire → Bool} : Aside (wakeRemote d q s) s := aside_fab_agenda

theorem aside_wakeWaiters {ws : List Waiter} : Aside (wakeWaiters d p ws s) s := .foldl (fun _ _ => aside_wakeRemote) _ _

theorem aside_serveLeaf {x : Xlat} : Aside (serveLeaf d x s) s :=
  .ite .refl ((Aside.foldl (fun _ _ => aside_wakeWaiters) _ _).trans aside_updDie)

theorem aside_endWalk {r : WalkRes × State} (h : Aside r.2 s) : Aside (endWalk d r).2 s := by
  unfold endWalk
  split
  · exact aside_serveLeaf.trans h
  · exact h

theorem aside_walk : Aside (walk d p va agent w s).2 s := by
  have hpass : Aside (walkPass (fun _ => d) (walkStart s d p va) d p va agent w s).2 s := aside_walkPass
  unfold walk
  split
  · exact .refl
  · refine aside_endWalk ?_
    split
    · next h => rwa [h] at hpass
    · next h =>
      rw [h] at hpass
      exact (aside_walkAgain _ _).trans hpass

theorem apart_coreCache {c : Nat} {x : Xlat} : Apart (coreCache c x s) s := apart_updCore

theorem apart_translate {core : Option Nat} : Apart (translate core d p va agent w s).2 s := by
  have hwalk : Aside (walk d p va agent w s).2 s := aside_walk
  unfold translate
  split
  · exact .refl
  · split
    · next h =>
      rw [h] at hwalk
      split
      · exact apart_coreCache.trans (.of_aside hwalk)
      · exact .of_aside hwalk
    · exact .of_aside hwalk

/-- Without a core a translation leaves the cores alone too. -/
theorem aside_translate : Aside (translate none d p va agent w s).2 s := by
  have hwalk : Aside (walk d p va agent w s).2 s := aside_walk
  unfold translate
  split
  · exact .refl
  · split
    · next h => rwa [h] at hwalk
    · exact hwalk

/-! Faults and the agents that serve themselves (R409 to R413). -/

theorem aside_enqueueWalk {r : WReq} : Aside (enqueueWalk d r s) s := aside_updDie

theorem aside_recordFault {va : Word} {kind access level entry : Nat} {poison : Bool} {tcls : BitVec 3} {ws : List Waiter} :
    Aside (recordFault d p va kind access agent level entry poison tcls ws s) s := by
  unfold recordFault
  split
  · exact aside_updDie
  · exact aside_post.trans aside_updDie

theorem aside_agentXlate {va : Word} : Aside (agentXlate d p va agent w s).2 s := by
  simp only [agentXlate]
  split
  · exact .refl
  split
  · dsimp only
    exact aside_updDie
  split
  · exact .refl
  split
  · exact .refl
  split
  · exact aside_recordFault
  · exact aside_enqueueWalk

theorem aside_dropRequests {q : Nat → Bool} : Aside (dropRequests d q s) s := .ite aside_updDie .refl

theorem aside_nowXlate {va : Word} : Aside (nowXlate d p va agent w s).2 s := by
  have htr : Aside (translate none d p va.toNat agent w s).2 s := aside_translate
  unfold nowXlate
  split
  · exact .refl
  · split
    · next h => rwa [h] at htr
    · next h =>
      rw [h] at htr
      split
      · exact htr
      · dsimp only at htr ⊢
        exact aside_recordFault.trans htr

/-! Reads and writes at virtual addresses. -/

theorem aside_fwReadPages (d p : Nat) : ∀ (f va n : Nat) (s : State), Aside (fwRead d p f va n s).2 s
  | 0, _, _, _ => .refl
  | f + 1, va, n, s => by
    have hx : Aside (nowXlate d p (BitVec.ofNat 64 va) agentFw .read s).2 s := aside_nowXlate
    rw [fwRead]
    split
    · exact .refl
    · simp only
      split
      · next h => rwa [h] at hx
      · next pa ty s1 h =>
        rw [h] at hx
        have hrest := (aside_fwReadPages d p f (va + inPage va n) (n - inPage va n)
          (s1.read d pa (inPage va n) (viaType ty)).2.2).trans (aside_read.trans hx)
        split
        · next h => rwa [h] at hrest
        · next h => rwa [h] at hrest

theorem aside_fwRead {n : Nat} : Aside (s.fwRead d p va n).2 s := aside_fwReadPages d p _ _ _ s

theorem aside_fwWritePages (d p : Nat) : ∀ (f va : Nat) (bs : List Byte) (s : State), Aside (fwWrite d p f va bs s).2 s
  | 0, _, _, _ => .refl
  | f + 1, va, bs, s => by
    have hx : Aside (nowXlate d p (BitVec.ofNat 64 va) agentFw .write s).2 s := aside_nowXlate
    rw [fwWrite]
    split
    · exact .refl
    · simp only
      split
      · next h => rwa [h] at hx
      · next h =>
        rw [h] at hx
        exact (aside_fwWritePages d p f _ _ _).trans (aside_writeMem.trans hx)

theorem aside_fwWrite {bs : List Byte} : Aside (s.fwWrite d p va bs).2 s := aside_fwWritePages d p _ _ _ s

theorem aside_agentReadPages (d p agent : Nat) : ∀ (f va n : Nat) (s : State), Aside (agentRead d p agent f va n s).2 s
  | 0, _, _, _ => .refl
  | f + 1, va, n, s => by
    have hx : Aside (agentXlate d p (BitVec.ofNat 64 va) agent .read s).2 s := aside_agentXlate
    rw [agentRead]
    split
    · exact .refl
    · simp only
      split
      · next h => rwa [h] at hx
      · next h => rwa [h] at hx
      · next pa ty s1 h =>
        rw [h] at hx
        have hrest := (aside_agentReadPages d p agent f (va + inPage va n) (n - inPage va n)
          (s1.read d pa (inPage va n) (viaType ty)).2.2).trans (aside_read.trans hx)
        split
        · next h => rwa [h] at hrest
        · next h => rwa [h] at hrest
        · next h => rwa [h] at hrest

theorem aside_agentRead {n : Nat} : Aside (s.agentRead d p agent va n).2 s := aside_agentReadPages d p agent _ _ _ s

theorem aside_agentSpan (d p agent : Nat) : ∀ (f va n : Nat) (s : State), Aside (agentSpan d p agent f va n s).2 s
  | 0, _, _, _ => .refl
  | f + 1, va, n, s => by
    have hx : Aside (agentXlate d p (BitVec.ofNat 64 va) agent .write s).2 s := aside_agentXlate
    rw [agentSpan]
    split
    · exact .refl
    · simp only
      split
      · next h => rwa [h] at hx
      · next h => rwa [h] at hx
      · next pa ty s1 h =>
        rw [h] at hx
        have hrest := (aside_agentSpan d p agent f (va + inPage va n) (n - inPage va n) s1).trans hx
        split
        · next h => rwa [h] at hrest
        · next h => rwa [h] at hrest
        · next h => rwa [h] at hrest

theorem aside_writeSpan : ∀ (xs : List (Nat × Nat)) (bs : List Byte) (s : State), Aside (writeSpan d xs bs s) s
  | [], _, _ => .refl
  | _ :: xs, _, _ => (aside_writeSpan xs _ _).trans aside_writeMem

theorem aside_agentWrite {bs : List Byte} : Aside (s.agentWrite d p agent va bs).2 s := by
  have hspan := aside_agentSpan d p agent (bs.length / 4096 + 2) va bs.length s
  unfold State.agentWrite
  split
  · next h =>
    rw [h] at hspan
    exact (aside_writeSpan _ _ _).trans hspan
  · next h => rwa [h] at hspan
  · next h => rwa [h] at hspan

theorem aside_syncAll : Aside s.syncAll s := .foldl (fun _ _ => aside_sync) _ _

/-! Fetch (R51, R77). -/

variable {k : Nat} {a : Word}

theorem apart_fetch : Apart (fetch k a s).2 s := by
  have htr : Apart (translate (some (coreOf k)) (dieOf k) (s.partOf k) a.toNat agentCopy .fetch s).2 s := apart_translate
  simp only [fetch]
  split
  · exact .refl
  · split
    · next h => rwa [h] at htr
    · next h =>
      rw [h] at htr
      have hread : ∀ {pa n : Nat} {t : State}, Apart t s → Apart (fetchGran (dieOf k) pa n t).2.2 s :=
        fun ht => (Apart.of_aside aside_fetchGran).trans ht
      split
      · exact hread htr
      · split <;> exact hread htr

/-- Looking for the end of a bundle is a fetch. -/
theorem apart_delimitAt : Apart (delimitAt k a s).2 s := by
  have hf : Apart (fetch k a s).2 s := apart_fetch
  unfold delimitAt
  split <;> next h => rwa [h] at hf

end Sys2Proof.Machine
end

section
/-!
CALL and CALLR, which delimit their delay bundles (R79).
-/
namespace Sys2Proof.Machine
set_option Elab.async false
open Sys2Proof

variable {s s1 s2 : State} {i : Instr} {o : SlotOut} {b : Fetched} {k n m : Nat} {target a : Word}

/-- A call looks for the end of its two delay bundles. -/
theorem ahead_call (h1 : delimitAt k b.next s = (.ok n, s1))
    (h2 : delimitAt k (b.next + BitVec.ofNat 64 n) s1 = (.ok m, s2)) :
    ahead k b (.call target) s = (.ok (b.next + BitVec.ofNat 64 n + BitVec.ofNat 64 m), s2) := by
  simp only [ahead, h1, h2]

/-- It leaves the seats alone. -/
theorem apart_delimited (h1 : delimitAt k a s = (.ok n, s1)) : Apart s1 s := by
  have h := apart_delimitAt (k := k) (a := a) (s := s)
  rwa [h1] at h

/-- A call outside every loop links, and is left pending. -/
theorem call_links (he : exec i = issueOne i) (hw : i.wf = true) (hl : (encode i).length = 1) (hr : CanIssue 1 0 s)
    (hs : Straight s) {uses : List Res} {defs : List (Res × Nat)}
    (hslot : slotOf i s.cur s = { uses := uses, defs := defs, ctl := .call target })
    (h1 : delimitAt s.cur ((s.ctx s.cur).pos.pc + 8) s = (.ok n, s1))
    (h2 : delimitAt s.cur ((s.ctx s.cur).pos.pc + 8 + BitVec.ofNat 64 n) s1 = (.ok m, s2)) :
    ∃ t, exec i s = .next t ∧
      Retired 0 0 1 0 (s2.updCtx s.cur (·.setS 62 ((s.ctx s.cur).pos.pc + 8 + BitVec.ofNat 64 n + BitVec.ofNat 64 m))) t ∧
      (t.ctx s.cur).pos.pend = some ⟨some target, 2, false, false⟩ := by
  let o : SlotOut := { uses := uses, defs := defs, ctl := .call target }
  have hnext : (soloBundle i s.cur s).next = (s.ctx s.cur).pos.pc + 8 := soloBundle_next hl
  have hv : Apart s2 s := (apart_delimited h2).trans (apart_delimited h1)
  have hbusy : ((o.effect s2).seat s.cur).phase ≠ .idle := by
    rw [show (o.effect s2).seat s.cur = s.seat s.cur from hv.seat _, hr.running]
    decide
  have hctx : (o.effect s2).ctx s.cur = s.ctx s.cur := hv.ctx _
  have hbud : ((1 + o.toll : Nat) : Int) < ((o.effect s2).ctx s.cur).bud.ibud.toInt := by rw [hctx]; exact hr.tolls
  have hpend : ((o.effect s2).ctx s.cur).pos.pend = none := by rw [hctx]; exact hs.alone
  rw [← hnext] at h1 h2 ⊢
  refine ⟨_, (congrFun he s).trans ((issueOne_ahead (o := o) (fun _ => splits_solo hl) hslot rfl hr (staticFault_straight hw hs)
    rfl rfl rfl (ahead_call h1 h2) hv).trans (congrArg _ (commitBlock_closed (splits_solo hl) hbusy hbud nofun nofun))), ?_, ?_⟩
  · exact closed_retired (o := o) (ctl := .call target) hv.cur hbusy (fun p hp => by rw [hpend] at hp; cases hp) (fun _ => rfl)
      fun hlo hpe => by rw [flow_outside rfl hlo hpe, hnext, hctx]
  · rw [closed_pos hbusy, flow_pend_none hpend]
    rfl

end Sys2Proof.Machine
namespace Sys2Proof.Proofs
set_option Elab.async false
open Sys2Proof Sys2Proof.Machine

/-- Settles O26: a call commits with the link that follows its delay bundles. -/
theorem callsLink : Obligations.CallsLink := by
  unfold Obligations.CallsLink
  intro s s1 s2 g ra disp n m hg hr hs c a h1 h2 links
  have hlead : s.lead s.cur = s.ctx s.cur := lead_of_single hr.can.single
  have links' : ∀ {i : Instr} {uses t}, exec i = issueOne i → i.wf = true → (encode i).length = 1 →
      slotOf i s.cur s = guarded g (s.ctx s.cur) { uses := uses, defs := [(.s 62, 1)], ctl := .call t } → links i t :=
    fun he hw hl hslot => call_links he hw hl hr.can hs (hslot.trans (guarded_of_holds hr.guard)) h1 h2
  refine ⟨links' (uses := []) rfl hg rfl ?_, fun ha => links' (uses := sUse ra) rfl hg rfl ?_⟩
  · simp only [slotOf, slotCall, hlead]; rfl
  · simp only [slotOf, slotCallr, hlead]; rw [targetTrap_aligned ha]

end Sys2Proof.Proofs
end

section
/-!
The loop stack: LOOP, LOOPR, LEXIT and the end of a body (R80 to R82, R85).
-/
namespace Sys2Proof.Machine
set_option Elab.async false
open Sys2Proof

variable {s u : State} {i : Instr} {o : SlotOut} {b : Fetched} {k n m toll traffic : Nat} {g : Guard} {ra : BitVec 6} {c : Ctx}
  {ls front : List Loop} {l : Loop} {addr next after stop count : Word} {last : BitVec 16} {uses : List Res}

/-! The last bundle of the innermost body (R81). -/

/-- An iteration that is not the last goes back to the start. -/
theorem loopEnd_again (hs : l.stop = addr) (hr : 1 < l.remaining.toNat) : loopEnd addr next (front ++ [l]) =
    (l.start, front ++ [{ l with remaining := l.remaining - 1, index := l.index + 1 }]) := by
  have hend : endRev addr next (l :: front.reverse) =
      (l.start, { l with remaining := l.remaining - 1, index := l.index + 1 } :: front.reverse) := by
    rw [endRev, if_neg (by simp [hs]), if_pos hr]
  simp [loopEnd, hend]

/-- The last iteration leaves the loop, and ends those around it that end there too. -/
theorem loopEnd_last (hs : l.stop = addr) (hr : l.remaining.toNat ≤ 1) :
    loopEnd addr next (front ++ [l]) = loopEnd addr next front := by
  have hend : endRev addr next (l :: front.reverse) = endRev addr next front.reverse := by
    rw [endRev, if_neg (by simp [hs]), if_neg (by omega)]
  simp [loopEnd, hend]

/-- A body that ends elsewhere goes on. -/
theorem loopEnd_append (hs : l.stop ≠ addr) : loopEnd addr next (front ++ [l]) = (next, front ++ [l]) :=
  loopEnd_inside fun x hx => by rw [List.getLast?_concat] at hx; cases hx; exact hs

/-! Entry (R80, R82). -/

/-- A loop instruction passes the static checks where no transfer is near, in a loop too. -/
theorem staticFault_loops (hw : i.wf = true) (hd : Instr.delays i = false) (hage : (s.ctx k).pos.xferAge = 0) :
    staticFault k (soloBundle i k s) s = (none, s) := by
  simp [staticFault, soloBundle, hw, hd, hage, Fetched.transfer, staticOverlap, overlapMask_single]

/-- The end of a body of last bundles after the own one. -/
def bodyEnd (c : Ctx) (last : BitVec 16) : Word := c.pos.pc + BitVec.ofNat 64 (8 * last.toNat)

/-- A body does not end at the bundle that enters it. -/
theorem bodyEnd_ne (h : last ≠ 0) : bodyEnd c last ≠ c.pos.pc := by
  have hlt := last.isLt
  have hpos : last.toNat ≠ 0 := fun hz => h (BitVec.eq_of_toNat_eq hz)
  intro he
  have hz : BitVec.ofNat 64 (8 * last.toNat) = 0 := by simpa [bodyEnd] using he
  have hn := congrArg BitVec.toNat hz
  rw [BitVec.toNat_ofNat, Nat.mod_eq_of_lt (by omega)] at hn
  exact hpos (by simpa using hn)

/-- A body ends beyond the innermost one. -/
def endsBeyond (c : Ctx) (last : BitVec 16) : Bool :=
  match c.pos.loops.getLast? with
  | some l => l.stop.toNat < (bodyEnd c last).toNat
  | none => false

/-- What traps a loop instruction, whatever its count (R80). -/
def loopTrap (c : Ctx) (last : BitVec 16) : Option Cause :=
  if c.pos.loops.length ≥ 6 then some (cause 0x10) else if endsBeyond c last then some (cause 0x03) else none

/-- What a loop instruction is as a slot. -/
def loopSlot (c : Ctx) (count : Word) (uses : List Res) (last : BitVec 16) : SlotOut :=
  { uses := uses, trap := loopTrap c last
    ctl := if count = 0 then .skip (bodyEnd c last) else .loop (bodyEnd c last) count }

theorem slotLoop_eq {n : BitVec 16} (hl : s.lead s.cur = s.ctx s.cur) : slotOf (.loop g n last) s.cur s =
    guarded g (s.ctx s.cur) (loopSlot (s.ctx s.cur) (n.setWidth 64) [] last) := by
  simp only [slotOf, slotLoop, loopOut, hl]
  rfl

theorem slotLoopr_eq (hl : s.lead s.cur = s.ctx s.cur) : slotOf (.loopr g ra last) s.cur s =
    guarded g (s.ctx s.cur) (loopSlot (s.ctx s.cur) ((s.ctx s.cur).s ra) (sUse ra) last) := by
  simp only [slotOf, slotLoopr, loopOut, hl]
  rfl

theorem loopTrap_none (hd : c.pos.loops.length < 6)
    (hin : ∀ l, c.pos.loops.getLast? = some l → (bodyEnd c last).toNat ≤ l.stop.toNat) : loopTrap c last = none := by
  have hbeyond : endsBeyond c last = false := by
    rw [endsBeyond]
    cases h : c.pos.loops.getLast? with
    | none => rfl
    | some l => simpa using hin l h
  rw [loopTrap, if_neg (by omega), hbeyond]
  rfl

theorem loopTrap_deep (hd : c.pos.loops.length = 6) : loopTrap c last = some (cause 0x10) := if_pos hd.ge

theorem loopTrap_beyond (hd : c.pos.loops.length < 6) (hl : c.pos.loops.getLast? = some l)
    (hout : l.stop.toNat < (bodyEnd c last).toNat) : loopTrap c last = some (cause 0x03) := by
  have hbeyond : endsBeyond c last = true := by
    rw [endsBeyond, hl]
    exact decide_eq_true hout
  rw [loopTrap, if_neg (by omega), if_pos hbeyond]

section
variable (he : exec i = issueOne i) (hw : i.wf = true) (hd : Instr.delays i = false) (hl : (encode i).length = 1)
  (hr : Runs g 1 0 s) (hslot : slotOf i s.cur s = guarded g (s.ctx s.cur) (loopSlot (s.ctx s.cur) count uses last))
  (hage : (s.ctx s.cur).pos.xferAge = 0)
include he hw hd hr hslot hage

/-- A loop instruction traps on its depth and on its end (R80). -/
theorem loop_traps {x : Cause} (ht : loopTrap (s.ctx s.cur) last = some x) : Traps i s x.code x.detail0 x.detail1 :=
  (traps_of_slot (congrFun he s) (hslot.trans (guarded_of_holds hr.guard)) rfl hr.can (staticFault_loops hw hd hage) rfl ht).1

include hl

/-- A loop with a count pushes its position (R80). -/
theorem loop_enters (hlast : last ≠ 0) (hcount : count ≠ 0) (hp : (s.ctx s.cur).pos.pend = none)
    (ht : loopTrap (s.ctx s.cur) last = none) :
    ∃ t, exec i s = .next t ∧ Retired 0 0 1 0 s t ∧
      (t.ctx s.cur).pos.loops =
        (s.ctx s.cur).pos.loops ++ [⟨(s.ctx s.cur).pos.pc + 8, bodyEnd (s.ctx s.cur) last, count, 0⟩] ∧
      (t.ctx s.cur).pos.pc = (s.ctx s.cur).pos.pc + 8 := by
  let o : SlotOut := { uses := predUse g.pred ++ uses, ctl := .loop (bodyEnd (s.ctx s.cur) last) count }
  have ho : slotOf i s.cur s = o := by
    rw [hslot, guarded_of_holds hr.guard, loopSlot, ht, if_neg hcount]
  have hbusy : ((o.effect s).seat s.cur).phase ≠ .idle := (keeps_refl hr.can.running).busy
  have hflow : ∀ c : Ctx, c.pos = (s.ctx s.cur).pos →
      (flow (soloBundle i s.cur s) o.ctl (soloBundle i s.cur s).next c).pos.loops =
        (s.ctx s.cur).pos.loops ++ [⟨(soloBundle i s.cur s).next, bodyEnd (s.ctx s.cur) last, count, 0⟩] ∧
      (flow (soloBundle i s.cur s) o.ctl (soloBundle i s.cur s).next c).pos.pc = (soloBundle i s.cur s).next := by
    intro c hc
    have hturn : turnOf (soloBundle i s.cur s) o.ctl (soloBundle i s.cur s).next (s.ctx s.cur).pos.loops =
        loopEnd (s.ctx s.cur).pos.pc (soloBundle i s.cur s).next
          ((s.ctx s.cur).pos.loops ++ [⟨(soloBundle i s.cur s).next, bodyEnd (s.ctx s.cur) last, count, 0⟩]) := rfl
    rw [flow_pend_none (by rw [hc]; exact hp), hc, hturn, loopEnd_append (bodyEnd_ne hlast)]
    exact ⟨rfl, rfl⟩
  obtain ⟨hloops, hpc⟩ := hflow (s.ctx s.cur) rfl
  rw [soloBundle_next hl] at hloops hpc
  refine ⟨_, (congrFun he s).trans (issueOne_closed (o := o) (fun _ => splits_solo hl) ho rfl hr.can
    (staticFault_loops hw hd hage) rfl rfl rfl hbusy hr.can.tolls), ?_, ?_, ?_⟩
  · exact retired_closed (o := o) hl hr.settled (fun _ _ => rfl) (fun _ => rfl) (fun c _ _ hc => (hflow c hc).2) rfl hbusy rfl
  · rw [closed_pos hbusy, soloBundle_next hl]
    exact hloops
  · rw [closed_pos hbusy, soloBundle_next hl]
    exact hpc

/-- A skip goes on after the end of the body, and costs two bubbles (R82). -/
theorem loop_skips {m : Nat} {v : State} (hcount : count = 0) (hp : (s.ctx s.cur).pos.pend = none)
    (ht : loopTrap (s.ctx s.cur) last = none) (hd : delimitAt s.cur (bodyEnd (s.ctx s.cur) last) s = (.ok m, v)) :
    ∃ t, exec i s = .next t ∧ (t.ctx s.cur).regs = (s.ctx s.cur).regs ∧ (t.ctx s.cur).sig = (s.ctx s.cur).sig ∧
      (t.ctx s.cur).bud.ibud = (s.ctx s.cur).bud.ibud - 1 ∧ (t.ctx s.cur).wait.bubble = 2 ∧
      (let r := loopEnd (bodyEnd (s.ctx s.cur) last) (bodyEnd (s.ctx s.cur) last + BitVec.ofNat 64 m) (s.ctx s.cur).pos.loops
       (t.ctx s.cur).pos.pc = r.1 ∧ (t.ctx s.cur).pos.loops = r.2) := by
  let o : SlotOut := { uses := predUse g.pred ++ uses, ctl := .skip (bodyEnd (s.ctx s.cur) last) }
  have ho : slotOf i s.cur s = o := by
    rw [hslot, guarded_of_holds hr.guard, loopSlot, ht, if_pos hcount]
  have hv : Apart v s := apart_delimited hd
  have hah : ahead s.cur (soloBundle i s.cur s) o.ctl s = (.ok (bodyEnd (s.ctx s.cur) last + BitVec.ofNat 64 m), v) := by
    simp only [ahead, o, hd]
  have hctx : (o.effect v).ctx s.cur = s.ctx s.cur := hv.ctx _
  have hbusy : ((o.effect v).seat s.cur).phase ≠ .idle := by
    rw [show (o.effect v).seat s.cur = s.seat s.cur from hv.seat _, hr.can.running]
    decide
  have hbud : ((1 + o.toll : Nat) : Int) < ((o.effect v).ctx s.cur).bud.ibud.toInt := by rw [hctx]; exact hr.can.tolls
  have hclosed := closed_ctx (b := soloBundle i s.cur s) (ctl := o.ctl)
    (after := bodyEnd (s.ctx s.cur) last + BitVec.ofNat 64 m) hbusy
  rw [hctx, closeCtx_eq (fun p hq => by rw [hp] at hq; cases hq) (fun _ => rfl)] at hclosed
  refine ⟨_, (congrFun he s).trans ((issueOne_ahead (o := o) (fun _ => splits_solo hl) ho rfl hr.can
    (staticFault_loops hw (by assumption) hage) rfl rfl rfl hah hv).trans (congrArg _ (commitBlock_closed (splits_solo hl) hbusy
    hbud nofun nofun))), ?_⟩
  have hpos := closed_pos (b := soloBundle i s.cur s) (ctl := o.ctl)
    (after := bodyEnd (s.ctx s.cur) last + BitVec.ofNat 64 m) hbusy
  rw [hctx, flow_pend_none hp] at hpos
  rw [hpos, hclosed]
  exact ⟨rfl, rfl, rfl, rfl, rfl, rfl⟩

end

/-! What cannot be fetched ahead (R82). -/

/-- A skip whose end bundle cannot be delimited traps there. -/
theorem skip_traps {e : Nat} {v : State} (ho : slotOf i s.cur s = o) (hla : o.late (o.desc s) = none)
    (hc : CanIssue toll traffic s) (hst : staticFault s.cur (soloBundle i s.cur s) s = (none, s)) (hh : o.hold = .free)
    (ht : o.trap = none) (hk : o.ctl = .skip stop) (hd : delimitAt s.cur stop s = (.error e, v)) :
    ∃ t, issueOne i s = .next t ∧ (t.seat s.cur).phase = .trapping ∧
        (t.ctx s.cur).csr.trapcause = BitVec.ofNat 8 e ∧ (t.ctx s.cur).trap.detail0 = stop ∧
        (t.ctx s.cur).regs = (s.ctx s.cur).regs ∧ (t.ctx s.cur).pos = (s.ctx s.cur).pos := by
  have hv : Apart v s := by
    have h := apart_delimitAt (k := s.cur) (a := stop) (s := s)
    rwa [hd] at h
  have hw : waiting [(s.cur, [(0, o)])] s = false := by simp [waiting, hc.here]
  have h5 : step5 (s.ctx s.cur) (soloBundle i s.cur s) [(0, o)] = none := by
    simp [step5, sampleOverlap, soloBundle, overlapMask_single, ht]
  have hj : meets [(0, o)] = false := meets_single (by rw [hk]; rfl)
  have hah : ∃ mask, ahead s.cur (soloBundle i s.cur s) o.ctl s =
      (.error ((soloBundle i s.cur s).trapNone e mask stop 0), v) := by
    rw [hk]
    exact ⟨_, by simp only [ahead, hd]; rfl⟩
  obtain ⟨mask, hah⟩ := hah
  have hverdict : verdict (soloBundle i s.cur s) [s.cur] [(s.cur, [(0, o)])] s =
      (.fault [(s.cur, (soloBundle i s.cur s).trapNone e mask stop 0)], v) := by
    simp only [verdict, List.headD_cons, hst, List.map_cons, List.map_nil, List.foldl_cons, List.foldl_nil,
      seatHold_free hc hh, Hold.join, ne_eq, not_true_eq_false, if_false, hj, List.filterMap_cons, h5,
      Option.map_none, List.filterMap_nil, List.isEmpty_nil, Bool.not_true, Bool.false_eq_true, ctlOf_single, hah]
  have hseat : (meetUnits [(s.cur, [(0, o)])] v).seat s.cur = s.seat s.cur := hv.seat _
  have hctx : (meetUnits [(s.cur, [(0, o)])] v).ctx s.cur = s.ctx s.cur := hv.ctx _
  have hrun : ((meetUnits [(s.cur, [(0, o)])] v).seat s.cur).phase = .running := by rw [hseat, hc.running]
  refine ⟨takeTrap s.cur ((soloBundle i s.cur s).trapNone e mask stop 0) (meetUnits [(s.cur, [(0, o)])] v), ?_, ?_⟩
  · simp only [issueOne, hc.running, if_true, issueBlock, issueSeats_single hc, List.map_cons, List.map_nil,
      evalSlots_solo hc ho hla, hw, Bool.false_eq_true, if_false, hverdict, trapBlock_single _ hrun]
  · rw [State.ctx, takeTrap_seat, hctx]
    exact ⟨rfl, rfl, rfl, rfl, rfl⟩

/-! LEXIT (R85). -/

theorem lastTurn_append : lastTurn (front ++ [l]) = front ++ [{ l with remaining := 1 }] := by
  induction front with
  | nil => rfl
  | cons x xs ih =>
    rw [List.cons_append, List.cons_append, ← ih]
    cases xs <;> rfl

/-- LEXIT makes the innermost iteration the last, and goes on. -/
theorem lexit_ends (hg : g.ok = true) (hr : Runs g 1 0 s) (hls : (s.ctx s.cur).pos.loops = front ++ [l])
    (hstop : l.stop ≠ (s.ctx s.cur).pos.pc) (hp : (s.ctx s.cur).pos.pend = none) :
    ∃ t, exec (.lexit g) s = .next t ∧ (t.ctx s.cur).pos.loops = front ++ [{ l with remaining := 1 }] ∧
      (t.ctx s.cur).pos.pc = (s.ctx s.cur).pos.pc + 8 ∧ (t.ctx s.cur).regs = (s.ctx s.cur).regs ∧ t.mem = s.mem := by
  let turn : Ctx → Ctx := fun c => { c with pos.loops := lastTurn c.pos.loops }
  let o : SlotOut := { uses := predUse g.pred ++ [], write := fun u => u.updCtx s.cur turn }
  have hlead : s.lead s.cur = s.ctx s.cur := lead_of_single hr.can.single
  have ho : slotOf (.lexit g) s.cur s = o := (congrArg (guarded g · _) hlead).trans (guarded_of_holds hr.guard)
  have hbusy := (keeps_refl hr.can.running).busy
  have hctx : (o.effect s).ctx s.cur = turn (s.ctx s.cur) := State.ctx_updCtx_same hbusy
  have hi : ((o.effect s).seat s.cur).phase ≠ .idle := by
    rw [show ((o.effect s).seat s.cur).phase = _ from State.phase_updCtx hbusy]
    exact hbusy
  have hbud : ((1 + o.toll : Nat) : Int) < ((o.effect s).ctx s.cur).bud.ibud.toInt := by rw [hctx]; exact hr.can.tolls
  have hloops : (turn (s.ctx s.cur)).pos.loops = front ++ [{ l with remaining := 1 }] :=
    (congrArg lastTurn hls).trans lastTurn_append
  have hturn : loopEnd (soloBundle (.lexit g) s.cur s).addr (soloBundle (.lexit g) s.cur s).next
      (front ++ [{ l with remaining := 1 }]) = ((soloBundle (.lexit g) s.cur s).next, front ++ [{ l with remaining := 1 }]) :=
    loopEnd_append hstop
  refine ⟨_, issueOne_closed (o := o) (fun _ => splits_solo rfl) ho rfl hr.can (staticFault_plain hg rfl) rfl rfl rfl hi hbud,
    ?_, ?_, ?_, rfl⟩
  · rw [closed_pos hi, hctx, flow_pend_none (c := turn (s.ctx s.cur)) hp, turnOf_of_not_enters rfl, hloops, hturn]
  · rw [closed_pos hi, hctx, flow_pend_none (c := turn (s.ctx s.cur)) hp, turnOf_of_not_enters rfl, hloops, hturn]
    exact soloBundle_next rfl
  · rw [closed_ctx hi, closeCtx_regs, hctx]
    rfl

end Sys2Proof.Machine
namespace Sys2Proof.Proofs
set_option Elab.async false
open Sys2Proof Sys2Proof.Machine

theorem loopEntry : Claims.LoopEntry := by
  intro s g ra n last hg hlast hr c stop enters
  have hlead : s.lead s.cur = s.ctx s.cur := lead_of_single hr.can.single
  have hw : (g.ok && last != 0) = true := by simpa [hg] using hlast
  have hwide : ∀ {n : BitVec 16}, n ≠ 0 → n.setWidth 64 ≠ 0 := fun {n} h hz => h (by
    have := congrArg (BitVec.setWidth 16) hz
    simpa using this)
  have hout : Straight s → loopTrap (s.ctx s.cur) last = none := fun hs =>
    loopTrap_none (by rw [hs.outside]; decide) fun l hl => by rw [hs.outside] at hl; cases hl
  have hfresh : Straight s → ∀ {i : Instr} {count : Word}, (∃ t, exec i s = .next t ∧ Retired 0 0 1 0 s t ∧
      (t.ctx s.cur).pos.loops = (s.ctx s.cur).pos.loops ++ [⟨(s.ctx s.cur).pos.pc + 8, bodyEnd (s.ctx s.cur) last, count, 0⟩] ∧
      (t.ctx s.cur).pos.pc = (s.ctx s.cur).pos.pc + 8) → enters i count := fun hs {_ _} h => by
    rw [hs.outside] at h
    exact h
  refine ⟨fun hs hn => hfresh hs ?_, fun hs hn => hfresh hs ?_, fun hd hage => ⟨?_, ?_⟩, fun front l hls hd hp hage => ?_,
    fun front l hls hstop hp => lexit_ends hg hr hls hstop hp⟩
  · exact loop_enters rfl hw rfl rfl hr (slotLoop_eq hlead) hs.apart hlast (hwide hn) hs.alone (hout hs)
  · exact loop_enters rfl hw rfl rfl hr (slotLoopr_eq hlead) hs.apart hlast hn hs.alone (hout hs)
  · exact loop_traps (i := .loop g n last) rfl hw rfl hr (slotLoop_eq hlead) hage (loopTrap_deep hd)
  · exact loop_traps (i := .loopr g ra last) rfl hw rfl hr (slotLoopr_eq hlead) hage (loopTrap_deep hd)
  · intro nests
    have hdepth : (s.ctx s.cur).pos.loops.length < 6 := by rw [show (s.ctx s.cur).pos.loops = _ from hls, List.length_append]; exact Nat.succ_lt_succ hd
    have hinner : (s.ctx s.cur).pos.loops.getLast? = some l := by
      rw [show (s.ctx s.cur).pos.loops = _ from hls, List.getLast?_concat]
    have hinto : ∀ {i : Instr} {count : Word}, (∃ t, exec i s = .next t ∧ Retired 0 0 1 0 s t ∧
        (t.ctx s.cur).pos.loops = (s.ctx s.cur).pos.loops ++ [⟨(s.ctx s.cur).pos.pc + 8, bodyEnd (s.ctx s.cur) last, count, 0⟩] ∧
        (t.ctx s.cur).pos.pc = (s.ctx s.cur).pos.pc + 8) → nests i count := fun {_ _} h => by
      rw [show (s.ctx s.cur).pos.loops = _ from hls, List.append_assoc] at h
      exact h
    refine ⟨fun hin => ?_, fun hbeyond => ⟨?_, ?_⟩⟩
    · have hnone : loopTrap (s.ctx s.cur) last = none :=
        loopTrap_none hdepth fun x hx => by rw [hinner] at hx; cases hx; exact hin
      exact ⟨fun hn => hinto (loop_enters rfl hw rfl rfl hr (slotLoop_eq hlead) hage hlast (hwide hn) hp hnone),
        fun hn => hinto (loop_enters rfl hw rfl rfl hr (slotLoopr_eq hlead) hage hlast hn hp hnone)⟩
    · exact loop_traps (i := .loop g n last) rfl hw rfl hr (slotLoop_eq hlead) hage (loopTrap_beyond hdepth hinner hbeyond)
    · exact loop_traps (i := .loopr g ra last) rfl hw rfl hr (slotLoopr_eq hlead) hage (loopTrap_beyond hdepth hinner hbeyond)

theorem loopSkips : Claims.LoopSkips := by
  intro s g ra last hg hlast hr c stop hp hage hd hin skips
  have hlead : s.lead s.cur = s.ctx s.cur := lead_of_single hr.can.single
  have hw : (g.ok && last != 0) = true := by simpa [hg] using hlast
  have hnone : loopTrap (s.ctx s.cur) last = none := loopTrap_none hd hin
  have skips' : ∀ {i : Instr} {count uses}, exec i = issueOne i → i.wf = true → Instr.delays i = false →
      (encode i).length = 1 → count = 0 →
      slotOf i s.cur s = guarded g (s.ctx s.cur) (loopSlot (s.ctx s.cur) count uses last) → skips i := by
    intro i count uses he hwf hdel hl hcount hslot
    refine ⟨fun m u hok => ?_, fun e u herr => ?_⟩
    · obtain ⟨t, hexec, hregs, hsig, hbud, hbub, hpc, hloops⟩ := loop_skips he hwf hdel hl hr hslot hage hcount hp hnone hok
      refine ⟨t, hexec, hregs, hsig, hbud, hbub, fun hout => ?_, fun front l hls => ⟨fun hne => ?_, fun heq hrem => ?_⟩⟩
      · rw [show (s.ctx s.cur).pos.loops = [] from hout] at hpc hloops
        exact ⟨hpc, hloops.trans hout.symm⟩
      · rw [show (s.ctx s.cur).pos.loops = _ from hls, loopEnd_append (addr := bodyEnd (s.ctx s.cur) last) hne] at hpc hloops
        exact ⟨hpc, hloops.trans hls.symm⟩
      · rw [show (s.ctx s.cur).pos.loops = _ from hls, loopEnd_again (addr := bodyEnd (s.ctx s.cur) last) heq hrem] at hpc hloops
        exact ⟨hpc, hloops⟩
    · obtain ⟨t, hexec, hrest⟩ := skip_traps (hslot.trans (guarded_of_holds hr.guard)) rfl hr.can
        (staticFault_loops hwf hdel hage) rfl hnone (if_pos hcount) herr
      exact ⟨t, (congrFun he s).trans hexec, hrest⟩
  exact ⟨skips' rfl hw rfl rfl rfl (slotLoop_eq hlead), fun hz => skips' rfl hw rfl rfl hz (slotLoopr_eq hlead)⟩

theorem loopEnds : Claims.LoopEnds := by
  intro s g l hg hr hp hls hstop
  obtain ⟨t, hexec, hpos⟩ := nop_flows hg hr.can hr.guard
  rw [flow_pend_none hp, turnOf_of_not_enters rfl, hls] at hpos
  refine ⟨t, hexec, fun hrem => ?_, fun hrem => ?_⟩
  · rw [hpos, show [l] = [] ++ [l] from rfl, loopEnd_again (addr := (soloBundle (.nop g) s.cur s).addr) hstop hrem]
    exact ⟨rfl, rfl⟩
  · rw [hpos, show [l] = [] ++ [l] from rfl, loopEnd_last (addr := (soloBundle (.nop g) s.cur s).addr) hstop hrem]
    exact ⟨soloBundle_next rfl, rfl⟩

/-- Settles O27: entries, skips and ends of loops by what they make of the loop stack. -/
theorem loops : Obligations.Loops := ⟨loopEntry, loopSkips, loopEnds⟩

end Sys2Proof.Proofs
end

section
/-!
Traps of operands and of privilege (R106, R107, R112, R166, R238, R351).
-/
namespace Sys2Proof.Machine
set_option Elab.async false
open Sys2Proof

variable {s : State} {g : Guard} {o : XcOps} {f : CopyForm}

/-- A slot that the lead guards traps like any other on a seat alone (R306). -/
theorem traps_of_lead {i : Instr} {o : SlotOut} {c : Cause} (he : exec i = issueOne i) (hw : i.wf = true) (hr : Runs g 1 0 s)
    (hslot : slotOf i s.cur s = guarded g (s.lead s.cur) o) (hla : o.late (o.desc s) = none) (hh : o.hold = .free)
    (ht : o.trap = some c) (hst : Instr.transfer i = true → Straight s) : Traps i s c.code c.detail0 c.detail1 :=
  traps_of_guarded he hw hr (hslot.trans (congrArg (guarded g · o) (lead_of_single hr.can.single))) hla hh ht hst

/-! Copies (R238). -/

/-- A copy on an absent signal traps first. -/
theorem copyTrap_absent (h : ((s.ctx s.cur).sg f.sig).present = false) :
    f.trap s s.cur = some (sigCause 0x08 f.sig none) := by
  simp only [CopyForm.trap, h]
  rfl

/-- A load of a signal that the engine does not feed traps next. -/
theorem copyTrap_feed (hi : f.idx = none) (hl : isLoadOp f.op = true) (h : ((s.ctx s.cur).sg f.sig).present = true)
    (hf : ((s.ctx s.cur).sg f.sig).feed ≠ 1) : f.trap s s.cur = some (sigCause 0x07 f.sig none) := by
  have hfeed : (isLoadOp f.op && ((s.ctx s.cur).sg f.sig).feed != 1) = true := by simpa [hl] using hf
  simp only [CopyForm.trap, h, hi, hfeed]
  rfl

/-- A copy without an index vector whose handle is free is not held: it traps on the first check that fails. -/
theorem traps_of_copy {i : Instr} {c : Cause} (he : exec i = issueOne i) (hw : i.wf = true) (hr : Runs g 1 0 s)
    (hslot : slotOf i s.cur s = f.slot g s.cur s) (htr : Instr.transfer i = false) (hi : f.idx = none)
    (hh : handleHold (s.ctx s.cur) f.h = false) (ht : f.trap s s.cur = some c) : Traps i s c.code c.detail0 c.detail1 := by
  refine traps_of_guarded he hw hr hslot rfl ?_ ht fun h => by rw [htr] at h; cases h
  simp only [hi, hh]
  rfl

end Sys2Proof.Machine
namespace Sys2Proof.Proofs
set_option Elab.async false
open Sys2Proof Sys2Proof.Machine

theorem controlTraps : Claims.ControlTraps := by
  intro s g ra b code hg hr c
  have hlead : s.lead s.cur = s.ctx s.cur := lead_of_single hr.can.single
  refine ⟨(trap_traps code hg hr).1, fun hpriv => ?_, fun hcont => ?_, fun hcont hs => ?_⟩
  · have ht : (if c.bud.toppriv then none else some (cause 0x0A)) = some (cause 0x0A) := if_neg (by rw [hpriv]; decide)
    exact traps_of_lead (i := .topup g ra b) rfl hg hr rfl rfl rfl ht nofun
  · have ht : (if (s.lead s.cur).bud.incont then some (cause 0x0A) else none) = some (cause 0x0A) := 
      if_pos (by rw [hlead]; exact hcont)
    exact traps_of_lead (i := .yield g) rfl hg hr rfl rfl rfl ht nofun
  · have ht : (if (s.lead s.cur).bud.incont then none else some (cause 0x0A)) = some (cause 0x0A) :=
      if_neg (by rw [hlead]; exact Bool.eq_false_iff.mp hcont)
    exact traps_of_lead (i := .resume g) rfl hg hr rfl rfl rfl ht fun _ => hs

theorem attachedSignalTraps : Claims.AttachedSignalTraps := by
  intro s g ra n f l hr hat
  refine ⟨fun hw hf => ?_, fun hw hp => ?_⟩
  · have hfield : (!([11, 12, 13].contains f.toNat) && attached s s.cur (s.ctx s.cur) n) = true := by
      rw [hat, Bool.and_true, Bool.not_eq_true', List.contains_eq_mem]
      exact decide_eq_false hf
    exact traps_of_guarded rfl hw hr rfl rfl rfl (if_pos hfield) nofun
  · have ht : (absentTrap (s.ctx s.cur) n).or (if attached s s.cur (s.ctx s.cur) n then some (sigCause 0x07 n none) else none) =
        some (sigCause 0x07 n none) := by
      rw [absentTrap, if_pos hp, hat]
      rfl
    exact traps_of_guarded rfl hw hr rfl rfl rfl ht nofun

theorem copyTraps : Claims.CopyTraps := by
  intro s g o c hh hr
  refine ⟨fun hw hp => ?_, fun hw hp => ?_, fun hw hp hf => ?_⟩
  · exact traps_of_copy (i := .cld g o) (f := Machine.xcForm 0 o) rfl hw hr rfl rfl rfl hh (copyTrap_absent hp)
  · exact traps_of_copy (i := .cst g o) (f := Machine.xcForm 1 o) rfl hw hr rfl rfl rfl hh (copyTrap_absent hp)
  · exact traps_of_copy (i := .cld g o) (f := Machine.xcForm 0 o) rfl hw hr rfl rfl rfl hh (copyTrap_feed rfl rfl hp hf)

theorem channelTraps : Claims.ChannelTraps := by
  intro s g ra rd hg hr r hrem h32 hu
  refine ⟨?_, ?_, ?_, ?_⟩
  · exact traps_of_guarded (i := .chbindW g ra rd) rfl hg hr (slotChbindW_local hrem) rfl rfl (chanTrap_some h32 hu) nofun
  · exact traps_of_guarded (i := .chclose g ra rd) rfl hg hr rfl rfl rfl
      ((chcloseTrap_local hrem).trans (chanTrap_some h32 hu)) nofun
  · exact traps_of_guarded (i := .chcloseW g ra rd) rfl hg hr (slotChcloseW_local hrem) rfl rfl (chanTrap_some h32 hu) nofun
  · exact traps_of_guarded (i := .chstat g ra rd) rfl hg hr (slotChstat_local hrem) rfl rfl (chanTrap_some h32 hu) nofun

/-- Settles O29: the first cause of each slot, on a seat that nothing holds. -/
theorem issueTraps : Obligations.IssueTraps := ⟨controlTraps, attachedSignalTraps, copyTraps, channelTraps⟩

end Sys2Proof.Proofs
end

section
/-!
Budgets: TOPUP, YIELD, and a point that spends the last of a budget (R99, R101, R102, R106, R107).
-/
namespace Sys2Proof.Machine
set_option Elab.async false
open Sys2Proof

variable {s u t : State} {g : Guard} {i : Instr} {o : SlotOut} {b : Fetched} {ctl : Ctl} {after : Word} {k toll traffic : Nat}
  {fl clr : Flags} {x : Bool} {n : Nat} {y : BitVec 2}

/-! TOPUP (R106). -/

/-- What TOPUP adds keeps a budget in its 48 bits. -/
theorem toInt_topup {d : BitVec 48} {a r : Nat} :
    d.toInt ≤ (BitVec.ofInt 48 (d.toInt + topupAdd a d.toInt r)).toInt := by
  have hlo := BitVec.le_toInt (x := d)
  have hhi := BitVec.toInt_lt (x := d)
  have hadd : topupAdd a d.toInt r = min (min (a : Int) r) (2 ^ 47 - 1 - d.toInt) := rfl
  rw [BitVec.toInt_ofInt, hadd, Int.bmod_eq_of_le] <;> omega

/-- A budget that has been raised by TOPUP. -/
def toppedCtx (x : Bool) (v : BitVec 48) (c : Ctx) : Ctx :=
  if x then { c with bud.tbud := v }
  else { c with bud.ibud := v, bud.run := if v.toInt > 0 then 0 else c.bud.run }

/-- What TOPUP raises a budget to: the value of a budget of the seat, topped up from a reserve of the partition. -/
def toppedTo (s : State) (k : Nat) (x : Bool) (n : Nat) : BitVec 48 :=
  let p := s.part (s.partOf k)
  let d := if x then (s.ctx k).bud.tbud else (s.ctx k).bud.ibud
  BitVec.ofInt 48 (d.toInt + topupAdd n d.toInt ((if x then p.tbud.toNat else p.ibud.toNat : Nat)))

theorem topupEffect_seat (hi : (s.seat k).phase ≠ .idle) :
    (topupEffect k x n s).seat k = { s.seat k with ctx := toppedCtx x (toppedTo s k x n) (s.ctx k) } := by
  cases x <;> exact State.seat_updCtx_same hi

theorem topupEffect_ctx (hi : (s.seat k).phase ≠ .idle) :
    (topupEffect k x n s).ctx k = toppedCtx x (toppedTo s k x n) (s.ctx k) := congrArg Seat.ctx (topupEffect_seat hi)

theorem keeps_topupEffect (hr : (s.seat s.cur).phase = .running) : Keeps (topupEffect s.cur x n s) s := by
  have hbusy := (keeps_refl hr).busy
  refine ⟨rfl, (congrArg Seat.phase (topupEffect_seat hbusy)).trans hr, ?_, ?_⟩
  · rw [topupEffect_ctx hbusy]
    cases x
    · exact toInt_topup
    · exact le_refl _
  · rw [topupEffect_ctx hbusy]
    cases x <;> rfl

theorem completes_topup {ra : BitVec 6} (hg : g.ok = true) (hr : Runs g 1 0 s) (hp : (s.ctx s.cur).bud.toppriv = true) :
    Completes (.topup g ra x) s (topupEffect s.cur x ((s.ctx s.cur).s ra).toNat) 0 1 0 := by
  have ht : (if (s.ctx s.cur).bud.toppriv then none else some (cause 0x0A)) = none := if_pos hp
  exact completes_of_guarded ⟨rfl, rfl, rfl⟩ hg hr (congrArg (guarded g · _) (lead_of_single hr.can.single))
    ⟨rfl, rfl, ht, rfl⟩ rfl (keeps_topupEffect hr.can.running)

/-- A bundle charges its toll and its traffic. -/
theorem Retired.bud (hi : (u.seat u.cur).phase ≠ .idle) (h : Retired fl clr toll traffic u t) :
    (t.ctx u.cur).bud.ibud = (u.ctx u.cur).bud.ibud - BitVec.ofNat 48 toll ∧
    (t.ctx u.cur).bud.tbud = (u.ctx u.cur).bud.tbud - BitVec.ofNat 48 traffic := by
  obtain ⟨pos, ready, wait, issued, -, rfl⟩ := h
  rw [State.ctx_updCore, State.ctx_updCtx_same hi]
  exact ⟨rfl, rfl⟩

/-! Yields (R101, R102, R107). -/

/-- A yield begins on a seat alone: it drains, and all but its cause and its waits stands. -/
theorem yieldBlock_one (hr : (s.seat k).phase = .running) : ((yieldBlock [k] y s).seat k).phase = .draining ∧
    ((yieldBlock [k] y s).ctx k).bud.ycause = y ∧ ((yieldBlock [k] y s).ctx k).bud.ibud = (s.ctx k).bud.ibud ∧
    ((yieldBlock [k] y s).ctx k).regs = (s.ctx k).regs ∧ (yieldBlock [k] y s).mem = s.mem := by
  have hblock : yieldBlock [k] y s = beginYield k y s := if_pos hr
  have hseat : (beginYield k y s).seat k = { s.seat k with
      phase := .draining
      split := none
      ctx := { s.ctx k with
        bud.ycause := y, bud.recallBit := (s.ctx k).bud.recallPend, bud.recallPend := false, wait := (s.ctx k).wait.keep } } :=
    State.seat_setSeat_same (Seat.ne_empty (by simp))
  rw [hblock, State.ctx, hseat]
  exact ⟨rfl, rfl, rfl, rfl, rfl⟩

/-- A bundle that yields. -/
theorem exec_yields {uses : List Res} (he : exec i = issueOne i) (hw : i.wf = true) (htr : Instr.transfer i = false)
    (hl : (encode i).length = 1) (hr : Runs g 0 0 s) (hslot : slotOf i s.cur s = { uses := uses, ctl := ctl })
    (hj : ctl.joins = false) (hah : ahead s.cur (soloBundle i s.cur s) ctl s = (.ok after, s))
    (hlink : ctl.link after = id) (hf : ∀ f, ctl.fused f = f)
    (hy : ∀ v, (v.ctx s.cur).bud.ibud = (s.ctx s.cur).bud.ibud - 1 → 
      afterCommit [s.cur] ctl (isPoint (s.ctx s.cur) (soloBundle i s.cur s) ctl) false v = yieldBlock [s.cur] y v)
    (hc : (s.ctx s.cur).bud.incont = false) :
    ∃ t, exec i s = .next t ∧ (t.seat s.cur).phase = .draining ∧ (t.ctx s.cur).bud.ycause = y ∧
      (t.ctx s.cur).bud.ibud = (s.ctx s.cur).bud.ibud - 1 ∧ (t.ctx s.cur).regs = (s.ctx s.cur).regs ∧ t.mem = s.mem := by
  let o : SlotOut := { uses := uses, ctl := ctl }
  have hbusy : ((o.effect s).seat s.cur).phase ≠ .idle := (keeps_refl hr.can.running).busy
  let v := closed (soloBundle i s.cur s) ctl after o s.cur s
  have hctx : v.ctx s.cur = closeCtx (soloBundle i s.cur s) ctl after o (s.clk s.cur) (s.ctx s.cur) := closed_ctx hbusy
  have hcont : (v.ctx s.cur).bud.incont = false := by
    rw [hctx, closeCtx_eq hr.settled hf]
    exact endCtx_incont.trans hc
  have hbud : (v.ctx s.cur).bud.ibud = (s.ctx s.cur).bud.ibud - 1 := by rw [hctx, closeCtx_ibud]; rfl
  have hregs : (v.ctx s.cur).regs = (s.ctx s.cur).regs := by rw [hctx, closeCtx_regs, hlink]; rfl
  have hrun : (v.seat s.cur).phase = .running := (closed_phase hbusy).trans hr.can.running
  have hblock : commitBlock (soloBundle i s.cur s) ctl after [(s.cur, [(0, o)])] s = yieldBlock [s.cur] y v := by
    rw [commitBlock_one (splits_solo hl) hbusy, hcont]
    exact hy v hbud
  obtain ⟨hph, hyc, hib, hrg, hmem⟩ := yieldBlock_one (y := y) hrun
  exact ⟨_, (congrFun he s).trans ((issueOne_ahead (o := o) (fun _ => splits_solo hl) hslot rfl hr.can (staticFault_plain hw htr)
    rfl rfl hj hah .refl).trans (congrArg _ hblock)), hph, hyc, hib.trans hbud, hrg.trans hregs, hmem⟩

end Sys2Proof.Machine
namespace Sys2Proof.Proofs
set_option Elab.async false
open Sys2Proof Sys2Proof.Machine

theorem topupMoves : Claims.TopupMoves := by
  intro s g ra b hg hr hp p old reserve asked n
  have hbusy := (keeps_refl hr.can.running).busy
  have hdone := completes_topup (x := b) (ra := ra) hg hr hp
  refine ⟨hdone, ?_⟩
  obtain ⟨t, hexec, hret⟩ := hdone
  obtain ⟨hib, htb⟩ := hret.bud (keeps_topupEffect hr.can.running).busy
  have hcur : (topupEffect s.cur b ((s.ctx s.cur).s ra).toNat s).cur = s.cur := rfl
  rw [hcur, topupEffect_ctx hbusy] at hib htb
  refine ⟨t, hexec, fun hb => ?_, fun hb => ?_⟩
  · subst hb
    exact htb.trans (BitVec.sub_zero _)
  · subst hb
    exact hib

theorem yieldBegins : Claims.YieldBegins := by
  intro s g hg hr hc yields
  have hlead : s.lead s.cur = s.ctx s.cur := lead_of_single hr.can.single
  refine ⟨fun hb => ?_, fun hb => ?_⟩
  · have hslot : slotOf (.yield g) s.cur s = { uses := predUse g.pred ++ [], ctl := .yield } := by
      simp only [slotOf, slotYield, hlead, hc]
      exact guarded_of_holds hr.guard
    refine exec_yields rfl hg rfl rfl hr hslot rfl rfl rfl (fun _ => rfl) (fun v hv => ?_) hc
    have hdue : (v.ctx s.cur).due = false := by
      have hsub : ((v.ctx s.cur).bud.ibud).toInt = (s.ctx s.cur).bud.ibud.toInt - 1 := by
        rw [hv]
        exact toInt_sub_charge (n := 1) hb.le
      simp only [Ctx.due, hsub, decide_eq_false_iff_not]
      omega
    simp [afterCommit, hdue]
  · have hslot : slotOf (.ypt g) s.cur s = { uses := predUse g.pred ++ [], ctl := .point } :=
      (congrArg (guarded g · _) hlead).trans (guarded_of_holds hr.guard)
    refine exec_yields rfl hg rfl rfl hr hslot rfl rfl rfl (fun _ => rfl) (fun v hv => ?_) hc
    have hdue : (v.ctx s.cur).due = true := by
      rw [Ctx.due, hv, hb]
      decide
    simp [afterCommit, isPoint, hdue]

/-- Settles O30: TOPUP completes with its effect, and a yield follows the commit of its bundle. -/
theorem budgetsMove : Obligations.BudgetsMove := ⟨topupMoves, yieldBegins⟩

end Sys2Proof.Proofs
end

section
/-!
RESUME and its return (R110, R112).
-/
namespace Sys2Proof.Machine
set_option Elab.async false
open Sys2Proof

variable {s : State} {g : Guard} {b : Fetched} {ctl : Ctl} {after : Word} {c : Ctx} {x : Option Word} {p : Bool}

/-- The second delay bundle of a RESUME restores the saved position, and ends the continuation. -/
theorem flow_returns (hp : c.pos.pend = some ⟨x, 1, true, p⟩) : flow b ctl after c = { c with
    pos := { c.pos with pc := c.saved.pc, loops := c.saved.loops, pend := c.saved.pend, xferAge := c.saved.xferAge }
    maskOnce := c.saved.mask
    saved := {}
    bud.incont := false } := by
  simp only [flow, hp]
  rfl

/-- A NOP that is that bundle. -/
theorem nop_returns (hg : g.ok = true) (hr : CanIssue 1 0 s) (hh : Guard.holds g (s.ctx s.cur) = true)
    (hp : (s.ctx s.cur).pos.pend = some ⟨x, 1, true, p⟩) :
    ∃ t, exec (.nop g) s = .next t ∧ (t.ctx s.cur).pos.pc = (s.ctx s.cur).saved.pc ∧
      (t.ctx s.cur).pos.loops = (s.ctx s.cur).saved.loops ∧ (t.ctx s.cur).pos.pend = (s.ctx s.cur).saved.pend ∧
      (t.ctx s.cur).bud.incont = false ∧ (t.ctx s.cur).regs = (s.ctx s.cur).regs := by
  let o : SlotOut := { uses := predUse g.pred ++ [], ctl := .next }
  have hbusy : ((o.effect s).seat s.cur).phase ≠ .idle := (keeps_refl hr.running).busy
  refine ⟨_, exec_closed_idle (ctl := .next) rfl rfl hr (staticFault_plain hg rfl) (guarded_of_holds hh) rfl, ?_⟩
  rw [closed_ctx (o := o) hbusy, closeCtx, flow_returns (by rw [endCtx_pos]; exact hp)]
  exact ⟨rfl, rfl, rfl, rfl, rfl⟩

end Sys2Proof.Machine
namespace Sys2Proof.Proofs
set_option Elab.async false
open Sys2Proof Sys2Proof.Machine

/-- Settles O31: RESUME is a transfer without a target, and its landing is the return. -/
theorem resumeReturns : Obligations.ResumeReturns := by
  unfold Obligations.ResumeReturns
  intro s g hg hr hh c
  have hlead : s.lead s.cur = s.ctx s.cur := lead_of_single hr.single
  refine ⟨fun hs hc => ?_, fun x p hp => nop_returns hg hr hh hp⟩
  have hslot : slotOf (.resume g) s.cur s = { uses := predUse g.pred ++ [], ctl := .resume } := by
    simp only [slotOf, slotResume, hlead, show (s.ctx s.cur).bud.incont = true from hc]
    exact guarded_of_holds hh
  obtain ⟨t, hexec, hret, hpend, -⟩ := transfer_retires (i := .resume g) rfl hg rfl rfl hr hs hslot rfl rfl (fun _ _ => rfl) fun _ => rfl
  exact ⟨t, hexec, hret, hpend⟩

end Sys2Proof.Proofs
end

section
/-!
The end of a member by EXIT (R93), and what the end of a step leaves of the seats (R331, R336, R339, R360).
-/
namespace Sys2Proof.Machine
set_option Elab.async false
open Sys2Proof

variable {s t u v : State} {g : Guard} {st m k : Nat}

/-! Steps that leave every seat in its phase. -/

/-- u follows from s, if s is well formed, by steps that leave every seat in its phase. -/
def Calm (u s : State) : Prop := s.Wf → u.Wf ∧ ∀ k, (u.seat k).phase = (s.seat k).phase

namespace Calm

theorem refl : Calm s s := fun h => ⟨h, fun _ => rfl⟩

theorem trans (h : Calm v u) (h' : Calm u s) : Calm v s := fun hs =>
  have hu := h' hs
  have hv := h hu.1
  ⟨hv.1, fun k => (hv.2 k).trans (hu.2 k)⟩

theorem foldl {α : Type} {f : State → α → State} (h : ∀ s x, Calm (f s x) s) :
    ∀ (xs : List α) (s : State), Calm (xs.foldl f s) s
  | [], _ => refl
  | x :: xs, s => (foldl h xs (f s x)).trans (h s x)

theorem ite {p : Prop} [Decidable p] {a b : State} (ha : Calm a s) (hb : Calm b s) : Calm (if p then a else b) s := by
  split <;> assumption

theorem of_apart (h : Apart u s) : Calm u s := fun hs => ⟨h.wf hs, fun k => congrArg Seat.phase (h.seat k)⟩

theorem of_aside (h : Aside u s) : Calm u s := of_apart (.of_aside h)

theorem of_steady (h : Steady u s) : Calm u s := fun hs => ⟨(h hs).wf, (h hs).phase⟩

/-- A change of anything but the seats. -/
theorem of_seats (hs : u.seats = s.seats) (hw : s.Wf → u.Wf) : Calm u s := fun h =>
  ⟨hw h, fun k => by rw [State.seat, State.seat, hs]⟩

/-- A change of one context, whatever it is. -/
theorem updCtx {f : Ctx → Ctx} : Calm (s.updCtx k f) s := fun h => by
  refine ⟨⟨h.mem, h.host, Sparse.set_wf h.seats⟩, fun j => ?_⟩
  by_cases hj : j = k
  · subst hj
    exact (congrArg Seat.phase (Sparse.get_set_wf h.seats)).trans rfl
  · exact congrArg Seat.phase (Sparse.get_set_other h.seats hj)

theorem updStep {n : Nat} {f : Step → Step} : Calm (s.updStep n f) s := of_seats rfl fun h => ⟨h.mem, h.host, h.seats⟩

theorem updMemberCtx {f : Ctx → Ctx} : Calm (s.updMemberCtx st m f) s := by
  unfold State.updMemberCtx
  split
  · exact updCtx
  · exact updStep

end Calm

theorem apart_updPart {p : Nat} {f : Part → Part} : Apart (s.updPart p f) s := ⟨rfl, rfl, rfl, fun h => ⟨h.mem, h.host, h.seats⟩⟩

theorem aside_wakeDie {d : Nat} : Aside (s.wakeDie d) s :=
  .ite .refl ⟨rfl, fun h => ⟨h.mem, h.host, h.seats⟩⟩

/-! Barriers (R90, R490). -/

theorem calm_onArrival {f : Arrival → Arrival} : Calm (onArrival f st m s) s := .updMemberCtx

theorem calm_tryRelease {sc inst id : Nat} : Calm (tryRelease st sc inst id s) s :=
  .ite (.foldl (fun _ _ => calm_onArrival) _ _) .refl

theorem calm_recheckBars : Calm (recheckBars st s) s := by
  refine .foldl (fun s x => ?_) _ _
  split
  · exact .ite calm_tryRelease .refl
  · exact .refl

theorem aside_leavePod : Aside (leavePod st s) s := aside_fab

/-! Budgets and completions (R336, R339, R360). -/

theorem apart_addReserve {p i n : Nat} : Apart (addReserve p i n s) s := apart_updPart

theorem calm_returnBudget {p i n : Nat} {o : Origin} : Calm (returnBudget p o i n s) s := by
  have hreserve : Calm (addReserve p i n s) s := .of_apart apart_addReserve
  cases o with
  | host => exact hreserve
  | reserve => exact hreserve
  | launch =>
    exact .ite (.ite .updMemberCtx ((Calm.of_apart apart_addReserve).trans .updMemberCtx)) hreserve

theorem apart_sendDevice {ch : Nat} {bs : List Byte} : Apart (sendDevice ch bs s) s := by
  have hsent : ∀ f, Apart ((s.wakeDie (ch / 4096)).updChan ch f) s := fun f => apart_updChan.trans (.of_aside aside_wakeDie)
  exact .ite (hsent _) (apart_armTrigger.trans (hsent _))

theorem aside_queueError {q p n : Nat} : Aside (queueError q p n s) s := aside_post

theorem apart_finishTask {n : Nat} : Apart (finishTask n s) s := by
  simp only [finishTask]
  refine apart_updTask.trans ?_
  split
  · exact .refl
  · exact .ite apart_sendDevice (.of_aside aside_queueError)

theorem apart_checkTask {n : Nat} : Apart (checkTask n s) s :=
  .ite (.ite apart_finishTask ((Apart.of_aside aside_updDie).trans apart_updTask)) .refl

/-! Steps (R325, R336). -/

theorem calm_retireStep {e : Bool} : Calm (retireStep st e s) s :=
  (Calm.of_apart apart_checkTask).trans ((Calm.of_apart apart_updTask).trans (Calm.updStep.trans
    ((Calm.of_aside aside_leavePod).trans calm_returnBudget)))

theorem calm_readyStep : Calm (readyStep st s) s := by
  simp only [readyStep, nextOrder]
  exact Calm.updStep.trans (.of_aside aside_updDie)

theorem calm_afterLeave : Calm (afterLeave st s) s := .ite .refl (.ite calm_retireStep (.ite calm_readyStep .refl))

/-! A step of one member. -/

/-- u follows from s by steps that leave a step st of one member with one. -/
def Sole (st : Nat) (u s : State) : Prop := (s.step1 st).members.length = 1 → (u.step1 st).members.length = 1

namespace Sole

theorem refl : Sole st s s := id
theorem trans (h : Sole st v u) (h' : Sole st u s) : Sole st v s := h ∘ h'
theorem ite {p : Prop} [Decidable p] {a b : State} (ha : Sole st a s) (hb : Sole st b s) : Sole st (if p then a else b) s := by
  split <;> assumption

theorem foldl {α : Type} {f : State → α → State} (h : ∀ s x, Sole st (f s x) s) :
    ∀ (xs : List α) (s : State), Sole st (xs.foldl f s) s
  | [], _ => refl
  | x :: xs, s => (foldl h xs (f s x)).trans (h s x)

theorem of_steps (h : u.steps = s.steps) : Sole st u s := by
  rw [Sole, State.step1, State.step1, h]
  exact id

theorem of_aside (h : Aside u s) : Sole st u s := of_steps h.steps

theorem modifyAt_length {α : Type} {f : α → α} : ∀ (xs : List α) (n : Nat), (modifyAt f xs n).length = xs.length
  | [], _ => rfl
  | _ :: _, 0 => rfl
  | _ :: xs, n + 1 => congrArg Nat.succ (modifyAt_length xs n)

theorem updMember {f : Member → Member} : Sole st (s.updMember st m f) s := fun h => by
  have hlen : (modifyAt f (s.step1 st).members m).length = 1 := (modifyAt_length _ _).trans h
  have hne : ({ s.step1 st with members := modifyAt f (s.step1 st).members m } : Step) ≠ {} := fun he => by
    have hnil : modifyAt f (s.step1 st).members m = [] := congrArg Step.members he
    rw [hnil] at hlen
    cases hlen
  exact (congrArg (fun x : Step => x.members.length) (Sparse.get_set_same hne)).trans hlen

theorem updMemberCtx {f : Ctx → Ctx} : Sole st (s.updMemberCtx st m f) s := by
  unfold State.updMemberCtx
  split
  · exact of_steps rfl
  · exact updMember

end Sole

theorem steps_sendKept {h : BitVec 4} {p : Copy} {x : Target} {unc : Bool} {e : Kept} :
    (sendKept k h p x unc s e).steps = s.steps := aside_putAccess.steps

theorem steps_closeElem {h : Nat} {p : Copy} {e : Kept} : (closeElem st m h p s e).steps = s.steps := by
  simp only [closeElem]
  split
  · rfl
  · split
    · exact steps_sendKept
    · split
      · exact aside_pullWrite.steps
      · exact aside_checkedWrite.steps
    · exact aside_hostStore.steps
    · exact (aside_sendRemote.trans aside_newTag).steps

theorem sole_spoilLoad {h : Nat} : Sole st (spoilLoad st m h s) s := by
  have hline : ∀ {s : State} {k p n : Nat} {x : UnitW}, Sole st { s.setLine k p x with freeCtr := n } s :=
    fun {_ _ _ _ _} => .of_steps rfl
  simp only [spoilLoad]
  split
  · exact .refl
  · exact .ite .refl (.foldl (fun _ _ => .foldl (fun _ _ => hline) _ _) _ _)

theorem sole_cancelOne {h : Nat} : Sole st (cancelOne st m h s) s :=
  (Sole.ite ((Sole.of_aside aside_freeStackCtx).trans (Sole.updMemberCtx.trans sole_spoilLoad)) .refl).trans
    ((Sole.of_aside aside_dropWaiters).trans ((Sole.ite .refl ((Sole.foldl (fun _ _ => .of_steps steps_closeElem) _ _).trans
      .updMemberCtx)).trans .updMemberCtx))

/-! The end of a member (R93, R334, R360). -/

theorem apart_closeBindings : Apart (closeBindings st m s) s :=
  (Apart.foldl (fun _ _ => .of_aside aside_closeProxy) _ _).trans
    ((Apart.foldl (fun _ _ => apart_closeWriter) _ _).trans (.foldl (fun _ _ => apart_closeReader) _ _))

theorem aside_dropStreams : Aside (dropStreams k s) s := .ite .refl aside_updDie
theorem aside_forgetGhosts {d : Nat} : Aside (forgetGhosts d st m s) s := .ite .refl aside_updDie

/-- A seat that is freed is idle, and the steps stand. -/
theorem freeSeat_idle (hw : s.Wf) : ((freeSeat k s).seat k).phase = .idle ∧ (freeSeat k s).Wf ∧ (freeSeat k s).steps = s.steps := by
  have hset : ((s.setSeat k {}).seat k).phase = .idle ∧ (s.setSeat k {}).Wf ∧ (s.setSeat k {}).steps = s.steps :=
    ⟨congrArg Seat.phase (Sparse.get_set_wf hw.seats), ⟨hw.mem, hw.host, Sparse.set_wf hw.seats⟩, rfl⟩
  simp only [freeSeat]
  split
  · exact ⟨hset.1, ⟨hset.2.1.mem, hset.2.1.host, hset.2.1.seats⟩, rfl⟩
  · exact hset

/-- Steps that change nothing. -/
theorem foldl_idle {α β : Type} {f : α → β → α} {a : α} : ∀ {xs : List β}, (∀ x ∈ xs, f a x = a) → xs.foldl f a = a
  | [], _ => rfl
  | x :: xs, h => by
    rw [List.foldl_cons, h x (List.mem_cons_self ..)]
    exact foldl_idle fun y hy => h y (List.mem_cons_of_mem _ hy)

/-- Nobody of a step of one member waits at FUSE or REJOIN for that member. -/
theorem endFuseWaits_sole (h : (s.step1 st).members.length = 1) : endFuseWaits st 0 s = s := by
  refine foldl_idle fun j hj => ?_
  have hz : j = 0 := by
    have hlt := List.mem_range.mp (List.mem_of_mem_filter hj)
    omega
  subst hz
  split <;> rfl

/-- A seat that is freed when the only member of its step leaves stays idle. -/
theorem freed_idle {f : Member → Member} (hw : s.Wf) (h : (s.step1 st).members.length = 1) :
    ((recheckBars st (endFuseWaits st 0 (freeSeat k (s.updMember st 0 f)))).seat k).phase = .idle ∧
      (recheckBars st (endFuseWaits st 0 (freeSeat k (s.updMember st 0 f)))).Wf := by
  obtain ⟨hidle, hwf, hsteps⟩ := freeSeat_idle (k := k) (s := s.updMember st 0 f) ⟨hw.mem, hw.host, hw.seats⟩
  have hsole : ((freeSeat k (s.updMember st 0 f)).step1 st).members.length = 1 := Sole.of_steps hsteps (Sole.updMember h)
  rw [endFuseWaits_sole hsole]
  have hcalm := calm_recheckBars (st := st) hwf
  exact ⟨(hcalm.2 k).trans hidle, hcalm.1⟩

theorem leaveMember_idle (hw : s.Wf) (hm : s.memberNo k = 0) (h : (s.step1 (s.stepKey k)).members.length = 1) :
    ((leaveMember k s).seat k).phase = .idle ∧ (leaveMember k s).Wf := by
  have hgone : Apart (forgetGhosts (dieOf k) (s.stepKey k) 0 (dropStreams k (closeBindings (s.stepKey k) 0 s))) s :=
    (Apart.of_aside (aside_forgetGhosts.trans aside_dropStreams)).trans apart_closeBindings
  simp only [leaveMember, hm]
  exact freed_idle (hgone.wf hw) (Sole.of_steps hgone.steps h)

/-- A member that ends by EXIT leaves the seat of its step idle, where it was the only one (R93). -/
theorem exitMember_idle (hw : s.Wf) (hm : s.memberNo k = 0) (h : (s.step1 (s.stepKey k)).members.length = 1) :
    ((exitMember k s).seat k).phase = .idle := by
  let subs := (s.ctx k).eng.handles.filter fun e => e.2.busy && e.2.opcode == 0x0B
  let v := subs.foldl (fun u e => cancelOne (s.stepKey k) (s.memberNo k) e.1 u) s
  have hstill : Still v s := Steady.foldl (fun _ _ => steady_cancelOne) subs s hw
  have hsole : Sole (s.stepKey k) v s := .foldl (fun _ _ => sole_cancelOne) subs s
  have hkey : v.stepKey k = s.stepKey k := by rw [State.stepKey, hstill.step, State.stepKey]
  have hno : v.memberNo k = s.memberNo k := by rw [State.memberNo, hstill.step, State.memberNo]
  obtain ⟨hidle, hwf⟩ := leaveMember_idle hstill.wf (hno.trans hm) (by rw [hkey]; exact hsole h)
  rw [show exitMember k s = afterLeave (s.stepKey k) (leaveMember k v) from rfl, (calm_afterLeave hwf).2, hidle]

/-- After EXIT the member ends (R93). -/
theorem afterCommit_exit {point incont : Bool} : afterCommit [k] .exit point incont s = exitMember k s := by
  simp only [afterCommit, List.foldl_cons, List.foldl_nil]

/-! EXIT. -/

/-- EXIT with nothing pending closes its bundle, and then ends its member. -/
theorem exec_exit (hg : g.ok = true) (hr : Runs g 1 0 s) (hp : (s.ctx s.cur).mx.pend = [])
    (hh : exitHandles (s.ctx s.cur) = false) (hsent : sentPending s s.cur = false) :
    ∃ u, Retired 0 0 1 0 s u ∧ exec (.exit g) s = .next (exitMember s.cur u) := by
  let o : SlotOut := { uses := predUse g.pred ++ [], ctl := .exit }
  have hlead : s.lead s.cur = s.ctx s.cur := lead_of_single hr.can.single
  have hslot : slotOf (.exit g) s.cur s = o := by
    simp only [slotOf, slotExit, hlead, hp, hh, hsent]
    exact guarded_of_holds hr.guard
  have hbusy : ((o.effect s).seat s.cur).phase ≠ .idle := (keeps_refl hr.can.running).busy
  refine ⟨closed (soloBundle (.exit g) s.cur s) .exit (soloBundle (.exit g) s.cur s).next o s.cur s, ?_, ?_⟩
  · exact retired_closed (o := o) rfl hr.settled (fun _ _ => rfl) (fun _ => rfl)
      (fun _ hlo hpe _ => flow_outside rfl hlo hpe) rfl hbusy rfl
  · have hissue := issueOne_ahead (o := o) (fun _ => splits_solo rfl) hslot rfl hr.can (staticFault_plain hg rfl) rfl rfl rfl
      rfl .refl
    rw [commitBlock_one (splits_solo rfl) hbusy, afterCommit_exit] at hissue
    exact hissue

theorem Retired.calm {fl clr : Flags} {toll traffic : Nat} (h : Retired fl clr toll traffic u t) : Calm t u := by
  obtain ⟨pos, ready, wait, issued, -, rfl⟩ := h
  exact (Calm.of_apart apart_updCore).trans .updCtx

end Sys2Proof.Machine
namespace Sys2Proof.Proofs
set_option Elab.async false
open Sys2Proof Sys2Proof.Machine

/-- Settles O33: EXIT closes its bundle before its member ends, and the end of the only member frees the seat. -/
theorem exitEnds : Obligations.ExitEnds := by
  unfold Obligations.ExitEnds
  intro s g hg hr hw hp hh hsent
  obtain ⟨u, hret, hexec⟩ := exec_exit hg hr hp hh hsent
  refine ⟨u, hret, hexec, fun hone hno => ?_⟩
  have hwu := (hret.calm hw).1
  obtain ⟨pos, ready, wait, issued, -, rfl⟩ := hret
  have hbusy := (keeps_refl hr.can.running).busy
  have hstep : ∀ f g, (((s.updCtx s.cur f).updCore (coreOf s.cur) g).seat s.cur).step = (s.seat s.cur).step := fun f g =>
    (congrArg Seat.step (State.seat_updCtx_same hbusy)).trans rfl
  refine exitMember_idle hwu ?_ ?_
  · rw [State.memberNo, hstep]
    exact hno
  · rw [State.stepKey, hstep]
    exact hone

end Sys2Proof.Proofs
end

section
/-!
Words that the spec prints, and the machine right after reset (R26, R33 to R45, R63, R288, R322).
-/
namespace Sys2Proof.Proofs
set_option Elab.async false
open Sys2Proof Sys2Proof.Machine

/-- Settles O35: every word is decoded by evaluation. -/
theorem decodeWords : Obligations.DecodeWords := by
  unfold Obligations.DecodeWords
  decide

/-- Settles O36: the state of reset lists nothing, so that every record reads as its default. -/
theorem resetState : Obligations.ResetState := by
  unfold Obligations.ResetState
  intro s
  have hstack : ({} : Stack).thresh = 2048 ∧ ({} : Stack).mint = 50 ∧ ({} : Stack).scrub = 24 ∧ ({} : Stack).predict = true ∧
      stackErr {} = 0 := by decide
  have hstat : devstat State.reset = 8 := by decide
  exact ⟨hstat, rfl, rfl, rfl, rfl, rfl, rfl, rfl, rfl, rfl, fun _ => rfl, fun _ => rfl, fun _ => rfl, fun _ => ⟨rfl, rfl⟩,
    fun _ => ⟨rfl, rfl, rfl⟩, fun _ => hstack, fun _ _ => ⟨rfl, rfl, rfl, rfl⟩, ⟨rfl, rfl, rfl⟩⟩

end Sys2Proof.Proofs
end

section
/-!
A step of the package is the turn of its agenda, or a cycle of the core of the current seat, in which a bundle that is
one instruction is exec of it (R51, R56, R64).
-/
namespace Sys2Proof.Machine
set_option Elab.async false
open Sys2Proof

variable {s u v : State} {i : Instr} {k c : Nat} {ws : List Nat} {b : Bundle}

theorem andThen_assoc {o : Out} {f h : State → Out} : andThen (andThen o f) h = andThen o fun t => andThen (f t) h := by
  cases o <;> rfl

/-- The bundle that decodes to one instruction is that instruction alone. -/
theorem solo_of_decoded {a : Word} (hs : b.slots = [⟨0, i⟩]) (hw : ws.map (BitVec.ofNat 64) = sealWords (encode i)) :
    Fetched.solo ⟨a, ws.map (BitVec.ofNat 64), b.slots⟩ = some i := by
  simp [Fetched.solo, hs, hw]

/-- A seat alone leads its own issue. -/
theorem issueLead_alone (h : (u.ctx k).fuse.isFused = false) : issueLead k u = k := by
  simp [issueLead, issueSeats, h]

/-- The turn of a seat whose bundle is one instruction. -/
theorem issueTurn_solo (hf : (u.ctx k).fuse.isFused = false) (hfetch : fetch k (u.ctx k).pos.pc u = (.bundle ws, v))
    (hd : decodeBundle ws = .ok b) (hs : b.slots = [⟨0, i⟩]) (hw : ws.map (BitVec.ofNat 64) = sealWords (encode i)) :
    issueTurn k u = andThen (exec i { v with cur := k }) fun t => .next { t with cur := v.cur } := by
  have hnext : nextBundle k u = (.ok ⟨(u.ctx k).pos.pc, ws.map (BitVec.ofNat 64), b.slots⟩, v) := by
    simp only [nextBundle, hfetch, hd]
  simp only [issueTurn, issueLead_alone hf, hnext, solo_of_decoded hs hw]

/-- The cycle of a core whose first seat issues. -/
theorem coreCycle_issues {k j : Nat} (hu : cycleStart c s = u) (hk : k = 2 * c + (u.core c).primary % 2)
    (hj : j = 2 * c + (1 - (u.core c).primary % 2)) (ht : seatTurn k u = .issue) :
    coreCycle c s = andThen (issueTurn k u) fun t => andThen (seatCycle j t) fun x => .next (cycleEnd c x) := by
  have hseat : seatCycle k u = issueTurn k u := by simp only [seatCycle, ht]
  subst hu
  rw [← hseat, hk, hj]
  rfl

/-- With nothing on the agenda a step is idle; else it takes the first turn. -/
theorem step_idle (ha : s.agenda = []) : step s = idleTurn { s with cycle := s.cycle + 1 } := by
  unfold step
  split
  · rfl
  · next h => rw [ha] at h; cases h

theorem step_turn {t : Turn} {rest : List Turn} (ha : s.agenda = t :: rest) :
    step s = takeTurn t { s with agenda := rest, cycle := s.cycle + 1 } := by
  unfold step
  split
  · next h => rw [ha] at h; cases h
  · next h => rw [ha] at h; cases h; rfl

/-- While a reset is in progress, firmware boots. -/
theorem idleTurn_boot (hr : s.host.resetting = true) (he : s.host.booterr = 0) : idleTurn s = exec .boot s := by
  rw [idleTurn, hr, he]
  exact if_pos rfl

/-- Else the core of the current seat takes its turn. -/
theorem idleTurn_cycle (hb : s.host.resetting = false ∨ s.host.booterr ≠ 0) (hc : coreOf s.cur < 256) :
    idleTurn s = coreCycle (coreOf s.cur) s := by
  have hboot : (s.host.resetting && s.host.booterr == 0) = false := by
    rcases hb with h | h
    · rw [h, Bool.false_and]
    · rw [beq_eq_false_iff_ne.mpr h, Bool.and_false]
  simp only [idleTurn, hboot, Bool.false_eq_true, if_false, takeTurn, hc, if_true]

end Sys2Proof.Machine
namespace Sys2Proof.Proofs
set_option Elab.async false
open Sys2Proof Sys2Proof.Machine

/-- Settles O34: the turns of a step, unfolded once. -/
theorem stepRunsDecoded : Obligations.StepRunsDecoded := by
  unfold Obligations.StepRunsDecoded
  intro s i c now u k j
  refine ⟨fun ws b v ha hb hc ht hf hfetch hd hs hw => ?_, fun rest ha => ?_, fun ha hres herr => ?_⟩
  · rw [step_idle ha]
    refine (idleTurn_cycle (s := now) hb hc).trans ?_
    refine (coreCycle_issues (s := now) (u := u) rfl rfl rfl ht).trans ?_
    rw [issueTurn_solo hf hfetch hd hs hw, andThen_assoc]
    rfl
  · exact step_turn ha
  · rw [step_idle ha]
    exact idleTurn_boot (s := now) hres herr

end Sys2Proof.Proofs
end

section
/-!
The words of the encoder, field by field: what the decoder reads of a head, of the code of an operand, and of a
word that is one instruction (R33, R37).
-/
namespace Sys2Proof.Machine
set_option Elab.async false
open Sys2Proof

variable {w op cls lo n : Nat} {g : Guard} {i j : Instr} {b c : Bool}

/-! Fields. -/

/-- A field is what its bits say. -/
theorem fld_of {v : BitVec n} (h : w / 2 ^ lo % 2 ^ n = v.toNat) : fld w lo n = v :=
  BitVec.eq_of_toNat_eq (by rw [fld, BitVec.toNat_ofNat, h])

theorem zeroAt_of (h : w / 2 ^ lo % 2 ^ n = 0) : zeroAt w lo n = true := beq_iff_eq.mpr h

theorem and_of (hb : b = true) (hc : c = true) : (b && c) = true := by rw [hb, hc]; rfl

/-- An instruction whose zero bits are zero. -/
theorem whenZero_of (hb : b = true) (hi : i = j) : whenZero b i = .ok j := by rw [hb, hi]; rfl

theorem withCode_of {α : Type} {o : Option α} {a : α} {k : α → Dec} (ho : o = some a) : withCode o k = k a := by rw [ho]; rfl

/-! The head (R33). -/

/-- The word w has class cls, opcode op and guard g. -/
def Heads (cls op : Nat) (g : Guard) (w : Nat) : Prop := w / 2 ^ 47 = cls * 2 ^ 13 + bit g.neg * 2 ^ 12 + put 8 g.pred + op

theorem Heads.opcode (h : Heads cls op g w) (ho : op < 256) : w / 2 ^ 47 % 256 = op := by
  simp only [Heads, put] at h
  omega

theorem Heads.classOf_eq (h : Heads cls op g w) (ho : op < 256) (hc : cls < 8) : classOf w = cls := by
  have hn := Laws.EncodedWords.bit_le g.neg
  simp only [Heads, put] at h
  simp only [classOf]
  omega

theorem bit_of_mod {m : Nat} (h : m % 2 = bit b) : (m % 2 == 1) = b := by
  rw [h]
  cases b <;> rfl

theorem Heads.guard (h : Heads cls op g w) (ho : op < 256) : guardOf w = g := by
  have hn := Laws.EncodedWords.bit_le g.neg
  simp only [Heads, put] at h
  have hneg : (w / 2 ^ 59 % 2 == 1) = g.neg := bit_of_mod (by omega)
  have hpred : fld w 55 4 = g.pred := fld_of (by omega)
  rw [guardOf, hneg, hpred]

/-! Codes of enumerations and of operands. -/

theorem condOf_condCode (c : Cond) : condOf (condCode c) = some c := by cases c <;> rfl
theorem scopeOf_scopeCode (c : Scope) : Scope.ofCode (scopeCode c) = some c := by cases c <;> rfl
theorem fenceKindOf_fenceKindCode (k : FenceKind) : fenceKindOf (fenceKindCode k) = some k := by cases k <;> rfl
theorem vtyOf_vtyCode (t : VTy) : vtyOf (vtyCode t) = t := by cases t <;> rfl

/-- R37: the code of a vector operand stands for it. -/
theorem vopOf_vopCode (v : VOp) : vopOf (vopCode v) = some v := by
  cases v with
  | tap s l =>
    have htap : vopCode (.tap s l) / 16384 % 2 = 1 := by simp only [vopCode, put]; omega
    have hs : fld (vopCode (.tap s l)) 7 7 = s := fld_of (by simp only [vopCode, put]; omega)
    have hl : fld (vopCode (.tap s l)) 0 7 = l := fld_of (by simp only [vopCode, put]; omega)
    rw [vopOf, if_pos htap, hs, hl]
  | vreg r =>
    have htap : ¬ vopCode (.vreg r) / 16384 % 2 = 1 := by simp only [vopCode, put]; omega
    have hkind : vopCode (.vreg r) / 4096 % 4 = 0 := by simp only [vopCode, put]; omega
    have hz : zeroAt (vopCode (.vreg r)) 5 7 = true := zeroAt_of (by simp only [vopCode, put]; omega)
    have hr : fld (vopCode (.vreg r)) 0 5 = r := fld_of (by simp only [vopCode, put]; omega)
    simp only [vopOf, if_neg htap, hkind, hz, hr, if_true]
  | sreg r =>
    have htap : ¬ vopCode (.sreg r) / 16384 % 2 = 1 := by simp only [vopCode, put]; omega
    have hkind : vopCode (.sreg r) / 4096 % 4 = 1 := by simp only [vopCode, put]; omega
    have hz : zeroAt (vopCode (.sreg r)) 6 6 = true := zeroAt_of (by simp only [vopCode, put]; omega)
    have hr : fld (vopCode (.sreg r)) 0 6 = r := fld_of (by simp only [vopCode, put]; omega)
    simp only [vopOf, if_neg htap, hkind, hz, hr, if_true]
  | imm y =>
    have htap : ¬ vopCode (.imm y) / 16384 % 2 = 1 := by simp only [vopCode, put]; omega
    have hkind : vopCode (.imm y) / 4096 % 4 = 2 := by simp only [vopCode, put]; omega
    have hy : fld (vopCode (.imm y)) 0 12 = y := fld_of (by simp only [vopCode, put]; omega)
    simp only [vopOf, if_neg htap, hkind, hy]

theorem mkindOf_ni8 (p : BitVec 3) : mkindOf 0 p.toNat = some (.ni8 p) := by
  rw [mkindOf, BitVec.ofNat_toNat, BitVec.setWidth_eq]

/-- R43: the kind field of a matrix instruction. -/
theorem mkindOf_mkindCode {k : MKind} (h : w / 2 ^ 8 % 32 = mkindCode k / 2 ^ 8) :
    mkindOf (w / 2 ^ 8 % 4) (w / 2 ^ 10 % 8) = some k := by
  cases k with
  | ni8 p =>
    simp only [mkindCode, put] at h
    have hk : w / 2 ^ 8 % 4 = 0 := by omega
    have hp : w / 2 ^ 10 % 8 = p.toNat := by omega
    rw [hk, hp, mkindOf_ni8]
  | bf16 =>
    simp only [mkindCode] at h
    have hk : w / 2 ^ 8 % 4 = 1 := by omega
    have hp : w / 2 ^ 10 % 8 = 0 := by omega
    rw [hk, hp]
    rfl
  | fp16 =>
    simp only [mkindCode] at h
    have hk : w / 2 ^ 8 % 4 = 2 := by omega
    have hp : w / 2 ^ 10 % 8 = 0 := by omega
    rw [hk, hp]
    rfl

theorem oneBit_toNat (t : BitVec 1) : oneBit t.toNat = some t := by
  rw [oneBit, if_pos t.isLt, BitVec.ofNat_toNat, BitVec.setWidth_eq]

/-! What it is to be read back. -/

/-- An instruction of one syllable whose word the decoder's fields give back. -/
structure Reads (i : Instr) (w : Nat) : Prop where
  word : encode i = [w]
  plain : isBrm w = false
  fields : decodeFields w = .ok i

/-- Such an instruction, where it is well formed, is what its word decodes to. -/
theorem Reads.decode_encode (h : Reads i w) (hw : i.wf = true) : decode (encode i) = .ok i := by
  obtain ⟨hword, hplain, hfields⟩ := h
  simp only [hword, decode, decodeSyllable, hplain, Bool.false_and, Bool.false_eq_true, if_false, hfields, withLimits, hw, if_true]

/-- Only class 0 has BRM. -/
theorem isBrm_of_class (h : classOf w = cls) (hc : cls ≠ 0) : isBrm w = false := by
  rw [isBrm, h, beq_eq_false_iff_ne.mpr hc, Bool.false_and]

theorem reads_c (h : Heads 0 op g w) (ho : op < 256) (hb : op ≠ 2) (he : encode i = [w]) (hd : decodeC w = .ok i) : Reads i w := by
  have hop := h.opcode ho
  refine ⟨he, ?_, ?_⟩
  · rw [isBrm, hop, beq_eq_false_iff_ne.mpr hb, Bool.and_false]
  · simp only [decodeFields, h.classOf_eq ho (by decide), hop, if_neg hb, hd]

theorem reads_s (h : Heads 1 op g w) (ho : op < 256) (he : encode i = [w]) (hd : decodeS w = .ok i) : Reads i w :=
  have hc := h.classOf_eq ho (by decide)
  ⟨he, isBrm_of_class hc (by decide), by simp only [decodeFields, hc, hd]⟩

theorem reads_v (h : Heads 2 op g w) (ho : op < 256) (he : encode i = [w]) (hd : decodeV w = .ok i) : Reads i w :=
  have hc := h.classOf_eq ho (by decide)
  ⟨he, isBrm_of_class hc (by decide), by simp only [decodeFields, hc, hd]⟩

theorem reads_m (h : Heads 3 op g w) (ho : op < 256) (he : encode i = [w]) (hd : decodeM w = .ok i) : Reads i w :=
  have hc := h.classOf_eq ho (by decide)
  ⟨he, isBrm_of_class hc (by decide), by simp only [decodeFields, hc, hd]⟩

theorem reads_x (h : Heads 4 op g w) (ho : op < 256) (he : encode i = [w]) (hd : decodeX w = .ok i) : Reads i w :=
  have hc := h.classOf_eq ho (by decide)
  ⟨he, isBrm_of_class hc (by decide), by simp only [decodeFields, hc, hd]⟩

end Sys2Proof.Machine
end

section
/-!
The formats of classes C and S: a word of a format is read back where the decoder's table gives its opcode that format
(R39, R41, R47).
-/
namespace Sys2Proof.Machine
set_option Elab.async false
open Sys2Proof

variable {w op : Nat} {g : Guard}

/-- R41: a C instruction without operands. -/
theorem reads_c0  (k : Guard → Instr) (ho : op < 256) (hb : op ≠ 2)
    (hd : ∀ w, w / 2 ^ 47 % 256 = op → decodeC w = whenZero (zeroAt w 0 47) (k (guardOf w))) (he : encode (k g) = [w])
    (hw : w = encC op g 0) : Reads (k g) w := by
  simp only [encC, head, guardBits, put] at hw
  have hh : Heads 0 op g w := by simp only [Heads, put]; omega
  have hz : zeroAt w 0 47 = true := zeroAt_of (by omega)
  refine reads_c hh ho hb he ?_
  rw [hd w (hh.opcode ho), hh.guard ho]
  exact whenZero_of hz rfl

/-- R41: a C instruction with a displacement. -/
theorem reads_c32 {d : BitVec 32} (k : Guard → BitVec 32 → Instr) (ho : op < 256) (hb : op ≠ 2)
    (hd : ∀ w, w / 2 ^ 47 % 256 = op → decodeC w = whenZero (zeroAt w 0 15) (k (guardOf w) (fld w 15 32))) (he : encode (k g d) = [w])
    (hw : w = encC op g (put 15 d)) : Reads (k g d) w := by
  simp only [encC, head, guardBits, put] at hw
  have hh : Heads 0 op g w := by simp only [Heads, put]; omega
  have hz : zeroAt w 0 15 = true := zeroAt_of (by omega)
  have hdisp : fld w 15 32 = d := fld_of (by omega)
  refine reads_c hh ho hb he ?_
  rw [hd w (hh.opcode ho), hh.guard ho, hdisp]
  exact whenZero_of hz rfl

/-- R41: a C instruction with one register. -/
theorem reads_c6 {ra : BitVec 6} (k : Guard → BitVec 6 → Instr) (ho : op < 256) (hb : op ≠ 2)
    (hd : ∀ w, w / 2 ^ 47 % 256 = op → decodeC w = whenZero (zeroAt w 0 41) (k (guardOf w) (fld w 41 6))) (he : encode (k g ra) = [w])
    (hw : w = encC op g (put 41 ra)) : Reads (k g ra) w := by
  simp only [encC, head, guardBits, put] at hw
  have hh : Heads 0 op g w := by simp only [Heads, put]; omega
  have hz : zeroAt w 0 41 = true := zeroAt_of (by omega)
  have hra : fld w 41 6 = ra := fld_of (by omega)
  refine reads_c hh ho hb he ?_
  rw [hd w (hh.opcode ho), hh.guard ho, hra]
  exact whenZero_of hz rfl

/-- R41: a C instruction with a code or a mask. -/
theorem reads_c16 {x : BitVec 16} (k : Guard → BitVec 16 → Instr) (ho : op < 256) (hb : op ≠ 2)
    (hd : ∀ w, w / 2 ^ 47 % 256 = op → decodeC w = whenZero (zeroAt w 0 31) (k (guardOf w) (fld w 31 16))) (he : encode (k g x) = [w])
    (hw : w = encC op g (put 31 x)) : Reads (k g x) w := by
  simp only [encC, head, guardBits, put] at hw
  have hh : Heads 0 op g w := by simp only [Heads, put]; omega
  have hz : zeroAt w 0 31 = true := zeroAt_of (by omega)
  have hx : fld w 31 16 = x := fld_of (by omega)
  refine reads_c hh ho hb he ?_
  rw [hd w (hh.opcode ho), hh.guard ho, hx]
  exact whenZero_of hz rfl

/-- R39: format SR. -/
theorem reads_sr {rd ra rb : BitVec 6} (k : Guard → BitVec 6 → BitVec 6 → BitVec 6 → Instr) (ho : op < 256)
    (hd : ∀ w, w / 2 ^ 47 % 256 = op → decodeS w = srForm w k) (he : encode (k g rd ra rb) = [w])
    (hw : w = encSR op g rd ra rb) : Reads (k g rd ra rb) w := by
  simp only [encSR, head, guardBits, put] at hw
  have hh : Heads 1 op g w := by simp only [Heads, put]; omega
  have hz : zeroAt w 0 29 = true := zeroAt_of (by omega)
  have hrd : fld w 41 6 = rd := fld_of (by omega)
  have hra : fld w 35 6 = ra := fld_of (by omega)
  have hrb : fld w 29 6 = rb := fld_of (by omega)
  refine reads_s hh ho he ?_
  rw [hd w (hh.opcode ho), srForm, hh.guard ho, hrd, hra, hrb]
  exact whenZero_of hz rfl

/-- R47: format SR with one source. -/
theorem reads_sr1 {rd ra : BitVec 6} (k : Guard → BitVec 6 → BitVec 6 → Instr) (ho : op < 256)
    (hd : ∀ w, w / 2 ^ 47 % 256 = op → decodeS w = sr1Form w k) (he : encode (k g rd ra) = [w])
    (hw : w = encSR op g rd ra 0) : Reads (k g rd ra) w := by
  have h0 : (0 : BitVec 6).toNat = 0 := rfl
  simp only [encSR, h0, head, guardBits, put] at hw
  have hh : Heads 1 op g w := by simp only [Heads, put]; omega
  have hz : zeroAt w 0 35 = true := zeroAt_of (by omega)
  have hrd : fld w 41 6 = rd := fld_of (by omega)
  have hra : fld w 35 6 = ra := fld_of (by omega)
  refine reads_s hh ho he ?_
  rw [hd w (hh.opcode ho), sr1Form, hh.guard ho, hrd, hra]
  exact whenZero_of hz rfl

/-- R39: format SI. -/
theorem reads_si {rd ra : BitVec 6} {y : BitVec 35} (k : Guard → BitVec 6 → BitVec 6 → BitVec 35 → Instr) (ho : op < 256)
    (hd : ∀ w, w / 2 ^ 47 % 256 = op → decodeS w = siForm w k) (he : encode (k g rd ra y) = [w])
    (hw : w = encSI op g rd ra y.toNat) : Reads (k g rd ra y) w := by
  simp only [encSI, head, guardBits, put] at hw
  have hh : Heads 1 op g w := by simp only [Heads, put]; omega
  have hrd : fld w 41 6 = rd := fld_of (by omega)
  have hra : fld w 35 6 = ra := fld_of (by omega)
  have hy : fld w 0 35 = y := fld_of (by omega)
  refine reads_s hh ho he ?_
  rw [hd w (hh.opcode ho), siForm, hh.guard ho, hrd, hra, hy]

/-- R47: a shift by an immediate. -/
theorem reads_sh {rd ra y : BitVec 6} (k : Guard → BitVec 6 → BitVec 6 → BitVec 6 → Instr) (ho : op < 256)
    (hd : ∀ w, w / 2 ^ 47 % 256 = op → decodeS w = shForm w k) (he : encode (k g rd ra y) = [w])
    (hw : w = encSI op g rd ra y.toNat) : Reads (k g rd ra y) w := by
  simp only [encSI, head, guardBits, put] at hw
  have hh : Heads 1 op g w := by simp only [Heads, put]; omega
  have hz : zeroAt w 6 29 = true := zeroAt_of (by omega)
  have hrd : fld w 41 6 = rd := fld_of (by omega)
  have hra : fld w 35 6 = ra := fld_of (by omega)
  have hy : fld w 0 6 = y := fld_of (by omega)
  refine reads_s hh ho he ?_
  rw [hd w (hh.opcode ho), shForm, if_pos hz, hh.guard ho, hrd, hra, hy]

/-- R39: format SQ. -/
theorem reads_sq {pd pa pb : BitVec 4} (k : Guard → BitVec 4 → BitVec 4 → BitVec 4 → Instr) (ho : op < 256)
    (hd : ∀ w, w / 2 ^ 47 % 256 = op → decodeS w = sqForm w k) (he : encode (k g pd pa pb) = [w])
    (hw : w = encSQ op g pd pa pb) : Reads (k g pd pa pb) w := by
  simp only [encSQ, head, guardBits, put] at hw
  have hh : Heads 1 op g w := by simp only [Heads, put]; omega
  have hz : zeroAt w 0 35 = true := zeroAt_of (by omega)
  have hpd : fld w 43 4 = pd := fld_of (by omega)
  have hpa : fld w 39 4 = pa := fld_of (by omega)
  have hpb : fld w 35 4 = pb := fld_of (by omega)
  refine reads_s hh ho he ?_
  rw [hd w (hh.opcode ho), sqForm, hh.guard ho, hpd, hpa, hpb]
  exact whenZero_of hz rfl

/-- R39: format SG. -/
theorem reads_sg {r : BitVec 6} {sig : BitVec 7} {y : BitVec 8} (k : Guard → BitVec 6 → BitVec 7 → BitVec 8 → Instr) (ho : op < 256)
    (hd : ∀ w, w / 2 ^ 47 % 256 = op → decodeS w = sgForm w k) (he : encode (k g r sig y) = [w])
    (hw : w = encSG op g r sig (put 26 y)) : Reads (k g r sig y) w := by
  simp only [encSG, head, guardBits, put] at hw
  have hh : Heads 1 op g w := by simp only [Heads, put]; omega
  have hz : zeroAt w 0 26 = true := zeroAt_of (by omega)
  have hr : fld w 41 6 = r := fld_of (by omega)
  have hsig : fld w 34 7 = sig := fld_of (by omega)
  have hy : fld w 26 8 = y := fld_of (by omega)
  refine reads_s hh ho he ?_
  rw [hd w (hh.opcode ho), sgForm, hh.guard ho, hr, hsig, hy]
  exact whenZero_of hz rfl

/-- R39, R47: SIGSET and SIGGET. -/
theorem reads_sfield {r : BitVec 6} {sig : BitVec 7} {f : BitVec 4} {l : BitVec 3}
    (k : Guard → BitVec 6 → BitVec 7 → BitVec 4 → BitVec 3 → Instr) (ho : op < 256)
    (hd : ∀ w, w / 2 ^ 47 % 256 = op → decodeS w = if zeroAt w 30 4 then
      whenZero (zeroAt w 0 23) (k (guardOf w) (fld w 41 6) (fld w 34 7) (fld w 26 4) (fld w 23 3)) else .error .fieldLimit)
    (he : encode (k g r sig f l) = [w])
    (hw : w = encSG op g r sig (put 26 f + put 23 l)) : Reads (k g r sig f l) w := by
  simp only [encSG, head, guardBits, put] at hw
  have hh : Heads 1 op g w := by simp only [Heads, put]; omega
  have htop : zeroAt w 30 4 = true := zeroAt_of (by omega)
  have hz : zeroAt w 0 23 = true := zeroAt_of (by omega)
  have hr : fld w 41 6 = r := fld_of (by omega)
  have hsig : fld w 34 7 = sig := fld_of (by omega)
  have hf : fld w 26 4 = f := fld_of (by omega)
  have hl : fld w 23 3 = l := fld_of (by omega)
  refine reads_s hh ho he ?_
  rw [hd w (hh.opcode ho), if_pos htop, hh.guard ho, hr, hsig, hf, hl]
  exact whenZero_of hz rfl

/-- R39: format SP with two registers. -/
theorem reads_cmp {pd : BitVec 4} {c : Cond} {ra rb : BitVec 6} (k : Guard → BitVec 4 → Cond → BitVec 6 → BitVec 6 → Instr) (ho : op < 256)
    (hd : ∀ w, w / 2 ^ 47 % 256 = op → decodeS w = withCode (condOf (w / 2 ^ 40 % 8)) fun c =>
      whenZero (zeroAt w 0 28) (k (guardOf w) (fld w 43 4) c (fld w 34 6) (fld w 28 6))) (he : encode (k g pd c ra rb) = [w])
    (hw : w = encSP op g pd c ra (put 28 rb)) : Reads (k g pd c ra rb) w := by
  have hlt := Laws.EncodedWords.condCode_lt c
  simp only [encSP, head, guardBits, put] at hw
  have hh : Heads 1 op g w := by simp only [Heads, put]; omega
  have hc : condOf (w / 2 ^ 40 % 8) = some c := by
    rw [show w / 2 ^ 40 % 8 = condCode c by omega]
    exact condOf_condCode c
  have hz : zeroAt w 0 28 = true := zeroAt_of (by omega)
  have hpd : fld w 43 4 = pd := fld_of (by omega)
  have hra : fld w 34 6 = ra := fld_of (by omega)
  have hrb : fld w 28 6 = rb := fld_of (by omega)
  refine reads_s hh ho he ?_
  rw [hd w (hh.opcode ho), withCode_of hc, hh.guard ho, hpd, hra, hrb]
  exact whenZero_of hz rfl

/-- R39: a register and a number of twelve bits. -/
theorem reads_csr {r : BitVec 6} {y : BitVec 12} (k : Guard → BitVec 6 → BitVec 12 → Instr) (ho : op < 256)
    (hd : ∀ w, w / 2 ^ 47 % 256 = op → decodeS w = whenZero (zeroAt w 0 29) (k (guardOf w) (fld w 41 6) (fld w 29 12))) (he : encode (k g r y) = [w])
    (hw : w = head 1 op g + put 41 r + put 29 y) : Reads (k g r y) w := by
  simp only [head, guardBits, put] at hw
  have hh : Heads 1 op g w := by simp only [Heads, put]; omega
  have hz : zeroAt w 0 29 = true := zeroAt_of (by omega)
  have hr : fld w 41 6 = r := fld_of (by omega)
  have hy : fld w 29 12 = y := fld_of (by omega)
  refine reads_s hh ho he ?_
  rw [hd w (hh.opcode ho), hh.guard ho, hr, hy]
  exact whenZero_of hz rfl

/-- R39: a register and a slot of the scratchpad. -/
theorem reads_spill {r : BitVec 6} {y : BitVec 9} (k : Guard → BitVec 6 → BitVec 9 → Instr) (ho : op < 256)
    (hd : ∀ w, w / 2 ^ 47 % 256 = op → decodeS w = whenZero (zeroAt w 0 32) (k (guardOf w) (fld w 41 6) (fld w 32 9))) (he : encode (k g r y) = [w])
    (hw : w = head 1 op g + put 41 r + put 32 y) : Reads (k g r y) w := by
  simp only [head, guardBits, put] at hw
  have hh : Heads 1 op g w := by simp only [Heads, put]; omega
  have hz : zeroAt w 0 32 = true := zeroAt_of (by omega)
  have hr : fld w 41 6 = r := fld_of (by omega)
  have hy : fld w 32 9 = y := fld_of (by omega)
  refine reads_s hh ho he ?_
  rw [hd w (hh.opcode ho), hh.guard ho, hr, hy]
  exact whenZero_of hz rfl

end Sys2Proof.Machine
end

section
/-!
The formats of classes V, M and X (R38, R43, R44, R48 to R50).
-/
namespace Sys2Proof.Machine
set_option Elab.async false
open Sys2Proof

variable {w op : Nat} {g : Guard}

theorem mkindCode_mod (kd : MKind) : mkindCode kd % 2 ^ 8 = 0 := by
  cases kd with
  | ni8 p => simp only [mkindCode, put]; omega
  | bf16 => rfl
  | fp16 => rfl

/-- R43: format MM. -/
theorem reads_mm {tile l : BitVec 1} {sig lag : BitVec 7} {r : MRows} {kd : MKind} (k : Guard → BitVec 1 → BitVec 1 → BitVec 7 → BitVec 7 → MRows → MKind → Instr)
    (ho : op < 256) (hd : ∀ w, w / 2 ^ 47 % 256 = op → decodeM w = mmForm w k)
    (he : encode (k g tile l sig lag r kd) = [w]) (hw : w = encMM op g tile l sig lag r kd) : Reads (k g tile l sig lag r kd) w := by
  have hlt := Laws.EncodedWords.mkindCode_lt kd
  have hdv : mkindCode kd % 2 ^ 8 = 0 := mkindCode_mod kd
  simp only [encMM, rowsBits, head, guardBits, put] at hw
  have hh : Heads 3 op g w := by simp only [Heads, put]; omega
  have ht : oneBit (w / 2 ^ 45 % 4) = some tile := by rw [show w / 2 ^ 45 % 4 = tile.toNat by omega, oneBit_toNat]
  have hl : oneBit (w / 2 ^ 43 % 4) = some l := by rw [show w / 2 ^ 43 % 4 = l.toNat by omega, oneBit_toNat]
  have hk : mkindOf (w / 2 ^ 8 % 4) (w / 2 ^ 10 % 8) = some kd := mkindOf_mkindCode (by omega)
  have hz : zeroAt w 0 8 = true := zeroAt_of (by omega)
  have hsig : fld w 36 7 = sig := fld_of (by omega)
  have hlag : fld w 29 7 = lag := fld_of (by omega)
  have hr : rowsOf w = r := by
    have hrows : fld w 21 8 = r.rows := fld_of (by omega)
    have hoff : fld w 13 8 = r.off := fld_of (by omega)
    rw [rowsOf, hrows, hoff]
  refine reads_m hh ho he ?_
  rw [hd w (hh.opcode ho), mmForm, withCode_of ht, withCode_of hl, withCode_of hk, hh.guard ho, hsig, hlag, hr]
  exact whenZero_of hz rfl

/-- R43: format ML. -/
theorem reads_ml {l : BitVec 1} {sig lag : BitVec 7} {kd : MKind} (k : Guard → BitVec 1 → BitVec 7 → BitVec 7 → MKind → Instr)
    (ho : op < 256) (hd : ∀ w, w / 2 ^ 47 % 256 = op → decodeM w = mlForm w k)
    (he : encode (k g l sig lag kd) = [w]) (hw : w = head 3 op g + put 43 l + put 36 sig + put 29 lag + mkindCode kd) : Reads (k g l sig lag kd) w := by
  have hlt := Laws.EncodedWords.mkindCode_lt kd
  have hdv : mkindCode kd % 2 ^ 8 = 0 := mkindCode_mod kd
  simp only [head, guardBits, put] at hw
  have hh : Heads 3 op g w := by simp only [Heads, put]; omega
  have hl : oneBit (w / 2 ^ 43 % 4) = some l := by rw [show w / 2 ^ 43 % 4 = l.toNat by omega, oneBit_toNat]
  have hk : mkindOf (w / 2 ^ 8 % 4) (w / 2 ^ 10 % 8) = some kd := mkindOf_mkindCode (by omega)
  have hz0 : zeroAt w 45 2 = true := zeroAt_of (by omega)
  have hz1 : zeroAt w 13 16 = true := zeroAt_of (by omega)
  have hz2 : zeroAt w 0 8 = true := zeroAt_of (by omega)
  have hsig : fld w 36 7 = sig := fld_of (by omega)
  have hlag : fld w 29 7 = lag := fld_of (by omega)
  refine reads_m hh ho he ?_
  rw [hd w (hh.opcode ho), mlForm, withCode_of hl, withCode_of hk, hh.guard ho, hsig, hlag]
  exact whenZero_of (and_of (and_of hz0 hz1) hz2) rfl

/-- R43: format MA. -/
theorem reads_ma {mode : Nat} {tile : BitVec 1} {sig lag : BitVec 7} {r : MRows} (k : Guard → BitVec 1 → BitVec 7 → BitVec 7 → MRows → Instr)
    (ho : op < 256) (hm : mode < 4) (hd : ∀ w, w / 2 ^ 47 % 256 = op → w / 2 ^ 11 % 4 = mode → decodeM w = maForm w k)
    (he : encode (k g tile sig lag r) = [w]) (hw : w = encMA op mode g tile sig lag r) : Reads (k g tile sig lag r) w := by
  simp only [encMA, rowsBits, head, guardBits, put] at hw
  have hh : Heads 3 op g w := by simp only [Heads, put]; omega
  have ht : oneBit (w / 2 ^ 45 % 4) = some tile := by rw [show w / 2 ^ 45 % 4 = tile.toNat by omega, oneBit_toNat]
  have hz0 : zeroAt w 43 2 = true := zeroAt_of (by omega)
  have hz1 : zeroAt w 0 11 = true := zeroAt_of (by omega)
  have hsig : fld w 36 7 = sig := fld_of (by omega)
  have hlag : fld w 29 7 = lag := fld_of (by omega)
  have hr : rowsOf w = r := by
    have hrows : fld w 21 8 = r.rows := fld_of (by omega)
    have hoff : fld w 13 8 = r.off := fld_of (by omega)
    rw [rowsOf, hrows, hoff]
  refine reads_m hh ho he ?_
  rw [hd w (hh.opcode ho) (by omega), maForm, withCode_of ht, hh.guard ho, hsig, hlag, hr]
  exact whenZero_of (and_of hz0 hz1) rfl

/-- R241: ASET. -/
theorem reads_mas {mode : Nat} {tile : BitVec 1} {r : MRows} (k : Guard → BitVec 1 → MRows → Instr)
    (ho : op < 256) (hm : mode < 4) (hd : ∀ w, w / 2 ^ 47 % 256 = op → w / 2 ^ 11 % 4 = mode → decodeM w = masForm w k)
    (he : encode (k g tile r) = [w]) (hw : w = head 3 op g + put 45 tile + rowsBits r + mode * 2 ^ 11) : Reads (k g tile r) w := by
  simp only [rowsBits, head, guardBits, put] at hw
  have hh : Heads 3 op g w := by simp only [Heads, put]; omega
  have ht : oneBit (w / 2 ^ 45 % 4) = some tile := by rw [show w / 2 ^ 45 % 4 = tile.toNat by omega, oneBit_toNat]
  have hz0 : zeroAt w 43 2 = true := zeroAt_of (by omega)
  have hz1 : zeroAt w 29 14 = true := zeroAt_of (by omega)
  have hz2 : zeroAt w 0 11 = true := zeroAt_of (by omega)
  have hr : rowsOf w = r := by
    have hrows : fld w 21 8 = r.rows := fld_of (by omega)
    have hoff : fld w 13 8 = r.off := fld_of (by omega)
    rw [rowsOf, hrows, hoff]
  refine reads_m hh ho he ?_
  rw [hd w (hh.opcode ho) (by omega), masForm, withCode_of ht, hh.guard ho, hr]
  exact whenZero_of (and_of (and_of hz0 hz1) hz2) rfl

/-- R43: format MS, bit 12 the mode. -/
theorem reads_ms {upd : Nat} {tile : BitVec 1} {cy : BitVec 2} {r : MRows} (k : Guard → BitVec 1 → BitVec 2 → MRows → Instr)
    (ho : op < 256) (hm : upd < 2) (hd : ∀ w, w / 2 ^ 47 % 256 = op → w / 2 ^ 12 % 2 = upd → decodeM w = msForm w k)
    (he : encode (k g tile cy r) = [w]) (hw : w = head 3 op g + put 45 tile + put 43 cy + rowsBits r + upd * 2 ^ 12) : Reads (k g tile cy r) w := by
  simp only [rowsBits, head, guardBits, put] at hw
  have hh : Heads 3 op g w := by simp only [Heads, put]; omega
  have ht : oneBit (w / 2 ^ 45 % 4) = some tile := by rw [show w / 2 ^ 45 % 4 = tile.toNat by omega, oneBit_toNat]
  have hz0 : zeroAt w 29 14 = true := zeroAt_of (by omega)
  have hz1 : zeroAt w 0 12 = true := zeroAt_of (by omega)
  have hcy : fld w 43 2 = cy := fld_of (by omega)
  have hr : rowsOf w = r := by
    have hrows : fld w 21 8 = r.rows := fld_of (by omega)
    have hoff : fld w 13 8 = r.off := fld_of (by omega)
    rw [rowsOf, hrows, hoff]
  refine reads_m hh ho he ?_
  rw [hd w (hh.opcode ho) (by omega), msForm, withCode_of ht, hh.guard ho, hcy, hr]
  exact whenZero_of (and_of hz0 hz1) rfl

/-- R43: format MY. -/
theorem reads_my {cy : BitVec 2} {sig lag : BitVec 7} (k : Guard → BitVec 2 → BitVec 7 → BitVec 7 → Instr)
    (ho : op < 256) (hd : ∀ w, w / 2 ^ 47 % 256 = op → w / 2 ^ 11 % 4 = 0 → decodeM w = myForm w k)
    (he : encode (k g cy sig lag) = [w]) (hw : w = head 3 op g + put 43 cy + put 36 sig + put 29 lag) : Reads (k g cy sig lag) w := by
  simp only [head, guardBits, put] at hw
  have hh : Heads 3 op g w := by simp only [Heads, put]; omega
  have hz0 : zeroAt w 45 2 = true := zeroAt_of (by omega)
  have hz1 : zeroAt w 13 16 = true := zeroAt_of (by omega)
  have hz2 : zeroAt w 0 11 = true := zeroAt_of (by omega)
  have hcy : fld w 43 2 = cy := fld_of (by omega)
  have hsig : fld w 36 7 = sig := fld_of (by omega)
  have hlag : fld w 29 7 = lag := fld_of (by omega)
  refine reads_m hh ho he ?_
  rw [hd w (hh.opcode ho) (by omega), myForm, hh.guard ho, hcy, hsig, hlag]
  exact whenZero_of (and_of (and_of hz0 hz1) hz2) rfl

/-- R44: format XC. -/
theorem reads_xc {o : XcOps} (k : Guard → XcOps → Instr)
    (ho : op < 256) (hd : ∀ w, w / 2 ^ 47 % 256 = op → decodeX w = Sys2Proof.xcForm w k)
    (he : encode (k g o) = [w]) (hw : w = encXC op g o) : Reads (k g o) w := by
  simp only [encXC, head, guardBits, put] at hw
  have hh : Heads 4 op g w := by simp only [Heads, put]; omega
  have hsig : fld w 40 7 = o.sig := fld_of (by omega)
  have hra : fld w 34 6 = o.ra := fld_of (by omega)
  have hnest : fld w 30 4 = o.nest := fld_of (by omega)
  have hinc : fld w 14 16 = o.inc := fld_of (by omega)
  have hacls : fld w 11 3 = o.acls := fld_of (by omega)
  have htcls : fld w 8 3 = o.tcls := fld_of (by omega)
  have hhan : fld w 4 4 = o.h := fld_of (by omega)
  have hflags : fld w 0 4 = o.flags := fld_of (by omega)
  refine reads_x hh ho he ?_
  rw [hd w (hh.opcode ho), Sys2Proof.xcForm, hh.guard ho, hsig, hra, hnest, hinc, hacls, htcls, hhan, hflags]

/-- R44: format XG. -/
theorem reads_xg {o : XgOps} (k : Guard → XgOps → Instr)
    (ho : op < 256) (hd : ∀ w, w / 2 ^ 47 % 256 = op → decodeX w = Sys2Proof.xgForm w k)
    (he : encode (k g o) = [w]) (hw : w = encXG op g o) : Reads (k g o) w := by
  simp only [encXG, head, guardBits, put] at hw
  have hh : Heads 4 op g w := by simp only [Heads, put]; omega
  have hsig : fld w 40 7 = o.sig := fld_of (by omega)
  have hidx : fld w 33 7 = o.idx := fld_of (by omega)
  have hra : fld w 27 6 = o.ra := fld_of (by omega)
  have hnest : fld w 23 4 = o.nest := fld_of (by omega)
  have hlag : fld w 15 8 = o.lag := fld_of (by omega)
  have hacls : fld w 12 3 = o.acls := fld_of (by omega)
  have htcls : fld w 9 3 = o.tcls := fld_of (by omega)
  have hhan : fld w 5 4 = o.h := fld_of (by omega)
  have hflags : fld w 0 5 = o.flags := fld_of (by omega)
  refine reads_x hh ho he ?_
  rw [hd w (hh.opcode ho), Sys2Proof.xgForm, hh.guard ho, hsig, hidx, hra, hnest, hlag, hacls, htcls, hhan, hflags]

/-- R44: format XH. -/
theorem reads_xh {y : BitVec 4} (k : Guard → BitVec 4 → Instr)
    (ho : op < 256) (hd : ∀ w, w / 2 ^ 47 % 256 = op → decodeX w = xhForm w k)
    (he : encode (k g y) = [w]) (hw : w = head 4 op g + put 43 y) : Reads (k g y) w := by
  simp only [head, guardBits, put] at hw
  have hh : Heads 4 op g w := by simp only [Heads, put]; omega
  have hz : zeroAt w 0 43 = true := zeroAt_of (by omega)
  have hy : fld w 43 4 = y := fld_of (by omega)
  refine reads_x hh ho he ?_
  rw [hd w (hh.opcode ho), xhForm, hh.guard ho, hy]
  exact whenZero_of hz rfl

/-- R44: format XF. -/
theorem reads_xf {sc : Scope} {fk : FenceKind} {m : BitVec 8} (k : Guard → Scope → FenceKind → BitVec 8 → Instr)
    (ho : op < 256) (hd : ∀ w, w / 2 ^ 47 % 256 = op → decodeX w = xfForm w k)
    (he : encode (k g sc fk m) = [w]) (hw : w = encXF op g sc fk m) : Reads (k g sc fk m) w := by
  have hsl := Laws.EncodedWords.scopeCode_lt sc
  have hfl := Laws.EncodedWords.fenceKindCode_lt fk
  simp only [encXF, head, guardBits, put] at hw
  have hh : Heads 4 op g w := by simp only [Heads, put]; omega
  have hsc : Scope.ofCode (w / 2 ^ 44 % 8) = some sc := by
    rw [show w / 2 ^ 44 % 8 = scopeCode sc by omega, scopeOf_scopeCode]
  have hfk : fenceKindOf (w / 2 ^ 42 % 4) = some fk := by
    rw [show w / 2 ^ 42 % 4 = fenceKindCode fk by omega, fenceKindOf_fenceKindCode]
  have hz : zeroAt w 0 34 = true := zeroAt_of (by omega)
  have hm : fld w 34 8 = m := fld_of (by omega)
  refine reads_x hh ho he ?_
  rw [hd w (hh.opcode ho), xfForm, withCode_of hsc, withCode_of hfk, hh.guard ho, hm]
  exact whenZero_of hz rfl

/-- R44: formats XN and XL. -/
theorem reads_xn {sig : BitVec 7} {ra : BitVec 6} {y : BitVec 4} (k : Guard → BitVec 7 → BitVec 6 → BitVec 4 → Instr)
    (ho : op < 256) (hd : ∀ w, w / 2 ^ 47 % 256 = op → decodeX w = xnForm w k)
    (he : encode (k g sig ra y) = [w]) (hw : w = encXN op g sig ra y) : Reads (k g sig ra y) w := by
  simp only [encXN, head, guardBits, put] at hw
  have hh : Heads 4 op g w := by simp only [Heads, put]; omega
  have hz0 : zeroAt w 8 26 = true := zeroAt_of (by omega)
  have hz1 : zeroAt w 0 4 = true := zeroAt_of (by omega)
  have hsig : fld w 40 7 = sig := fld_of (by omega)
  have hra : fld w 34 6 = ra := fld_of (by omega)
  have hy : fld w 4 4 = y := fld_of (by omega)
  refine reads_x hh ho he ?_
  rw [hd w (hh.opcode ho), xnForm, hh.guard ho, hsig, hra, hy]
  exact whenZero_of (and_of hz0 hz1) rfl

/-- R44, R349: format XK without a signal, bit 24 its flag. -/
theorem reads_xk {flag : Nat} {ra rd : BitVec 6} (k : Guard → BitVec 6 → BitVec 6 → Instr)
    (ho : op < 256) (hf : flag < 2) (hd : ∀ w, w / 2 ^ 47 % 256 = op → w / 2 ^ 24 % 2 = flag → decodeX w = xkForm w k)
    (he : encode (k g ra rd) = [w]) (hw : w = encXK op flag 0 g ra rd) : Reads (k g ra rd) w := by
  simp only [encXK, head, guardBits, put] at hw
  have hh : Heads 4 op g w := by simp only [Heads, put]; omega
  have hflags : zeroAt w 25 3 = true := zeroAt_of (by omega)
  have hz0 : zeroAt w 40 7 = true := zeroAt_of (by omega)
  have hz1 : zeroAt w 0 24 = true := zeroAt_of (by omega)
  have hra : fld w 34 6 = ra := fld_of (by omega)
  have hrd : fld w 28 6 = rd := fld_of (by omega)
  refine reads_x hh ho he ?_
  rw [hd w (hh.opcode ho) (by omega), xkForm, if_pos hflags, hh.guard ho, hra, hrd]
  exact whenZero_of (and_of hz0 hz1) rfl

/-- R44, R349: format XK with a signal. -/
theorem reads_xks {flag : Nat} {sig : BitVec 7} {ra rd : BitVec 6} (k : Guard → BitVec 7 → BitVec 6 → BitVec 6 → Instr)
    (ho : op < 256) (hf : flag < 2) (hd : ∀ w, w / 2 ^ 47 % 256 = op → w / 2 ^ 24 % 2 = flag → decodeX w = xksForm w k)
    (he : encode (k g sig ra rd) = [w]) (hw : w = encXK op flag sig.toNat g ra rd) : Reads (k g sig ra rd) w := by
  simp only [encXK, head, guardBits, put] at hw
  have hh : Heads 4 op g w := by simp only [Heads, put]; omega
  have hflags : zeroAt w 25 3 = true := zeroAt_of (by omega)
  have hz : zeroAt w 0 24 = true := zeroAt_of (by omega)
  have hsig : fld w 40 7 = sig := fld_of (by omega)
  have hra : fld w 34 6 = ra := fld_of (by omega)
  have hrd : fld w 28 6 = rd := fld_of (by omega)
  refine reads_x hh ho he ?_
  rw [hd w (hh.opcode ho) (by omega), xksForm, if_pos hflags, hh.guard ho, hsig, hra, hrd]
  exact whenZero_of hz rfl

/-! Class V: what a word of format V3 holds. -/

/-- The fields of a vector word (R38). -/
structure VWord (op : Nat) (g : Guard) (t : VTy) (d a : VOp) (b rm w : Nat) : Prop where
  heads : Heads 2 (vtyCode t * 64 + op) g w
  opcode : w / 2 ^ 47 % 64 = op
  guard : guardOf w = g
  type : vtyOf (w / 2 ^ 53 % 4) = t
  dest : vopOf (w / 2 ^ 32 % 2 ^ 15) = some d
  first : vopOf (w / 2 ^ 17 % 2 ^ 15) = some a
  second : w / 4 % 2 ^ 15 = b
  round : w % 4 = rm

theorem vword {t : VTy} {d a : VOp} {b rm : Nat} (ho : op < 64) (hb : b < 2 ^ 15) (hrm : rm < 4)
    (hw : w = encV op g t d a b rm) : VWord op g t d a b rm w := by
  have ht := Laws.EncodedWords.vtyCode_lt t
  have hd := Laws.EncodedWords.vopCode_lt d
  have ha := Laws.EncodedWords.vopCode_lt a
  simp only [encV, head, guardBits, put] at hw
  have hh : Heads 2 (vtyCode t * 64 + op) g w := by simp only [Heads, put]; omega
  refine ⟨hh, by omega, hh.guard (by omega), ?_, ?_, ?_, by omega, by omega⟩
  · rw [show w / 2 ^ 53 % 4 = vtyCode t by omega, vtyOf_vtyCode]
  · rw [show w / 2 ^ 32 % 2 ^ 15 = vopCode d by omega, vopOf_vopCode]
  · rw [show w / 2 ^ 17 % 2 ^ 15 = vopCode a by omega, vopOf_vopCode]

theorem VWord.second_operand {t : VTy} {d a b : VOp} {rm : Nat} (h : VWord op g t d a (vopCode b) rm w) :
    vopOf (w / 4 % 2 ^ 15) = some b := by rw [h.second, vopOf_vopCode]

theorem VWord.round_field {t : VTy} {d a : VOp} {b : Nat} {rm : BitVec 2} (h : VWord op g t d a b rm.toNat w) : fld w 0 2 = rm :=
  fld_of (by have := h.round; omega)

theorem VWord.round_zero {t : VTy} {d a : VOp} {b : Nat} (h : VWord op g t d a b 0 w) : zeroAt w 0 2 = true :=
  zeroAt_of (by have := h.round; omega)

theorem VWord.reads {i : Instr} {t : VTy} {d a : VOp} {b rm : Nat} (h : VWord op g t d a b rm w) (ho : op < 64)
    (he : encode i = [w]) (hd : decodeV w = .ok i) : Reads i w :=
  have ht := Laws.EncodedWords.vtyCode_lt t
  reads_v h.heads (by omega) he hd

/-- R38: three operands and a rounding field. -/
theorem reads_v3m {t : VTy} {d a b : VOp} {rm : BitVec 2} (k : Guard → VTy → VOp → VOp → VOp → BitVec 2 → Instr) (ho : op < 64)
    (hd : ∀ w, w / 2 ^ 47 % 64 = op → decodeV w = v3m w (k (guardOf w) (vtyOf (w / 2 ^ 53 % 4))))
    (he : encode (k g t d a b rm) = [w]) (hw : w = encV3m op g t d a b rm) : Reads (k g t d a b rm) w := by
  have h := vword ho (Laws.EncodedWords.vopCode_lt b) rm.isLt hw
  refine h.reads ho he ?_
  rw [hd w h.opcode, v3m, withCode_of h.dest, withCode_of h.first, withCode_of h.second_operand, h.guard, h.type, h.round_field]

/-- R48: three operands. -/
theorem reads_v3 {t : VTy} {d a b : VOp} (k : Guard → VTy → VOp → VOp → VOp → Instr) (ho : op < 64)
    (hd : ∀ w, w / 2 ^ 47 % 64 = op → decodeV w = v3 w (k (guardOf w) (vtyOf (w / 2 ^ 53 % 4))))
    (he : encode (k g t d a b) = [w]) (hw : w = encV3 op g t d a b) : Reads (k g t d a b) w := by
  have h := vword ho (Laws.EncodedWords.vopCode_lt b) (by decide) hw
  refine h.reads ho he ?_
  rw [hd w h.opcode, v3, withCode_of h.dest, withCode_of h.first, withCode_of h.second_operand, h.guard, h.type]
  exact whenZero_of h.round_zero rfl

/-- R48: two operands and a rounding field. -/
theorem reads_v2m {t : VTy} {d a : VOp} {rm : BitVec 2} (k : Guard → VTy → VOp → VOp → BitVec 2 → Instr) (ho : op < 64)
    (hd : ∀ w, w / 2 ^ 47 % 64 = op → decodeV w = v2m w (k (guardOf w) (vtyOf (w / 2 ^ 53 % 4))))
    (he : encode (k g t d a rm) = [w]) (hw : w = encV2m op g t d a rm) : Reads (k g t d a rm) w := by
  have h := vword ho (by decide) rm.isLt hw
  refine h.reads ho he ?_
  rw [hd w h.opcode, v2m, withCode_of h.dest, withCode_of h.first, h.guard, h.type, h.round_field]
  exact whenZero_of (zeroAt_of (by have := h.second; omega)) rfl

/-- R48: two operands. -/
theorem reads_v2 {t : VTy} {d a : VOp} (k : Guard → VTy → VOp → VOp → Instr) (ho : op < 64)
    (hd : ∀ w, w / 2 ^ 47 % 64 = op → decodeV w = v2 w (k (guardOf w) (vtyOf (w / 2 ^ 53 % 4))))
    (he : encode (k g t d a) = [w]) (hw : w = encV2 op g t d a) : Reads (k g t d a) w := by
  have h := vword ho (by decide) (by decide) hw
  refine h.reads ho he ?_
  rw [hd w h.opcode, v2, withCode_of h.dest, withCode_of h.first, h.guard, h.type]
  exact whenZero_of (zeroAt_of (by have := h.second; have := h.round; omega)) rfl

/-- R207: the bitwise operations are INT32. -/
theorem reads_vint {d a b : VOp} (k : Guard → VOp → VOp → VOp → Instr) (ho : op < 64)
    (hd : ∀ w, w / 2 ^ 47 % 64 = op → decodeV w = intOnly (vtyOf (w / 2 ^ 53 % 4)) (v3 w (k (guardOf w))))
    (he : encode (k g d a b) = [w]) (hw : w = encV3 op g .int32 d a b) : Reads (k g d a b) w := by
  have h := vword ho (Laws.EncodedWords.vopCode_lt b) (by decide) hw
  refine h.reads ho he ?_
  rw [hd w h.opcode, h.type, intOnly, if_pos rfl, v3, withCode_of h.dest, withCode_of h.first, withCode_of h.second_operand, h.guard]
  exact whenZero_of h.round_zero rfl

/-- R48: VCVT names its source type as an immediate. -/
theorem reads_vcvt {t src : VTy} {d a : VOp} {rm : BitVec 2} : Reads (.vcvt g t d a src rm) (encV 0x16 g t d a (8192 + vtyCode src) rm.toNat) := by
  have hs := Laws.EncodedWords.vtyCode_lt src
  obtain ⟨w, hw⟩ : ∃ w, w = encV 0x16 g t d a (8192 + vtyCode src) rm.toNat := ⟨_, rfl⟩
  have h := vword (by decide) (by omega) rm.isLt hw
  rw [← hw]
  refine h.reads (by decide) (by rw [hw]; rfl) ?_
  have himm : w / 16 % 2 ^ 13 = 2048 := by have := h.second; omega
  have hsrc : vtyOf (w / 4 % 4) = src := by
    rw [show w / 4 % 4 = vtyCode src by have := h.second; omega, vtyOf_vtyCode]
  simp only [decodeV, h.opcode, vcvtForm, withCode_of h.dest, withCode_of h.first, if_pos himm, hsrc, h.guard, h.type, h.round_field]

end Sys2Proof.Machine
end

section
/-!
The instructions that have a format of their own, and BRM with its extension syllable (R41, R42).
-/
namespace Sys2Proof.Machine
set_option Elab.async false
open Sys2Proof

variable {w op : Nat} {g : Guard}

/-- R41: LOOP. -/
theorem reads_loop {n l : BitVec 16} (hw : w = encC 0x08 g (put 31 n + put 15 l)) : Reads (.loop g n l) w := by
  have he : encode (.loop g n l) = [w] := by rw [hw]; rfl
  simp only [encC, head, guardBits, put] at hw
  have hh : Heads 0 0x08 g w := by simp only [Heads, put]; omega
  have hz : zeroAt w 0 15 = true := zeroAt_of (by omega)
  have hn : fld w 31 16 = n := fld_of (by omega)
  have hl : fld w 15 16 = l := fld_of (by omega)
  refine reads_c hh (by decide) (by decide) he ?_
  simp only [decodeC, hh.opcode (by decide), hh.guard (by decide), hn, hl, hz, whenZero, if_true]

/-- R41: LOOPR. -/
theorem reads_loopr {ra : BitVec 6} {l : BitVec 16} (hw : w = encC 0x09 g (put 41 ra + put 15 l)) : Reads (.loopr g ra l) w := by
  have he : encode (.loopr g ra l) = [w] := by rw [hw]; rfl
  simp only [encC, head, guardBits, put] at hw
  have hh : Heads 0 0x09 g w := by simp only [Heads, put]; omega
  have hz0 : zeroAt w 31 10 = true := zeroAt_of (by omega)
  have hz1 : zeroAt w 0 15 = true := zeroAt_of (by omega)
  have hra : fld w 41 6 = ra := fld_of (by omega)
  have hl : fld w 15 16 = l := fld_of (by omega)
  refine reads_c hh (by decide) (by decide) he ?_
  simp only [decodeC, hh.opcode (by decide), hh.guard (by decide), hra, hl, hz0, hz1, Bool.and_true, whenZero, if_true]

/-- R41: TICK. -/
theorem reads_tick {n : BitVec 8} (hw : w = encC 0x10 g (put 39 n)) : Reads (.tick g n) w := by
  have he : encode (.tick g n) = [w] := by rw [hw]; rfl
  simp only [encC, head, guardBits, put] at hw
  have hh : Heads 0 0x10 g w := by simp only [Heads, put]; omega
  have hz : zeroAt w 0 39 = true := zeroAt_of (by omega)
  have hn : fld w 39 8 = n := fld_of (by omega)
  refine reads_c hh (by decide) (by decide) he ?_
  simp only [decodeC, hh.opcode (by decide), hh.guard (by decide), hn, hz, whenZero, if_true]

/-- R41: ADV. -/
theorem reads_adv {sig : BitVec 7} {n : BitVec 8} (hw : w = encC 0x11 g (put 40 sig + put 32 n)) : Reads (.adv g sig n) w := by
  have he : encode (.adv g sig n) = [w] := by rw [hw]; rfl
  simp only [encC, head, guardBits, put] at hw
  have hh : Heads 0 0x11 g w := by simp only [Heads, put]; omega
  have hz : zeroAt w 0 32 = true := zeroAt_of (by omega)
  have hsig : fld w 40 7 = sig := fld_of (by omega)
  have hn : fld w 32 8 = n := fld_of (by omega)
  refine reads_c hh (by decide) (by decide) he ?_
  simp only [decodeC, hh.opcode (by decide), hh.guard (by decide), hsig, hn, hz, whenZero, if_true]

/-- R41: TOPUP. -/
theorem reads_topup {ra : BitVec 6} {t : Bool} (hw : w = encC 0x1C g (put 41 ra + bit t * 2 ^ 40)) : Reads (.topup g ra t) w := by
  have he : encode (.topup g ra t) = [w] := by rw [hw]; rfl
  have hlt := Laws.EncodedWords.bit_le t
  simp only [encC, head, guardBits, put] at hw
  have hh : Heads 0 0x1C g w := by simp only [Heads, put]; omega
  have ht : (w / 2 ^ 40 % 2 == 1) = t := bit_of_mod (by omega)
  have hz : zeroAt w 0 40 = true := zeroAt_of (by omega)
  have hra : fld w 41 6 = ra := fld_of (by omega)
  refine reads_c hh (by decide) (by decide) he ?_
  simp only [decodeC, hh.opcode (by decide), hh.guard (by decide), ht, hra, hz, whenZero, if_true]

/-- R41: SIGEV. -/
theorem reads_sigev {sc : Scope} {t : BitVec 6} {e : BitVec 4} (hw : w = encC 0x21 g (scopeCode sc * 2 ^ 44 + put 38 t + put 34 e)) : Reads (.sigev g sc t e) w := by
  have he : encode (.sigev g sc t e) = [w] := by rw [hw]; rfl
  have hlt := Laws.EncodedWords.scopeCode_lt sc
  simp only [encC, head, guardBits, put] at hw
  have hh : Heads 0 0x21 g w := by simp only [Heads, put]; omega
  have hsc : Scope.ofCode (w / 2 ^ 44 % 8) = some sc := by
    rw [show w / 2 ^ 44 % 8 = scopeCode sc by omega, scopeOf_scopeCode]
  have hz : zeroAt w 0 34 = true := zeroAt_of (by omega)
  have ht : fld w 38 6 = t := fld_of (by omega)
  have hev : fld w 34 4 = e := fld_of (by omega)
  refine reads_c hh (by decide) (by decide) he ?_
  simp only [decodeC, hh.opcode (by decide), hh.guard (by decide), withCode_of hsc, ht, hev, hz, whenZero, if_true]

/-- R41: BAR. -/
theorem reads_bar {sc : Scope} {y : BitVec 6} (hw : w = encC 0x28 g (scopeCode sc * 2 ^ 44 + put 38 y)) : Reads (.bar g sc y) w := by
  have he : encode (.bar g sc y) = [w] := by rw [hw]; rfl
  have hlt := Laws.EncodedWords.scopeCode_lt sc
  simp only [encC, head, guardBits, put] at hw
  have hh : Heads 0 0x28 g w := by simp only [Heads, put]; omega
  have hsc : Scope.ofCode (w / 2 ^ 44 % 8) = some sc := by
    rw [show w / 2 ^ 44 % 8 = scopeCode sc by omega, scopeOf_scopeCode]
  have hz : zeroAt w 0 38 = true := zeroAt_of (by omega)
  have hy : fld w 38 6 = y := fld_of (by omega)
  refine reads_c hh (by decide) (by decide) he ?_
  simp only [decodeC, hh.opcode (by decide), hh.guard (by decide), withCode_of hsc, hy, hz, whenZero, if_true]

/-- R41: FUSE. -/
theorem reads_fuse {y : BitVec 3} (hw : w = encC 0x30 g (put 44 y)) : Reads (.fuse g y) w := by
  have he : encode (.fuse g y) = [w] := by rw [hw]; rfl
  simp only [encC, head, guardBits, put] at hw
  have hh : Heads 0 0x30 g w := by simp only [Heads, put]; omega
  have hz : zeroAt w 0 44 = true := zeroAt_of (by omega)
  have hy : fld w 44 3 = y := fld_of (by omega)
  refine reads_c hh (by decide) (by decide) he ?_
  simp only [decodeC, hh.opcode (by decide), hh.guard (by decide), hy, hz, whenZero, if_true]

/-- R39: SEL. -/
theorem reads_sel {rd ra rb : BitVec 6} {p : BitVec 4} (hw : w = encSR 0x15 g rd ra rb + put 25 p) : Reads (.sel g rd ra rb p) w := by
  have he : encode (.sel g rd ra rb p) = [w] := by rw [hw]; rfl
  simp only [encSR, head, guardBits, put] at hw
  have hh : Heads 1 0x15 g w := by simp only [Heads, put]; omega
  have hz : zeroAt w 0 25 = true := zeroAt_of (by omega)
  have hrd : fld w 41 6 = rd := fld_of (by omega)
  have hra : fld w 35 6 = ra := fld_of (by omega)
  have hrb : fld w 29 6 = rb := fld_of (by omega)
  have hp : fld w 25 4 = p := fld_of (by omega)
  refine reads_s hh (by decide) he ?_
  simp only [decodeS, hh.opcode (by decide), hh.guard (by decide), hrd, hra, hrb, hp, hz, whenZero, if_true]

/-- R39: MOVI. -/
theorem reads_movi {rd : BitVec 6} {y : BitVec 35} (hw : w = encSI 0x27 g rd 0 y.toNat) : Reads (.movi g rd y) w := by
  have he : encode (.movi g rd y) = [w] := by rw [hw]; rfl
  have h0 : (0 : BitVec 6).toNat = 0 := rfl
  simp only [encSI, h0, head, guardBits, put] at hw
  have hh : Heads 1 0x27 g w := by simp only [Heads, put]; omega
  have hz : zeroAt w 35 6 = true := zeroAt_of (by omega)
  have hrd : fld w 41 6 = rd := fld_of (by omega)
  have hy : fld w 0 35 = y := fld_of (by omega)
  refine reads_s hh (by decide) he ?_
  simp only [decodeS, hh.opcode (by decide), hh.guard (by decide), hrd, hy, hz, whenZero, if_true]

/-- R39: MOVHI. -/
theorem reads_movhi {rd ra : BitVec 6} {y : BitVec 32} (hw : w = encSI 0x28 g rd ra y.toNat) : Reads (.movhi g rd ra y) w := by
  have he : encode (.movhi g rd ra y) = [w] := by rw [hw]; rfl
  simp only [encSI, head, guardBits, put] at hw
  have hh : Heads 1 0x28 g w := by simp only [Heads, put]; omega
  have hz : zeroAt w 32 3 = true := zeroAt_of (by omega)
  have hrd : fld w 41 6 = rd := fld_of (by omega)
  have hra : fld w 35 6 = ra := fld_of (by omega)
  have hy : fld w 0 32 = y := fld_of (by omega)
  refine reads_s hh (by decide) he ?_
  simp only [decodeS, hh.opcode (by decide), hh.guard (by decide), hrd, hra, hy, hz, whenZero, if_true]

/-- R39: CMPI. -/
theorem reads_cmpi {pd : BitVec 4} {c : Cond} {ra : BitVec 6} {y : BitVec 34} (hw : w = encSP 0x31 g pd c ra y.toNat) : Reads (.cmpi g pd c ra y) w := by
  have he : encode (.cmpi g pd c ra y) = [w] := by rw [hw]; rfl
  have hlt := Laws.EncodedWords.condCode_lt c
  simp only [encSP, head, guardBits, put] at hw
  have hh : Heads 1 0x31 g w := by simp only [Heads, put]; omega
  have hc : condOf (w / 2 ^ 40 % 8) = some c := by
    rw [show w / 2 ^ 40 % 8 = condCode c by omega, condOf_condCode]
  have hpd : fld w 43 4 = pd := fld_of (by omega)
  have hra : fld w 34 6 = ra := fld_of (by omega)
  have hy : fld w 0 34 = y := fld_of (by omega)
  refine reads_s hh (by decide) he ?_
  simp only [decodeS, hh.opcode (by decide), hh.guard (by decide), withCode_of hc, hpd, hra, hy]

/-- R39: PSET. -/
theorem reads_pset {pd : BitVec 4} {ra : BitVec 6} (hw : w = head 1 0x3C g + put 43 pd + put 34 ra) : Reads (.pset g pd ra) w := by
  have he : encode (.pset g pd ra) = [w] := by rw [hw]; rfl
  simp only [head, guardBits, put] at hw
  have hh : Heads 1 0x3C g w := by simp only [Heads, put]; omega
  have hz0 : zeroAt w 40 3 = true := zeroAt_of (by omega)
  have hz1 : zeroAt w 0 34 = true := zeroAt_of (by omega)
  have hpd : fld w 43 4 = pd := fld_of (by omega)
  have hra : fld w 34 6 = ra := fld_of (by omega)
  refine reads_s hh (by decide) he ?_
  simp only [decodeS, hh.opcode (by decide), hh.guard (by decide), hpd, hra, hz0, hz1, Bool.and_true, whenZero, if_true]

/-- R39: LIDX. -/
theorem reads_lidx {rd : BitVec 6} {l : BitVec 3} (hw : w = head 1 0x44 g + put 41 rd + put 23 l) : Reads (.lidx g rd l) w := by
  have he : encode (.lidx g rd l) = [w] := by rw [hw]; rfl
  simp only [head, guardBits, put] at hw
  have hh : Heads 1 0x44 g w := by simp only [Heads, put]; omega
  have hz0 : zeroAt w 26 15 = true := zeroAt_of (by omega)
  have hz1 : zeroAt w 0 23 = true := zeroAt_of (by omega)
  have hrd : fld w 41 6 = rd := fld_of (by omega)
  have hl : fld w 23 3 = l := fld_of (by omega)
  refine reads_s hh (by decide) he ?_
  simp only [decodeS, hh.opcode (by decide), hh.guard (by decide), hrd, hl, hz0, hz1, Bool.and_true, whenZero, if_true]

/-- R39: SIGCLR. -/
theorem reads_sigclr {sig : BitVec 7} (hw : w = encSG 0x62 g 0 sig 0) : Reads (.sigclr g sig) w := by
  have he : encode (.sigclr g sig) = [w] := by rw [hw]; rfl
  have h0 : (0 : BitVec 6).toNat = 0 := rfl
  simp only [encSG, h0, head, guardBits, put] at hw
  have hh : Heads 1 0x62 g w := by simp only [Heads, put]; omega
  have hz0 : zeroAt w 41 6 = true := zeroAt_of (by omega)
  have hz1 : zeroAt w 0 34 = true := zeroAt_of (by omega)
  have hsig : fld w 34 7 = sig := fld_of (by omega)
  refine reads_s hh (by decide) he ?_
  simp only [decodeS, hh.opcode (by decide), hh.guard (by decide), hsig, hz0, hz1, Bool.and_true, whenZero, if_true]

/-- R39: FILLMK. -/
theorem reads_fillmk {sig : BitVec 7} {l : BitVec 8} (hw : w = encSG 0x63 g 0 sig (put 26 l)) : Reads (.fillmk g sig l) w := by
  have he : encode (.fillmk g sig l) = [w] := by rw [hw]; rfl
  have h0 : (0 : BitVec 6).toNat = 0 := rfl
  simp only [encSG, h0, head, guardBits, put] at hw
  have hh : Heads 1 0x63 g w := by simp only [Heads, put]; omega
  have hz0 : zeroAt w 41 6 = true := zeroAt_of (by omega)
  have hz1 : zeroAt w 0 26 = true := zeroAt_of (by omega)
  have hsig : fld w 34 7 = sig := fld_of (by omega)
  have hl : fld w 26 8 = l := fld_of (by omega)
  refine reads_s hh (by decide) he ?_
  simp only [decodeS, hh.opcode (by decide), hh.guard (by decide), hsig, hl, hz0, hz1, Bool.and_true, whenZero, if_true]

/-- R241: CYSET of the identity. -/
theorem reads_cysetId {cy : BitVec 2} (hw : w = head 3 0x09 g + put 43 cy + 2 ^ 11) : Reads (.cysetId g cy) w := by
  have he : encode (.cysetId g cy) = [w] := by rw [hw]; rfl
  simp only [head, guardBits, put] at hw
  have hh : Heads 3 0x09 g w := by simp only [Heads, put]; omega
  have hmode : w / 2 ^ 11 % 4 = 1 := by omega
  have hz0 : zeroAt w 45 2 = true := zeroAt_of (by omega)
  have hz1 : zeroAt w 13 30 = true := zeroAt_of (by omega)
  have hz2 : zeroAt w 0 11 = true := zeroAt_of (by omega)
  have hcy : fld w 43 2 = cy := fld_of (by omega)
  refine reads_m hh (by decide) he ?_
  simp only [decodeM, hh.opcode (by decide), hh.guard (by decide), hmode, Nat.one_ne_zero, if_false, hcy, hz0, hz1, hz2, Bool.and_true, whenZero, if_true]

/-- R44: SCACC. -/
theorem reads_scacc {o : XsOps} (hw : w = head 4 0x06 g + put 40 o.tbl + put 33 o.idx + put 26 o.val + put 23 o.op + put 18 o.w + put 14 o.h) : Reads (.scacc g o) w := by
  have he : encode (.scacc g o) = [w] := by rw [hw]; rfl
  simp only [head, guardBits, put] at hw
  have hh : Heads 4 0x06 g w := by simp only [Heads, put]; omega
  have hz : zeroAt w 0 14 = true := zeroAt_of (by omega)
  have htbl : fld w 40 7 = o.tbl := fld_of (by omega)
  have hidx : fld w 33 7 = o.idx := fld_of (by omega)
  have hval : fld w 26 7 = o.val := fld_of (by omega)
  have hopr : fld w 23 3 = o.op := fld_of (by omega)
  have hwid : fld w 18 5 = o.w := fld_of (by omega)
  have hhan : fld w 14 4 = o.h := fld_of (by omega)
  refine reads_x hh (by decide) he ?_
  simp only [decodeX, hh.opcode (by decide), hh.guard (by decide), htbl, hidx, hval, hopr, hwid, hhan, hz, whenZero, if_true]

/-- R44: DSET. -/
theorem reads_dset {d f : BitVec 4} {ra : BitVec 6} (hw : w = head 4 0x09 g + put 43 d + put 39 f + put 33 ra) : Reads (.dset g d f ra) w := by
  have he : encode (.dset g d f ra) = [w] := by rw [hw]; rfl
  simp only [head, guardBits, put] at hw
  have hh : Heads 4 0x09 g w := by simp only [Heads, put]; omega
  have hz : zeroAt w 0 33 = true := zeroAt_of (by omega)
  have hdes : fld w 43 4 = d := fld_of (by omega)
  have hf : fld w 39 4 = f := fld_of (by omega)
  have hra : fld w 33 6 = ra := fld_of (by omega)
  refine reads_x hh (by decide) he ?_
  simp only [decodeX, hh.opcode (by decide), hh.guard (by decide), hdes, hf, hra, hz, whenZero, if_true]

/-! BRM (R34, R42). -/

theorem brmTest_testBits (t : BrmTest) : brmTest (testBits t) t.disp.toNat = t := by
  have hneg : (testBits t / 16 % 2 == 1) = t.neg := bit_of_mod (by
    have := Laws.EncodedWords.bit_le t.neg
    simp only [testBits]
    omega)
  have hpred : BitVec.ofNat 4 (testBits t) = t.pred := BitVec.eq_of_toNat_eq (by
    simp only [testBits, BitVec.toNat_ofNat]
    omega)
  rw [brmTest, hneg, hpred, BitVec.ofNat_toNat, BitVec.setWidth_eq]

theorem testBits_lt (t : BrmTest) : testBits t < 32 := by
  have := Laws.EncodedWords.bit_le t.neg
  simp only [testBits]
  omega

/-- One test of a BRM, where its bits and its displacement stand. -/
theorem brmTest_of {t : BrmTest} {x d : Nat} (hx : x = testBits t) (hd : d = t.disp.toNat) : brmTest x d = t := by
  rw [hx, hd, brmTest_testBits]

theorem isBrm_of (h : Heads 0 2 .always w) : isBrm w = true := by
  rw [isBrm, h.classOf_eq (by decide) (by decide), h.opcode (by decide)]
  rfl

/-- The guard of a BRM is none. -/
theorem always_guard (h : Heads 0 2 .always w) : (guardOf w != Guard.always) = false := by
  rw [h.guard (by decide)]
  rfl

/-- A BRM of one test stands alone. -/
theorem decode_brm_one (hh : Heads 0 2 .always w) (hn : w / 2 ^ 25 % 4 = 0) {ts : List BrmTest} (hl : (Instr.brm ts).wf = true)
    (hd : decodeBrm w 0 = .ok (.brm ts)) : decode [w] = .ok (.brm ts) := by
  simp only [decode, decodeSyllable, isBrm_of hh, hn, bne_self_eq_false, Bool.and_false, Bool.false_eq_true, if_false, decodeFields,
    hh.classOf_eq (by decide) (by decide), hh.opcode (by decide), if_true, hd, withLimits, hl]

/-- A BRM of more has its extension syllable. -/
theorem decode_brm_pair {e : Nat} (hh : Heads 0 2 .always w) (hn : w / 2 ^ 25 % 4 ≠ 0) (he : classOf e = 5) {ts : List BrmTest}
    (hl : (Instr.brm ts).wf = true) (hd : decodeBrm w e = .ok (.brm ts)) : decode [w, e] = .ok (.brm ts) := by
  have hcond : (isBrm w && classOf e == 5 && w / 2 ^ 25 % 4 != 0) = true := and_of (and_of (isBrm_of hh) (by rw [he]; rfl)) (bne_iff_ne.mpr hn)
  simp only [decode, decodeBrmPair, hcond, if_true, hd, withLimits, hl]

theorem decode_encBrm_one (t0 : BrmTest) : decode (encBrm [t0]) = .ok (.brm [t0]) := by
  have ht0 := testBits_lt t0
  rw [encBrm]
  obtain ⟨w, hw⟩ : ∃ w, w = head 0 2 .always + testBits t0 * 2 ^ 42 + put 9 t0.disp := ⟨_, rfl⟩
  rw [← hw]
  simp only [head, guardBits, put] at hw
  have hh : Heads 0 2 .always w := by simp only [Heads, put]; omega
  have hn : w / 2 ^ 25 % 4 = 0 := by omega
  have hb0 : brmTest (w / 2 ^ 42 % 32) (w / 2 ^ 9 % 2 ^ 16) = t0 := brmTest_of (by omega) (by omega)
  have hz : zeroAt w 0 9 = true := zeroAt_of (by omega)
  have hrest : zeroAt w 27 15 = true := zeroAt_of (by omega)
  have hext : zeroAt 0 0 12 = true := rfl
  refine decode_brm_one hh hn rfl ?_
  simp only [decodeBrm, always_guard hh, Bool.false_eq_true, if_false, hn, hb0, hz, hext, hrest, Bool.and_true, whenZero, if_true]

theorem decode_encBrm_two (t0 t1 : BrmTest) : decode (encBrm [t0, t1]) = .ok (.brm [t0, t1]) := by
  have ht0 := testBits_lt t0
  have ht1 := testBits_lt t1
  rw [encBrm]
  obtain ⟨w, hw⟩ : ∃ w, w = head 0 2 .always + testBits t0 * 2 ^ 42 + testBits t1 * 2 ^ 37 + 1 * 2 ^ 25 + put 9 t0.disp := ⟨_, rfl⟩
  obtain ⟨e, he⟩ : ∃ e, e = 5 * 2 ^ 60 + put 44 t1.disp := ⟨_, rfl⟩
  rw [← hw, ← he]
  simp only [head, guardBits, put] at hw
  simp only [put] at he
  have hh : Heads 0 2 .always w := by simp only [Heads, put]; omega
  have hn : w / 2 ^ 25 % 4 = 1 := by omega
  have hb0 : brmTest (w / 2 ^ 42 % 32) (w / 2 ^ 9 % 2 ^ 16) = t0 := brmTest_of (by omega) (by omega)
  have hb1 : brmTest (w / 2 ^ 37 % 32) (e / 2 ^ 44 % 2 ^ 16) = t1 := brmTest_of (by omega) (by omega)
  have hz : zeroAt w 0 9 = true := zeroAt_of (by omega)
  have hext : zeroAt e 0 12 = true := zeroAt_of (by omega)
  have hrest : zeroAt w 27 10 = true := zeroAt_of (by omega)
  have hunused : zeroAt e 12 32 = true := zeroAt_of (by omega)
  refine decode_brm_pair hh (by omega) (by simp only [classOf]; omega) rfl ?_
  simp only [decodeBrm, always_guard hh, Bool.false_eq_true, if_false, hn, hb0, hb1, hz, hext, hrest, hunused, Bool.and_true, whenZero, if_true]

theorem decode_encBrm_three (t0 t1 t2 : BrmTest) : decode (encBrm [t0, t1, t2]) = .ok (.brm [t0, t1, t2]) := by
  have ht0 := testBits_lt t0
  have ht1 := testBits_lt t1
  have ht2 := testBits_lt t2
  rw [encBrm]
  obtain ⟨w, hw⟩ : ∃ w, w = head 0 2 .always + testBits t0 * 2 ^ 42 + testBits t1 * 2 ^ 37 + testBits t2 * 2 ^ 32 + 2 * 2 ^ 25 + put 9 t0.disp := ⟨_, rfl⟩
  obtain ⟨e, he⟩ : ∃ e, e = 5 * 2 ^ 60 + put 44 t1.disp + put 28 t2.disp := ⟨_, rfl⟩
  rw [← hw, ← he]
  simp only [head, guardBits, put] at hw
  simp only [put] at he
  have hh : Heads 0 2 .always w := by simp only [Heads, put]; omega
  have hn : w / 2 ^ 25 % 4 = 2 := by omega
  have hb0 : brmTest (w / 2 ^ 42 % 32) (w / 2 ^ 9 % 2 ^ 16) = t0 := brmTest_of (by omega) (by omega)
  have hb1 : brmTest (w / 2 ^ 37 % 32) (e / 2 ^ 44 % 2 ^ 16) = t1 := brmTest_of (by omega) (by omega)
  have hb2 : brmTest (w / 2 ^ 32 % 32) (e / 2 ^ 28 % 2 ^ 16) = t2 := brmTest_of (by omega) (by omega)
  have hz : zeroAt w 0 9 = true := zeroAt_of (by omega)
  have hext : zeroAt e 0 12 = true := zeroAt_of (by omega)
  have hrest : zeroAt w 27 5 = true := zeroAt_of (by omega)
  have hunused : zeroAt e 12 16 = true := zeroAt_of (by omega)
  refine decode_brm_pair hh (by omega) (by simp only [classOf]; omega) rfl ?_
  simp only [decodeBrm, always_guard hh, Bool.false_eq_true, if_false, hn, hb0, hb1, hb2, hz, hext, hrest, hunused, Bool.and_true, whenZero, if_true]

theorem decode_encBrm_four (t0 t1 t2 t3 : BrmTest) : decode (encBrm [t0, t1, t2, t3]) = .ok (.brm [t0, t1, t2, t3]) := by
  have ht0 := testBits_lt t0
  have ht1 := testBits_lt t1
  have ht2 := testBits_lt t2
  have ht3 := testBits_lt t3
  rw [encBrm]
  obtain ⟨w, hw⟩ : ∃ w, w = head 0 2 .always + testBits t0 * 2 ^ 42 + testBits t1 * 2 ^ 37 + testBits t2 * 2 ^ 32 + testBits t3 * 2 ^ 27 + 3 * 2 ^ 25 + put 9 t0.disp := ⟨_, rfl⟩
  obtain ⟨e, he⟩ : ∃ e, e = 5 * 2 ^ 60 + put 44 t1.disp + put 28 t2.disp + put 12 t3.disp := ⟨_, rfl⟩
  rw [← hw, ← he]
  simp only [head, guardBits, put] at hw
  simp only [put] at he
  have hh : Heads 0 2 .always w := by simp only [Heads, put]; omega
  have hn : w / 2 ^ 25 % 4 = 3 := by omega
  have hb0 : brmTest (w / 2 ^ 42 % 32) (w / 2 ^ 9 % 2 ^ 16) = t0 := brmTest_of (by omega) (by omega)
  have hb1 : brmTest (w / 2 ^ 37 % 32) (e / 2 ^ 44 % 2 ^ 16) = t1 := brmTest_of (by omega) (by omega)
  have hb2 : brmTest (w / 2 ^ 32 % 32) (e / 2 ^ 28 % 2 ^ 16) = t2 := brmTest_of (by omega) (by omega)
  have hb3 : brmTest (w / 2 ^ 27 % 32) (e / 2 ^ 12 % 2 ^ 16) = t3 := brmTest_of (by omega) (by omega)
  have hz : zeroAt w 0 9 = true := zeroAt_of (by omega)
  have hext : zeroAt e 0 12 = true := zeroAt_of (by omega)
  refine decode_brm_pair hh (by omega) (by simp only [classOf]; omega) rfl ?_
  simp only [decodeBrm, always_guard hh, Bool.false_eq_true, if_false, hn, hb0, hb1, hb2, hb3, hz, hext, Bool.and_true, whenZero, if_true]

/-- A BRM of one to four tests is what its syllables decode to. -/
theorem decode_encode_brm {ts : List BrmTest} (h : (Instr.brm ts).isSyllable = true) : decode (encode (.brm ts)) = .ok (.brm ts) := by
  match ts, h with
  | [t0], _ => exact decode_encBrm_one t0
  | [t0, t1], _ => exact decode_encBrm_two t0 t1
  | [t0, t1, t2], _ => exact decode_encBrm_three t0 t1 t2
  | [t0, t1, t2, t3], _ => exact decode_encBrm_four t0 t1 t2 t3

end Sys2Proof.Machine
end

section
/-!
The encoder is inverted by the decoder: the table of both, a row per instruction, by its format at its opcode.
-/
namespace Sys2Proof.Machine.Rows
open Sys2Proof Sys2Proof.Machine

/-! Class C (R46). -/

theorem nop (g : Guard) : ∃ w, Reads (.nop g) w :=
  ⟨_, reads_c0 .nop (by decide) (by decide) (fun w h => by rw [decodeC, h]; rfl) rfl rfl⟩
theorem br (g : Guard) (disp : BitVec 32) : ∃ w, Reads (.br g disp) w :=
  ⟨_, reads_c32 .br (by decide) (by decide) (fun w h => by rw [decodeC, h]; rfl) rfl rfl⟩
theorem jr (g : Guard) (ra : BitVec 6) : ∃ w, Reads (.jr g ra) w :=
  ⟨_, reads_c6 .jr (by decide) (by decide) (fun w h => by rw [decodeC, h]; rfl) rfl rfl⟩
theorem call (g : Guard) (disp : BitVec 32) : ∃ w, Reads (.call g disp) w :=
  ⟨_, reads_c32 .call (by decide) (by decide) (fun w h => by rw [decodeC, h]; rfl) rfl rfl⟩
theorem callr (g : Guard) (ra : BitVec 6) : ∃ w, Reads (.callr g ra) w :=
  ⟨_, reads_c6 .callr (by decide) (by decide) (fun w h => by rw [decodeC, h]; rfl) rfl rfl⟩
theorem ret (g : Guard) : ∃ w, Reads (.ret g) w :=
  ⟨_, reads_c0 .ret (by decide) (by decide) (fun w h => by rw [decodeC, h]; rfl) rfl rfl⟩
theorem loop (g : Guard) (count last : BitVec 16) : ∃ w, Reads (.loop g count last) w :=
  ⟨_, reads_loop rfl⟩
theorem loopr (g : Guard) (ra : BitVec 6) (last : BitVec 16) : ∃ w, Reads (.loopr g ra last) w :=
  ⟨_, reads_loopr rfl⟩
theorem lexit (g : Guard) : ∃ w, Reads (.lexit g) w :=
  ⟨_, reads_c0 .lexit (by decide) (by decide) (fun w h => by rw [decodeC, h]; rfl) rfl rfl⟩
theorem tick (g : Guard) (n : BitVec 8) : ∃ w, Reads (.tick g n) w :=
  ⟨_, reads_tick rfl⟩
theorem adv (g : Guard) (sig : BitVec 7) (n : BitVec 8) : ∃ w, Reads (.adv g sig n) w :=
  ⟨_, reads_adv rfl⟩
theorem ypt (g : Guard) : ∃ w, Reads (.ypt g) w :=
  ⟨_, reads_c0 .ypt (by decide) (by decide) (fun w h => by rw [decodeC, h]; rfl) rfl rfl⟩
theorem yield (g : Guard) : ∃ w, Reads (.yield g) w :=
  ⟨_, reads_c0 .yield (by decide) (by decide) (fun w h => by rw [decodeC, h]; rfl) rfl rfl⟩
theorem cont (g : Guard) (disp : BitVec 32) : ∃ w, Reads (.cont g disp) w :=
  ⟨_, reads_c32 .cont (by decide) (by decide) (fun w h => by rw [decodeC, h]; rfl) rfl rfl⟩
theorem resume (g : Guard) : ∃ w, Reads (.resume g) w :=
  ⟨_, reads_c0 .resume (by decide) (by decide) (fun w h => by rw [decodeC, h]; rfl) rfl rfl⟩
theorem topup (g : Guard) (ra : BitVec 6) (tbud : Bool) : ∃ w, Reads (.topup g ra tbud) w :=
  ⟨_, reads_topup rfl⟩
theorem exit (g : Guard) : ∃ w, Reads (.exit g) w :=
  ⟨_, reads_c0 .exit (by decide) (by decide) (fun w h => by rw [decodeC, h]; rfl) rfl rfl⟩
theorem trap (g : Guard) (code : BitVec 16) : ∃ w, Reads (.trap g code) w :=
  ⟨_, reads_c16 .trap (by decide) (by decide) (fun w h => by rw [decodeC, h]; rfl) rfl rfl⟩
theorem waitev (g : Guard) (mask : BitVec 16) : ∃ w, Reads (.waitev g mask) w :=
  ⟨_, reads_c16 .waitev (by decide) (by decide) (fun w h => by rw [decodeC, h]; rfl) rfl rfl⟩
theorem sigev (g : Guard) (sc : Scope) (target : BitVec 6) (ev : BitVec 4) : ∃ w, Reads (.sigev g sc target ev) w :=
  ⟨_, reads_sigev rfl⟩
theorem bar (g : Guard) (sc : Scope) (id : BitVec 6) : ∃ w, Reads (.bar g sc id) w :=
  ⟨_, reads_bar rfl⟩
theorem fuse (g : Guard) (span : BitVec 3) : ∃ w, Reads (.fuse g span) w :=
  ⟨_, reads_fuse rfl⟩
theorem decouple (g : Guard) : ∃ w, Reads (.decouple g) w :=
  ⟨_, reads_c0 .decouple (by decide) (by decide) (fun w h => by rw [decodeC, h]; rfl) rfl rfl⟩
theorem rejoin (g : Guard) : ∃ w, Reads (.rejoin g) w :=
  ⟨_, reads_c0 .rejoin (by decide) (by decide) (fun w h => by rw [decodeC, h]; rfl) rfl rfl⟩

/-! Class S (R47). -/

theorem add (g : Guard) (rd ra rb : BitVec 6) : ∃ w, Reads (.add g rd ra rb) w :=
  ⟨_, reads_sr .add (by decide) (fun w h => by rw [decodeS, h]; rfl) rfl rfl⟩
theorem sub (g : Guard) (rd ra rb : BitVec 6) : ∃ w, Reads (.sub g rd ra rb) w :=
  ⟨_, reads_sr .sub (by decide) (fun w h => by rw [decodeS, h]; rfl) rfl rfl⟩
theorem mul (g : Guard) (rd ra rb : BitVec 6) : ∃ w, Reads (.mul g rd ra rb) w :=
  ⟨_, reads_sr .mul (by decide) (fun w h => by rw [decodeS, h]; rfl) rfl rfl⟩
theorem mulh (g : Guard) (rd ra rb : BitVec 6) : ∃ w, Reads (.mulh g rd ra rb) w :=
  ⟨_, reads_sr .mulh (by decide) (fun w h => by rw [decodeS, h]; rfl) rfl rfl⟩
theorem mulhu (g : Guard) (rd ra rb : BitVec 6) : ∃ w, Reads (.mulhu g rd ra rb) w :=
  ⟨_, reads_sr .mulhu (by decide) (fun w h => by rw [decodeS, h]; rfl) rfl rfl⟩
theorem div (g : Guard) (rd ra rb : BitVec 6) : ∃ w, Reads (.div g rd ra rb) w :=
  ⟨_, reads_sr .div (by decide) (fun w h => by rw [decodeS, h]; rfl) rfl rfl⟩
theorem divu (g : Guard) (rd ra rb : BitVec 6) : ∃ w, Reads (.divu g rd ra rb) w :=
  ⟨_, reads_sr .divu (by decide) (fun w h => by rw [decodeS, h]; rfl) rfl rfl⟩
theorem rem (g : Guard) (rd ra rb : BitVec 6) : ∃ w, Reads (.rem g rd ra rb) w :=
  ⟨_, reads_sr .rem (by decide) (fun w h => by rw [decodeS, h]; rfl) rfl rfl⟩
theorem and (g : Guard) (rd ra rb : BitVec 6) : ∃ w, Reads (.and g rd ra rb) w :=
  ⟨_, reads_sr .and (by decide) (fun w h => by rw [decodeS, h]; rfl) rfl rfl⟩
theorem or (g : Guard) (rd ra rb : BitVec 6) : ∃ w, Reads (.or g rd ra rb) w :=
  ⟨_, reads_sr .or (by decide) (fun w h => by rw [decodeS, h]; rfl) rfl rfl⟩
theorem xor (g : Guard) (rd ra rb : BitVec 6) : ∃ w, Reads (.xor g rd ra rb) w :=
  ⟨_, reads_sr .xor (by decide) (fun w h => by rw [decodeS, h]; rfl) rfl rfl⟩
theorem andn (g : Guard) (rd ra rb : BitVec 6) : ∃ w, Reads (.andn g rd ra rb) w :=
  ⟨_, reads_sr .andn (by decide) (fun w h => by rw [decodeS, h]; rfl) rfl rfl⟩
theorem shl (g : Guard) (rd ra rb : BitVec 6) : ∃ w, Reads (.shl g rd ra rb) w :=
  ⟨_, reads_sr .shl (by decide) (fun w h => by rw [decodeS, h]; rfl) rfl rfl⟩
theorem shr (g : Guard) (rd ra rb : BitVec 6) : ∃ w, Reads (.shr g rd ra rb) w :=
  ⟨_, reads_sr .shr (by decide) (fun w h => by rw [decodeS, h]; rfl) rfl rfl⟩
theorem sar (g : Guard) (rd ra rb : BitVec 6) : ∃ w, Reads (.sar g rd ra rb) w :=
  ⟨_, reads_sr .sar (by decide) (fun w h => by rw [decodeS, h]; rfl) rfl rfl⟩
theorem min (g : Guard) (rd ra rb : BitVec 6) : ∃ w, Reads (.min g rd ra rb) w :=
  ⟨_, reads_sr .min (by decide) (fun w h => by rw [decodeS, h]; rfl) rfl rfl⟩
theorem max (g : Guard) (rd ra rb : BitVec 6) : ∃ w, Reads (.max g rd ra rb) w :=
  ⟨_, reads_sr .max (by decide) (fun w h => by rw [decodeS, h]; rfl) rfl rfl⟩
theorem minu (g : Guard) (rd ra rb : BitVec 6) : ∃ w, Reads (.minu g rd ra rb) w :=
  ⟨_, reads_sr .minu (by decide) (fun w h => by rw [decodeS, h]; rfl) rfl rfl⟩
theorem maxu (g : Guard) (rd ra rb : BitVec 6) : ∃ w, Reads (.maxu g rd ra rb) w :=
  ⟨_, reads_sr .maxu (by decide) (fun w h => by rw [decodeS, h]; rfl) rfl rfl⟩
theorem clz (g : Guard) (rd ra : BitVec 6) : ∃ w, Reads (.clz g rd ra) w :=
  ⟨_, reads_sr1 .clz (by decide) (fun w h => by rw [decodeS, h]; rfl) rfl rfl⟩
theorem popc (g : Guard) (rd ra : BitVec 6) : ∃ w, Reads (.popc g rd ra) w :=
  ⟨_, reads_sr1 .popc (by decide) (fun w h => by rw [decodeS, h]; rfl) rfl rfl⟩
theorem sel (g : Guard) (rd ra rb : BitVec 6) (p : BitVec 4) : ∃ w, Reads (.sel g rd ra rb p) w :=
  ⟨_, reads_sel rfl⟩
theorem addi (g : Guard) (rd ra : BitVec 6) (imm : BitVec 35) : ∃ w, Reads (.addi g rd ra imm) w :=
  ⟨_, reads_si .addi (by decide) (fun w h => by rw [decodeS, h]; rfl) rfl rfl⟩
theorem andi (g : Guard) (rd ra : BitVec 6) (imm : BitVec 35) : ∃ w, Reads (.andi g rd ra imm) w :=
  ⟨_, reads_si .andi (by decide) (fun w h => by rw [decodeS, h]; rfl) rfl rfl⟩
theorem ori (g : Guard) (rd ra : BitVec 6) (imm : BitVec 35) : ∃ w, Reads (.ori g rd ra imm) w :=
  ⟨_, reads_si .ori (by decide) (fun w h => by rw [decodeS, h]; rfl) rfl rfl⟩
theorem xori (g : Guard) (rd ra : BitVec 6) (imm : BitVec 35) : ∃ w, Reads (.xori g rd ra imm) w :=
  ⟨_, reads_si .xori (by decide) (fun w h => by rw [decodeS, h]; rfl) rfl rfl⟩
theorem shli (g : Guard) (rd ra : BitVec 6) (sh : BitVec 6) : ∃ w, Reads (.shli g rd ra sh) w :=
  ⟨_, reads_sh .shli (by decide) (fun w h => by rw [decodeS, h]; rfl) rfl rfl⟩
theorem shri (g : Guard) (rd ra : BitVec 6) (sh : BitVec 6) : ∃ w, Reads (.shri g rd ra sh) w :=
  ⟨_, reads_sh .shri (by decide) (fun w h => by rw [decodeS, h]; rfl) rfl rfl⟩
theorem sari (g : Guard) (rd ra : BitVec 6) (sh : BitVec 6) : ∃ w, Reads (.sari g rd ra sh) w :=
  ⟨_, reads_sh .sari (by decide) (fun w h => by rw [decodeS, h]; rfl) rfl rfl⟩
theorem movi (g : Guard) (rd : BitVec 6) (imm : BitVec 35) : ∃ w, Reads (.movi g rd imm) w :=
  ⟨_, reads_movi rfl⟩
theorem movhi (g : Guard) (rd ra : BitVec 6) (imm : BitVec 32) : ∃ w, Reads (.movhi g rd ra imm) w :=
  ⟨_, reads_movhi rfl⟩
theorem cmp (g : Guard) (pd : BitVec 4) (c : Cond) (ra rb : BitVec 6) : ∃ w, Reads (.cmp g pd c ra rb) w :=
  ⟨_, reads_cmp .cmp (by decide) (fun w h => by rw [decodeS, h]; rfl) rfl rfl⟩
theorem cmpi (g : Guard) (pd : BitVec 4) (c : Cond) (ra : BitVec 6) (imm : BitVec 34) : ∃ w, Reads (.cmpi g pd c ra imm) w :=
  ⟨_, reads_cmpi rfl⟩
theorem pand (g : Guard) (pd pa pb : BitVec 4) : ∃ w, Reads (.pand g pd pa pb) w :=
  ⟨_, reads_sq .pand (by decide) (fun w h => by rw [decodeS, h]; rfl) rfl rfl⟩
theorem por (g : Guard) (pd pa pb : BitVec 4) : ∃ w, Reads (.por g pd pa pb) w :=
  ⟨_, reads_sq .por (by decide) (fun w h => by rw [decodeS, h]; rfl) rfl rfl⟩
theorem pxor (g : Guard) (pd pa pb : BitVec 4) : ∃ w, Reads (.pxor g pd pa pb) w :=
  ⟨_, reads_sq .pxor (by decide) (fun w h => by rw [decodeS, h]; rfl) rfl rfl⟩
theorem pandn (g : Guard) (pd pa pb : BitVec 4) : ∃ w, Reads (.pandn g pd pa pb) w :=
  ⟨_, reads_sq .pandn (by decide) (fun w h => by rw [decodeS, h]; rfl) rfl rfl⟩
theorem pset (g : Guard) (pd : BitVec 4) (ra : BitVec 6) : ∃ w, Reads (.pset g pd ra) w :=
  ⟨_, reads_pset rfl⟩
theorem spld (g : Guard) (rd : BitVec 6) (slot : BitVec 9) : ∃ w, Reads (.spld g rd slot) w :=
  ⟨_, reads_spill .spld (by decide) (fun w h => by rw [decodeS, h]; rfl) rfl rfl⟩
theorem spst (g : Guard) (ra : BitVec 6) (slot : BitVec 9) : ∃ w, Reads (.spst g ra slot) w :=
  ⟨_, reads_spill .spst (by decide) (fun w h => by rw [decodeS, h]; rfl) rfl rfl⟩
theorem csrr (g : Guard) (rd : BitVec 6) (csr : BitVec 12) : ∃ w, Reads (.csrr g rd csr) w :=
  ⟨_, reads_csr .csrr (by decide) (fun w h => by rw [decodeS, h]; rfl) rfl rfl⟩
theorem csrw (g : Guard) (ra : BitVec 6) (csr : BitVec 12) : ∃ w, Reads (.csrw g ra csr) w :=
  ⟨_, reads_csr .csrw (by decide) (fun w h => by rw [decodeS, h]; rfl) rfl rfl⟩
theorem lidx (g : Guard) (rd : BitVec 6) (level : BitVec 3) : ∃ w, Reads (.lidx g rd level) w :=
  ⟨_, reads_lidx rfl⟩
theorem fadd (g : Guard) (rd ra rb : BitVec 6) : ∃ w, Reads (.fadd g rd ra rb) w :=
  ⟨_, reads_sr .fadd (by decide) (fun w h => by rw [decodeS, h]; rfl) rfl rfl⟩
theorem fsub (g : Guard) (rd ra rb : BitVec 6) : ∃ w, Reads (.fsub g rd ra rb) w :=
  ⟨_, reads_sr .fsub (by decide) (fun w h => by rw [decodeS, h]; rfl) rfl rfl⟩
theorem fmul (g : Guard) (rd ra rb : BitVec 6) : ∃ w, Reads (.fmul g rd ra rb) w :=
  ⟨_, reads_sr .fmul (by decide) (fun w h => by rw [decodeS, h]; rfl) rfl rfl⟩
theorem ffma (g : Guard) (rd ra rb : BitVec 6) : ∃ w, Reads (.ffma g rd ra rb) w :=
  ⟨_, reads_sr .ffma (by decide) (fun w h => by rw [decodeS, h]; rfl) rfl rfl⟩
theorem fmin (g : Guard) (rd ra rb : BitVec 6) : ∃ w, Reads (.fmin g rd ra rb) w :=
  ⟨_, reads_sr .fmin (by decide) (fun w h => by rw [decodeS, h]; rfl) rfl rfl⟩
theorem fmax (g : Guard) (rd ra rb : BitVec 6) : ∃ w, Reads (.fmax g rd ra rb) w :=
  ⟨_, reads_sr .fmax (by decide) (fun w h => by rw [decodeS, h]; rfl) rfl rfl⟩
theorem fcmp (g : Guard) (pd : BitVec 4) (c : Cond) (ra rb : BitVec 6) : ∃ w, Reads (.fcmp g pd c ra rb) w :=
  ⟨_, reads_cmp .fcmp (by decide) (fun w h => by rw [decodeS, h]; rfl) rfl rfl⟩
theorem fcvti (g : Guard) (rd ra : BitVec 6) : ∃ w, Reads (.fcvti g rd ra) w :=
  ⟨_, reads_sr1 .fcvti (by decide) (fun w h => by rw [decodeS, h]; rfl) rfl rfl⟩
theorem icvtf (g : Guard) (rd ra : BitVec 6) : ∃ w, Reads (.icvtf g rd ra) w :=
  ⟨_, reads_sr1 .icvtf (by decide) (fun w h => by rw [decodeS, h]; rfl) rfl rfl⟩
theorem sigset (g : Guard) (ra : BitVec 6) (sig : BitVec 7) (field : BitVec 4) (level : BitVec 3) : ∃ w, Reads (.sigset g ra sig field level) w :=
  ⟨_, reads_sfield .sigset (by decide) (fun w h => by rw [decodeS, h]; rfl) rfl rfl⟩
theorem sigget (g : Guard) (rd : BitVec 6) (sig : BitVec 7) (field : BitVec 4) (level : BitVec 3) : ∃ w, Reads (.sigget g rd sig field level) w :=
  ⟨_, reads_sfield .sigget (by decide) (fun w h => by rw [decodeS, h]; rfl) rfl rfl⟩
theorem sigclr (g : Guard) (sig : BitVec 7) : ∃ w, Reads (.sigclr g sig) w :=
  ⟨_, reads_sigclr rfl⟩
theorem fillmk (g : Guard) (sig : BitVec 7) (lag : BitVec 8) : ∃ w, Reads (.fillmk g sig lag) w :=
  ⟨_, reads_fillmk rfl⟩
theorem waitfill (g : Guard) (rd : BitVec 6) (sig : BitVec 7) (k : BitVec 8) : ∃ w, Reads (.waitfill g rd sig k) w :=
  ⟨_, reads_sg .waitfill (by decide) (fun w h => by rw [decodeS, h]; rfl) rfl rfl⟩
theorem taprd (g : Guard) (rd : BitVec 6) (sig : BitVec 7) (lag : BitVec 8) : ∃ w, Reads (.taprd g rd sig lag) w :=
  ⟨_, reads_sg .taprd (by decide) (fun w h => by rw [decodeS, h]; rfl) rfl rfl⟩
theorem tapwr (g : Guard) (ra : BitVec 6) (sig : BitVec 7) (lag : BitVec 8) : ∃ w, Reads (.tapwr g ra sig lag) w :=
  ⟨_, reads_sg .tapwr (by decide) (fun w h => by rw [decodeS, h]; rfl) rfl rfl⟩

/-! Class V (R48). -/

theorem vadd (g : Guard) (t : VTy) (d a b : VOp) (rm : BitVec 2) : ∃ w, Reads (.vadd g t d a b rm) w :=
  ⟨_, reads_v3m .vadd (by decide) (fun w h => by rw [decodeV, h]; rfl) rfl rfl⟩
theorem vsub (g : Guard) (t : VTy) (d a b : VOp) (rm : BitVec 2) : ∃ w, Reads (.vsub g t d a b rm) w :=
  ⟨_, reads_v3m .vsub (by decide) (fun w h => by rw [decodeV, h]; rfl) rfl rfl⟩
theorem vmul (g : Guard) (t : VTy) (d a b : VOp) (rm : BitVec 2) : ∃ w, Reads (.vmul g t d a b rm) w :=
  ⟨_, reads_v3m .vmul (by decide) (fun w h => by rw [decodeV, h]; rfl) rfl rfl⟩
theorem vfma (g : Guard) (t : VTy) (d a b : VOp) (rm : BitVec 2) : ∃ w, Reads (.vfma g t d a b rm) w :=
  ⟨_, reads_v3m .vfma (by decide) (fun w h => by rw [decodeV, h]; rfl) rfl rfl⟩
theorem vfms (g : Guard) (t : VTy) (d a b : VOp) (rm : BitVec 2) : ∃ w, Reads (.vfms g t d a b rm) w :=
  ⟨_, reads_v3m .vfms (by decide) (fun w h => by rw [decodeV, h]; rfl) rfl rfl⟩
theorem vmin (g : Guard) (t : VTy) (d a b : VOp) : ∃ w, Reads (.vmin g t d a b) w :=
  ⟨_, reads_v3 .vmin (by decide) (fun w h => by rw [decodeV, h]; rfl) rfl rfl⟩
theorem vmax (g : Guard) (t : VTy) (d a b : VOp) : ∃ w, Reads (.vmax g t d a b) w :=
  ⟨_, reads_v3 .vmax (by decide) (fun w h => by rw [decodeV, h]; rfl) rfl rfl⟩
theorem vabs (g : Guard) (t : VTy) (d a : VOp) : ∃ w, Reads (.vabs g t d a) w :=
  ⟨_, reads_v2 .vabs (by decide) (fun w h => by rw [decodeV, h]; rfl) rfl rfl⟩
theorem vneg (g : Guard) (t : VTy) (d a : VOp) : ∃ w, Reads (.vneg g t d a) w :=
  ⟨_, reads_v2 .vneg (by decide) (fun w h => by rw [decodeV, h]; rfl) rfl rfl⟩
theorem vcmpeq (g : Guard) (t : VTy) (d a b : VOp) : ∃ w, Reads (.vcmpeq g t d a b) w :=
  ⟨_, reads_v3 .vcmpeq (by decide) (fun w h => by rw [decodeV, h]; rfl) rfl rfl⟩
theorem vcmplt (g : Guard) (t : VTy) (d a b : VOp) : ∃ w, Reads (.vcmplt g t d a b) w :=
  ⟨_, reads_v3 .vcmplt (by decide) (fun w h => by rw [decodeV, h]; rfl) rfl rfl⟩
theorem vcmple (g : Guard) (t : VTy) (d a b : VOp) : ∃ w, Reads (.vcmple g t d a b) w :=
  ⟨_, reads_v3 .vcmple (by decide) (fun w h => by rw [decodeV, h]; rfl) rfl rfl⟩
theorem vsel (g : Guard) (t : VTy) (d a b : VOp) : ∃ w, Reads (.vsel g t d a b) w :=
  ⟨_, reads_v3 .vsel (by decide) (fun w h => by rw [decodeV, h]; rfl) rfl rfl⟩
theorem vmov (g : Guard) (t : VTy) (d a : VOp) : ∃ w, Reads (.vmov g t d a) w :=
  ⟨_, reads_v2 .vmov (by decide) (fun w h => by rw [decodeV, h]; rfl) rfl rfl⟩
theorem vbcast (g : Guard) (t : VTy) (d a b : VOp) : ∃ w, Reads (.vbcast g t d a b) w :=
  ⟨_, reads_v3 .vbcast (by decide) (fun w h => by rw [decodeV, h]; rfl) rfl rfl⟩
theorem vrsum (g : Guard) (t : VTy) (d a : VOp) (rm : BitVec 2) : ∃ w, Reads (.vrsum g t d a rm) w :=
  ⟨_, reads_v2m .vrsum (by decide) (fun w h => by rw [decodeV, h]; rfl) rfl rfl⟩
theorem vrmax (g : Guard) (t : VTy) (d a : VOp) : ∃ w, Reads (.vrmax g t d a) w :=
  ⟨_, reads_v2 .vrmax (by decide) (fun w h => by rw [decodeV, h]; rfl) rfl rfl⟩
theorem vrcp (g : Guard) (t : VTy) (d a : VOp) (rm : BitVec 2) : ∃ w, Reads (.vrcp g t d a rm) w :=
  ⟨_, reads_v2m .vrcp (by decide) (fun w h => by rw [decodeV, h]; rfl) rfl rfl⟩
theorem vrsq (g : Guard) (t : VTy) (d a : VOp) (rm : BitVec 2) : ∃ w, Reads (.vrsq g t d a rm) w :=
  ⟨_, reads_v2m .vrsq (by decide) (fun w h => by rw [decodeV, h]; rfl) rfl rfl⟩
theorem vexp2 (g : Guard) (t : VTy) (d a : VOp) (rm : BitVec 2) : ∃ w, Reads (.vexp2 g t d a rm) w :=
  ⟨_, reads_v2m .vexp2 (by decide) (fun w h => by rw [decodeV, h]; rfl) rfl rfl⟩
theorem vlog2 (g : Guard) (t : VTy) (d a : VOp) (rm : BitVec 2) : ∃ w, Reads (.vlog2 g t d a rm) w :=
  ⟨_, reads_v2m .vlog2 (by decide) (fun w h => by rw [decodeV, h]; rfl) rfl rfl⟩
theorem vscale (g : Guard) (t : VTy) (d a b : VOp) (rm : BitVec 2) : ∃ w, Reads (.vscale g t d a b rm) w :=
  ⟨_, reads_v3m .vscale (by decide) (fun w h => by rw [decodeV, h]; rfl) rfl rfl⟩
theorem vcvt (g : Guard) (t : VTy) (d a : VOp) (src : VTy) (rm : BitVec 2) : ∃ w, Reads (.vcvt g t d a src rm) w :=
  ⟨_, reads_vcvt⟩
theorem vperm (g : Guard) (t : VTy) (d a b : VOp) : ∃ w, Reads (.vperm g t d a b) w :=
  ⟨_, reads_v3 .vperm (by decide) (fun w h => by rw [decodeV, h]; rfl) rfl rfl⟩
theorem vslide (g : Guard) (t : VTy) (d a b : VOp) : ∃ w, Reads (.vslide g t d a b) w :=
  ⟨_, reads_v3 .vslide (by decide) (fun w h => by rw [decodeV, h]; rfl) rfl rfl⟩
theorem viota (g : Guard) (t : VTy) (d a : VOp) : ∃ w, Reads (.viota g t d a) w :=
  ⟨_, reads_v2 .viota (by decide) (fun w h => by rw [decodeV, h]; rfl) rfl rfl⟩
theorem vtapx (g : Guard) (t : VTy) (d a b : VOp) : ∃ w, Reads (.vtapx g t d a b) w :=
  ⟨_, reads_v3 .vtapx (by decide) (fun w h => by rw [decodeV, h]; rfl) rfl rfl⟩
theorem vand (g : Guard) (d a b : VOp) : ∃ w, Reads (.vand g d a b) w :=
  ⟨_, reads_vint .vand (by decide) (fun w h => by rw [decodeV, h]; rfl) rfl rfl⟩
theorem vor (g : Guard) (d a b : VOp) : ∃ w, Reads (.vor g d a b) w :=
  ⟨_, reads_vint .vor (by decide) (fun w h => by rw [decodeV, h]; rfl) rfl rfl⟩
theorem vxor (g : Guard) (d a b : VOp) : ∃ w, Reads (.vxor g d a b) w :=
  ⟨_, reads_vint .vxor (by decide) (fun w h => by rw [decodeV, h]; rfl) rfl rfl⟩
theorem vshl (g : Guard) (d a b : VOp) : ∃ w, Reads (.vshl g d a b) w :=
  ⟨_, reads_vint .vshl (by decide) (fun w h => by rw [decodeV, h]; rfl) rfl rfl⟩
theorem vshr (g : Guard) (d a b : VOp) : ∃ w, Reads (.vshr g d a b) w :=
  ⟨_, reads_vint .vshr (by decide) (fun w h => by rw [decodeV, h]; rfl) rfl rfl⟩
theorem vsar (g : Guard) (d a b : VOp) : ∃ w, Reads (.vsar g d a b) w :=
  ⟨_, reads_vint .vsar (by decide) (fun w h => by rw [decodeV, h]; rfl) rfl rfl⟩

/-! Class M (R49). -/

theorem mma (g : Guard) (tile latch : BitVec 1) (sig lag : BitVec 7) (r : MRows) (k : MKind) : ∃ w, Reads (.mma g tile latch sig lag r k) w :=
  ⟨_, reads_mm .mma (by decide) (fun w h => by rw [decodeM, h]; rfl) rfl rfl⟩
theorem mmaz (g : Guard) (tile latch : BitVec 1) (sig lag : BitVec 7) (r : MRows) (k : MKind) : ∃ w, Reads (.mmaz g tile latch sig lag r k) w :=
  ⟨_, reads_mm .mmaz (by decide) (fun w h => by rw [decodeM, h]; rfl) rfl rfl⟩
theorem latch (g : Guard) (l : BitVec 1) (sig lag : BitVec 7) (k : MKind) : ∃ w, Reads (.latch g l sig lag k) w :=
  ⟨_, reads_ml .latch (by decide) (fun w h => by rw [decodeM, h]; rfl) rfl rfl⟩
theorem latcht (g : Guard) (l : BitVec 1) (sig lag : BitVec 7) (k : MKind) : ∃ w, Reads (.latcht g l sig lag k) w :=
  ⟨_, reads_ml .latcht (by decide) (fun w h => by rw [decodeM, h]; rfl) rfl rfl⟩
theorem asetId (g : Guard) (tile : BitVec 1) (r : MRows) : ∃ w, Reads (.asetId g tile r) w :=
  ⟨_, reads_mas (op := 0x04) (mode := 0) .asetId (by decide) (by decide) (fun w h hm => by rw [decodeM, h]; exact if_pos hm) rfl (by rw [Nat.zero_mul, Nat.add_zero])⟩
theorem asetZero (g : Guard) (tile : BitVec 1) (r : MRows) : ∃ w, Reads (.asetZero g tile r) w :=
  ⟨_, reads_mas (op := 0x04) (mode := 1) .asetZero (by decide) (by decide) (fun w h hm => by rw [decodeM, h]; exact (if_neg (by omega)).trans (if_pos hm)) rfl (by rw [Nat.one_mul])⟩
theorem again (g : Guard) (tile : BitVec 1) (sig lag : BitVec 7) (r : MRows) : ∃ w, Reads (.again g tile sig lag r) w :=
  ⟨_, reads_ma (mode := 0) .again (by decide) (by decide) (fun w h hm => by rw [decodeM, h]; exact if_pos hm) rfl rfl⟩
theorem aoff (g : Guard) (tile : BitVec 1) (sig lag : BitVec 7) (r : MRows) : ∃ w, Reads (.aoff g tile sig lag r) w :=
  ⟨_, reads_ma (mode := 0) .aoff (by decide) (by decide) (fun w h hm => by rw [decodeM, h]; exact if_pos hm) rfl rfl⟩
theorem apply (g : Guard) (tile : BitVec 1) (sig lag : BitVec 7) (r : MRows) : ∃ w, Reads (.apply g tile sig lag r) w :=
  ⟨_, reads_ma (mode := 0) .apply (by decide) (by decide) (fun w h hm => by rw [decodeM, h]; exact if_pos hm) rfl rfl⟩
theorem ardOff (g : Guard) (tile : BitVec 1) (sig lag : BitVec 7) (r : MRows) : ∃ w, Reads (.ardOff g tile sig lag r) w :=
  ⟨_, reads_ma (mode := 0) .ardOff (by decide) (by decide) (fun w h hm => by rw [decodeM, h]; exact if_pos hm) rfl rfl⟩
theorem ardGain (g : Guard) (tile : BitVec 1) (sig lag : BitVec 7) (r : MRows) : ∃ w, Reads (.ardGain g tile sig lag r) w :=
  ⟨_, reads_ma (mode := 1) .ardGain (by decide) (by decide) (fun w h hm => by rw [decodeM, h]; exact (if_neg (by omega)).trans (if_pos hm)) rfl rfl⟩
theorem scan (g : Guard) (tile : BitVec 1) (cy : BitVec 2) (r : MRows) : ∃ w, Reads (.scan g tile cy r) w :=
  ⟨_, reads_ms (op := 0x08) (upd := 0) .scan (by decide) (by decide) (fun w h hm => by rw [decodeM, h]; exact if_pos hm) rfl (by rw [Nat.zero_mul, Nat.add_zero])⟩
theorem scanUpd (g : Guard) (tile : BitVec 1) (cy : BitVec 2) (r : MRows) : ∃ w, Reads (.scanUpd g tile cy r) w :=
  ⟨_, reads_ms (op := 0x08) (upd := 1) .scanUpd (by decide) (by decide) (fun w h hm => by rw [decodeM, h]; exact if_neg (by omega)) rfl (by rw [Nat.one_mul])⟩
theorem cyset (g : Guard) (cy : BitVec 2) (sig lag : BitVec 7) : ∃ w, Reads (.cyset g cy sig lag) w :=
  ⟨_, reads_my .cyset (by decide) (fun w h hm => by rw [decodeM, h]; exact if_pos hm) rfl rfl⟩
theorem cysetId (g : Guard) (cy : BitVec 2) : ∃ w, Reads (.cysetId g cy) w :=
  ⟨_, reads_cysetId rfl⟩
theorem cyget (g : Guard) (cy : BitVec 2) (sig lag : BitVec 7) : ∃ w, Reads (.cyget g cy sig lag) w :=
  ⟨_, reads_my .cyget (by decide) (fun w h hm => by rw [decodeM, h]; exact if_pos hm) rfl rfl⟩

/-! Class X (R50). -/

theorem cld (g : Guard) (o : XcOps) : ∃ w, Reads (.cld g o) w :=
  ⟨_, reads_xc .cld (by decide) (fun w h => by rw [decodeX, h]; rfl) rfl rfl⟩
theorem cst (g : Guard) (o : XcOps) : ∃ w, Reads (.cst g o) w :=
  ⟨_, reads_xc .cst (by decide) (fun w h => by rw [decodeX, h]; rfl) rfl rfl⟩
theorem clda (g : Guard) (o : XcOps) : ∃ w, Reads (.clda g o) w :=
  ⟨_, reads_xc .clda (by decide) (fun w h => by rw [decodeX, h]; rfl) rfl rfl⟩
theorem cstr (g : Guard) (o : XcOps) : ∃ w, Reads (.cstr g o) w :=
  ⟨_, reads_xc .cstr (by decide) (fun w h => by rw [decodeX, h]; rfl) rfl rfl⟩
theorem cgath (g : Guard) (o : XgOps) : ∃ w, Reads (.cgath g o) w :=
  ⟨_, reads_xg .cgath (by decide) (fun w h => by rw [decodeX, h]; rfl) rfl rfl⟩
theorem cscat (g : Guard) (o : XgOps) : ∃ w, Reads (.cscat g o) w :=
  ⟨_, reads_xg .cscat (by decide) (fun w h => by rw [decodeX, h]; rfl) rfl rfl⟩
theorem scacc (g : Guard) (o : XsOps) : ∃ w, Reads (.scacc g o) w :=
  ⟨_, reads_scacc rfl⟩
theorem ccancel (g : Guard) (h : BitVec 4) : ∃ w, Reads (.ccancel g h) w :=
  ⟨_, reads_xh .ccancel (by decide) (fun w h => by rw [decodeX, h]; rfl) rfl rfl⟩
theorem cwait (g : Guard) (h : BitVec 4) : ∃ w, Reads (.cwait g h) w :=
  ⟨_, reads_xh .cwait (by decide) (fun w h => by rw [decodeX, h]; rfl) rfl rfl⟩
theorem dset (g : Guard) (d field : BitVec 4) (ra : BitVec 6) : ∃ w, Reads (.dset g d field ra) w :=
  ⟨_, reads_dset rfl⟩
theorem fence (g : Guard) (sc : Scope) (k : FenceKind) (mask : BitVec 8) : ∃ w, Reads (.fence g sc k mask) w :=
  ⟨_, reads_xf .fence (by decide) (fun w h => by rw [decodeX, h]; rfl) rfl rfl⟩
theorem csub (g : Guard) (o : XcOps) : ∃ w, Reads (.csub g o) w :=
  ⟨_, reads_xc .csub (by decide) (fun w h => by rw [decodeX, h]; rfl) rfl rfl⟩
theorem cpull (g : Guard) (o : XcOps) : ∃ w, Reads (.cpull g o) w :=
  ⟨_, reads_xc .cpull (by decide) (fun w h => by rw [decodeX, h]; rfl) rfl rfl⟩
theorem cunsub (g : Guard) (h : BitVec 4) : ∃ w, Reads (.cunsub g h) w :=
  ⟨_, reads_xh .cunsub (by decide) (fun w h => by rw [decodeX, h]; rfl) rfl rfl⟩
theorem nmcmd (g : Guard) (sig : BitVec 7) (ra : BitVec 6) (h : BitVec 4) : ∃ w, Reads (.nmcmd g sig ra h) w :=
  ⟨_, reads_xn .nmcmd (by decide) (fun w h => by rw [decodeX, h]; rfl) rfl rfl⟩
theorem nmfence (g : Guard) (sc : Scope) (k : FenceKind) (mask : BitVec 8) : ∃ w, Reads (.nmfence g sc k mask) w :=
  ⟨_, reads_xf .nmfence (by decide) (fun w h => by rw [decodeX, h]; rfl) rfl rfl⟩
theorem nmatom (g : Guard) (sig : BitVec 7) (ra : BitVec 6) (h : BitVec 4) : ∃ w, Reads (.nmatom g sig ra h) w :=
  ⟨_, reads_xn .nmatom (by decide) (fun w h => by rw [decodeX, h]; rfl) rfl rfl⟩
theorem chsend (g : Guard) (sig : BitVec 7) (ra rd : BitVec 6) : ∃ w, Reads (.chsend g sig ra rd) w :=
  ⟨_, reads_xks (flag := 0) .chsend (by decide) (by decide) (fun w h hm => by rw [decodeX, h]; exact if_pos hm) rfl rfl⟩
theorem chsendTry (g : Guard) (sig : BitVec 7) (ra rd : BitVec 6) : ∃ w, Reads (.chsendTry g sig ra rd) w :=
  ⟨_, reads_xks (flag := 1) .chsendTry (by decide) (by decide) (fun w h hm => by rw [decodeX, h]; exact if_neg (by omega)) rfl rfl⟩
theorem chbind (g : Guard) (sig : BitVec 7) (ra rd : BitVec 6) : ∃ w, Reads (.chbind g sig ra rd) w :=
  ⟨_, reads_xks (flag := 0) .chbind (by decide) (by decide) (fun w h hm => by rw [decodeX, h]; exact if_pos hm) rfl rfl⟩
theorem chbindW (g : Guard) (ra rd : BitVec 6) : ∃ w, Reads (.chbindW g ra rd) w :=
  ⟨_, reads_xk (flag := 1) .chbindW (by decide) (by decide) (fun w h hm => by rw [decodeX, h]; exact if_neg (by omega)) rfl rfl⟩
theorem chclose (g : Guard) (ra rd : BitVec 6) : ∃ w, Reads (.chclose g ra rd) w :=
  ⟨_, reads_xk (flag := 0) .chclose (by decide) (by decide) (fun w h hm => by rw [decodeX, h]; exact if_pos hm) rfl rfl⟩
theorem chcloseW (g : Guard) (ra rd : BitVec 6) : ∃ w, Reads (.chcloseW g ra rd) w :=
  ⟨_, reads_xk (flag := 1) .chcloseW (by decide) (by decide) (fun w h hm => by rw [decodeX, h]; exact if_neg (by omega)) rfl rfl⟩
theorem chstat (g : Guard) (ra rd : BitVec 6) : ∃ w, Reads (.chstat g ra rd) w :=
  ⟨_, reads_xk (flag := 0) .chstat (by decide) (by decide) (fun w h hm => by rw [decodeX, h]; exact if_pos hm) rfl rfl⟩
theorem launch (g : Guard) (sig : BitVec 7) (ra : BitVec 6) (h : BitVec 4) : ∃ w, Reads (.launch g sig ra h) w :=
  ⟨_, reads_xn .launch (by decide) (fun w h => by rw [decodeX, h]; rfl) rfl rfl⟩
theorem wsend (g : Guard) (sig : BitVec 7) (ra : BitVec 6) (h : BitVec 4) : ∃ w, Reads (.wsend g sig ra h) w :=
  ⟨_, reads_xn .wsend (by decide) (fun w h => by rw [decodeX, h]; rfl) rfl rfl⟩

end Sys2Proof.Machine.Rows
namespace Sys2Proof.Machine
set_option Elab.async false
open Sys2Proof

/-- Every instruction of a bundle but BRM is read back from its word: one row of the table each; an event has no word. -/
theorem reads_syllable {i : Instr} (h : i.isSyllable = true) (hb : ∀ ts, i ≠ .brm ts) : ∃ w, Reads i w := by
  cases i with
  | brm ts => exact absurd rfl (hb ts)
  | nop => exact Rows.nop ..
  | br => exact Rows.br ..
  | jr => exact Rows.jr ..
  | call => exact Rows.call ..
  | callr => exact Rows.callr ..
  | ret => exact Rows.ret ..
  | loop => exact Rows.loop ..
  | loopr => exact Rows.loopr ..
  | lexit => exact Rows.lexit ..
  | tick => exact Rows.tick ..
  | adv => exact Rows.adv ..
  | ypt => exact Rows.ypt ..
  | yield => exact Rows.yield ..
  | cont => exact Rows.cont ..
  | resume => exact Rows.resume ..
  | topup => exact Rows.topup ..
  | exit => exact Rows.exit ..
  | trap => exact Rows.trap ..
  | waitev => exact Rows.waitev ..
  | sigev => exact Rows.sigev ..
  | bar => exact Rows.bar ..
  | fuse => exact Rows.fuse ..
  | decouple => exact Rows.decouple ..
  | rejoin => exact Rows.rejoin ..
  | add => exact Rows.add ..
  | sub => exact Rows.sub ..
  | mul => exact Rows.mul ..
  | mulh => exact Rows.mulh ..
  | mulhu => exact Rows.mulhu ..
  | div => exact Rows.div ..
  | divu => exact Rows.divu ..
  | rem => exact Rows.rem ..
  | and => exact Rows.and ..
  | or => exact Rows.or ..
  | xor => exact Rows.xor ..
  | andn => exact Rows.andn ..
  | shl => exact Rows.shl ..
  | shr => exact Rows.shr ..
  | sar => exact Rows.sar ..
  | min => exact Rows.min ..
  | max => exact Rows.max ..
  | minu => exact Rows.minu ..
  | maxu => exact Rows.maxu ..
  | clz => exact Rows.clz ..
  | popc => exact Rows.popc ..
  | sel => exact Rows.sel ..
  | addi => exact Rows.addi ..
  | andi => exact Rows.andi ..
  | ori => exact Rows.ori ..
  | xori => exact Rows.xori ..
  | shli => exact Rows.shli ..
  | shri => exact Rows.shri ..
  | sari => exact Rows.sari ..
  | movi => exact Rows.movi ..
  | movhi => exact Rows.movhi ..
  | cmp => exact Rows.cmp ..
  | cmpi => exact Rows.cmpi ..
  | pand => exact Rows.pand ..
  | por => exact Rows.por ..
  | pxor => exact Rows.pxor ..
  | pandn => exact Rows.pandn ..
  | pset => exact Rows.pset ..
  | spld => exact Rows.spld ..
  | spst => exact Rows.spst ..
  | csrr => exact Rows.csrr ..
  | csrw => exact Rows.csrw ..
  | lidx => exact Rows.lidx ..
  | fadd => exact Rows.fadd ..
  | fsub => exact Rows.fsub ..
  | fmul => exact Rows.fmul ..
  | ffma => exact Rows.ffma ..
  | fmin => exact Rows.fmin ..
  | fmax => exact Rows.fmax ..
  | fcmp => exact Rows.fcmp ..
  | fcvti => exact Rows.fcvti ..
  | icvtf => exact Rows.icvtf ..
  | sigset => exact Rows.sigset ..
  | sigget => exact Rows.sigget ..
  | sigclr => exact Rows.sigclr ..
  | fillmk => exact Rows.fillmk ..
  | waitfill => exact Rows.waitfill ..
  | taprd => exact Rows.taprd ..
  | tapwr => exact Rows.tapwr ..
  | vadd => exact Rows.vadd ..
  | vsub => exact Rows.vsub ..
  | vmul => exact Rows.vmul ..
  | vfma => exact Rows.vfma ..
  | vfms => exact Rows.vfms ..
  | vmin => exact Rows.vmin ..
  | vmax => exact Rows.vmax ..
  | vabs => exact Rows.vabs ..
  | vneg => exact Rows.vneg ..
  | vcmpeq => exact Rows.vcmpeq ..
  | vcmplt => exact Rows.vcmplt ..
  | vcmple => exact Rows.vcmple ..
  | vsel => exact Rows.vsel ..
  | vmov => exact Rows.vmov ..
  | vbcast => exact Rows.vbcast ..
  | vrsum => exact Rows.vrsum ..
  | vrmax => exact Rows.vrmax ..
  | vrcp => exact Rows.vrcp ..
  | vrsq => exact Rows.vrsq ..
  | vexp2 => exact Rows.vexp2 ..
  | vlog2 => exact Rows.vlog2 ..
  | vscale => exact Rows.vscale ..
  | vcvt => exact Rows.vcvt ..
  | vperm => exact Rows.vperm ..
  | vslide => exact Rows.vslide ..
  | viota => exact Rows.viota ..
  | vtapx => exact Rows.vtapx ..
  | vand => exact Rows.vand ..
  | vor => exact Rows.vor ..
  | vxor => exact Rows.vxor ..
  | vshl => exact Rows.vshl ..
  | vshr => exact Rows.vshr ..
  | vsar => exact Rows.vsar ..
  | mma => exact Rows.mma ..
  | mmaz => exact Rows.mmaz ..
  | latch => exact Rows.latch ..
  | latcht => exact Rows.latcht ..
  | asetId => exact Rows.asetId ..
  | asetZero => exact Rows.asetZero ..
  | again => exact Rows.again ..
  | aoff => exact Rows.aoff ..
  | apply => exact Rows.apply ..
  | ardOff => exact Rows.ardOff ..
  | ardGain => exact Rows.ardGain ..
  | scan => exact Rows.scan ..
  | scanUpd => exact Rows.scanUpd ..
  | cyset => exact Rows.cyset ..
  | cysetId => exact Rows.cysetId ..
  | cyget => exact Rows.cyget ..
  | cld => exact Rows.cld ..
  | cst => exact Rows.cst ..
  | clda => exact Rows.clda ..
  | cstr => exact Rows.cstr ..
  | cgath => exact Rows.cgath ..
  | cscat => exact Rows.cscat ..
  | scacc => exact Rows.scacc ..
  | ccancel => exact Rows.ccancel ..
  | cwait => exact Rows.cwait ..
  | dset => exact Rows.dset ..
  | fence => exact Rows.fence ..
  | csub => exact Rows.csub ..
  | cpull => exact Rows.cpull ..
  | cunsub => exact Rows.cunsub ..
  | nmcmd => exact Rows.nmcmd ..
  | nmfence => exact Rows.nmfence ..
  | nmatom => exact Rows.nmatom ..
  | chsend => exact Rows.chsend ..
  | chsendTry => exact Rows.chsendTry ..
  | chbind => exact Rows.chbind ..
  | chbindW => exact Rows.chbindW ..
  | chclose => exact Rows.chclose ..
  | chcloseW => exact Rows.chcloseW ..
  | chstat => exact Rows.chstat ..
  | launch => exact Rows.launch ..
  | wsend => exact Rows.wsend ..
  | _ => cases h

end Sys2Proof.Machine
namespace Sys2Proof.Proofs
set_option Elab.async false
open Sys2Proof Sys2Proof.Machine

/-- Settles O37, format by format: BRM by its number of tests, every other instruction by its one word. -/
theorem encodeDecode : Obligations.EncodeDecode := by
  intro i hw hs
  by_cases hb : ∃ ts, i = .brm ts
  · obtain ⟨ts, rfl⟩ := hb
    exact decode_encode_brm hs
  · obtain ⟨w, hr⟩ := reads_syllable hs fun ts hi => hb ⟨ts, hi⟩
    exact hr.decode_encode hw

end Sys2Proof.Proofs
end

section
/-!
Steps of a held bundle: its toll, its release, and the traps that end its hold (R60, R90, R100, R103, R105, R155, R305).
-/
namespace Sys2Proof.Machine
set_option Elab.async false
open Sys2Proof

variable {i : Instr} {s u : State} {o : SlotOut} {g : Guard} {k n : Nat} {h : Hold}

/-! The bundle of a seat that stands at one instruction. -/

theorem heldBundle_stands (hst : Stands i k s) (hp : (s.seat k).phase = .running) (hw : (s.seat k).split = none)
    (hf : (s.ctx k).fuse.isFused = false) :
    heldBundle k s = (some (soloBundle i k s, [(k, evalSlots (soloBundle i k s) k s)]), s) := by
  have hnext : nextBundle k s = (.ok (soloBundle i k s), s) := hst
  simp [heldBundle, hp, hw, issueSeats, hf, hnext]

theorem issueAt_stands (hst : Stands i k s) (hf : (s.ctx k).fuse.isFused = false) :
    issueAt k s = issueBlock (soloBundle i k s) [k] s := by
  have hnext : nextBundle ([k].headD k) s = (.ok (soloBundle i k s), s) := hst
  simp only [issueAt, issueSeats, hf, Bool.false_eq_true, if_false, hnext]

/-- Where it is its own bundle, its issue is the instruction. -/
theorem issueAt_of_stands (he : exec i = issueOne i) (hst : Stands i s.cur s) (hp : (s.seat s.cur).phase = .running)
    (hf : (s.ctx s.cur).fuse.isFused = false) : .next (issueAt s.cur s) = exec i s := by
  rw [congrFun he s, issueAt_stands hst hf, issueOne, if_pos hp]
  simp only [issueSeats, hf, Bool.false_eq_true, if_false]

theorem evalSlots_unmasked (hm : (s.ctx k).maskOnce = 0) (ho : slotOf i k s = o) (hl : o.late (o.desc s) = none) :
    evalSlots (soloBundle i k s) k s = [(0, o)] := by
  simp [evalSlots, soloBundle, evalSlot, hm, ho, settle_none hl]

/-! What holds the slot of a seat that nothing else holds. -/

theorem seatHold_unheld (hu : Unheld s) (b : Fetched) : seatHold s b s.cur [(0, o)] = Hold.free.join o.hold := by
  have hscore : scoreHold (s.ctx s.cur) (s.clk s.cur) o = false := by
    simp only [scoreHold, List.any_eq_false]
    intro e he
    simp [Nat.not_lt.mpr (hu.final e he)]
  have hmerge : mergeHold s b s.cur [(0, o)] = false := by simp [mergeHold, hu.first, hu.beside]
  have hgate : gateHold s b s.cur = false := by simp only [gateHold, hu.ungated, Bool.false_and]
  have hwait : seatWait s b s.cur [(0, o)] = Hold.free.join o.hold := by
    simp [seatWait, hscore, hmerge, hgate, hu.running, hu.examined, hu.whole]
  rw [seatHold, hwait]
  cases o.hold <;> simp [bankConflicts, hu.banks, Hold.join]

theorem waiting_unheld (hu : Unheld s) (os : List (Nat × SlotOut)) : waiting [(s.cur, os)] s = false := by
  simp [waiting, hu.here]

/-- A bundle whose slot holds is still held. -/
theorem stillHeld_unheld (hu : Unheld s) (hst : staticFault s.cur (soloBundle i s.cur s) s = (none, s))
    (hh : Hold.free.join o.hold = h) (hf : h ≠ .free) (hj : Hold.free.join h = h) :
    stillHeld (soloBundle i s.cur s) [(s.cur, [(0, o)])] s = true := by
  simp [stillHeld, waiting_unheld hu, verdict, hst, seatHold_unheld hu, hh, hj, hf]

/-- One that neither holds nor traps is not. -/
theorem stillHeld_free (hc : CanIssue 1 o.traffic s) (hst : staticFault s.cur (soloBundle i s.cur s) s = (none, s))
    (hh : o.hold = .free) (ht : o.trap = none) (hctl : o.ctl = .next) :
    stillHeld (soloBundle i s.cur s) [(s.cur, [(0, o)])] s = false := by
  have hgo : verdict (soloBundle i s.cur s) [s.cur] [(s.cur, [(0, o)])] s = (.go (soloBundle i s.cur s).next, s) :=
    verdict_go hc hst hh ht (by simp [hctl]) (by simp [hctl]) (by simp [hctl]) (by simp [hctl])
  simp [stillHeld, waiting_unheld hc.toUnheld, hgo]

/-! Barriers (R90). -/

/-- A seat released from its barrier commits the BAR with no further check. -/
theorem issueBlock_released (hsl : evalSlots (soloBundle i k s) k s = [(0, o)])
    (hl : (encode i).length = 1) {sc id : Nat} {rep : Bool} (ha : (s.ctx k).wait.arrival = some (.bar sc id true rep)) :
    issueBlock (soloBundle i k s) [k] s =
      commitBlock (soloBundle i k s) o.ctl (soloBundle i k s).next [(k, [(0, o)])] s := by
  have hw : waiting [(k, [(0, o)])] s = true := by simp [waiting, ha]
  have hfree : barsFree [(k, [(0, o)])] s = true := by simp [barsFree, barReleased, ha]
  have hsp : splits (s.core (coreOf k)) (soloBundle i k s) = false := splits_solo hl
  simp [issueBlock, hsl, hw, waitCycle, ha, hfree, finish, hsp, ctlOf_single]

/-! FUSE (R305). -/

/-- A map written at a key, to a value that it lists, reads as before elsewhere. -/
theorem Sparse.get_set_beside {α : Type} [DecidableEq α] {d x : α} {m : Sparse α} {a b : Nat} (hx : x ≠ d) (hb : b ≠ a) :
    Sparse.get d (Sparse.set d m a x) b = Sparse.get d m b := by
  induction m with
  | nil => simp [Sparse.set, hx, Sparse.get, hb]
  | cons e m ih =>
    obtain ⟨j, v⟩ := e
    rcases Nat.lt_trichotomy a j with h | h | h
    · simp only [Sparse.set, h, hx, if_true, if_false, Sparse.get, hb]
      split
      · rw [if_neg (by omega), if_pos (by omega)]
      · rfl
    · subst h
      simp [Sparse.set, hx, Sparse.get, hb]
    · simp only [Sparse.set, Nat.not_lt.mpr h.le, if_false, Nat.ne_of_gt h, Sparse.get, ih]

theorem takeTrap_beside {t : TrapIn} {j : Nat} (hj : j ≠ k) : (takeTrap k t s).seat j = s.seat j := by
  rw [takeTrap, State.seat, freezeStreams_seats]
  exact Sparse.get_set_beside (Seat.ne_empty (by simp)) hj

theorem takeTrap_steps {t : TrapIn} : (takeTrap k t s).steps = s.steps := by
  rw [takeTrap]
  unfold freezeStreams
  split <;> rfl

theorem takeTrap_arrival {t : TrapIn} : ((takeTrap k t s).ctx k).wait.arrival = none := by
  rw [State.ctx, takeTrap_seat]
  rfl

/-- A member that has not arrived, or that has trapped, counts as gone at FUSE. -/
theorem not_arrived_takeTrap {t : TrapIn} {st j m : Nat} {a : Arrival} (hm : memberSeat s st m = some k)
    (hj : j ≠ m → arrivedAs s st a j = false) : arrivedAs (takeTrap k t s) st a j = false := by
  have hseat : memberSeat (takeTrap k t s) st j = memberSeat s st j := by
    rw [memberSeat, memberSeat, State.step1, State.step1, takeTrap_steps]
  simp only [arrivedAs, State.memberCtx, hseat]
  cases hq : memberSeat s st j with
  | none =>
    have hjm : j ≠ m := fun he => by rw [he, hm] at hq; cases hq
    have hno := hj hjm
    simp only [arrivedAs, State.memberCtx, hq] at hno
    simpa only [State.step1, takeTrap_steps] using hno
  | some q =>
    by_cases hqk : q = k
    · subst hqk
      simp only [takeTrap_arrival]
      rfl
    · have hjm : j ≠ m := fun he => by
        rw [he, hm] at hq
        exact hqk (Option.some.inj hq).symm
      have hno := hj hjm
      simp only [arrivedAs, State.memberCtx, hq] at hno
      simpa only [State.ctx, takeTrap_beside hqk] using hno

theorem self_mem_blockOf (hn : 0 < n) (m : Nat) : m ∈ blockOf n m := by
  refine List.mem_map.mpr ⟨m % n, List.mem_range.mpr (Nat.mod_lt _ hn), ?_⟩
  rw [Nat.mul_comm]
  exact Nat.div_add_mod m n

/-- What the expiry of a FUSE of span n does to one member of its block. -/
def expireOne (st n : Nat) (s : State) (j : Nat) : State :=
  if arrivedAs s st (.fuse n) j then
    match memberSeat s st j with
    | some q => fuseTrapAt q j s
    | none => s
  else s

theorem fuseExpire_eq (ha : (s.ctx k).wait.arrival = some (.fuse n)) :
    fuseExpire k s = (blockOf n (s.memberNo k)).foldl (expireOne (s.stepKey k) n) s := by
  simp only [fuseExpire, ha]
  rfl

theorem expireOne_absent {st j : Nat} (h : arrivedAs s st (.fuse n) j = false) : expireOne st n s j = s :=
  if_neg (by rw [h]; exact Bool.false_ne_true)

theorem expireOne_arrived {st m : Nat} (ha : (s.ctx k).wait.arrival = some (.fuse n)) (hm : memberSeat s st m = some k) :
    expireOne st n s m = fuseTrapAt k m s := by
  have hself : arrivedAs s st (.fuse n) m = true := by simp [arrivedAs, State.memberCtx, hm, ha]
  simp only [expireOne, hself, if_true, hm]

/-- A FUSE at which one member alone has arrived traps that member. -/
theorem fuseExpire_alone (hn : 0 < n) (ha : (s.ctx k).wait.arrival = some (.fuse n))
    (hm : memberSeat s (s.stepKey k) (s.memberNo k) = some k)
    (hothers : ∀ j ∈ blockOf n (s.memberNo k), j ≠ s.memberNo k → arrivedAs s (s.stepKey k) (.fuse n) j = false)
    {t : TrapIn} (ht : fuseTrapAt k (s.memberNo k) s = takeTrap k t s) : fuseExpire k s = takeTrap k t s := by
  obtain ⟨before, later, hblock, hfirst⟩ := List.eq_append_cons_of_mem (self_mem_blockOf hn (s.memberNo k))
  rw [hblock] at hothers
  have hbefore : before.foldl (expireOne (s.stepKey k) n) s = s :=
    foldl_idle fun j hj => expireOne_absent (hothers j (by simp [hj]) fun he => hfirst (he ▸ hj))
  have hlater : later.foldl (expireOne (s.stepKey k) n) (takeTrap k t s) = takeTrap k t s :=
    foldl_idle fun j hj => expireOne_absent (not_arrived_takeTrap hm (hothers j (by simp [hj])))
  rw [fuseExpire_eq ha, hblock, List.foldl_append, hbefore, List.foldl_cons, expireOne_arrived ha hm, ht, hlater]

/-! Tap deadlock (R155, R263). -/

/-- An unfilled tap of an open signal is the first sample that TAPRD awaits. -/
theorem openSample_unfilled {c : Ctx} {t : Tap} (h : t.unfilled s k c = true) (hg : t.g = c.sg t.n) :
    t.live = true ∧ openSample c (.sample t.n.toNat t.idx) = [(t.n, t.idx)] := by
  simp only [Tap.unfilled, Tap.pending, Bool.and_eq_true] at h
  obtain ⟨⟨hlive, hopen⟩, -⟩ := h
  refine ⟨hlive, ?_⟩
  have hn : BitVec.ofNat 7 t.n.toNat = t.n := by rw [BitVec.ofNat_toNat, BitVec.setWidth_eq]
  rw [hg] at hopen
  simp only [openSample, hn]
  exact if_pos (by simpa using hopen)

theorem predUse_open {c : Ctx} {p : BitVec 4} : (predUse p).flatMap (openSample c) = [] := by
  unfold predUse
  split <;> rfl

/-- The trap of a slot that awaits the sample x first. -/
theorem deadlockTrap_first {b : Fetched} {x : BitVec 7 × Int} {xs : List (BitVec 7 × Int)}
    (hx : slotAwaits b (s.ctx k) (0, o) = x :: xs) :
    (deadlockTrap b k [(0, o)] s).detail1 = sigDetail x.1 (some x.2) := by
  simp [deadlockTrap, Fetched.trapNone, hx]

end Sys2Proof.Machine
namespace Sys2Proof.Proofs
set_option Elab.async false
open Sys2Proof Sys2Proof.Machine

/-- The slot of a WAITEV whose guard holds. -/
def waitevOut (g : Guard) (m : BitVec 16) (c : Ctx) : SlotOut :=
  { uses := predUse g.pred ++ [], hold := if c.csr.evpend &&& m = 0 then .outside else .free, listed := true }

theorem slotWaitev_holds {g : Guard} {m : BitVec 16} {s : State} (h : Guard.holds g (s.ctx s.cur) = true) :
    slotOf (.waitev g m) s.cur s = waitevOut g m (s.ctx s.cur) :=
  (rfl : slotOf (.waitev g m) s.cur s = guarded g (s.ctx s.cur) _).trans (guarded_of_holds h)

/-- A WAITEV whose event has come passes. -/
theorem waitevPasses {s : State} {g : Guard} {m : BitVec 16} (hg : g.ok = true) (hm : m ≠ 0) (hr : Runs g 1 0 s)
    (hev : (s.ctx s.cur).csr.evpend &&& m ≠ 0) : Passes (.waitev g m) s := by
  have hhold : (if (s.ctx s.cur).csr.evpend &&& m = 0 then Hold.outside else .free) = .free := if_neg hev
  refine completes_of_guarded ⟨rfl, rfl, rfl⟩ ?_ hr rfl ⟨rfl, hhold, rfl, rfl⟩ rfl (keeps_refl hr.can.running)
  simpa [Instr.wf, hg] using hm

theorem waitevHeld {s : State} {g : Guard} {m : BitVec 16} (hg : g.ok = true) (hm : m ≠ 0)
    (hst : Stands (.waitev g m) s.cur s) (hr : Runs g 1 0 s) :
    ((s.ctx s.cur).csr.evpend &&& m = 0 → exec (.stallToll s.cur) s = exec (.waitev g m) s) ∧
      ((s.ctx s.cur).csr.evpend &&& m ≠ 0 → exec (.heldBundleRelease s.cur) s = exec (.waitev g m) s) := by
  have hwf : (Instr.waitev g m).wf = true := by simpa [Instr.wf, hg] using hm
  have hslot := slotWaitev_holds (m := m) hr.guard
  have hb := heldBundle_stands hst hr.can.running hr.can.whole hr.can.single
  rw [evalSlots_solo hr.can hslot rfl] at hb
  rw [← issueAt_of_stands rfl hst hr.can.running hr.can.single]
  refine ⟨fun hno => ?_, fun hyes => ?_⟩
  · have hheld : stillHeld (soloBundle (.waitev g m) s.cur s) [(s.cur, [(0, waitevOut g m (s.ctx s.cur))])] s = true :=
      stillHeld_unheld (h := .outside) hr.can.toUnheld (staticFault_plain hwf rfl)
        (congrArg Hold.free.join (if_pos hno)) (by decide) rfl
    show Host.Outcome.next (stallToll s.cur s) = _
    simp only [stallToll, hb]
    rw [if_pos hheld]
  · have hfree : stillHeld (soloBundle (.waitev g m) s.cur s) [(s.cur, [(0, waitevOut g m (s.ctx s.cur))])] s = false :=
      stillHeld_free hr.can (staticFault_plain hwf rfl) (if_neg hyes) rfl rfl
    show Host.Outcome.next (heldBundleRelease s.cur s) = _
    simp only [heldBundleRelease, hb]
    rw [hfree]
    rfl

theorem barReleases {s : State} {g : Guard} {sc : Scope} {id : BitVec 6} {rep : Bool}
    (hgh : Guard.holds g (s.ctx s.cur) = true) (hst : Stands (.bar g sc id) s.cur s) (hp : (s.seat s.cur).phase = .running)
    (hf : (s.ctx s.cur).fuse.isFused = false) (hm : (s.ctx s.cur).maskOnce = 0) (hs : Settled s)
    (hb : 1 < (s.ctx s.cur).bud.ibud.toInt)
    (ha : (s.ctx s.cur).wait.arrival = some (.bar (Scope.num sc) id.toNat true rep)) :
    ∃ t, exec (.barrierRelease s.cur) s = .next t ∧ Retired 0 0 1 0 s t ∧ (t.ctx s.cur).wait.arrival = none := by
  let o : SlotOut := { uses := predUse g.pred ++ [], hold := if fenceOpen s s.cur then .outside else .free, ctl := .bar (Scope.num sc) id.toNat }
  have hslot : slotOf (.bar g sc id) s.cur s = o :=
    (rfl : slotOf (.bar g sc id) s.cur s = guarded g (s.ctx s.cur) _).trans (guarded_of_holds hgh)
  have hbusy : ((o.effect s).seat s.cur).phase ≠ .idle := (keeps_refl hp).busy
  have hrel : barReleased (s.ctx s.cur) = true := by simp [barReleased, ha]
  let b := soloBundle (.bar g sc id) s.cur s
  have hclose : commitBlock b (.bar (Scope.num sc) id.toNat) b.next [(s.cur, [(0, o)])] s =
      closed b (.bar (Scope.num sc) id.toNat) b.next o s.cur s :=
    commitBlock_closed (splits_solo (i := .bar g sc id) rfl) hbusy hb nofun nofun
  have hcommit : exec (.barrierRelease s.cur) s = .next (closed b o.ctl b.next o s.cur s) := by
    show Host.Outcome.next (barrierRelease s.cur s) = _
    rw [barrierRelease, hp, hrel, if_pos (by rfl), issueAt_stands hst hf,
      issueBlock_released (evalSlots_unmasked hm hslot rfl) rfl ha, hclose]
  refine ⟨_, hcommit, ?_, ?_⟩
  · exact retired_closed (o := o) rfl hs (fun _ _ => rfl) (fun _ => rfl) (fun _ hlo hpe _ => flow_outside rfl hlo hpe) rfl hbusy rfl
  · exact (congrArg (·.wait.arrival) ((closed_ctx hbusy).trans (closeCtx_eq (ctl := o.ctl) hs fun _ => rfl))).trans rfl

theorem waitevOverruns {s : State} {g : Guard} {m : BitVec 16} (hg : g.ok = true) (hgh : Guard.holds g (s.ctx s.cur) = true)
    (hm : m ≠ 0) (hst : Stands (.waitev g m) s.cur s) (hu : Unheld s) (hno : (s.ctx s.cur).csr.evpend &&& m = 0)
    (hdue : (s.ctx s.cur).due = true) (hlate : (s.ctx s.cur).bud.maxrun.toNat < (s.ctx s.cur).bud.run.toNat) :
    TrapsOn s.cur (exec (.maxrunOverrun s.cur) s) s 0x09 0 0 := by
  have hwf : (Instr.waitev g m).wf = true := by simpa [Instr.wf, hg] using hm
  have hslot := slotWaitev_holds (m := m) hgh
  have hb := heldBundle_stands hst hu.running hu.whole hu.single
  rw [evalSlots_unmasked hu.unmasked hslot rfl] at hb
  have hheld : stillHeld (soloBundle (.waitev g m) s.cur s) [(s.cur, [(0, waitevOut g m (s.ctx s.cur))])] s = true :=
    stillHeld_unheld (h := .outside) hu (staticFault_plain hwf rfl) (congrArg Hold.free.join (if_pos hno)) (by decide) rfl
  have hrun : maxrunOverrun s.cur s = takeTrap s.cur (overrunTrap (soloBundle (.waitev g m) s.cur s)) s := by
    simp only [maxrunOverrun, hb]
    simp [hheld, hdue, hlate, trapBlock_single _ hu.running]
  show TrapsOn s.cur (.next (maxrunOverrun s.cur s)) s 0x09 0 0
  rw [hrun]
  exact trapsOn_takeTrap rfl rfl rfl

/-- The slot of a TAPRD whose guard holds reads the sample of its tap. -/
theorem slotTaprd_holds {s : State} {g : Guard} {rd : BitVec 6} {n : BitVec 7} {lag : BitVec 8}
    (h : Guard.holds g (s.ctx s.cur) = true) : ∃ o, slotOf (.taprd g rd n lag) s.cur s = o ∧ o.late (o.desc s) = none ∧
      o.uses = predUse g.pred ++ tapSamples (s.ctx s.cur) (resolve (s.ctx s.cur) n lag.toNat) ∧
      o.hold = if tapHold s s.cur (s.ctx s.cur) (resolve (s.ctx s.cur) n lag.toNat) then .unfilled else .free :=
  ⟨_, (rfl : slotOf (.taprd g rd n lag) s.cur s = guarded g (s.ctx s.cur) _).trans (guarded_of_holds h), rfl, rfl, rfl⟩

theorem taprdDeadlocks {s : State} {g : Guard} {rd : BitVec 6} {n : BitVec 7} {lag : BitVec 8}
    (hgh : Guard.holds g (s.ctx s.cur) = true) (hst : Stands (.taprd g rd n lag) s.cur s) (hu : Unheld s)
    (ht : (resolve (s.ctx s.cur) n lag.toNat).unfilled s s.cur (s.ctx s.cur) = true)
    (hlimit : (s.ctx s.cur).csr.tapwait.toNat ≤ (s.ctx s.cur).wait.tapCount) :
    TrapsOn s.cur (exec (.tapDeadlock s.cur) s) s 0x0E 0 (sigDetail n (some (resolve (s.ctx s.cur) n lag.toNat).idx)) := by
  obtain ⟨o, hslot, hlate, huses, hhold⟩ := slotTaprd_holds (rd := rd) (n := n) (lag := lag) hgh
  have hunf : o.hold = .unfilled := hhold.trans (if_pos (by simp [tapHold, ht]))
  obtain ⟨hlive, hopen⟩ := openSample_unfilled ht rfl
  have hawait : ∃ xs, slotAwaits (soloBundle (.taprd g rd n lag) s.cur s) (s.ctx s.cur) (0, o) =
      (n, (resolve (s.ctx s.cur) n lag.toNat).idx) :: xs := by
    have hsamples : ∃ rest, tapSamples (s.ctx s.cur) (resolve (s.ctx s.cur) n lag.toNat) =
        .sample n.toNat (resolve (s.ctx s.cur) n lag.toNat).idx :: rest := ⟨_, if_pos hlive⟩
    obtain ⟨rest, hrest⟩ := hsamples
    have hfirst : openSample (s.ctx s.cur) (.sample n.toNat (resolve (s.ctx s.cur) n lag.toNat).idx) =
        [(n, (resolve (s.ctx s.cur) n lag.toNat).idx)] := hopen
    simp only [slotAwaits, huses, hrest, List.flatMap_append, predUse_open, List.flatMap_cons, hfirst, List.nil_append,
      List.cons_append, List.append_assoc]
    exact ⟨_, rfl⟩
  obtain ⟨xs, hxs⟩ := hawait
  have hb := heldBundle_stands hst hu.running hu.whole hu.single
  rw [evalSlots_unmasked hu.unmasked hslot hlate] at hb
  have hrun : tapDeadlock s.cur s =
      takeTrap s.cur (deadlockTrap (soloBundle (.taprd g rd n lag) s.cur s) s.cur [(0, o)] s) s := by
    simp only [tapDeadlock, hb]
    simp [seatHold_unheld hu, hunf, Hold.join, hlimit, waiting_unheld hu, trapBlock_single _ hu.running]
  show TrapsOn s.cur (.next (tapDeadlock s.cur s)) s 0x0E 0 _
  rw [hrun, ← deadlockTrap_first hxs]
  exact trapsOn_takeTrap rfl rfl rfl

theorem fuseTimesOut {s : State} {k n : Nat} {ws : List Nat} (hn : 0 < n) (hp : (s.seat k).phase = .running)
    (hlimit : (s.ctx k).csr.tapwait.toNat ≤ (s.ctx k).wait.fuseCount) (ha : (s.ctx k).wait.arrival = some (.fuse n))
    (hm : memberSeat s (s.stepKey k) (s.memberNo k) = some k)
    (hothers : ∀ j ∈ blockOf n (s.memberNo k), j ≠ s.memberNo k → arrivedAs s (s.stepKey k) (.fuse n) j = false)
    (hf : fetch k (s.ctx k).pos.pc s = (.bundle ws, s)) :
    TrapsOn k (exec (.fuseTimeout k) s) s 0x11 0 (memberDetail (s.memberNo k)) := by
  have htrap : ∃ t : TrapIn, fuseTrapAt k (s.memberNo k) s = takeTrap k t s ∧ t.code = 0x11 ∧ t.detail0 = 0 ∧
      t.detail1 = memberDetail (s.memberNo k) ∧ t.bundle = (s.ctx k).pos.pc := by
    simp only [fuseTrapAt, hf]
    exact ⟨_, rfl, rfl, rfl, rfl, rfl⟩
  obtain ⟨t, ht, hcode, hd0, hd1, hbundle⟩ := htrap
  have hrun : fuseTimeout k s = takeTrap k t s := by
    simp only [fuseTimeout, hp, hlimit, decide_true, fuseExpire_alone hn ha hm hothers ht]
    rfl
  show TrapsOn k (.next (fuseTimeout k s)) s 0x11 0 _
  rw [hrun, ← hcode, ← hd0, ← hd1]
  exact trapsOn_takeTrap rfl rfl hbundle

/-- Settles O39: each step of a held bundle finds the one instruction that stands there, and what holds it. -/
theorem heldBundles : Obligations.HeldBundles := by
  intro s g hg hgh k c
  refine ⟨fun m hm hst hr => ?_, fun sc id rep hst hp hf hm hs hb _ ha => barReleases hgh hst hp hf hm hs hb ha,
    fun m hm hst hu hno hdue hin hlate => waitevOverruns hg hgh hm hst hu hno hdue hlate,
    fun rd n lag hsig hst hu => taprdDeadlocks hgh hst hu,
    fun n ws hn hp hlimit ha hm hothers hf => fuseTimesOut hn hp hlimit ha hm hothers hf⟩
  obtain ⟨hstall, hrelease⟩ := waitevHeld hg hm hst hr
  refine ⟨fun hno => ?_, fun hyes => ?_⟩
  · rw [hstall hno]
    exact waitevWaits s g m hg hm hr hno
  · rw [hrelease hyes]
    exact waitevPasses hg hm hr hyes

end Sys2Proof.Proofs
end

section
/-!
The way of a trap: the record, the results before it, asynchronous causes, the policies of firmware (R261, R265, R267,
R269, R270).
-/
namespace Sys2Proof.Machine
set_option Elab.async false
open Sys2Proof

variable {s u : State} {g : Guard} {k st m : Nat} {x : Cause} {f : Ctx → Ctx}

/-! Reads beside a write, in any map. -/

/-- What a map lists at a key stays under a write at another one. -/
theorem Sparse.get_set_listed {α : Type} [DecidableEq α] {d x : α} {m : Sparse α} {a b : Nat} (h : Sparse.get d m b ≠ d)
    (hb : b ≠ a) : Sparse.get d (Sparse.set d m a x) b = Sparse.get d m b := by
  induction m with
  | nil => exact absurd rfl h
  | cons e m ih =>
    obtain ⟨j, v⟩ := e
    have hge : j ≤ b := by
      by_contra hlt
      simp only [Sparse.get, if_neg (show b ≠ j by omega), if_pos (show b < j by omega)] at h
      exact h rfl
    rcases Nat.lt_trichotomy a j with ha | ha | ha
    · simp only [Sparse.set, ha, if_true]
      split
      · rfl
      · simp only [Sparse.get, if_neg hb, if_neg (show ¬ b < a by omega)]
    · subst ha
      simp only [Sparse.set, Nat.lt_irrefl, if_false, if_true]
      split <;> simp only [Sparse.get, if_neg hb, if_neg (show ¬ b < a by omega)]
    · simp only [Sparse.set, if_neg (show ¬ a < j by omega), if_neg (show a ≠ j by omega), Sparse.get]
      split
      · rfl
      · next hbj =>
        rw [if_neg (show ¬ b < j by omega), if_neg (show ¬ b < j by omega)]
        refine ih fun hd => h ?_
        simp only [Sparse.get, if_neg hbj, if_neg (show ¬ b < j by omega), hd]

theorem updMemberCtx_beside (hp : (s.seat k).phase ≠ .idle) (hm : memberSeat s st m ≠ some k) :
    (s.updMemberCtx st m f).seat k = s.seat k := by
  unfold State.updMemberCtx
  split
  · next j hj => exact Sparse.get_set_listed (Seat.ne_empty hp) fun he => hm (he ▸ hj)
  · rfl

theorem updMemberCtx_here (hp : (s.seat k).phase ≠ .idle) (hm : memberSeat s st m = some k) :
    (s.updMemberCtx st m f).seat k = { s.seat k with ctx := f (s.ctx k) } := by
  simp only [State.updMemberCtx, hm]
  exact State.seat_updCtx_same hp

/-! Events stand with the host (R453, R454). -/

theorem drainEvents_host : ∀ (n : Nat) (s : State), ∃ h, drainEvents n s = { s with host := h }
  | 0, s => ⟨s.host, rfl⟩
  | n + 1, s => by
    rw [drainEvents]
    split
    · exact ⟨s.host, rfl⟩
    · split
      · exact ⟨s.host, rfl⟩
      · obtain ⟨h, hh⟩ := drainEvents_host n (State.msix (hostStore _ _ { s with host := _ }) 1)
        exact ⟨h, hh⟩

theorem post_host {type die part : Nat} {payload : List Byte} : ∃ h, s.post type die part payload = { s with host := h } := by
  simp only [State.post]
  split
  · exact ⟨_, rfl⟩
  · obtain ⟨h, hh⟩ := drainEvents_host (s.host.kept ++ [(⟨type, die, part, payload⟩ : Event)]).length
      { s with host.kept := s.host.kept ++ [(⟨type, die, part, payload⟩ : Event)] }
    exact ⟨h, hh⟩

/-! The record of a software trap (R94, R265). -/

theorem trap_record {code : BitVec 16} (hw : g.ok = true) (h : Runs g 1 0 s) :
    ∃ v group, exec (.trap g code) s = .next v ∧ (v.ctx s.cur).trap =
      trapRecord (s.ctx s.cur) group (soloTrap (.trap g code) s.cur (cause 0x0F) s) := by
  have hexec : exec (.trap g code) s = _ :=
    issueOne_traps (guarded_of_holds h.guard) rfl h.can (staticFault_plain hw rfl) rfl rfl
  refine ⟨_, ?_, hexec, ?_⟩
  rotate_left
  · rw [State.ctx, takeTrap_seat]
    rfl

/-! Results before the record (R261). -/

/-- With no matrix result pending there is none to become final. -/
theorem mResultFinal_none (h : (s.ctx k).mx.pend = []) : mResultFinal k s = s := if_pos (by rw [h]; rfl)

/-- The flags of final results join FPST, and the others stay pending (R128). -/
def finalResults (now : Nat) (c : Ctx) : Ctx :=
  { c with
    csr.fpst := (c.mx.pend.filter fun x => decide (x.final ≤ now)).foldl (fun f x => f ||| x.flags) c.csr.fpst
    mx.pend := c.mx.pend.filter fun x => decide (now < x.final) }

theorem mResultFinal_some (h : (s.ctx k).mx.pend ≠ []) : mResultFinal k s = s.updCtx k (finalResults (s.clk k)) := by
  refine (if_neg ?_).trans rfl
  rw [List.isEmpty_iff]
  exact h

theorem takeTrapStep_stands (hp : (s.seat k).phase = .trapping) (hm : (s.ctx k).mx.pend = [])
    (hr : ∀ e ∈ (s.ctx k).ready, e.use = true ∨ e.final ≤ s.clk k) :
    takeTrapStep k s = s.updSeat k fun x => { x with phase := .trapped, ctx := { x.ctx with ready := [] } } := by
  have hquiet : quiet (s.ctx k) (s.clk k) = true := by
    rw [quiet, hm, Bool.and_eq_true, List.all_eq_true]
    exact ⟨rfl, fun e he => by simpa using hr e he⟩
  simp only [takeTrapStep, mResultFinal_none hm, hp, hquiet]
  rfl

theorem takeTrapStep_waits (hp : (s.seat k).phase = .trapping) (hm : ∃ e ∈ (s.ctx k).mx.pend, s.clk k < e.final) :
    takeTrapStep k s = s.updCtx k (finalResults (s.clk k)) := by
  obtain ⟨e, he, hlate⟩ := hm
  have hbusy : (s.seat k).phase ≠ .idle := by rw [hp]; decide
  have hopen : (finalResults (s.clk k) (s.ctx k)).mx.pend.isEmpty = false := by
    rw [Bool.eq_false_iff, ne_eq, List.isEmpty_iff]
    exact List.ne_nil_of_mem (List.mem_filter.mpr ⟨he, decide_eq_true hlate⟩)
  have hquiet : quiet ((s.updCtx k (finalResults (s.clk k))).ctx k) (s.clk k) = false := by
    rw [State.ctx_updCtx_same hbusy, quiet, hopen, Bool.false_and]
  simp only [takeTrapStep, mResultFinal_some (List.ne_nil_of_mem he), State.clk_updCtx, hquiet, Bool.and_false,
    Bool.false_eq_true, if_false]

/-! Asynchronous causes (R267). -/

theorem lowestCause_one : lowestCause [x] = some (x, []) := by
  have hlow : min 255 x.code.toNat = x.code.toNat := Nat.min_eq_right (by omega)
  simp [lowestCause, takeFirst, hlow]

/-- A cause that arrives at a running seat with none pending is taken at once. -/
theorem asynchronousCause_running (hp : (s.seat k).phase = .running) (hc : (s.ctx k).causes = [])
    (hb : barReleased (s.ctx k) = false) (hs : (s.seat k).split = none) :
    ∃ u, u.seat k = s.seat k ∧ u.mem = s.mem ∧ asynchronousCause k x s =
      takeTrap k { code := x.code, bundle := (s.ctx k).pos.pc, detail0 := x.detail0, detail1 := x.detail1, async := true } u := by
  have hbusy : (s.seat k).phase ≠ .idle := by rw [hp]; decide
  let v := s.updCtx k fun c => { c with causes := c.causes ++ [x] }
  have hctx : v.ctx k = { s.ctx k with causes := [x] } := by
    rw [State.ctx_updCtx_same hbusy, hc]
    rfl
  have hphase : (v.seat k).phase = .running := (State.phase_updCtx hbusy).trans hp
  have hsplit : (v.seat k).split = none := (congrArg Seat.split (State.seat_updCtx_same hbusy)).trans hs
  have hrel : barReleased (v.ctx k) = false := by rw [hctx]; exact hb
  refine ⟨v.updCtx k fun c => { c with causes := [] }, ?_, rfl, ?_⟩
  · have hback : v.updCtx k (fun c => { c with causes := [] }) = s.updCtx k fun c => { c with causes := [] } :=
      State.updCtx_updCtx hbusy
    rw [hback, State.seat_updCtx_same hbusy, ← hc]
    rfl
  · have hcauses : (v.ctx k).causes = [x] := congrArg Ctx.causes hctx
    have hpc : (v.ctx k).pos.pc = (s.ctx k).pos.pc := congrArg (·.pos.pc) hctx
    have hidle : ((s.seat k).phase == .idle) = false := by rw [hp]; rfl
    rw [asynchronousCause, hidle]
    show takeAsync k v = _
    simp only [takeAsync, hphase, hrel, hsplit, hcauses, lowestCause_one, hpc]
    rfl

/-- One that arrives at a seat that does not run is kept. -/
theorem asynchronousCause_kept (hp : (s.seat k).phase ≠ .running) (hi : (s.seat k).phase ≠ .idle) :
    asynchronousCause k x s = s.updCtx k fun c => { c with causes := c.causes ++ [x] } := by
  have hidle : ((s.seat k).phase == .idle) = false := beq_eq_false_iff_ne.mpr hi
  have hrun : (((s.updCtx k fun c => { c with causes := c.causes ++ [x] }).seat k).phase != .running) = true := by
    rw [State.phase_updCtx hi]
    exact bne_iff_ne.mpr hp
  rw [asynchronousCause, hidle]
  simp only [takeAsync, hrun, Bool.true_or, Bool.false_eq_true, if_false, if_true]

/-! Policies (R269, R270). -/

/-- The budgets of a member once what it is owed counts. -/
def paidBudget (c : Ctx) : Budget := { (c.giveBudget c.bud.owedI c.bud.owedT).1.bud with owedI := 0, owedT := 0 }

theorem settleOwed_none (hi : (s.memberCtx st m).bud.owedI = 0) (ht : (s.memberCtx st m).bud.owedT = 0) :
    settleOwed st m s = s := by simp [settleOwed, hi, ht]

theorem settleOwed_some (h : ¬ ((s.memberCtx st m).bud.owedI = 0 ∧ (s.memberCtx st m).bud.owedT = 0)) :
    ∃ p i t, settleOwed st m s =
      addReserve p i t (s.updMemberCtx st m fun _ => { s.memberCtx st m with bud := paidBudget (s.memberCtx st m) }) := by
  refine ⟨_, _, _, (if_neg ?_).trans rfl⟩
  simpa using h

/-- What the disposition pays a seat is its budget's; the rest of the seat stands. -/
theorem settleOwed_seat (hp : (s.seat k).phase ≠ .idle) :
    ∃ b, (settleOwed st m s).seat k = { s.seat k with ctx := { s.ctx k with bud := b } } ∧
      ((s.ctx k).bud.owedI = 0 → (s.ctx k).bud.owedT = 0 → b = (s.ctx k).bud) ∧
      (memberSeat s st m = some k → b.ibud = capAdd (s.ctx k).bud.ibud (s.ctx k).bud.owedI ∧
        b.tbud = capAdd (s.ctx k).bud.tbud (s.ctx k).bud.owedT) := by
  by_cases hm : memberSeat s st m = some k
  · have hctx : s.memberCtx st m = s.ctx k := by simp only [State.memberCtx, hm]
    by_cases howed : (s.ctx k).bud.owedI = 0 ∧ (s.ctx k).bud.owedT = 0
    · obtain ⟨hi, ht⟩ := howed
      refine ⟨(s.ctx k).bud, ?_, fun _ _ => rfl, fun _ => ?_⟩
      · rw [settleOwed_none (by rw [hctx, hi]) (by rw [hctx, ht])]
        rfl
      · rw [hi, ht, capAdd_zero, capAdd_zero]
        exact ⟨rfl, rfl⟩
    · obtain ⟨p, i, t, hpaid⟩ := settleOwed_some (s := s) (st := st) (m := m) (by rw [hctx]; exact howed)
      refine ⟨paidBudget (s.ctx k), ?_, fun hi ht => absurd ⟨hi, ht⟩ howed, fun _ => ⟨rfl, rfl⟩⟩
      rw [hpaid, hctx]
      exact updMemberCtx_here hp hm
  · refine ⟨(s.ctx k).bud, ?_, fun _ _ => rfl, fun he => absurd he hm⟩
    by_cases howed : (s.memberCtx st m).bud.owedI = 0 ∧ (s.memberCtx st m).bud.owedT = 0
    · rw [settleOwed_none howed.1 howed.2]
      rfl
    · obtain ⟨p, i, t, hpaid⟩ := settleOwed_some howed
      rw [hpaid]
      exact (updMemberCtx_beside hp hm).trans rfl

theorem settleOwed_mem : (settleOwed st m s).mem = s.mem ∧ (settleOwed st m s).cores = s.cores ∧
    (settleOwed st m s).tasks = s.tasks := by
  by_cases howed : (s.memberCtx st m).bud.owedI = 0 ∧ (s.memberCtx st m).bud.owedT = 0
  · rw [settleOwed_none howed.1 howed.2]
    exact ⟨rfl, rfl, rfl⟩
  · obtain ⟨p, i, t, hpaid⟩ := settleOwed_some howed
    rw [hpaid]
    unfold State.updMemberCtx
    split <;> exact ⟨rfl, rfl, rfl⟩

/-- The step of the member keeps its task. -/
theorem settleOwed_task : ((settleOwed st m s).step1 st).task = (s.step1 st).task := by
  by_cases howed : (s.memberCtx st m).bud.owedI = 0 ∧ (s.memberCtx st m).bud.owedT = 0
  · rw [settleOwed_none howed.1 howed.2]
  · obtain ⟨p, i, t, hpaid⟩ := settleOwed_some howed
    rw [hpaid]
    unfold State.updMemberCtx
    split
    · rfl
    · next hseat =>
      refine (congrArg Step.task (Sparse.get_set_same fun he => howed ?_)).trans rfl
      have hgone : (s.step1 st).members = [] :=
        List.length_eq_zero_iff.mp ((Sole.modifyAt_length _ _).symm.trans (congrArg (List.length ∘ Step.members) he))
      simp only [State.memberCtx, hseat, hgone]
      exact ⟨rfl, rfl⟩

/-- A partition that is not the empty one keeps its swaps. -/
theorem settleOwed_swapped {p : Nat} (hpart : ∀ i t : Word, { s.part p with ibud := i, tbud := t } ≠ ({} : Part)) :
    ((settleOwed st m s).part p).swapped = (s.part p).swapped := by
  have hreserve : ∀ q i t (v : State), v.parts = s.parts → ((addReserve q i t v).part p).swapped = (s.part p).swapped := by
    intro q i t v hv
    have hsame : v.part p = s.part p := by rw [State.part, State.part, hv]
    by_cases hq : p = q
    · subst hq
      refine (congrArg Part.swapped (Sparse.get_set_same ?_)).trans (congrArg Part.swapped hsame :)
      rw [hsame]
      exact hpart _ _
    · refine (congrArg Part.swapped (Sparse.get_set_listed ?_ hq)).trans (congrArg Part.swapped hsame)
      show v.part p ≠ {}
      rw [hsame]
      exact hpart (s.part p).ibud (s.part p).tbud
  by_cases howed : (s.memberCtx st m).bud.owedI = 0 ∧ (s.memberCtx st m).bud.owedT = 0
  · rw [settleOwed_none howed.1 howed.2]
  · obtain ⟨p, i, t, hpaid⟩ := settleOwed_some howed
    rw [hpaid]
    refine hreserve _ _ _ _ ?_
    unfold State.updMemberCtx
    split <;> rfl

/-- What a disposition reads of a seat whose trap is no convoy abort. -/
theorem not_stopsForOther (h : trapCode (s.ctx k) ≠ 0x0D) : stopsForOther k s = false := by
  rw [stopsForOther, beq_eq_false_iff_ne.mpr h, Bool.false_and]

/-- Policy 11 on a seat alone lets it go on (R270). -/
theorem trapDisposition_retry (hp : (s.seat k).phase = .trapped) (hpol : trapPolicyOf k s = 3)
    (hcode : trapCode (s.ctx k) ∈ [0x0E, 0x0F]) : trapDisposition k s = resumeTrapped k 0 s := by
  have hno : trapCode (s.ctx k) ≠ 0x0D ∧ trapCode (s.ctx k) ≠ 0x0B := by
    simp only [List.mem_cons, List.not_mem_nil, or_false] at hcode
    omega
  have hretry : Dispose.retry.allowed (trapCode (s.ctx k)) false = true := by
    simp only [List.mem_cons, List.not_mem_nil, or_false] at hcode
    rcases hcode with h | h <;> simp [Dispose.allowed, h]
  have hres : resolvable k s = (true, s) := if_pos hno.2
  simp only [trapDisposition, hp, not_stopsForOther hno.1, hpol, hretry, hres]
  rfl

/-- Policy 10 holds it for the host, where its cause allows that (R269). -/
theorem trapDisposition_hold (hp : (s.seat k).phase = .trapped) (hpol : trapPolicyOf k s = 2)
    (hcode : trapCode (s.ctx k) ∈ [0x0B, 0x0E, 0x0F, 0x12]) : trapDisposition k s = holdTrapped k s := by
  have hno : trapCode (s.ctx k) ≠ 0x0D := by
    simp only [List.mem_cons, List.not_mem_nil, or_false] at hcode
    omega
  have hhold : mayHold (trapCode (s.ctx k)) = true := by
    rw [mayHold, List.contains_iff_mem]
    exact hcode
  simp only [trapDisposition, hp, not_stopsForOther hno, hpol, hhold]
  rfl

/-- A policy that is not the default is one of a partition that is not the empty one. -/
theorem part_ne_empty (hpol : trapPolicyOf k s = 3) (i t : Word) : { s.part (s.partOf k) with ibud := i, tbud := t } ≠ ({} : Part) := by
  intro he
  have hnone : (s.part (s.partOf k)).policies = [] := congrArg Part.policies he
  simp only [trapPolicyOf, hnone, Sparse.get] at hpol
  split at hpol <;> simp at hpol

theorem seat_retryTrap {mask : BitVec 8} : (retryTrap k mask s).seat k =
    { s.seat k with phase := .running, ctx := { s.ctx k with maskOnce := mask, wait := (s.ctx k).wait.leave } } := by
  rw [retryTrap, State.seat, freezeStreams_seats]
  exact State.seat_setSeat_same (Seat.ne_empty (by simp))

theorem aside_freezeStreams : (freezeStreams k s).cores = s.cores ∧ (freezeStreams k s).parts = s.parts ∧
    (freezeStreams k s).tasks = s.tasks ∧ (freezeStreams k s).steps = s.steps := by
  unfold freezeStreams
  split <;> exact ⟨rfl, rfl, rfl, rfl⟩

/-- A seat that goes on where nothing halts it is not recalled. -/
theorem recallHalted_free (hc : (s.core (coreOf k)).retired = false)
    (hp : (s.part (s.partOf k)).swapped.getLsbD (dieOf k) = false) : recallHalted k s = s := by
  rw [recallHalted, hc, hp]
  rfl

/-- The seat of a trap goes on at the recorded position, with what it is owed. -/
theorem resumeTrapped_eq (hp : (s.seat k).phase = .trapped) (hpol : trapPolicyOf k s = 3)
    (hc : (s.core (coreOf k)).retired = false) (hsw : (s.part (s.partOf k)).swapped.getLsbD (dieOf k) = false) :
    resumeTrapped k 0 s = retryTrap k 0 (settleOwed (s.stepKey k) (s.memberNo k) s) := by
  have hbusy : (s.seat k).phase ≠ .idle := by rw [hp]; decide
  let u := settleOwed (s.stepKey k) (s.memberNo k) s
  obtain ⟨b, hseat, -, -⟩ := settleOwed_seat (st := s.stepKey k) (m := s.memberNo k) hbusy
  obtain ⟨-, hcores, htasks⟩ := settleOwed_mem (s := s) (st := s.stepKey k) (m := s.memberNo k)
  obtain ⟨hfc, hfp, hft, hfs⟩ := aside_freezeStreams (k := k)
    (s := u.updSeat k fun x => { x with phase := .running, ctx := { x.ctx with maskOnce := 0, wait := x.ctx.wait.leave } })
  have hkey : (retryTrap k 0 u).stepKey k = s.stepKey k := by
    rw [State.stepKey, seat_retryTrap, hseat]
    rfl
  have hpart : (retryTrap k 0 u).partOf k = s.partOf k := by
    have htask : ((retryTrap k 0 u).step1 (s.stepKey k)).task = (s.step1 (s.stepKey k)).task :=
      (congrArg (fun l => (Sparse.get ({} : Step) l (s.stepKey k)).task) hfs).trans settleOwed_task
    rw [State.partOf, State.partOf, State.taskKey, State.taskKey, hkey, htask]
    exact congrArg (fun l => (Sparse.get ({} : Task) l _).part) (hft.trans htasks)
  refine recallHalted_free ?_ ?_
  · exact (congrArg (fun l => (Sparse.get ({} : Core) l (coreOf k)).retired) (hfc.trans hcores)).trans hc
  · rw [hpart, ← hsw]
    exact (congrArg (fun l => (Sparse.get ({} : Part) l (s.partOf k)).swapped.getLsbD (dieOf k)) hfp).trans
      (congrArg (·.getLsbD (dieOf k)) (settleOwed_swapped (part_ne_empty hpol)))

end Sys2Proof.Machine
namespace Sys2Proof.Proofs
set_option Elab.async false
open Sys2Proof Sys2Proof.Machine

/-- Settles O40: each step of the way, from the seat that it leaves. -/
theorem trapFlow : Obligations.TrapFlow := by
  intro s k c stands stays
  refine ⟨fun g code hg hk hr => ?_, fun hp hm hr => ?_, fun hp hm => ?_, fun x hp hc hb hs => ?_, fun x hp hi => ?_,
    fun hp hpol hcode hc hsw => ?_, fun hp hpol hcode => ?_, fun hi hm => ?_⟩
  · subst hk
    obtain ⟨v, group, hexec, htrap⟩ := trap_record hg hr
    exact ⟨v, hexec, by rw [htrap]; rfl, by rw [htrap]; rfl, by rw [htrap]; rfl, by rw [htrap]; rfl, by rw [htrap]; rfl,
      by rw [htrap]; rfl⟩
  · have hseat : (takeTrapStep k s).seat k = { s.seat k with phase := .trapped, ctx := { s.ctx k with ready := [] } } := by
      rw [takeTrapStep_stands hp hm hr]
      exact State.seat_setSeat_same (Seat.ne_empty (by simp))
    have hctx : (takeTrapStep k s).ctx k = { s.ctx k with ready := [] } := congrArg Seat.ctx hseat
    refine ⟨_, rfl, ⟨(congrArg Seat.phase hseat).trans rfl, ?_⟩, (congrArg Ctx.bud hctx).trans rfl⟩
    exact ⟨(congrArg Ctx.regs hctx).trans rfl, (congrArg Ctx.pos hctx).trans rfl, (congrArg Ctx.trap hctx).trans rfl, by rw [takeTrapStep_stands hp hm hr]; rfl⟩
  · have hbusy : (s.seat k).phase ≠ .idle := by rw [hp]; decide
    have hctx : (takeTrapStep k s).ctx k = finalResults (s.clk k) (s.ctx k) := by
      rw [takeTrapStep_waits hp hm]
      exact State.ctx_updCtx_same hbusy
    refine ⟨_, rfl, ⟨?_, ?_⟩, (congrArg Ctx.bud hctx).trans rfl⟩
    · rw [takeTrapStep_waits hp hm]
      exact (State.phase_updCtx hbusy).trans hp
    · exact ⟨(congrArg Ctx.regs hctx).trans rfl, (congrArg Ctx.pos hctx).trans rfl, (congrArg Ctx.trap hctx).trans rfl, by rw [takeTrapStep_waits hp hm]; rfl⟩
  · obtain ⟨u, hseat, hmem, htaken⟩ := asynchronousCause_running (x := x) hp hc hb hs
    show TrapsOn k (.next (asynchronousCause k x s)) s x.code x.detail0 x.detail1
    rw [htaken]
    exact trapsOn_takeTrap hseat hmem rfl
  · exact congrArg Host.Outcome.next (asynchronousCause_kept hp hi)
  · have hbusy : (s.seat k).phase ≠ .idle := by rw [hp]; decide
    obtain ⟨b, hseat, hnone, hsome⟩ := settleOwed_seat (st := s.stepKey k) (m := s.memberNo k) hbusy
    have hexec : exec (.trapDisposition k) s = .next (retryTrap k 0 (settleOwed (s.stepKey k) (s.memberNo k) s)) := by
      rw [← resumeTrapped_eq hp hpol hc hsw, ← trapDisposition_retry hp hpol hcode]
      rfl
    have hback := seat_retryTrap (k := k) (mask := 0) (s := settleOwed (s.stepKey k) (s.memberNo k) s)
    rw [State.ctx, hseat] at hback
    have hctx := congrArg Seat.ctx hback
    refine ⟨_, hexec, ⟨(congrArg Seat.phase hback).trans rfl, (congrArg Ctx.regs hctx).trans rfl, (congrArg Ctx.pos hctx).trans rfl, (congrArg Ctx.trap hctx).trans rfl, ?_⟩,
      ⟨fun hi ht => ?_, fun hm => ?_⟩, (congrArg Ctx.maskOnce hctx).trans rfl⟩
    · refine Eq.trans ?_ (settleOwed_mem (st := s.stepKey k) (m := s.memberNo k)).1
      rw [retryTrap, freezeStreams_mem]
      rfl
    · exact (congrArg Ctx.bud hctx).trans (hnone hi ht)
    · obtain ⟨hib, htb⟩ := hsome hm
      exact ⟨(congrArg (·.bud.ibud) hctx).trans hib, (congrArg (·.bud.tbud) hctx).trans htb⟩
  · have hseat : (holdTrapped k s).seat k = { s.seat k with phase := .trapHeld } := by
      rw [holdTrapped, aside_post.seat]
      exact State.seat_setSeat_same (Seat.ne_empty (by simp))
    have hctx : (holdTrapped k s).ctx k = s.ctx k := (congrArg Seat.ctx hseat).trans rfl
    refine ⟨holdTrapped k s, ?_, ⟨(congrArg Seat.phase hseat).trans rfl, ?_⟩, (congrArg Ctx.bud hctx).trans rfl⟩
    · rw [← trapDisposition_hold hp hpol hcode]
      rfl
    · refine ⟨(congrArg Ctx.regs hctx).trans rfl, (congrArg Ctx.pos hctx).trans rfl, (congrArg Ctx.trap hctx).trans rfl, ?_⟩
      obtain ⟨h, hh⟩ := post_host (s := s.updSeat k fun x => { x with phase := .trapHeld }) (type := 2) (die := dieOf k)
        (part := s.partOf k) (payload := _)
      exact (congrArg State.mem hh).trans rfl
  · have hctx : (mResultFinal k s).ctx k = finalResults (s.clk k) (s.ctx k) := by
      rw [mResultFinal_some hm]
      exact State.ctx_updCtx_same hi
    exact ⟨_, rfl, congrArg (·.mx.pend) hctx, congrArg (·.csr.fpst) hctx, (congrArg Ctx.regs hctx).trans rfl, by rw [mResultFinal_some hm]; rfl⟩

end Sys2Proof.Proofs
end

section
/-!
O41. Lone says nothing of the form of the map of the cores. Where that map lists core 0 twice, first as an empty core and
then as a retired one, the resume writes core 0, the empty entry goes, and the seat finds itself on a retired core: it is
recalled at once, and its budget is 0 again (R104, R289).
-/
namespace Sys2Proof.Machine
set_option Elab.async false
open Sys2Proof

/-- Seat 0 is being restored with a budget of 5; core 0 stands twice in the map of the cores. -/
def twiceListed : State :=
  { seats := [(0, { phase := .restoring, step := some (0, 0), ctx := { bud := { ibud := 5 } } })]
    cores := [(0, {}), (0, { retired := true })]
    steps := [(0, { present := true, members := [{ place := .onSeat 0 }] })] }

theorem lone_twiceListed : Lone 0 twiceListed where
  here := ⟨0, rfl⟩
  place := rfl
  one := rfl
  present := rfl
  convoy := rfl
  handles := rfl
  chans := rfl
  proxies := rfl
  near := rfl
  accs := rfl
  streams := rfl
  ghosts := rfl
  waiting := rfl
  calm := rfl
  unflipped := rfl
  form := ⟨rfl, rfl, rfl⟩

/-- The budget of seat 0 in an outcome. -/
def seatBudget : Out → Int
  | .next t => (t.ctx 0).bud.ibud.toInt
  | _ => 0

/-- The model recalls the seat that it has just resumed. -/
theorem seatBudget_twiceListed : seatBudget (exec (.contextRestore 0) twiceListed) = 0 := by decide +kernel

end Sys2Proof.Machine
namespace Sys2Proof.Proofs
set_option Elab.async false
open Sys2Proof Sys2Proof.Machine

/-- Refutes O41: with a core listed twice, a resume that the statement says keeps its budget of 5 is recalled to 0. -/
theorem not_yields : ¬ Obligations.Yields := by
  intro h
  obtain ⟨-, -, -, hrestore, -⟩ := h twiceListed 0 lone_twiceListed
  obtain ⟨t, hexec, -, -, -, -, -, hbud, -⟩ := hrestore rfl rfl nofun (by decide) rfl rfl
  have hmodel : (t.ctx 0).bud.ibud.toInt = 0 := by
    have := seatBudget_twiceListed
    rwa [hexec] at this
  rw [hbud] at hmodel
  exact absurd hmodel (by decide)

end Sys2Proof.Proofs
end

section
/-!
Events that latch, spare cores, mirrors and streams (R73, R88, R89, R289, R293 to R296).
-/
namespace Sys2Proof.Machine
set_option Elab.async false
open Sys2Proof

variable {s u : State} {k q src dst : Nat} {n : BitVec 7} {x : Stream} {e : EvMsg}

/-! Events (R73, R88, R89). -/

section
variable (hp : (s.step1 e.step).present = true) (hu : (s.step1 e.step).uid = e.uid)
include hp hu

theorem event_known : (!(s.step1 e.step).present || (s.step1 e.step).uid != e.uid) = false := by
  rw [hp, hu]
  simp

/-- An event latches at its member where that is on a seat. -/
theorem deliverEvent_onSeat (hm : ((s.step1 e.step).members[e.member]?).map (·.place) = some (.onSeat k)) :
    deliverEvent e s = s.updCtx k fun c => { c with
      csr.evpend := c.csr.evpend ||| (1 <<< e.ev.toNat), csr.evNew := c.csr.evNew ||| (1 <<< e.ev.toNat) } := by
  simp only [deliverEvent, event_known hp hu, hm]
  rfl

theorem deliverEvent_away (hm : ((s.step1 e.step).members[e.member]?).map (·.place) = some .away) :
    deliverEvent e s = s.updMember e.step e.member fun m =>
      { m with ctx.csr.evHeld := m.ctx.csr.evHeld ||| (1 <<< e.ev.toNat) } := by
  simp only [deliverEvent, event_known hp hu, hm]
  rfl

theorem deliverEvent_gone (hm : ((s.step1 e.step).members[e.member]?).map (·.place) = some .unplaced ∨
    ((s.step1 e.step).members[e.member]?).map (·.place) = some .ended ∨
    ((s.step1 e.step).members[e.member]?).map (·.place) = none) :
    deliverEvent e s = s.updMemberCtx (e.src / 16) (e.src % 16) fun c => { c with bud.evlost := true } := by
  rcases hm with hm | hm | hm <;>
  · simp only [deliverEvent, event_known hp hu, hm]
    rfl

end

/-- One that does not is lost. -/
theorem deliverEvent_lost (h : (s.step1 e.step).present = false ∨ (s.step1 e.step).uid ≠ e.uid) :
    deliverEvent e s = s.updMemberCtx (e.src / 16) (e.src % 16) fun c => { c with bud.evlost := true } := by
  have hunknown : (!(s.step1 e.step).present || (s.step1 e.step).uid != e.uid) = true := by
    rcases h with h | h
    · rw [h]; rfl
    · rw [bne_iff_ne.mpr h, Bool.or_true]
  simp only [deliverEvent, hunknown, if_true]

/-! Spares (R289). -/

theorem spareMap_takes {c : Nat} (hc : c < 256) (hr : (s.core c).retired = true) (he : coreEmpty s c = true)
    (hl : (s.die (c / 64)).sparesLeft ≠ 0) :
    ∃ t, exec (.spareMap c) s = .next t ∧ (t.core c).retired = false ∧ (t.core c).failed = false ∧
      (t.core c).slotmap = 0x144 ∧ (t.core c).line = [] ∧
      t.dies = (s.updDie (c / 64) fun y => { y with sparesLeft := y.sparesLeft - 1 }).dies ∧
      t.seats = s.seats ∧ t.mem = s.mem := by
  have hfit : (!(s.core c).retired || !coreEmpty s c || decide (256 ≤ c)) = false := by
    rw [hr, he, decide_eq_false (by omega)]
    rfl
  let y : Core := { clk := (s.core c).clk, slotmap := 0x144, phys := 68 - (s.die (c / 64)).sparesLeft }
  have hstep : exec (.spareMap c) s = .next ((s.setCore c y).updDie (c / 64) fun z => { z with sparesLeft := z.sparesLeft - 1 }) := by
    show Host.Outcome.next (spareMap c s) = _
    simp only [spareMap, hfit, Bool.false_eq_true, if_false, if_neg hl]
    rfl
  have hcore : (s.setCore c y).core c = y := Sparse.get_set_same fun hy => by
    have : (0x144 : BitVec 32) = ({} : Core).slotmap := congrArg Core.slotmap hy
    exact absurd this (by decide)
  exact ⟨_, hstep, congrArg Core.retired hcore, congrArg Core.failed hcore, congrArg Core.slotmap hcore,
    congrArg Core.line hcore, rfl, rfl, rfl⟩

/-! Mirrors (R293, R294). -/

theorem dropGhosts_none {d st m : Nat} {p : Ghost → Bool} (h : (s.die d).ghosts = []) : dropGhosts d st m p s = s :=
  if_pos (by rw [h]; rfl)

/-- A mirror whose next sample its source still holds fills nothing at once. -/
theorem fillOld_live {f : Nat} (h : oldestLive ((s.ctx src).sg n) ≤ ((s.ctx dst).sg n).fillMark + 1) :
    fillOld src dst n f s = s := by
  cases f with
  | zero => rfl
  | succ f =>
    have hnot : decide (((s.ctx dst).sg n).fillMark + 1 < oldestLive ((s.ctx src).sg n)) = false := decide_eq_false (by omega)
    simp only [fillOld]
    split
    · rfl
    · simp only [hnot, Bool.false_and, Bool.false_eq_true, if_false]

/-- An unconnected mirror connects to the first seat that can be its source. -/
theorem mirrorSourceSearch_connects (hp : (s.seat k).phase = .running) (hs : (s.seat k).step.isSome = true)
    (hg : ((s.ctx k).sg n).present = true) (hf : ((s.ctx k).sg n).feed = 2) (hno : (s.die (dieOf k)).ghosts = [])
    (hfree : ∀ x ∈ (s.die (dieOf k)).streams, ¬(x.dst = k ∧ x.sig = n.toNat))
    (hq : ((mirrorCores (coreOf k % 64)).map (seatOnCore k)).find? (canExport s k n) = some q) :
    mirrorSourceSearch k n s = connectStream q k n s := by
  have hun : unconnected s k n = true := by
    rw [unconnected, Bool.not_eq_true', List.any_eq_false]
    intro x hx hmatch
    exact hfree x hx (by simpa using hmatch)
  have hcond : ((s.seat k).phase == .running && (s.seat k).step.isSome && ((s.ctx k).sg n).present &&
      ((s.ctx k).sg n).feed == 2 && unconnected s k n) = true := by
    rw [hp, hs, hg, hf, hun]
    rfl
  simp only [mirrorSourceSearch, hcond, if_true, hq, dropGhosts_none hno]

/-! Samples on the way (R294 to R297). -/

theorem sendSample_sent (hfrozen : x.frozen = false) (hc : x.carry = none) (hp : x.permits ≠ 0)
    (hlive : oldestLive ((s.ctx x.src).sg (BitVec.ofNat 7 x.sig)) ≤ ((s.ctx x.dst).sg (BitVec.ofNat 7 x.sig)).fillMark + 1)
    (hthere : ((s.ctx x.dst).sg (BitVec.ofNat 7 x.sig)).fillMark + 1 ≤ ((s.ctx x.src).sg (BitVec.ofNat 7 x.sig)).fillMark)
    (hfinal : sampleFinal s x.src (BitVec.ofNat 7 x.sig) (((s.ctx x.dst).sg (BitVec.ofNat 7 x.sig)).fillMark + 1) = true) :
    sendSample x s =
      let sig := BitVec.ofNat 7 x.sig
      let a := (s.ctx x.src).sg sig
      let i := ((s.ctx x.dst).sg sig).fillMark + 1
      let body := sourceUnits s x.src (s.ctx x.src) ⟨sig, a, 0, 0, i⟩ (min a.width.toNat ((s.ctx x.dst).sg sig).width.toNat)
      updStream x.src x.dst x.sig (fun y =>
        { y with permits := y.permits - 1, carry := some i.toNat, units := body.1, poison := body.2 }) s := by
  have hready : (x.frozen || x.carry.isSome || x.permits == 0) = false := by
    rw [hfrozen, hc, beq_eq_false_iff_ne.mpr hp]
    rfl
  have hstay : ¬ ((decide (((s.ctx x.dst).sg (BitVec.ofNat 7 x.sig)).fillMark + 1 >
      ((s.ctx x.src).sg (BitVec.ofNat 7 x.sig)).fillMark) ||
      !sampleFinal s x.src (BitVec.ofNat 7 x.sig) (((s.ctx x.dst).sg (BitVec.ofNat 7 x.sig)).fillMark + 1)) = true) := by
    rw [hfinal, decide_eq_false (by omega)]
    exact Bool.false_ne_true
  simp only [sendSample, hready, Bool.false_eq_true, if_false, if_neg (show ¬ _ < _ from not_lt.mpr hlive), if_neg hstay]

theorem setLines_seats {g : Sig} {i : Int} : ∀ (us : List (UnitW × Nat)) (s : State),
    let t := us.foldl (fun v u => v.setLine k (v.unitOf k g (g.slotOf i) u.2) u.1) s
    t.seats = s.seats ∧ t.mem = s.mem
  | [], _ => ⟨rfl, rfl⟩
  | y :: us, s => setLines_seats us (s.setLine k (s.unitOf k g (g.slotOf i) y.2) y.1)

theorem markPoison_fold {b : Nat} : ∀ (us : List Nat) (c : Ctx),
    (us.foldl (fun c u => c.markPoison n b u true) c).sg n = c.sg n ∧
      (us.foldl (fun c u => c.markPoison n b u true) c).regs = c.regs
  | [], _ => ⟨rfl, rfl⟩
  | y :: us, c => markPoison_fold us (c.markPoison n b y true)

theorem setSg_sg_present {c : Ctx} {g : Sig} {i : Int} (h : g.present = true) : (c.setSg n (g.setFill i)).sg n = g.setFill i :=
  Sparse.get_set_same fun he => by
    have hwidth : g.width = 0 := congrArg Sig.width he
    rw [Sig.present, hwidth] at h
    cases h

/-- A message that has landed on a seat counts in its signal, and leaves its registers and the memory alone. -/
theorem landMessage_counts {i : Int} {us : List UnitW} {poison : BitVec 128} (hp : (s.seat k).phase ≠ .idle)
    (hg : ((s.ctx k).sg n).present = true) :
    let t := landMessage k n i us poison s
    (t.ctx k).sg n = ((s.ctx k).sg n).setFill i ∧ (t.ctx k).regs = (s.ctx k).regs ∧ t.mem = s.mem := by
  obtain ⟨hseats, hmem⟩ := setLines_seats (k := k) (g := (s.ctx k).sg n) (i := i) us.zipIdx s
  let g := (s.ctx k).sg n
  let v := us.zipIdx.foldl (fun v u => v.setLine k (v.unitOf k g (g.slotOf i) u.2) u.1) s
  let bad := (List.range us.length).filter fun u => poison.getLsbD u
  let marks := fun (c : Ctx) => bad.foldl (fun c u => c.markPoison n (((s.ctx k).sg n).slotOf i) u true) c
  have hseat : v.seat k = s.seat k := congrArg (fun l => Sparse.get ({} : Seat) l k) hseats
  have hbusy : (v.seat k).phase ≠ .idle := by rw [hseat]; exact hp
  have hland : landMessage k n i us poison s = v.updCtx k fun c => (marks c).setSg n (((marks c).sg n).setFill i) :=
    State.updCtx_updCtx (f := marks) (g := fun c => c.setSg n ((c.sg n).setFill i)) hbusy
  obtain ⟨hsg, hregs⟩ := markPoison_fold (n := n) (b := ((s.ctx k).sg n).slotOf i) bad (s.ctx k)
  have hctx : (landMessage k n i us poison s).ctx k = (marks (s.ctx k)).setSg n (((s.ctx k).sg n).setFill i) := by
    rw [hland, State.ctx_updCtx_same hbusy, State.ctx, hseat, ← State.ctx, hsg]
  refine ⟨?_, ?_, ?_⟩
  · rw [hctx]
    exact setSg_sg_present hg
  · rw [hctx]
    exact hregs
  · rw [hland]
    exact hmem

end Sys2Proof.Machine
namespace Sys2Proof.Proofs
set_option Elab.async false
open Sys2Proof Sys2Proof.Machine

theorem eventsLatch : Claims.EventsLatch := by
  intro s n e he u x place lost
  have hstep : exec (.eventLatch n) s = .next (deliverEvent e u) := by
    show Host.Outcome.next (eventLatch n s) = _
    simp only [eventLatch, he]
    rfl
  refine ⟨fun hp hu => ⟨fun k hk => ?_, fun ha => ?_, fun hg => ?_⟩, fun hun => ?_⟩
  · rw [hstep, deliverEvent_onSeat (s := u) hp hu hk]
  · rw [hstep, deliverEvent_away (s := u) hp hu ha]
  · exact hstep.trans (congrArg Host.Outcome.next (deliverEvent_gone (s := u) hp hu hg))
  · exact hstep.trans (congrArg Host.Outcome.next (deliverEvent_lost (s := u) hun))

theorem streams : Claims.Streams := by
  refine ⟨fun s c hc hr he hl => spareMap_takes hc hr he hl, ?_, ?_⟩
  · intro s k q n hw hp hs g hg hf hno hfree hq hlive
    show Host.Outcome.next (mirrorSourceSearch k n s) = _
    rw [mirrorSourceSearch_connects hp hs hg hf hno hfree hq]
    exact congrArg Host.Outcome.next (fillOld_live hlive)
  intro s d n x hx hfrozen hd sig src g i
  refine ⟨fun hc hp hlive hthere hfinal => ?_, fun j hj hp hg => ?_⟩
  · show Host.Outcome.next (streamSampleSend d n s) = _
    simp only [streamSampleSend, hx]
    rw [sendSample_sent hfrozen hc hp hlive hthere hfinal]
  · have hstep : exec (.streamSampleArrival d n) s = .next (landStream x j x.poison (updStream x.src x.dst x.sig (fun y =>
        { y with carry := none, units := [], poison := 0 }) s)) := by
      show Host.Outcome.next (streamSampleArrival d n s) = _
      simp only [streamSampleArrival, hx, hj, hfrozen]
      rfl
    obtain ⟨hsg, hregs, hmem⟩ := landMessage_counts (s := updStream x.src x.dst x.sig (fun y =>
        { y with carry := none, units := [], poison := 0 }) s) (i := j) (poison := x.poison)
        (us := (x.units ++ List.replicate _ 0).take _) hp hg
    exact ⟨_, hstep, hmem, hsg, hregs⟩

/-- Settles O42. -/
theorem eventsAndStreams : Obligations.EventsAndStreams := ⟨eventsLatch, streams⟩

end Sys2Proof.Proofs
end

section
/-!
Doorbells and registers (R63, R288, R319, R446, R449, R454, R463, R465).
-/
namespace Sys2Proof.Machine
set_option Elab.async false
open Sys2Proof

variable {s : State} {d : Nat}

theorem wakeDie_awake (hp : (s.die d).pstate = 0) (hr : s.host.selfRefresh = false) : s.wakeDie d = s :=
  if_pos (by rw [hp, hr]; rfl)

theorem syncDie_host (d : Nat) : ∀ (n : Nat) (s : State), (syncDie d n s).host = s.host
  | 0, _ => rfl
  | n + 1, s => by
    rw [syncDie]
    split
    · exact syncDie_host d n _
    · rfl

theorem sync_host : (s.sync d).host = s.host := syncDie_host d _ s

section
variable {n : Nat} {t : BitVec 32}

/-- A doorbell of a die that is awake, outside a reset. -/
theorem doorbellTailWrite_awake (hr : s.host.resetting = false) (hp : (s.die d).pstate = 0)
    (hs : s.host.selfRefresh = false) :
    doorbellTailWrite d n t s =
      let q := d * 65536 + n
      let x := s.queue q
      let u := s.sync d
      if x.present = false then u
      else if (x.device || decide (x.size < (t - x.tail).toNat) || decide (x.size < (t - x.live).toNat)) = true then
        queueError q x.part t.toNat (putQueueRec q (u.updQueue q fun y => { y with overrun := true }))
      else if x.mapped then u.updQueue q fun y => { y with tail := t }
      else putQueueRec q (u.updQueue q fun y => { y with tail := t, pending := true }) := by
  simp only [doorbellTailWrite, hr, Bool.false_eq_true, if_false, wakeDie_awake hp hs, sync_host, Bool.or_false,
    Bool.not_eq_true']

/-- The write of TAIL is one that the host may make (R319). -/
theorem tail_legal {x : Queue} (hd : x.device = false) (h : (t - x.tail).toNat ≤ x.size ∧ (t - x.live).toNat ≤ x.size) :
    ¬(x.device || decide (x.size < (t - x.tail).toNat) || decide (x.size < (t - x.live).toNat)) = true := by
  rw [hd, decide_eq_false (Nat.not_lt.mpr h.1), decide_eq_false (Nat.not_lt.mpr h.2)]
  exact Bool.false_ne_true

theorem tail_illegal {x : Queue}
    (h : x.device = true ∨ ¬((t - x.tail).toNat ≤ x.size ∧ (t - x.live).toNat ≤ x.size)) :
    (x.device || decide (x.size < (t - x.tail).toNat) || decide (x.size < (t - x.live).toNat)) = true := by
  rcases h with h | h
  · simp [h]
  · simp only [Bool.or_eq_true, decide_eq_true_eq]
    omega

end

section
variable {v : Word}

theorem ctailWrite_taken (hr : s.host.resetting = false)
    (hfit : ((v.setWidth 32 : BitVec 32) - s.host.cmd.head).toNat ≤ s.host.cmd.entries)
    (hon : (s.host.cmd.tail - s.host.cmd.head).toNat ≤ ((v.setWidth 32 : BitVec 32) - s.host.cmd.head).toNat) :
    ctailWrite v s = { s with host.cmd.tail := v.setWidth 32 } := by
  refine if_neg ?_
  rw [hr, decide_eq_false (Nat.not_lt.mpr hfit), Ring.used, decide_eq_false (Nat.not_lt.mpr hon)]
  exact Bool.false_ne_true

theorem ctailWrite_ignored
    (h : s.host.cmd.entries < ((v.setWidth 32 : BitVec 32) - s.host.cmd.head).toNat ∨
      ((v.setWidth 32 : BitVec 32) - s.host.cmd.head).toNat < (s.host.cmd.tail - s.host.cmd.head).toNat) :
    ctailWrite v s = s := by
  refine if_pos ?_
  rw [Ring.used]
  rcases h with h | h
  · rw [decide_eq_true h, Bool.or_true, Bool.true_or]
  · rw [decide_eq_true h, Bool.or_true]

theorem eheadWrite_nothingKept (hr : s.host.resetting = false) (hk : s.host.kept = []) :
    eheadWrite v s = { s with host.ev.head := v.setWidth 32 } := by
  rw [eheadWrite, hr, if_neg Bool.false_ne_true, State.drainKept, hk]
  rfl

/-- LTR is written while every die is active: no die wakes (R463). -/
theorem ltrWrite_awake (hr : s.host.resetting = false) (hp : ∀ d < 4, (s.die d).pstate = 0)
    (hs : s.host.selfRefresh = false) : ltrWrite v s = { s with host.ltr := v.setWidth 32 } := by
  let u : State := { s with host.ltr := v.setWidth 32 }
  have hself : (s.host.selfRefresh && decide (2000000 ≤ (v.setWidth 32 : BitVec 32).toNat)) = s.host.selfRefresh := by
    rw [hs, Bool.false_and]
  have hstay : ∀ d ∈ [0, 1, 2, 3], (if (v.setWidth 32 : BitVec 32).toNat < exitTime (u.die d).pstate
      then powerStateEntry d (u.wakeDie d) else u) = u := fun d hd => if_neg (by
    have hd4 : d < 4 := by simp at hd; omega
    rw [show (u.die d).pstate = 0 from hp d hd4]
    exact Nat.not_lt_zero _)
  rw [ltrWrite, if_neg (by rw [hr]; exact Bool.false_ne_true)]
  simp only [hself]
  exact foldl_idle hstay

theorem resetctlWrite_ignored (h : v.extractLsb' 8 8 ≠ 0xA5 ∨ v.getLsbD 0 = false) : resetctlWrite v s = s := by
  refine if_pos ?_
  rcases h with h | h
  · rw [bne_iff_ne.mpr h, Bool.or_true, Bool.true_or]
  · rw [h, Bool.not_false, Bool.or_true]

theorem resetctlWrite_resets (hr : s.host.resetting = false) (h : v.extractLsb' 8 8 = 0xA5) (hb : v.getLsbD 0 = true) :
    resetctlWrite v s = startReset (.warm (v.getLsbD 1)) s := by
  refine if_neg ?_
  rw [hr, h, hb]
  exact Bool.false_ne_true

/-- No register of BAR0 takes a write while a reset is in progress. -/
theorem registers_resetting (hr : s.host.resetting = true) :
    ctailWrite v s = s ∧ pheadWrite v s = s ∧ eheadWrite v s = s ∧ ltrWrite v s = s ∧ resetctlWrite v s = s ∧
      ∀ off, bar0Write off v s = s := by
  have hor : ∀ b c : Bool, (s.host.resetting || b || c) = true := fun b c => by rw [hr, Bool.true_or, Bool.true_or]
  exact ⟨if_pos (hor _ _), if_pos hr, if_pos hr, if_pos hr, if_pos (hor _ _), fun off => if_pos hr⟩

end

section
variable {c : Nat} {v : BitVec 32}

/-- SLOTMAP takes a map before LOCK, unless it locks a map that is not valid. -/
theorem slotmapWrite_taken (h : (s.core c).slotmap.getLsbD 8 = false)
    (hok : v.getLsbD 8 = true → slotmapOk (v &&& 0x1FF) = true) :
    slotmapWrite c v s = s.updCore c fun x => { x with slotmap := v &&& 0x1FF } := by
  have hbad : ((v &&& 0x1FF).getLsbD 8 && !slotmapOk (v &&& 0x1FF)) = false := by
    rw [BitVec.getLsbD_and]
    cases hv : v.getLsbD 8
    · rfl
    · rw [hok hv]
      exact Bool.and_false _
  simp only [slotmapWrite, h, hbad, Bool.false_eq_true, if_false, Bool.or_false]

end

end Sys2Proof.Machine
namespace Sys2Proof.Proofs
set_option Elab.async false
open Sys2Proof Sys2Proof.Machine

/-- Settles O50: each write by the case that its claim names. -/
theorem registerWrites : Obligations.RegisterWrites := by
  intro s
  refine ⟨fun d n t hr hp hs => ?_, fun v => ?_, fun c v => ?_, fun c v hc => ?_, fun n v hn => ?_⟩
  · have hwrite : exec (.doorbellTailWrite d n t) s = .next _ :=
      congrArg Host.Outcome.next (doorbellTailWrite_awake (n := n) (t := t) hr hp hs)
    refine ⟨fun hx => ?_, fun hx hd hl hm => ?_, fun hx hd hl hm => ?_, fun hx hbad => ?_⟩
    · simp only [hwrite, if_pos hx]
    · simp only [hwrite, hx, Bool.true_eq_false, if_false, if_neg (tail_legal hd hl), hm, if_true]
    · simp only [hwrite, hx, Bool.true_eq_false, if_false, if_neg (tail_legal hd hl), hm, Bool.false_eq_true]
    · simp only [hwrite, hx, Bool.true_eq_false, if_false, if_pos (tail_illegal hbad)]
  · refine ⟨fun hr hfit hon => ?_, fun h => ?_, fun hr => ?_, fun hr hk => ?_, fun hr hp hs => ?_, fun h => ?_,
      fun hr h hb => ?_, fun hr => ?_⟩
    · exact congrArg Host.Outcome.next (ctailWrite_taken hr hfit hon)
    · exact congrArg Host.Outcome.next (ctailWrite_ignored h)
    · exact congrArg Host.Outcome.next (if_neg (by rw [hr]; exact Bool.false_ne_true))
    · exact congrArg Host.Outcome.next (eheadWrite_nothingKept hr hk)
    · exact congrArg Host.Outcome.next (ltrWrite_awake hr hp hs)
    · exact congrArg Host.Outcome.next (resetctlWrite_ignored h)
    · exact congrArg Host.Outcome.next (resetctlWrite_resets hr h hb)
    · obtain ⟨hc, hph, he, hl, hreset, hbar⟩ := registers_resetting (v := v) hr
      exact ⟨congrArg Host.Outcome.next hc, congrArg Host.Outcome.next hph, congrArg Host.Outcome.next he,
        congrArg Host.Outcome.next hl, congrArg Host.Outcome.next hreset, fun off => congrArg Host.Outcome.next (hbar off)⟩
  · exact ⟨fun h => congrArg Host.Outcome.next (if_pos h), fun h hok => congrArg Host.Outcome.next (slotmapWrite_taken h hok)⟩
  · exact congrArg Host.Outcome.next (if_neg (by omega))
  · exact ⟨congrArg Host.Outcome.next (if_neg (by omega)), rfl⟩

end Sys2Proof.Proofs
end

section
/-!
Wayline ports (R470 to R475), and what events and messages leave alone.
-/
namespace Sys2Proof.Machine
set_option Elab.async false
open Sys2Proof

variable {s u v : State} {n i : Nat} {f g : Port → Port} {w : Wire} {peer : BitVec 18} {epoch : BitVec 32}

/-! Events and messages. -/

/-- The state without its queues of messages and events. -/
def State.quiet (s : State) : State := { s with agenda := [], host := {}, fab := {} }

/-- What events leave of the host interface. -/
def HostIf.standing (h : HostIf) : HostIf :=
  { h with mem := [], kept := [], seq := 0, ev.tail := 0, evover := 0, msix := [] }

/-- The link of a port: its state, its peer, and the credits that the peer holds. -/
def Port.link (p : Port) : PortSt × Option (BitVec 18) × List Nat := (p.st, p.peer, p.given)

/-- u follows from s by events that are posted and messages that are sent. -/
structure Talk (u s : State) : Prop where
  quiet : u.quiet = s.quiet
  host : u.host.standing = s.host.standing
  msix : ∀ v ≠ 1, u.host.msix.get 0 v = s.host.msix.get 0 v
  peers : u.fab.peers = s.fab.peers
  wf : Sparse.wf ({} : Port) s.fab.ports = true → Sparse.wf ({} : Port) u.fab.ports = true
  link : Sparse.wf ({} : Port) s.fab.ports = true → ∀ i, (u.port i).link = (s.port i).link

namespace Talk

theorem refl : Talk s s := ⟨rfl, rfl, fun _ _ => rfl, rfl, id, fun _ _ => rfl⟩

theorem trans (h : Talk v u) (h' : Talk u s) : Talk v s :=
  ⟨h.quiet.trans h'.quiet, h.host.trans h'.host, fun i hi => (h.msix i hi).trans (h'.msix i hi), h.peers.trans h'.peers, fun hw => h.wf (h'.wf hw),
    fun hw i => (h.link (h'.wf hw) i).trans (h'.link hw i)⟩

theorem ite {p : Prop} [Decidable p] {a b : State} (ha : Talk a s) (hb : Talk b s) : Talk (if p then a else b) s := by
  split <;> assumption

theorem foldl {α : Type} {f : State → α → State} (h : ∀ s x, Talk (f s x) s) : ∀ (xs : List α) (s : State), Talk (xs.foldl f s) s
  | [], _ => refl
  | x :: xs, s => (foldl h xs (f s x)).trans (h s x)

/-- The ports stand. -/
theorem of_ports (hq : u.quiet = s.quiet) (hh : u.host = s.host) (hp : u.fab.peers = s.fab.peers)
    (hports : u.fab.ports = s.fab.ports) : Talk u s :=
  ⟨hq, by rw [hh], fun _ _ => by rw [hh], hp, by rw [hports]; exact id, fun _ i => by rw [State.port, hports]; rfl⟩

theorem mem (h : Talk u s) : u.mem = s.mem := show u.quiet.mem = s.quiet.mem by rw [h.quiet]
theorem seats (h : Talk u s) : u.seats = s.seats := show u.quiet.seats = s.quiet.seats by rw [h.quiet]
theorem peer1 (h : Talk u s) (p : BitVec 18) : u.peer p = s.peer p := by rw [State.peer, State.peer, h.peers]

end Talk

theorem updPort_wf (hw : Sparse.wf ({} : Port) s.fab.ports = true) : Sparse.wf ({} : Port) (s.updPort n f).fab.ports = true :=
  Sparse.set_wf hw

theorem port_updPort (hw : Sparse.wf ({} : Port) s.fab.ports = true) : (s.updPort n f).port n = f (s.port n) :=
  Sparse.get_set_wf hw

theorem port_updPort_other (hw : Sparse.wf ({} : Port) s.fab.ports = true) (hi : i ≠ n) : (s.updPort n f).port i = s.port i :=
  Sparse.get_set_other hw hi

theorem talk_updPort (hf : (f (s.port n)).link = (s.port n).link) : Talk (s.updPort n f) s := by
  refine ⟨rfl, rfl, fun _ _ => rfl, rfl, updPort_wf, fun hw i => ?_⟩
  by_cases hi : i = n
  · rw [hi, port_updPort hw, hf]
  · rw [port_updPort_other hw hi]

/-- The host alone changes, and of it what events change. -/
theorem Talk.of_host {h : HostIf} (hs : h.standing = s.host.standing) (hm : ∀ v ≠ 1, h.msix.get 0 v = s.host.msix.get 0 v) :
    Talk { s with host := h } s := ⟨rfl, hs, hm, rfl, id, fun _ _ => rfl⟩

theorem talk_drainEvents : ∀ (n : Nat) (s : State), Talk (drainEvents n s) s
  | 0, _ => .refl
  | n + 1, s => by
    rw [drainEvents]
    split
    · exact .refl
    · split
      · exact .refl
      · refine (talk_drainEvents n _).trans ⟨rfl, rfl, fun v hv => ?_, rfl, id, fun _ _ => rfl⟩
        exact Sparse.get_set_beside (Nat.succ_ne_zero _) hv

theorem talk_post {type die part : Nat} {payload : List Byte} : Talk (s.post type die part payload) s :=
  .ite (Talk.of_host rfl fun _ _ => rfl) ((talk_drainEvents _ _).trans (Talk.of_host rfl fun _ _ => rfl))

theorem talk_fabricEvent {d sub port : Nat} {target : Word} : Talk (fabricEvent d sub port peer target s) s := talk_post

theorem nextFlit_link {p q : Port} {k : Nat} (h : nextFlit p = some (w, k, q)) : q.link = p.link := by
  obtain ⟨c, -, hc⟩ := List.exists_of_findSome?_eq_some h
  revert hc
  split
  · rintro hc
    cases hc
    rfl
  · split
    · split
      · rintro hc
        cases hc
        rfl
      · nofun
    · nofun

theorem sendFlits_link : ∀ (f : Nat) (p : Port), (sendFlits f p).link = p.link
  | 0, _ => rfl
  | f + 1, p => by
    rw [sendFlits]
    split
    · rfl
    · split
      · rfl
      · rename_i h
        have hlink := nextFlit_link h
        rw [sendFlits_link f]
        exact hlink

theorem talk_pump : Talk (s.pump n) s := .ite .refl (talk_updPort (sendFlits_link _ _))

theorem talk_launchWire : Talk (launchWire w s) s := by
  unfold launchWire
  split
  · exact .of_ports rfl rfl rfl rfl
  · exact .ite .refl (talk_pump.trans (talk_updPort rfl))

theorem talk_enflow : Talk (enflow w s).2 s := by
  unfold enflow
  simp only
  split <;> exact .of_ports rfl rfl rfl rfl

theorem talk_sendWire : Talk (sendWire w s) s :=
  .ite (.of_ports rfl rfl rfl rfl) (.ite (talk_launchWire.trans talk_enflow) talk_launchWire)

theorem talk_send {die cls op : Nat} {tcls : BitVec 3} {ddie : Nat} {target : Word} {tag : BitVec 32} {payload : List Byte} :
    Talk (s.send die cls op tcls peer ddie target tag payload) s := talk_sendWire

theorem talk_tellTo {qs : List (BitVec 18)} : Talk (tellTo qs s) s := .foldl (fun _ _ => talk_send) _ _

theorem talk_tellLinks : Talk (tellLinks s) s := talk_tellTo

theorem talk_retryPaths : Talk (retryPaths s) s :=
  (Talk.foldl (fun _ _ => talk_launchWire) _ _).trans (.of_ports rfl rfl rfl rfl)

/-! Ports that go down, and replay (R471, R473). -/

theorem up_ne_default {q : Port} (h : q.st = .up) : q ≠ {} := fun hq => by
  rw [hq] at h
  cases h

section
variable (hup : (s.port n).st = .up)
include hup

theorem portDown_up (hr : (s.port n).replay = []) (hq : (s.port n).queue = []) (hg : (s.port n).going = []) :
    portDown n s = tellLinks (fabricEvent (n / 4) 1 n ((s.port n).peer.getD 0) 0
      (s.updPort n fun p => { st := .training 0, errors := p.errors, peer := p.peer })) := by
  have hstranded : stranded (s.port n) = [] := by
    rw [stranded, hr, hq, hg]
    rfl
  have hst : ((s.port n).st != .up) = false := by rw [hup]; rfl
  simp only [portDown, hst, Bool.false_eq_true, if_false, hstranded, List.foldl_nil]
  rfl

theorem replayTimeout_round (hr : (s.port n).replay ≠ []) : replayTimeout n s = replayRound n s := by
  refine if_pos ?_
  rw [hup, (List.isEmpty_eq_false_iff).mpr hr]
  rfl

theorem replayRound_eq : replayRound n s =
    let s1 := s.updPort n fun p => { p with rounds := p.rounds + 1 }
    if 16 ≤ (s.port n).rounds + 1 then portDown n s1 else s1 := by
  have hport : (s.updPort n fun p => { p with rounds := p.rounds + 1 }).port n =
      { s.port n with rounds := (s.port n).rounds + 1 } := Sparse.get_set_same (up_ne_default hup)
  simp only [replayRound, hport]

end

theorem portDown_down (h : (s.port n).st ≠ .up) : portDown n s = s := if_pos (bne_iff_ne.mpr h)

theorem replayTimeout_none (h : (s.port n).st ≠ .up ∨ (s.port n).replay = []) : replayTimeout n s = s := by
  refine if_neg ?_
  rcases h with h | h
  · rw [beq_eq_false_iff_ne.mpr h]
    exact Bool.false_ne_true
  · rw [h]
    simp

/-! Training (R474). -/

theorem portTraining_none {ok : Bool} (h : 16 ≤ n ∨ (s.port n).st = .up) : portTraining n ok peer epoch s = s := by
  rcases h with h | h
  · exact if_pos h
  · simp only [portTraining, h]
    exact ite_self _

theorem portTraining_fails {a : Nat} (hn : n < 16) (h : (s.port n).st = .training a) :
    portTraining n false peer epoch s = s.updPort n fun p => { p with st := if 2 ≤ a then .failed else .training (a + 1) } := by
  have hthree : (3 ≤ a + 1) = (2 ≤ a) := by simp
  simp only [portTraining, if_neg (Nat.not_le.mpr hn), h, Bool.false_eq_true, if_false, hthree]

theorem portTraining_trained (hn : n < 16) (h : (s.port n).st ≠ .up) :
    portTraining n true peer epoch s = trainedPort n peer epoch s := by
  rw [portTraining, if_neg (Nat.not_le.mpr hn)]
  cases hst : (s.port n).st with
  | up => exact absurd hst h
  | training a => rfl
  | failed => rfl

/-- A port that is trained to another package is up, and its peer's epoch is known. -/
theorem trainedPort_up (hw : Sparse.wf ({} : Port) s.fab.ports = true) (hother : peer ≠ s.pkgid) (hpeers : s.fab.peers = []) :
    let t := trainedPort n peer epoch s
    (t.port n).st = .up ∧ (t.port n).peer = some peer ∧ (t.port n).given = (List.range 8).map portBuffers ∧
      (t.peer peer).epoch = some epoch ∧ t.mem = s.mem ∧ t.seats = s.seats := by
  let p : Port := { st := .up, errors := (s.port n).errors, peer := some peer, given := (List.range 8).map portBuffers }
  let s1 := s.updPort n fun _ => p
  let s2 := s1.updPeer peer fun p => { p with epoch := some epoch }
  have hunknown : (s1.peer peer).epoch = none := by
    rw [State.peer, show s1.fab.peers = [] from hpeers]
    rfl
  have hmeet : (meetEpoch peer epoch s1).2 = s2 := by
    rw [meetEpoch, if_neg (show ¬peer = s1.pkgid from hother), hunknown]
  have htrained : trainedPort n peer epoch s = retryPaths (tellLinks (fabricEvent (portDie n) 2 n peer 0 s2)) := by
    simp only [trainedPort, if_neg hother]
    exact congrArg (fun t => retryPaths (tellLinks (fabricEvent (portDie n) 2 n peer 0 t))) hmeet
  have htalk : Talk (trainedPort n peer epoch s) s2 := by
    rw [htrained]
    exact talk_retryPaths.trans (talk_tellLinks.trans talk_fabricEvent)
  have hlink : ((trainedPort n peer epoch s).port n).link = p.link :=
    (htalk.link (updPort_wf (f := fun _ => p) hw) n).trans (congrArg Port.link (port_updPort (f := fun _ => p) hw))
  have hpeer : (s2.peer peer).epoch = some epoch := congrArg Peer.epoch (Sparse.get_set_same fun h => by
    have : some epoch = none := congrArg Peer.epoch h
    cases this)
  exact ⟨congrArg (·.1) hlink, congrArg (·.2.1) hlink, congrArg (·.2.2) hlink, by rw [htalk.peer1]; exact hpeer,
    htalk.mem, htalk.seats⟩

/-! Flits (R470 to R472). -/

section
variable {f : Flit}

theorem flitReceive_bad (hup : (s.port n).st = .up) (hbad : flitOk f = false) :
    flitReceive n f s = s.updPort n fun p => { p with nack := true } := by
  simp [flitReceive, hup, hbad]

theorem flitReceive_down (hup : (s.port n).st = .up) (hok : flitOk f = true) (ht : f.ftype = 3) :
    flitReceive n f s = portDown n s := by
  simp [flitReceive, hup, hok, ht]

/-- The port once the acknowledgement and the credits of a flit are taken. -/
def acknowledged (n : Nat) (f : Flit) (s : State) : State :=
  ackFlits n f.aseq (s.updPort n fun p =>
    { p with credits := p.credits.set 0 f.cclass.toNat (p.credits.get 0 f.cclass.toNat + f.credits.toNat) })

theorem acknowledged_port (hw : Sparse.wf ({} : Port) s.fab.ports = true) (hr : (s.port n).replay = []) :
    (acknowledged n f s).port n = { s.port n with
      credits := (s.port n).credits.set 0 f.cclass.toNat ((s.port n).credits.get 0 f.cclass.toNat + f.credits.toNat) } := by
  rw [acknowledged, ackFlits, port_updPort (updPort_wf hw), port_updPort hw]
  refine if_pos ?_
  rw [hr]
  rfl

theorem acknowledged_wf (hw : Sparse.wf ({} : Port) s.fab.ports = true) :
    Sparse.wf ({} : Port) (acknowledged n f s).fab.ports = true := updPort_wf (updPort_wf hw)

/-- A data flit at a port that has nothing to send. -/
theorem flitReceive_data (hw : Sparse.wf ({} : Port) s.fab.ports = true) (hup : (s.port n).st = .up) (hok : flitOk f = true)
    (ht : f.ftype = 0) (hn : f.nack = false) (hr : (s.port n).replay = []) (hx : (s.port n).rx = []) :
    flitReceive n f s =
      let u := acknowledged n f s
      let bs := padTo 240 f.payload
      let m := fieldAt bs 0 1 / 8 % 8
      (if f.fseq = (s.port n).aseq + 1 && (s.port n).given.getD m 0 != 0 then
        assemble n (u.updPort n fun p => takeCredit m { p with aseq := f.fseq, nack := false, rx := joinFlit u p.rx bs })
      else u.updPort n fun p => { p with nack := true }).pump n := by
  have hport := acknowledged_port (f := f) hw hr
  have hst : ((s.port n).st != .up) = false := by rw [hup]; rfl
  have hst' : (((acknowledged n f s).port n).st != .up) = false := by rw [hport]; exact hst
  have haseq : ((acknowledged n f s).port n).aseq = (s.port n).aseq := by rw [hport]
  have hgiven : ((acknowledged n f s).port n).given = (s.port n).given := by rw [hport]
  have hrx : ((acknowledged n f s).port n).rx = [] := by rw [hport]; exact hx
  have hthree : ¬f.ftype = 3 := by rw [ht]; decide
  have hzero : (f.ftype != 0) = false := by rw [ht]; rfl
  simp only [flitReceive, hst, hok, Bool.false_eq_true, if_false, Bool.not_true, hthree, hn, Bool.false_and, hzero, Bool.false_or]
  rw [← acknowledged]
  simp only [hst', Bool.false_eq_true, if_false, haseq, hgiven, hrx, flitClass, beginsMessage, if_true]

/-- A port that has nothing to send sends nothing. -/
theorem pump_idle (hq : (s.port n).queue = []) (hg : (s.port n).going = []) : s.pump n = s := if_pos (by rw [hq, hg]; rfl)

end

theorem modifyAt_cancel {xs : List Nat} {m : Nat} (h : xs.getD m 0 ≠ 0) :
    modifyAt (· + 1) (modifyAt (· - 1) xs m) m = xs := by
  induction xs generalizing m with
  | nil => rfl
  | cons x xs ih =>
    cases m with
    | zero =>
      have hx : x ≠ 0 := h
      exact congrArg (· :: xs) (by show x - 1 + 1 = x; omega)
    | succ m => exact congrArg (x :: ·) (ih h)

theorem padTo_length {bs : List Byte} : (padTo n bs).length = n := by simp [padTo]

/-- A message of one flit is whole: it arrives, and its buffer is free. -/
theorem assemble_whole {bs : List Byte} {m : Nat} (hx : (s.port n).rx = [(m, bs)]) (hl : bs.length = 240)
    (hfit : 32 + fieldAt bs 2 2 ≤ 240) (hres : wireReserved bs = false) (hlen : (parseWire (n / 4) bs).lengthOk s = true) :
    assemble n s = { s.updPort n (fun p => returnCredits m 1 { p with rx := [] }) with
      agenda := s.agenda ++ [.message (parseWire (n / 4) bs)] } := by
  have hgood : (wireReserved bs || !(parseWire (portDie n) bs).lengthOk s) = false := by
    rw [hres, show portDie n = n / 4 from rfl, hlen]
    rfl
  have hshort : ¬4128 < fieldAt bs 2 2 := by omega
  have hwhole : ¬240 < (32 + fieldAt bs 2 2 + 239) / 240 * 240 := by omega
  simp only [assemble, hx, hl, if_neg hshort, if_neg hwhole, hgood, Bool.false_eq_true, if_false]
  rfl

end Sys2Proof.Machine
namespace Sys2Proof.Proofs
set_option Elab.async false
open Sys2Proof Sys2Proof.Machine

/-- A data flit that is not the next, or for which the peer holds no credit, is answered with NACK. -/
theorem flitRefused {s : State} {n : Nat} {f : Flit} (hw : Sparse.wf ({} : Port) s.fab.ports = true)
    (hup : (s.port n).st = .up) (hok : flitOk f = true) (ht : f.ftype = 0) (hn : f.nack = false)
    (hr : (s.port n).replay = []) (hq : (s.port n).queue = []) (hg : (s.port n).going = []) (hx : (s.port n).rx = [])
    (h : f.fseq ≠ (s.port n).aseq + 1 ∨ (s.port n).given.getD (fieldAt (padTo 240 f.payload) 0 1 / 8 % 8) 0 = 0) :
    ∃ t, exec (.flitReceive n f) s = .next t ∧ (t.port n).nack = true ∧
        (t.port n).aseq = (s.port n).aseq ∧ (t.port n).rx = [] ∧ (t.port n).given = (s.port n).given ∧ t.agenda = s.agenda := by
  let t := (acknowledged n f s).updPort n fun p => { p with nack := true }
  have hport : t.port n = { s.port n with
      credits := (s.port n).credits.set 0 f.cclass.toNat ((s.port n).credits.get 0 f.cclass.toNat + f.credits.toNat)
      nack := true } := by
    rw [port_updPort (acknowledged_wf hw), acknowledged_port hw hr]
  have hcond : ¬(f.fseq = (s.port n).aseq + 1 && (s.port n).given.getD (fieldAt (padTo 240 f.payload) 0 1 / 8 % 8) 0 != 0) = true := by
    rw [Bool.and_eq_true, decide_eq_true_eq, bne_iff_ne]
    exact fun hgo => h.elim (fun h => h hgo.1) fun h => hgo.2 h
  have hstep : flitReceive n f s = t := by
    rw [flitReceive_data hw hup hok ht hn hr hx]
    simp only [if_neg hcond]
    exact pump_idle (by rw [hport]; exact hq) (by rw [hport]; exact hg)
  exact ⟨t, congrArg Host.Outcome.next hstep, by rw [hport], by rw [hport], by rw [hport]; exact hx, by rw [hport], rfl⟩

/-- A data flit in order that holds a whole message: the message arrives, and its buffer is free. -/
theorem flitTaken {s : State} {n : Nat} {f : Flit} (hw : Sparse.wf ({} : Port) s.fab.ports = true)
    (hup : (s.port n).st = .up) (hok : flitOk f = true) (ht : f.ftype = 0) (hn : f.nack = false)
    (hr : (s.port n).replay = []) (hq : (s.port n).queue = []) (hg : (s.port n).going = []) (hx : (s.port n).rx = [])
    (hseq : f.fseq = (s.port n).aseq + 1)
    (hcredit : (s.port n).given.getD (fieldAt (padTo 240 f.payload) 0 1 / 8 % 8) 0 ≠ 0)
    (hres : wireReserved (padTo 240 f.payload) = false) (hfit : 32 + fieldAt (padTo 240 f.payload) 2 2 ≤ 240)
    (hlen : (parseWire (n / 4) (padTo 240 f.payload)).lengthOk s = true) :
    ∃ t, exec (.flitReceive n f) s = .next t ∧ (t.port n).aseq = f.fseq ∧ (t.port n).rx = [] ∧
      (t.port n).given = (s.port n).given ∧
      t.agenda = s.agenda ++ [.message (parseWire (n / 4) (padTo 240 f.payload))] ∧ t.mem = s.mem := by
  let bs := padTo 240 f.payload
  let m := fieldAt bs 0 1 / 8 % 8
  let u := (acknowledged n f s).updPort n fun p =>
    takeCredit m { p with aseq := f.fseq, nack := false, rx := joinFlit (acknowledged n f s) p.rx bs }
  let t : State := { u.updPort n (fun p => returnCredits m 1 { p with rx := [] }) with
    agenda := u.agenda ++ [.message (parseWire (n / 4) bs)] }
  have hwu : Sparse.wf ({} : Port) u.fab.ports = true := updPort_wf (acknowledged_wf hw)
  have hu : u.port n = takeCredit m { s.port n with
      credits := (s.port n).credits.set 0 f.cclass.toNat ((s.port n).credits.get 0 f.cclass.toNat + f.credits.toNat)
      aseq := f.fseq, nack := false, rx := [(m, bs)] } := by
    rw [port_updPort (acknowledged_wf hw), acknowledged_port hw hr, hx]
    rfl
  have hport : t.port n = returnCredits m 1 { u.port n with rx := [] } := port_updPort (f := fun p => returnCredits m 1 { p with rx := [] }) hwu
  have hgiven : (t.port n).given = (s.port n).given := by
    rw [hport, hu]
    exact modifyAt_cancel hcredit
  have hcond : (f.fseq = (s.port n).aseq + 1 && (s.port n).given.getD m 0 != 0) = true := by
    rw [Bool.and_eq_true]
    exact ⟨decide_eq_true hseq, bne_iff_ne.mpr hcredit⟩
  have hwhole : assemble n u = t := assemble_whole (by rw [hu]; rfl) padTo_length hfit hres hlen
  have hstep : flitReceive n f s = t := by
    rw [flitReceive_data hw hup hok ht hn hr hx]
    refine (congrArg (fun v => State.pump v n) ((if_pos hcond).trans hwhole)).trans (pump_idle ?_ ?_)
    · rw [hport, hu]; exact hq
    · rw [hport, hu]; exact hg
  exact ⟨t, congrArg Host.Outcome.next hstep, by rw [hport, hu]; rfl, by rw [hport]; rfl, hgiven, rfl, rfl⟩

/-- Settles O57. -/
theorem portSteps : Obligations.PortSteps := by
  intro s n hw
  refine ⟨fun f h => ?_, fun f hup hbad => ?_, fun f hup hok ht cause => ?_, ?_, fun h => ?_, fun hup hr hrounds => ?_,
    fun hup hr hrounds cause => ?_, fun cause h => ?_, fun cause hup hr hq hg => ?_, fun ok peer epoch h => ?_,
    fun peer epoch a hn h => ?_, fun peer epoch hn h hself => ?_, fun peer epoch hn h hother hpeers hpath => ?_⟩
  · exact congrArg Host.Outcome.next (if_pos (bne_iff_ne.mpr h))
  · exact congrArg Host.Outcome.next (flitReceive_bad hup hbad)
  · exact congrArg Host.Outcome.next (flitReceive_down hup hok ht)
  · intro f hup hok ht hn hr hq hg hx m
    exact ⟨flitRefused hw hup hok ht hn hr hq hg hx, flitTaken hw hup hok ht hn hr hq hg hx⟩
  · exact congrArg Host.Outcome.next (replayTimeout_none h)
  · refine congrArg Host.Outcome.next ?_
    rw [replayTimeout_round hup hr, replayRound_eq hup]
    exact if_neg (by omega)
  · refine congrArg Host.Outcome.next ?_
    rw [replayTimeout_round hup hr, replayRound_eq hup]
    simp only [hrounds]
    exact (if_pos (by decide)).trans (congrArg (portDown n) (by simp only [State.updPort, hrounds]))
  · exact congrArg Host.Outcome.next (portDown_down h)
  · exact congrArg Host.Outcome.next (portDown_up hup hr hq hg)
  · exact congrArg Host.Outcome.next (portTraining_none h)
  · exact congrArg Host.Outcome.next (portTraining_fails hn h)
  · refine congrArg Host.Outcome.next ?_
    rw [portTraining_trained hn h, trainedPort, if_pos hself]
    rfl
  · have hstep : exec (.portTraining n true peer epoch) s = .next (trainedPort n peer epoch s) :=
      congrArg Host.Outcome.next (portTraining_trained hn h)
    exact ⟨_, hstep, trainedPort_up hw hother hpeers⟩

end Sys2Proof.Proofs
end

section
/-!
Resets, boot, links and power (R63, R443, R455 to R458, R462 to R466, R474).
-/
namespace Sys2Proof.Machine
set_option Elab.async false
open Sys2Proof

variable {s u : State} {n d : Nat}

/-! What a reset keeps of a core (R465). -/

/-- A map whose values are mapped, less those that become the default. -/
theorem Sparse.get_trim_map {α : Type} [DecidableEq α] {x : α} {f : α → α} (hf : f x = x) :
    ∀ {m : Sparse α} {lo : Nat}, Sparse.wfFrom x lo m = true →
      Sparse.wfFrom x lo (Sparse.trim x (m.map fun e => (e.1, f e.2))) = true ∧
        ∀ i, Sparse.get x (Sparse.trim x (m.map fun e => (e.1, f e.2))) i = f (Sparse.get x m i)
  | [], _, _ => ⟨rfl, fun _ => hf.symm⟩
  | (k, v) :: m, lo, hm => by
    simp only [Sparse.wfFrom, Bool.and_eq_true, decide_eq_true_eq] at hm
    obtain ⟨⟨hk, -⟩, hrest⟩ := hm
    obtain ⟨hwf, hget⟩ := Sparse.get_trim_map hf hrest
    by_cases hv : f v = x
    · have hdrop : Sparse.trim x (((k, v) :: m).map fun e => (e.1, f e.2)) = Sparse.trim x (m.map fun e => (e.1, f e.2)) :=
        List.filter_cons_of_neg (by simp [hv])
      rw [hdrop]
      refine ⟨Sparse.wfFrom_mono (by omega) hwf, fun i => ?_⟩
      rw [Sparse.get_cons]
      split
      · rename_i hi
        rw [Sparse.get_below hwf (by omega), hv]
      · split
        · rename_i hi
          rw [Sparse.get_below hwf (by omega), hf]
        · exact hget i
    · have hkeep : Sparse.trim x (((k, v) :: m).map fun e => (e.1, f e.2)) =
          (k, f v) :: Sparse.trim x (m.map fun e => (e.1, f e.2)) := List.filter_cons_of_pos (by simp [hv])
      rw [hkeep]
      refine ⟨?_, fun i => ?_⟩
      · simp only [Sparse.wfFrom, Bool.and_eq_true, decide_eq_true_eq]
        exact ⟨⟨hk, by simpa using hv⟩, hwf⟩
      · rw [Sparse.get_cons, Sparse.get_cons, hget]
        split
        · rfl
        · split
          · exact hf.symm
          · rfl

theorem core_startReset {keep : Bool} (hw : Sparse.wf ({} : Core) s.cores = true) (i : Nat) :
    (startReset (.warm keep) s).core i = resetCore false (s.core i) := (Sparse.get_trim_map rfl hw).2 i

/-! FATAL (R443, R464). -/

theorem talk_announce {reason : Nat} {pkg : BitVec 18} : Talk (announce reason pkg s) s :=
  .foldl (fun _ _ => .ite .refl talk_send) _ _

theorem talk_setFatal (h : s.host.fatal = false) : Talk (setFatal s) (({ s with host.fatal := true } : State).msix 2) := by
  rw [setFatal, if_neg (by rw [h]; exact Bool.false_ne_true)]
  exact talk_announce

/-- A field of the host interface that events leave. -/
theorem Talk.standing {α : Type} (h : Talk u s) (f : HostIf → α) (hf : ∀ x : HostIf, f x.standing = f x) :
    f u.host = f s.host := by
  rw [← hf, h.host, hf]

theorem Talk.fw (h : Talk u s) : u.fw = s.fw := show u.quiet.fw = s.quiet.fw by rw [h.quiet]
theorem Talk.cores (h : Talk u s) : u.cores = s.cores := show u.quiet.cores = s.quiet.cores by rw [h.quiet]
theorem Talk.poisonMem (h : Talk u s) : u.poisonMem = s.poisonMem := show u.quiet.poisonMem = s.quiet.poisonMem by rw [h.quiet]
theorem Talk.linksDown (h : Talk u s) : u.linksDown = s.linksDown := show u.quiet.linksDown = s.quiet.linksDown by rw [h.quiet]

theorem setFatal_fw : (setFatal s).fw = s.fw := by
  cases h : s.host.fatal
  · exact (talk_setFatal h).fw
  · rw [setFatal, if_pos h]

/-- Once FATAL is set, it stays, and its interrupt has been counted. -/
theorem setFatal_sets (h : s.host.fatal = false) :
    (setFatal s).host.fatal = true ∧ (setFatal s).host.msix.get 0 2 = s.host.msix.get 0 2 + 1 :=
  ⟨(talk_setFatal h).standing HostIf.fatal fun _ => rfl,
    ((talk_setFatal h).msix 2 (by decide)).trans (Sparse.get_set_same (Nat.succ_ne_zero _))⟩

/-! Boot (R455 to R458, R63). -/

/-- Boot binds the slots of the cores of a list. -/
def bindSlots (l : List Nat) (s : State) : State :=
  l.foldl (fun s c => s.updCore c fun x => if x.slotmap.getLsbD 8 then x else { x with slotmap := bootSlotmap }) s

/-- The binding of a core once boot is over. -/
def bound (x : Core) : Core := if x.slotmap.getLsbD 8 then x else { x with slotmap := bootSlotmap }

theorem bindSlots_cores : ∀ (l : List Nat) (s : State), ∃ m, bindSlots l s = { s with cores := m }
  | [], s => ⟨s.cores, rfl⟩
  | c :: l, s => by
    obtain ⟨m, hm⟩ := bindSlots_cores l (s.updCore c bound)
    exact ⟨m, hm⟩

theorem bound_locked (x : Core) : (bound x).slotmap.getLsbD 8 = true := by
  rw [bound]
  split
  · assumption
  · exact (by decide : bootSlotmap.getLsbD 8 = true)

theorem bound_ne_default (x : Core) : bound x ≠ {} := fun h => by
  have hlock := bound_locked x
  rw [h] at hlock
  exact absurd hlock (by decide)

theorem bound_bound (x : Core) : bound (bound x) = bound x := if_pos (bound_locked x)

/-- Each core of the list is bound, and no other changes. -/
theorem bindSlots_core : ∀ (l : List Nat) (s : State) (i : Nat),
    (bindSlots l s).core i = if i ∈ l then bound (s.core i) else s.core i
  | [], _, _ => by simp [bindSlots]
  | c :: l, s, i => by
    have hstep : bindSlots (c :: l) s = bindSlots l (s.updCore c bound) := rfl
    rw [hstep, bindSlots_core l]
    by_cases hi : i = c
    · subst hi
      have hsame : (s.updCore i bound).core i = bound (s.core i) := Sparse.get_set_same (bound_ne_default _)
      rw [hsame, bound_bound, ite_self, if_pos (List.mem_cons_self ..)]
    · have hother : (s.updCore c bound).core i = s.core i := Sparse.get_set_beside (bound_ne_default _) hi
      rw [hother]
      simp only [List.mem_cons, hi, false_or]

/-- The firmware of a slot runs on every die. -/
def bootFirmware (slot : Bool) (s : State) : State :=
  let img := if slot then s.fw.slotB else s.fw.slotA
  let s1 := bindSlots (List.range 256) s
  { s1 with
    host.secure := true, host.ready := true, host.resetting := false
    fw.running := some slot, fw.minimum := imgSecver img, fw.version := Config.imageVersion img
    fw.attKey := s1.fw.bootcount.toNat
    fw.meas0 := Config.romMeasure, fw.meas1 := Config.shake256 img, fw.meas2 := Config.fuseMeasure (imgSecver img) (repairMap s1) }

/-- The package once its firmware runs, before what it reports. -/
def started (slot : Bool) (s : State) : State := { bootFirmware slot s with linksDown := [] }

theorem startFirmware_eq (slot : Bool) (s : State) : startFirmware slot s =
    ((List.range 8).filter fun i => (s.stack i).lost).foldl (fun s i => stackEvent i s) (linksUp (bootFirmware slot s)) := rfl

theorem talk_linksUp : Talk (linksUp s) { s with linksDown := [] } := .foldl (fun _ _ => talk_post) _ _

theorem talk_startFirmware (slot : Bool) (s : State) : Talk (startFirmware slot s) (started slot s) := by
  rw [startFirmware_eq]
  exact (Talk.foldl (fun _ _ => talk_post) _ _).trans talk_linksUp

theorem started_eq (slot : Bool) (s : State) : ∃ m f, started slot s = { s with
    cores := m, fw := f, host.secure := true, host.ready := true, host.resetting := false, linksDown := [] } ∧
    f.bootcount = s.fw.bootcount ∧ f.running = some slot ∧
    f.minimum = imgSecver (if slot then s.fw.slotB else s.fw.slotA) ∧
    f.meas1 = Config.shake256 (if slot then s.fw.slotB else s.fw.slotA) ∧
    (∀ i < 256, (Sparse.get {} m i).slotmap = if (s.core i).slotmap.getLsbD 8 then (s.core i).slotmap else 0x144) := by
  obtain ⟨m, hm⟩ := bindSlots_cores (List.range 256) s
  have hcore : ∀ i, Sparse.get {} m i = (bindSlots (List.range 256) s).core i := fun i => by rw [hm]; rfl
  refine ⟨m, (started slot s).fw, ?_, ?_, rfl, rfl, rfl, fun i hi => ?_⟩
  · simp only [started, bootFirmware, hm]
  · simp only [started, bootFirmware, hm]
  · rw [hcore, bindSlots_core, if_pos (List.mem_range.mpr hi), bound]
    split <;> rfl

theorem foldl_updStack {f : Stack → Stack} : ∀ (l : List Nat) (s : State),
    ∃ m, l.foldl (fun s i => s.updStack i f) s = { s with stackTab := m }
  | [], s => ⟨s.stackTab, rfl⟩
  | i :: l, s => by
    obtain ⟨m, hm⟩ := foldl_updStack l (s.updStack i f)
    exact ⟨m, hm⟩

/-- Training finds no die lost. -/
theorem train_whole (h : Config.lostDies s.fw.bootcount.toNat = 0) : ∃ m, train s = { s with
    stackTab := m, host.dieMask := 0xF, host.stackMask := ~~~Config.lostStacks s.fw.bootcount.toNat } := by
  simp only [train, h, if_true]
  exact foldl_updStack _ _

theorem train_fw : (train s).fw = s.fw := by
  simp only [train]
  obtain ⟨m, hm⟩ := foldl_updStack (f := fun x => { x with lost := true })
    ((List.range 8).filter fun i => (Config.lostStacks s.fw.bootcount.toNat).getLsbD i)
    { s with host.dieMask := 0xF &&& ~~~((Config.lostDies s.fw.bootcount.toNat).setWidth 8)
             host.stackMask := ~~~Config.lostStacks s.fw.bootcount.toNat }
  rw [hm]
  split
  · rfl
  · exact setFatal_fw

/-- The state that boot trains: BOOTCOUNT has moved on, and memory is zero unless it is kept. -/
def untrained (s : State) : State :=
  let s1 := { s with fw.bootcount := s.fw.bootcount + 1 }
  if s.fw.reset == .warm true then s1 else zeroMemory s1

theorem untrained_fw : (untrained s).fw = { s.fw with bootcount := s.fw.bootcount + 1 } := by
  rw [untrained]
  split <;> rfl

theorem untrained_host : (untrained s).host = s.host ∧ (untrained s).cores = s.cores := by
  rw [untrained]
  split <;> exact ⟨rfl, rfl⟩

section
variable (hr : s.host.resetting = true) (hb : s.host.booterr = 0)
include hr hb

theorem boot_due : (!s.host.resetting || s.host.booterr != 0) = false := by rw [hr, hb]; rfl

theorem boot_faulty (hf : Config.fuseFault (s.fw.bootcount + 1).toNat = true) :
    boot s = { s with fw.bootcount := s.fw.bootcount + 1, host.booterr := 3 } := by
  rw [boot, if_neg (by rw [boot_due hr hb]; exact Bool.false_ne_true)]
  exact if_pos hf

theorem boot_trains (hf : Config.fuseFault (s.fw.bootcount + 1).toNat = false) :
    boot s = match bootSlot s.fw with
      | none => { train (untrained s) with host.booterr := 1 }
      | some slot => startFirmware slot (train (untrained s)) := by
  have hslot : bootSlot (train (untrained s)).fw = bootSlot s.fw := by
    rw [train_fw, untrained_fw]
    rfl
  rw [boot, if_neg (by rw [boot_due hr hb]; exact Bool.false_ne_true)]
  refine (if_neg (by rw [hf]; exact Bool.false_ne_true)).trans ?_
  show (match bootSlot (train (untrained s)).fw with | none => _ | some slot => _) = _
  rw [hslot]
  rfl

theorem boot_bootcount : (boot s).fw.bootcount = s.fw.bootcount + 1 := by
  cases hf : Config.fuseFault (s.fw.bootcount + 1).toNat
  · rw [boot_trains hr hb hf]
    cases bootSlot s.fw with
    | none => exact congrArg Firmware.bootcount (train_fw.trans untrained_fw)
    | some slot =>
      obtain ⟨m, f, hstarted, hcount, -⟩ := started_eq slot (train (untrained s))
      have hfw : (startFirmware slot (train (untrained s))).fw = f := by
        rw [(talk_startFirmware slot _).fw, hstarted]
      exact (congrArg Firmware.bootcount hfw).trans (hcount.trans (congrArg Firmware.bootcount (train_fw.trans untrained_fw)))
  · rw [boot_faulty hr hb hf]

variable (hf : Config.fuseFault (s.fw.bootcount + 1).toNat = false) (hd : Config.lostDies (s.fw.bootcount + 1).toNat = 0)
include hf hd

/-- No slot verifies: boot stops. -/
theorem boot_stops (h : bootSlot s.fw = none) : (boot s).host.booterr = 1 ∧ (boot s).host.resetting = true := by
  obtain ⟨m, hm⟩ := train_whole (s := untrained s) (by rw [untrained_fw]; exact hd)
  rw [boot_trains hr hb hf, h]
  refine ⟨rfl, ?_⟩
  show (train (untrained s)).host.resetting = true
  rw [hm]
  exact (congrArg HostIf.resetting untrained_host.1).trans hr

/-- A slot that verifies runs, and every SLOTMAP is locked. -/
theorem boot_runs {slot : Bool} (h : bootSlot s.fw = some slot) :
    let t := boot s
    let img := if slot then s.fw.slotB else s.fw.slotA
    t.host.ready = true ∧ t.host.secure = true ∧ t.host.resetting = false ∧ t.host.dieMask = 0xF ∧
      t.host.stackMask = ~~~Config.lostStacks (s.fw.bootcount + 1).toNat ∧ t.fw.running = some slot ∧ t.linksDown = [] ∧
      t.fw.minimum = imgSecver img ∧ t.fw.meas1 = Config.shake256 img ∧
      (∀ i < 256, (t.core i).slotmap = if (s.core i).slotmap.getLsbD 8 then (s.core i).slotmap else 0x144) ∧
      t.mem = (untrained s).mem ∧ t.poisonMem = (untrained s).poisonMem := by
  intro t img
  let v := train (untrained s)
  obtain ⟨tab, htrain⟩ := train_whole (s := untrained s) (by rw [untrained_fw]; exact hd)
  obtain ⟨m, f, hstarted, -, hrun, hmin, hmeas, hmap⟩ := started_eq slot v
  have ht : t = startFirmware slot v := by
    show boot s = _
    rw [boot_trains hr hb hf, h]
  have htalk : Talk t (started slot v) := ht ▸ talk_startFirmware slot v
  have hfw : t.fw = f := by rw [htalk.fw, hstarted]
  have himg : (if slot then v.fw.slotB else v.fw.slotA) = img := by
    show (if slot then (train (untrained s)).fw.slotB else (train (untrained s)).fw.slotA) = _
    rw [train_fw, untrained_fw]
  have hcores : t.cores = m := by rw [htalk.cores, hstarted]
  have hold : v.cores = s.cores := by
    show (train (untrained s)).cores = _
    rw [htrain]
    exact untrained_host.2
  have hcount : (untrained s).fw.bootcount = s.fw.bootcount + 1 := by rw [untrained_fw]
  refine ⟨?_, ?_, ?_, ?_, ?_, by rw [hfw, hrun], ?_, by rw [hfw, hmin, himg], by rw [hfw, hmeas, himg], fun i hi => ?_, ?_, ?_⟩
  · rw [htalk.standing HostIf.ready fun _ => rfl, hstarted]
  · rw [htalk.standing HostIf.secure fun _ => rfl, hstarted]
  · rw [htalk.standing HostIf.resetting fun _ => rfl, hstarted]
  · rw [htalk.standing HostIf.dieMask fun _ => rfl, hstarted]
    show (train (untrained s)).host.dieMask = _
    rw [htrain]
  · rw [htalk.standing HostIf.stackMask fun _ => rfl, hstarted]
    show (train (untrained s)).host.stackMask = _
    rw [htrain, hcount]
  · rw [htalk.linksDown, hstarted]
  · rw [State.core, hcores, hmap i hi, State.core, hold, State.core]
  · rw [htalk.mem, hstarted]
    show (train (untrained s)).mem = _
    rw [htrain]
  · rw [htalk.poisonMem, hstarted]
    show (train (untrained s)).poisonMem = _
    rw [htrain]

end

/-- What the slots are at a power loss while a new image is written: the one that does not run is lost. -/
def torn (s : State) : State :=
  let n := max s.fw.slotA.length s.fw.slotB.length
  let junk := (List.range n).map fun i => Config.freeByte (s.freeCtr + i)
  if s.fw.running == some true then { s with fw.slotA := junk, freeCtr := s.freeCtr + n }
  else { s with fw.slotB := junk, freeCtr := s.freeCtr + n }

theorem torn_running (h : s.fw.running = some true) : torn s = { s with
    fw.slotA := (torn s).fw.slotA, freeCtr := (torn s).freeCtr } := by
  simp only [torn, h, beq_self_eq_true, if_true]

theorem torn_other (h : s.fw.running ≠ some true) : torn s = { s with
    fw.slotB := (torn s).fw.slotB, freeCtr := (torn s).freeCtr } := by
  simp only [torn, beq_eq_false_iff_ne.mpr h, Bool.false_eq_true, if_false]

theorem untrained_kept (h : s.fw.reset = .warm true) :
    (untrained s).mem = s.mem ∧ (untrained s).poisonMem = s.poisonMem := by
  rw [untrained, if_pos (beq_iff_eq.mpr h)]
  exact ⟨rfl, rfl⟩

theorem untrained_cleared (h : s.fw.reset ≠ .warm true) : (untrained s).mem = [] ∧ (untrained s).poisonMem = [] := by
  rw [untrained, if_neg (by simpa using h)]
  exact ⟨rfl, rfl⟩

end Sys2Proof.Machine
namespace Sys2Proof.Proofs
set_option Elab.async false
open Sys2Proof Sys2Proof.Machine

/-- Settles O55. -/
theorem resetsAndBoot : Obligations.ResetsAndBoot := by
  intro s ends c staging n
  have hends : ∀ k, ends (startReset k s) := fun k =>
    ⟨rfl, rfl, rfl, rfl, rfl, rfl, rfl, rfl, rfl, rfl, rfl, rfl, rfl, rfl, rfl, rfl, rfl, rfl, rfl, rfl, rfl⟩
  refine ⟨⟨_, rfl, hends _, rfl, rfl, rfl, rfl, rfl⟩, fun keep => ⟨_, rfl, hends _, rfl, rfl, rfl, rfl, rfl, fun hw i => ?_⟩,
    fun h => ?_, fun h => ?_, fun h => ?_, fun hr hb => ⟨_, rfl, boot_bootcount hr hb, fun hf => boot_faulty hr hb hf,
      fun hf hd => ⟨fun h => boot_stops hr hb hf hd h, fun slot h => ?_⟩⟩⟩
  · have hcore : (warmReset keep s).core i = resetCore false (s.core i) := core_startReset hw i
    rw [hcore]
    exact ⟨rfl, rfl, rfl, rfl⟩
  · have hstage : (!staging) = true := by rw [h]; rfl
    exact congrArg (fun u => Host.Outcome.next (startReset .cold u)) (if_pos hstage)
  · have hstage : ¬(!staging) = true := by rw [h]; exact Bool.false_ne_true
    have hstep : exec .powerLoss s = .next (startReset .cold (torn s)) :=
      congrArg (fun u => Host.Outcome.next (startReset .cold u)) (if_neg hstage)
    refine ⟨_, hstep, ?_⟩
    by_cases hrun : s.fw.running = some true
    · rw [if_pos hrun, torn_running hrun]
      exact ⟨⟨rfl, rfl, rfl, rfl, rfl, rfl, rfl, rfl, rfl, rfl, rfl, rfl, rfl, rfl, rfl, rfl, rfl, rfl, rfl, rfl, rfl⟩, rfl, rfl⟩
    · rw [if_neg hrun, torn_other hrun]
      exact ⟨⟨rfl, rfl, rfl, rfl, rfl, rfl, rfl, rfl, rfl, rfl, rfl, rfl, rfl, rfl, rfl, rfl, rfl, rfl, rfl, rfl, rfl⟩, rfl, rfl⟩
  · refine congrArg Host.Outcome.next (if_pos ?_)
    rcases h with h | h
    · rw [h]
      rfl
    · rw [bne_iff_ne.mpr h, Bool.or_true]
  · obtain ⟨hready, hsecure, hreset, hdie, hstack, hrun, hlinks, hmin, hmeas, hmap, hmem, hpoison⟩ :=
      boot_runs hr hb hf hd h
    exact ⟨hready, hsecure, hreset, hdie, hstack, hrun, hlinks, hmin, hmeas, hmap,
      fun hk => ⟨hmem.trans (untrained_kept hk).1, hpoison.trans (untrained_kept hk).2⟩,
      fun hk => ⟨hmem.trans (untrained_cleared hk).1, hpoison.trans (untrained_cleared hk).2⟩⟩

end Sys2Proof.Proofs
end

section
/-!
Links and power (R443, R462 to R464).
-/
namespace Sys2Proof.Machine
set_option Elab.async false
open Sys2Proof

variable {s u : State} {n d : Nat}

/-! Links that go down (R443). -/

theorem linkDown_ignored (h : 4 ≤ n ∨ n ∈ s.linksDown ∨ s.host.resetting = true) : linkDown n s = s := by
  refine if_pos ?_
  rcases h with h | h | h
  · rw [decide_eq_true h, Bool.true_or, Bool.true_or]
  · rw [List.contains_iff_mem.mpr h, Bool.or_true]
  · rw [h, Bool.or_true, Bool.true_or]

/-- The package after the report of a link that goes down. -/
def linkReported (n : Nat) (s : State) : State :=
  ({ s with linksDown := insertNat n s.linksDown } : State).post 9 0 0 (leBytes 4 n)

theorem talk_linkReported : Talk (linkReported n s) { s with linksDown := insertNat n s.linksDown } := talk_post

/-- A link that was up goes down: FATAL is set from the second on. -/
theorem linkDown_eq (hn : n < 4) (hr : s.host.resetting = false) (hup : n ∉ s.linksDown) :
    linkDown n s = if 2 ≤ (insertNat n s.linksDown).length then setFatal (linkReported n s) else linkReported n s := by
  have hgo : ¬(decide (4 ≤ n) || s.host.resetting || s.linksDown.contains n) = true := by
    rw [decide_eq_false (by omega), hr, Bool.eq_false_iff.mpr (mt List.contains_iff_mem.mp hup)]
    exact Bool.false_ne_true
  have hlinks : (linkReported n s).linksDown = insertNat n s.linksDown := talk_linkReported.linksDown
  rw [linkDown, if_neg hgo]
  show (if 2 ≤ (linkReported n s).linksDown.length then _ else _) = _
  rw [hlinks]
  rfl

/-- Once FATAL is set, the seats and the memory stand. -/
theorem setFatal_keeps : (setFatal s).seats = s.seats ∧ (setFatal s).mem = s.mem ∧ (setFatal s).host.dieMask = s.host.dieMask := by
  cases h : s.host.fatal
  · exact ⟨(talk_setFatal h).seats, (talk_setFatal h).mem, (talk_setFatal h).standing HostIf.dieMask fun _ => rfl⟩
  · rw [setFatal, if_pos h]
    exact ⟨rfl, rfl, rfl⟩

theorem insertNat_two {m : Nat} (h : m ≠ n) : (insertNat n [m]).length = 2 := by
  simp only [insertNat]
  split
  · rfl
  · split
    · exact absurd ‹n = m›.symm h
    · rfl

theorem linkDown_fatal {m : Nat} (hn : n < 4) (hr : s.host.resetting = false) (hl : s.linksDown = [m]) (hm : m ≠ n)
    (hf : s.host.fatal = false) :
    (linkDown n s).host.fatal = true ∧ (linkDown n s).seats = s.seats ∧ (linkDown n s).mem = s.mem ∧
      (linkDown n s).host.msix.get 0 2 = s.host.msix.get 0 2 + 1 := by
  have hstep : linkDown n s = setFatal (linkReported n s) := by
    rw [linkDown_eq hn hr (by rw [hl]; simpa using hm.symm), hl, insertNat_two hm]
    rfl
  have hfatal : (linkReported n s).host.fatal = false := (talk_linkReported.standing HostIf.fatal fun _ => rfl).trans hf
  obtain ⟨hset, hcount⟩ := setFatal_sets hfatal
  obtain ⟨hseats, hmem, -⟩ := setFatal_keeps (s := linkReported n s)
  rw [hstep]
  exact ⟨hset, hseats.trans talk_linkReported.seats, hmem.trans talk_linkReported.mem,
    hcount.trans (congrArg (· + 1) (talk_linkReported.msix 2 (by decide)))⟩

/-! Power samples (R464). -/

theorem powerSample_gates {watts : Nat} {hot : Bool} {dies : BitVec 4} : powerSample watts hot false dies s = { s with
    fw.gated := if s.fw.cap.toNat < watts ∨ hot = true then (List.range 4).filter fun d => dies.getLsbD d else [] } := by
  simp only [powerSample, Bool.false_eq_true, if_false, Bool.or_eq_true, decide_eq_true_eq]

/-- A shutdown sets FATAL and takes the dies. -/
theorem powerSample_shutdown {watts : Nat} {hot : Bool} {dies : BitVec 4} :
    let t := powerSample watts hot true dies s
    t.host.fatal = true ∧ t.host.msix.get 0 2 = s.host.msix.get 0 2 + 1 ∧ t.host.dieMask = 0 ∧ t.seats = [] ∧ t.mem = s.mem := by
  cases hf : s.host.fatal
  · obtain ⟨hset, hcount⟩ := setFatal_sets hf
    simp only [powerSample, if_true, hf, Bool.false_eq_true, if_false]
    exact ⟨hset, hcount, trivial, trivial, setFatal_keeps.2.1⟩
  · simp only [powerSample, if_true, hf]
    exact ⟨hf, Sparse.get_set_same (Nat.succ_ne_zero _), trivial, trivial, rfl⟩

/-! Power states (R462, R463). -/

theorem powerStateEntry_busy (hq : quietDie s d = false) (hl : deepest s.host.ltr < 4) : powerStateEntry d s = s := by
  have hstay : (decide (4 ≤ d) || s.host.resetting || decide (min 3 (deepest s.host.ltr) ≤ (s.die d).pstate) ||
      !quietDie s d) = true := by rw [hq, Bool.not_false, Bool.or_true]
  have hshallow : ∀ b : Bool, ¬(decide (deepest s.host.ltr = 4) && b) = true := fun b => by
    rw [decide_eq_false (by omega), Bool.false_and]
    exact Bool.false_ne_true
  simp only [powerStateEntry, if_pos hstay]
  exact if_neg (hshallow _)

/-- A quiet die enters the state that LTR allows, short of self-refresh. -/
theorem powerStateEntry_enters (hd : d < 4) (hr : s.host.resetting = false) (hn : n ≤ 3) (hl : deepest s.host.ltr = n)
    (hp : (s.die d).pstate < n) (hq : quietDie s d = true) :
    powerStateEntry d s = (loseAt d n s).updDie d fun x => { x with pstate := n } := by
  have hmin : min 3 n = n := by omega
  have hgo : ¬(decide (4 ≤ d) || s.host.resetting || decide (n ≤ (s.die d).pstate) || !quietDie s d) = true := by
    rw [decide_eq_false (by omega), hr, decide_eq_false (by omega), hq]
    exact Bool.false_ne_true
  have hshallow : ∀ b : Bool, ¬(decide (n = 4) && b) = true := fun b => by
    rw [decide_eq_false (by omega), Bool.false_and]
    exact Bool.false_ne_true
  simp only [powerStateEntry, hl, hmin, if_neg hgo]
  exact if_neg (hshallow _)

theorem loseAt_one : loseAt d 1 s = s := rfl

theorem loseAt_keeps : (loseAt d n s).mem = s.mem ∧ (loseAt d n s).seats = s.seats ∧ (loseAt d n s).host = s.host := by
  unfold loseAt
  split
  · split <;> exact ⟨rfl, rfl, rfl⟩
  · split <;> exact ⟨rfl, rfl, rfl⟩

/-- A die whose cores lose their state holds no lines and no translations of theirs. -/
theorem loseAt_cores (hn : 2 ≤ n) : ∀ e ∈ (loseAt d n s).cores, e.1 / 64 = d → e.2.line = [] ∧ e.2.tcache = [] := by
  have hcores : (loseAt d n s).cores = s.cores.map fun e =>
      if e.1 / 64 = d then (e.1, { e.2 with line := [], lineBad := [], lineSoft := [], lineMet := [], tcache := [] }) else e := by
    simp only [loseAt, if_neg (Nat.not_lt.mpr hn)]
    split <;> rfl
  intro e he hed
  rw [hcores, List.mem_map] at he
  obtain ⟨x, -, rfl⟩ := he
  by_cases hx : x.1 / 64 = d
  · simp only [if_pos hx]
    exact ⟨trivial, trivial⟩
  · rw [if_neg hx] at hed
    exact absurd hed hx

theorem loseAt_dies (hw : Sparse.wf ({} : Die) s.dies = true) : Sparse.wf ({} : Die) (loseAt d n s).dies = true := by
  unfold loseAt
  by_cases h2 : n < 2 <;> by_cases h3 : n < 3 <;> simp only [h2, h3, if_true, if_false]
  · exact hw
  · exact Sparse.set_wf hw
  · exact hw
  · exact Sparse.set_wf hw

theorem loseAt_die (hw : Sparse.wf ({} : Die) s.dies = true) :
    ((loseAt d 3 s).die d).pcache = [] ∧ ((loseAt d 3 s).die d).tcache = [] ∧ ((loseAt d 3 s).die d).wcache = [] := by
  have hdie : (loseAt d 3 s).die d = { s.die d with pcache := [], tcache := [], wcache := [] } := Sparse.get_set_wf hw
  rw [hdie]
  exact ⟨rfl, rfl, rfl⟩

theorem wakeDie_awakes (hw : Sparse.wf ({} : Die) s.dies = true) :
    ((s.wakeDie d).die d).pstate = 0 ∧ (s.wakeDie d).host.selfRefresh = false ∧ (s.wakeDie d).mem = s.mem ∧
      (s.wakeDie d).seats = s.seats ∧ (s.wakeDie d).cores = s.cores := by
  by_cases h : (decide ((s.die d).pstate = 0) && !s.host.selfRefresh) = true
  · have hstay : s.wakeDie d = s := if_pos h
    rw [Bool.and_eq_true, decide_eq_true_eq, Bool.not_eq_true'] at h
    rw [hstay]
    exact ⟨h.1, h.2, rfl, rfl, rfl⟩
  · have hwake : s.wakeDie d = { s.updDie d fun x => { x with pstate := 0 } with host.selfRefresh := false } := if_neg h
    have hdie : (s.wakeDie d).die d = { s.die d with pstate := 0 } := by
      rw [hwake]
      exact Sparse.get_set_wf hw
    rw [hdie, hwake]
    exact ⟨rfl, rfl, rfl, rfl, rfl⟩

end Sys2Proof.Machine
namespace Sys2Proof.Proofs
set_option Elab.async false
open Sys2Proof Sys2Proof.Machine

/-- A quiet die enters the state that LTR allows, and loses what that state does not keep. -/
theorem powerStateEntered {s : State} {d n : Nat} (hd : d < 4) (hw : Sparse.wf ({} : Die) s.dies = true)
    (hr : s.host.resetting = false) (hn1 : 1 ≤ n) (hn : n ≤ 3) (hl : deepest s.host.ltr = n) (hp : (s.die d).pstate < n)
    (hq : quietDie s d = true) :
    ∃ t, exec (.powerStateEntry d) s = .next t ∧ (t.die d).pstate = n ∧ t.mem = s.mem ∧ t.seats = s.seats ∧
      t.host = s.host ∧ (n = 1 → t.cores = s.cores) ∧
      (2 ≤ n → ∀ e ∈ t.cores, e.1 / 64 = d → e.2.line = [] ∧ e.2.tcache = []) ∧
      (n = 3 → (t.die d).pcache = [] ∧ (t.die d).tcache = [] ∧ (t.die d).wcache = []) := by
  have hdie : ((loseAt d n s).updDie d fun x => { x with pstate := n }).die d = { (loseAt d n s).die d with pstate := n } :=
    Sparse.get_set_wf (loseAt_dies hw)
  obtain ⟨hmem, hseats, hhost⟩ := loseAt_keeps (d := d) (n := n) (s := s)
  refine ⟨_, congrArg Host.Outcome.next (powerStateEntry_enters hd hr hn hl hp hq), by rw [hdie], hmem, hseats, hhost,
    fun h1 => ?_, fun h2 => loseAt_cores h2, fun h3 => ?_⟩
  · subst h1
    have hcores : (loseAt d 1 s).cores = s.cores := congrArg State.cores loseAt_one
    exact hcores
  · subst h3
    rw [hdie]
    exact loseAt_die hw

/-- Settles O56. -/
theorem linksAndPower : Obligations.LinksAndPower := by
  intro s
  refine ⟨fun n h => congrArg Host.Outcome.next (linkDown_ignored h), fun n hn hr hl => ?_, fun n hn m hr hl hm hf =>
    ⟨_, rfl, linkDown_fatal hn hr hl hm hf⟩, fun watts hot dies => congrArg Host.Outcome.next powerSample_gates,
    fun watts hot dies => ⟨_, rfl, powerSample_shutdown⟩, fun d hd hw hr => ⟨fun hq hl => ?_, fun n hn1 hn hl hp hq =>
      powerStateEntered hd hw hr hn1 hn hl hp hq, ?_⟩⟩
  · refine congrArg Host.Outcome.next ?_
    rw [linkDown_eq hn hr (by rw [hl]; exact List.not_mem_nil), linkReported, hl]
    rfl
  · exact congrArg Host.Outcome.next (powerStateEntry_busy hq hl)
  · exact ⟨_, congrArg Host.Outcome.next (if_neg (by omega)), wakeDie_awakes hw⟩

end Sys2Proof.Proofs
end

section
/-!
Commands on partitions and on the package (R269, R284, R396, R403, R414, R445, R452, R457, R459, R460, R464).
-/
namespace Sys2Proof.Machine
set_option Elab.async false
open Sys2Proof

variable {s t : State} {c c' : Cmd} {op : BitVec 16} {f : Cmd → State → CmdOut × State} {i : Instr} {st p : Nat} {x : Word}

/-! Commands that are taken (R449, R462). -/

theorem wakeAll_awake (h : Takes op s) : wakeAll s = s :=
  foldl_idle fun d hd => wakeDie_awake (h.awake d (by simp at hd; omega)) h.memory

theorem Takes.untaken (h : Takes op s) : s.fw.taken = none := by
  have htakes := h.takes
  simp only [canTake, Bool.and_eq_true] at htakes
  exact Option.isNone_iff_eq_none.mp htakes.1.1.2

/-- A command that is taken runs on the state as it is. -/
theorem runCmd_taken (h : Takes op s) : runCmd op f c s = completeCmd op c (f c s) := by
  rw [runCmd, if_pos h.takes, wakeAll_awake h]

/-- A command answers what it is done with; a variant of its mnemonic keeps its tag. -/
theorem answers (h : Takes op s) (hi : exec i s = .next (runCmd op f c' s)) (htag : c'.tag = c.tag)
    (hf : f c' s = (some (st, x), t)) : Answers i op c s st x t := by
  rw [Answers, hi, runCmd_taken h, hf]
  simp only [completeCmd, htag]

theorem uses_all {n : Nat} (h : Cmd.zeroFrom c n = true) : uses n f c s = f c s := if_pos h

theorem onPart_there {f : Nat → Cmd → State → CmdOut × State} (hp : c.part.toNat ≠ 0)
    (h : (s.part c.part.toNat).present = true) : onPart f c s = f c.part.toNat c s := by
  refine if_pos ?_
  have hne : c.part ≠ 0 := fun he => hp (by rw [he]; rfl)
  rw [bne_iff_ne.mpr hne, h]
  rfl

theorem onDie_there {f : Nat → Cmd → State → CmdOut × State} (h : c.die.toNat < 4) : onDie f c s = f c.die.toNat c s := if_pos h

/-! Translations that go (R414). -/

theorem syncDie_accs (d : Nat) : ∀ (n : Nat) (s : State), (syncDie d n s).accs = s.accs
  | 0, _ => rfl
  | n + 1, s => by
    rw [syncDie]
    split
    · exact syncDie_accs d n _
    · rfl

/-- What an invalidation leaves alone. -/
theorem invalidate_keeps {q : Xlat → Bool} :
    (invalidate p q s).accs = s.accs ∧ (invalidate p q s).host = s.host ∧ (invalidate p q s).seats = s.seats ∧
      (invalidate p q s).steps = s.steps ∧ (invalidate p q s).tasks = s.tasks := by
  have haside : Aside s.syncAll s := .foldl (fun _ _ => aside_sync) _ _
  have hsync : ∀ (l : List Nat) (s : State), (l.foldl (fun s d => s.sync d) s).accs = s.accs ∧
      (l.foldl (fun s d => s.sync d) s).host = s.host := by
    intro l
    induction l with
    | nil => exact fun s => ⟨rfl, rfl⟩
    | cons d l ih => exact fun s => ⟨(ih _).1.trans (syncDie_accs d _ s), (ih _).2.trans sync_host⟩
  exact ⟨(hsync _ s).1, (hsync _ s).2, haside.seats, haside.steps, haside.tasks⟩

theorem partQuiet_congr (ha : t.accs = s.accs) (hse : t.seats = s.seats) (hst : t.steps = s.steps)
    (hta : t.tasks = s.tasks) : partQuiet t p = partQuiet s p := by
  have hpart : ∀ k, t.partOf k = s.partOf k := fun k => by
    simp only [State.partOf, State.taskKey, State.stepKey, State.task, State.step1, State.seat, hse, hst, hta]
  simp only [partQuiet, ha, hpart]

theorem partQuiet_invalidate {q : Xlat → Bool} : partQuiet (invalidate p q s) p = partQuiet s p :=
  let ⟨ha, _, hse, hst, hta⟩ := invalidate_keeps
  partQuiet_congr ha hse hst hta

/-- A partition without faults has none to end. -/
theorem failFaults_none (h : ∀ d < 4, (s.die d).faults = [] ∧ (s.die d).xfails = []) : failFaults p s = s := by
  refine foldl_idle fun d hd => ?_
  obtain ⟨hf, hx⟩ := h d (List.mem_range.mp hd)
  rw [hf]
  exact if_neg (by
    show ¬((s.die d).xfails.any _) = true
    rw [hx]
    exact Bool.false_ne_true)

/-- A partition of which nothing is left is destroyed. -/
theorem destroy_empty (hq : s.queues = []) (hc : s.chans = []) (hf : ∀ d < 4, (s.die d).faults = [] ∧ (s.die d).xfails = [])
    (ha : s.host.apertures = []) (hl : liveTask s p = false) (hp : c.part.toNat = p) (hp0 : p ≠ 0)
    (hz : Cmd.zeroFrom c 0 = true) (hpr : (s.part p).present = true) :
    cmdPartDestroy c s = done 0 ((invalidate p (fun _ => true) s).updPart p fun _ => {}) := by
  subst hp
  have hap : (invalidate c.part.toNat (fun _ => true) s).host.apertures = [] := by rw [invalidate_keeps.2.1, ha]
  rw [cmdPartDestroy, uses_all hz, onPart_there hp0 hpr]
  simp only [hl, Bool.false_eq_true, if_false, hq, List.filter_nil, List.map_nil, List.foldl_nil, hc, failFaults_none hf]
  have hsame : { invalidate c.part.toNat (fun _ => true) s with
      host.apertures := (invalidate c.part.toNat (fun _ => true) s).host.apertures.filter fun e => e.2.part != c.part.toNat } =
      invalidate c.part.toNat (fun _ => true) s := by
    rw [hap, List.filter_nil, ← hap]
  exact congrArg (fun v : State => done 0 (v.updPart c.part.toNat fun _ => {})) hsame

end Sys2Proof.Machine
namespace Sys2Proof.Proofs
set_option Elab.async false
open Sys2Proof Sys2Proof.Machine

section
variable {s : State} {c : Cmd}

theorem fwStageAnswers (hT : Takes 0x0003 s) (hz : Cmd.zeroFrom c 2 = true) (hbad : hostBad s c.a0.toNat c.a1.toNat = false) :
    let bs := hostRead s c.a0.toNat c.a1.toNat
    let good := imageVerifies s.fw.minimum bs = true
    Answers (.fwStage c) 0x0003 c s (if good then 0 else 5) (if good then (imgSecver bs).setWidth 64 else 0)
      (if good then (if s.fw.running = some true then { s with fw.slotA := bs, fw.staged := some false }
        else { s with fw.slotB := bs, fw.staged := some true }) else s) := by
  intro bs good
  refine answers hT rfl rfl ?_
  rw [cmdFwStage, uses_all hz]
  simp only [hbad, Bool.false_or, Bool.not_eq_true']
  by_cases hgood : good
  · rw [if_pos hgood, if_pos hgood, if_pos hgood, if_neg (by rw [show imageVerifies s.fw.minimum bs = true from hgood]; decide)]
    rfl
  · rw [if_neg hgood, if_neg hgood, if_neg hgood, if_pos (Bool.eq_false_iff.mpr hgood)]
    rfl

theorem apertureAnswers (hT : Takes 0x001C s) (hz : Cmd.zeroFrom c 3 = true) (h0 : c.a0.toNat ≤ 63)
    (h1 : c.a1.toNat % 4096 = 0) :
    (c.a2.getLsbD 0 = false → Answers (.aperture c) 0x001C c s 0 0 { s with
      host.apertures := s.host.apertures.set {} c.a0.toNat {} }) ∧
    (c.a2.getLsbD 0 = true → c.part.toNat ≠ 0 → (s.part c.part.toNat).present = true → Answers (.aperture c) 0x001C c s 0 0 { s with
      host.apertures := s.host.apertures.set {} c.a0.toNat { valid := true, part := c.part.toNat, base := c.a1 } }) := by
  have hrange : ¬(63 < c.a0.toNat ∨ c.a1.toNat % 4096 ≠ 0) := by omega
  refine ⟨fun h2 => answers hT rfl rfl ?_, fun h2 hp hx => answers hT rfl rfl ?_⟩
  · rw [cmdAperture, uses_all hz, if_neg hrange]
    simp only [h2, Bool.false_and, Bool.false_eq_true, if_false]
    rfl
  · have hne : (c.part != 0) = true := bne_iff_ne.mpr fun he => hp (by rw [he]; rfl)
    rw [cmdAperture, uses_all hz, if_neg hrange]
    simp only [h2, hne, hx, Bool.true_and, Bool.not_true, Bool.false_eq_true, if_false, if_true]
    rfl

/-! Commands of a partition that exists. -/

section
variable (hp : c.part.toNat ≠ 0) (hx : (s.part c.part.toNat).present = true)
include hp hx

theorem partDestroyAnswers (hT : Takes 0x0011 s) (hz : Cmd.zeroFrom c 0 = true) :
    (liveTask s c.part.toNat = true → Answers (.partDestroy c) 0x0011 c s 4 0 s) ∧
    (liveTask s c.part.toNat = false → s.queues = [] → s.chans = [] →
      (∀ d < 4, (s.die d).faults = [] ∧ (s.die d).xfails = []) → s.host.apertures = [] →
      Answers (.partDestroy c) 0x0011 c s 0 0
        ((invalidate c.part.toNat (fun _ => true) s).updPart c.part.toNat fun _ => {})) := by
  refine ⟨fun hl => answers hT rfl rfl ?_, fun hl hq hc hf ha =>
    answers hT rfl rfl (destroy_empty hq hc hf ha hl rfl hp hz hx)⟩
  rw [cmdPartDestroy, uses_all hz, onPart_there hp hx, if_pos hl]
  rfl

theorem partWindowAnswers (hT : Takes 0x0013 s) (hz : Cmd.zeroFrom c 3 = true) (h1 : 1 ≤ c.a0.toNat) (h2 : c.a0.toNat ≤ 255)
    (h3 : c.a2.toNat % 4096 = 0) (hq : partQuiet s c.part.toNat = true) :
    Answers (.partWindow c) 0x0013 c s 0 0 (s.updPart c.part.toNat fun y => { y with
      windows := y.windows.set {} c.a0.toNat (windowEntry c.a1 c.a2) }) := by
  refine answers hT rfl rfl ?_
  rw [cmdPartWindow, uses_all hz, onPart_there hp hx, if_neg (by omega)]
  exact if_pos hq

theorem partInvalAnswers (hT : Takes 0x0014 s) (hz : Cmd.zeroFrom c 2 = true) (h0 : c.a0.toNat % 4096 = 0)
    (hq : partQuiet s c.part.toNat = true) : Answers (.partInval c) 0x0014 c s 0 0
      (invalidate c.part.toNat (fun y => y.meets c.a0.toNat c.a1.toNat) s) := by
  refine answers hT rfl rfl ?_
  rw [cmdPartInval, uses_all hz, onPart_there hp hx, if_neg (not_not.mpr h0)]
  exact if_pos (partQuiet_invalidate.trans hq)

theorem partSwapOutAnswers (hT : Takes 0x0015 s) (hz : Cmd.zeroFrom c 1 = true) (hd : c.die.toNat < 4)
    (hu : unsaved s c.die.toNat c.part.toNat = []) (hq : partQuiet s c.part.toNat = true) :
    Answers (.partSwapOut c) 0x0015 c s 0 0 (invalidate c.part.toNat (fun _ => true)
      (s.updPart c.part.toNat fun y => { y with swapped := y.swapped ||| (1 : BitVec 4) <<< c.die.toNat })) := by
  refine answers hT rfl rfl ?_
  show cmdPartSwap { c with a0 := 0 } s = _
  rw [cmdPartSwap, if_pos rfl, cmdSwapOut, uses_all (show Cmd.zeroFrom { c with a0 := 0 } 1 = true from hz),
    onDie_there (show ({ c with a0 := 0 } : Cmd).die.toNat < 4 from hd),
    onPart_there (show ({ c with a0 := 0 } : Cmd).part.toNat ≠ 0 from hp) hx]
  have hsaved : unsaved (s.updPart c.part.toNat fun y =>
      { y with swapped := y.swapped ||| (1 : BitVec 4) <<< c.die.toNat }) c.die.toNat c.part.toNat = [] := hu
  simp only [hsaved, List.foldl_nil, List.isEmpty_nil, Bool.not_true, Bool.false_eq_true, if_false]
  have hquiet : partQuiet (s.updPart c.part.toNat fun y =>
      { y with swapped := y.swapped ||| (1 : BitVec 4) <<< c.die.toNat }) c.part.toNat = true := hq
  exact if_pos (partQuiet_invalidate.trans hquiet)

theorem partSwapInAnswers (hT : Takes 0x0015 s) (hz : Cmd.zeroFrom c 2 = true) (hd : c.die.toNat < 4)
    (hout : (s.part c.part.toNat).swapped.getLsbD c.die.toNat = true) (hr : readySteps s c.die.toNat c.part.toNat = [])
    (hre : restoring s c.die.toNat c.part.toNat = false) : Answers (.partSwapIn c) 0x0015 c s 0 0
      (s.updPart c.part.toNat fun y => { y with swapped := y.swapped &&& ~~~((1 : BitVec 4) <<< c.die.toNat) }) := by
  refine answers hT rfl rfl ?_
  show cmdPartSwap { c with a0 := 1 } s = _
  rw [cmdPartSwap, if_neg (show ¬(1 : Word) = 0 by decide), if_pos rfl, cmdSwapIn, uses_all (show Cmd.zeroFrom { c with a0 := 1 } 2 = true from hz),
    onDie_there (show ({ c with a0 := 1 } : Cmd).die.toNat < 4 from hd),
    onPart_there (show ({ c with a0 := 1 } : Cmd).part.toNat ≠ 0 from hp) hx]
  have hready : readySteps (s.updPart c.part.toNat fun y =>
      { y with swapped := y.swapped &&& ~~~((1 : BitVec 4) <<< c.die.toNat) }) c.die.toNat c.part.toNat = [] := hr
  simp only [hT.untaken, Option.isSome_none, Bool.false_eq_true, if_false, hout, Bool.not_true, hready, List.foldl_nil]
  have hrestored : restoring (s.updPart c.part.toNat fun y =>
      { y with swapped := y.swapped &&& ~~~((1 : BitVec 4) <<< c.die.toNat) }) c.die.toNat c.part.toNat = false := hre
  exact if_neg (by rw [hrestored]; exact Bool.false_ne_true)

theorem partReserveAnswers (hT : Takes 0x0016 s) (hz : Cmd.zeroFrom c 2 = true) :
    let i := ((s.part c.part.toNat).ibud.toNat : Int) + c.a0.toInt
    let t := ((s.part c.part.toNat).tbud.toNat : Int) + c.a1.toInt
    (0 ≤ i → i < 2 ^ 64 → 0 ≤ t → t < 2 ^ 64 → Answers (.partReserve c) 0x0016 c s 0 (BitVec.ofInt 64 i)
      (s.updPart c.part.toNat fun y => { y with ibud := BitVec.ofInt 64 i, tbud := BitVec.ofInt 64 t })) ∧
    (i < 0 ∨ t < 0 → Answers (.partReserve c) 0x0016 c s 2 0 s) := by
  intro i t
  have hcmd : cmdPartReserve c s = if i < 0 ∨ 2 ^ 64 ≤ i ∨ t < 0 ∨ 2 ^ 64 ≤ t then done stRange s
      else result (BitVec.ofInt 64 i) (s.updPart c.part.toNat fun x =>
        { x with ibud := BitVec.ofInt 64 i, tbud := BitVec.ofInt 64 t }) := by
    rw [cmdPartReserve, uses_all hz, onPart_there hp hx]
  refine ⟨fun hi0 hi ht0 ht => answers hT rfl rfl ?_, fun h => answers hT rfl rfl ?_⟩
  · rw [hcmd, if_neg (by omega)]
    rfl
  · rw [hcmd, if_pos (by omega)]
    rfl

end
end

/-- Settles O52: each command by its own lemma, on the state as it is, for every die is awake. -/
theorem partitionCommands : Obligations.PartitionCommands := by
  intro s c p x
  refine ⟨fun hT hz => answers hT rfl rfl ?_, fun hT hz h => answers hT rfl rfl ?_,
    fun hT hz hbad => fwStageAnswers hT hz hbad, fun hT hz hp h4 hx => answers hT rfl rfl ?_,
    fun hT hz hlo hhi => answers hT rfl rfl ?_, fun hT hz h0 h1 => apertureAnswers hT hz h0 h1,
    fun hp hx => ⟨fun hT hz => (partDestroyAnswers hp hx hT hz).1, fun hT hz => (partDestroyAnswers hp hx hT hz).2,
      fun hT hz => answers hT rfl rfl ?_, fun hT hz => partWindowAnswers hp hx hT hz,
      fun hT hz => partInvalAnswers hp hx hT hz, fun hT hz => partSwapOutAnswers hp hx hT hz,
      fun hT hz => partSwapInAnswers hp hx hT hz, fun hT hz => partReserveAnswers hp hx hT hz,
      fun hT hz h0 h14 h3 => answers hT rfl rfl ?_⟩⟩
  · rw [cmdIdentify, uses_all hz]
    rfl
  · have hpresent : (c.a5.getLsbD 0 && !(s.part c.part.toNat).present) = false := by
      rcases h with h | h
      · rw [h, Bool.false_and]
      · rw [show (s.part c.part.toNat).present = true from h, Bool.not_true, Bool.and_false]
    rw [cmdAttest, uses_all hz]
    exact if_neg (by rw [hpresent]; exact Bool.false_ne_true)
  · rw [cmdPartCreate, uses_all hz]
    exact (if_neg (show ¬(p = 0 ∨ 7 < c.a4.toNat) by omega)).trans
      (if_neg (by rw [show (s.part p).present = false from hx]; exact Bool.false_ne_true))
  · rw [cmdPowerCap, uses_all hz]
    exact if_neg (by omega)
  · rw [cmdPartXlat, uses_all hz, onPart_there hp hx]
    rfl
  · rw [cmdTrapPolicy, uses_all hz, onPart_there hp hx]
    exact if_neg (by omega)

end Sys2Proof.Proofs
end

section
/-!
Commands on queues, tasks, slots, channels, code and cores (R289, R317, R322 to R324, R346, R348, R452, R461, R465).
-/
namespace Sys2Proof.Machine
set_option Elab.async false
open Sys2Proof

variable {s : State} {c : Cmd} {n : Nat}

theorem onQueue_there {f : Nat → Cmd → State → CmdOut × State} (hd : c.die.toNat < 4) (h0 : c.a0.toNat ≤ 65535)
    (hp : (s.queue (c.die.toNat * 65536 + c.a0.toNat)).present = true)
    (hpart : (s.queue (c.die.toNat * 65536 + c.a0.toNat)).part = c.part.toNat) :
    onQueue f c s = f (c.die.toNat * 65536 + c.a0.toNat) c s := by
  have hown : ¬(!(s.queue (c.die.toNat * 65536 + c.a0.toNat)).present ||
      (s.queue (c.die.toNat * 65536 + c.a0.toNat)).part != c.part.toNat) = true := by
    rw [hp, hpart]
    simp
  rw [onQueue, onDie_there hd, if_neg (by omega), if_neg hown]

theorem onChan_there {f : Nat → Cmd → State → CmdOut × State} (hd : c.die.toNat < 4) (h0 : c.a0.toNat ≤ 4095)
    (hs : (s.chan (c.die.toNat * 4096 + c.a0.toNat)).state ≠ 0)
    (hpart : (s.chan (c.die.toNat * 4096 + c.a0.toNat)).part = c.part.toNat) :
    onChan f c s = f (c.die.toNat * 4096 + c.a0.toNat) c s := by
  rw [onChan, onDie_there hd, if_neg (by omega), if_neg (by rintro (h | h); exacts [hs h, h hpart])]

/-! The end of a task (R346). -/

/-- A step that is present belongs to the task. -/
theorem taskSteps_none {t : Nat} (h : ∀ e ∈ s.steps, ¬(e.2.present = true ∧ e.2.task = t)) : taskSteps s t = [] := by
  rw [taskSteps, List.map_eq_nil_iff, List.filter_eq_nil_iff]
  intro e he hmatch
  rw [Bool.and_eq_true, beq_iff_eq] at hmatch
  exact h e he hmatch

/-- A task without steps has nothing left to place. -/
theorem dropUnplaced_placed {t : Nat} (h : (s.task t).next = (s.task t).steps) : dropUnplaced t s = s :=
  if_pos (by rw [h]; exact Nat.sub_self _)

/-- A task of which no step is left ends at once. -/
theorem endTask_bare {t : Nat} (hp : (s.task t).present = true)
    (hnone : ∀ e ∈ s.steps, ¬(e.2.present = true ∧ e.2.task = t)) (hall : (s.task t).next = (s.task t).steps) :
    endTask t s = done 0 { checkTask t (s.updTask t fun x =>
      { x with status := 5, code := 0, bundle := 0 }) with fw.ending := none } := by
  let u := s.updTask t fun x => { x with status := 5, code := 0, bundle := 0 }
  have htask : u.task t = { s.task t with status := 5, code := 0, bundle := 0 } := Sparse.get_set_same fun h => by
    have hpresent : (s.task t).present = false := congrArg Task.present h
    rw [hp] at hpresent
    cases hpresent
  have hdrop : dropUnplaced t u = u := dropUnplaced_placed (by rw [htask]; exact hall)
  have hsts : taskSteps u t = [] := taskSteps_none hnone
  show (if ((taskSteps u t).any fun st => _) = true then _ else _) = _
  rw [hsts]
  simp only [List.flatMap_nil, List.foldl_nil, List.any_nil, Bool.false_eq_true, if_false, List.isEmpty_nil, if_true]
  rw [hdrop]

/-! Cores (R289). -/

theorem Talk.dies {u : State} (h : Talk u s) : u.dies = s.dies := show u.quiet.dies = s.quiet.dies by rw [h.quiet]

/-- A key that does not read the default is listed with what it reads. -/
theorem Sparse.get_listed {α : Type} {d : α} {m : Sparse α} {a : Nat} (h : Sparse.get d m a ≠ d) :
    ∃ e ∈ m, e.2 = Sparse.get d m a := by
  induction m with
  | nil => exact absurd rfl h
  | cons e m ih =>
    rw [Sparse.get_cons] at h ⊢
    by_cases hk : a = e.1
    · exact ⟨e, List.mem_cons_self .., by rw [if_pos hk]⟩
    · rw [if_neg hk] at h ⊢
      by_cases hlt : a < e.1
      · exact absurd (if_pos hlt) h
      · rw [if_neg hlt] at h ⊢
        obtain ⟨x, hmem, hval⟩ := ih h
        exact ⟨x, List.mem_cons_of_mem _ hmem, hval⟩

/-- An empty core whose seats all hold steps lists no seat. -/
theorem seat_of_coreEmpty {k j : Nat} (he : coreEmpty s k = true) (hbusy : ∀ e ∈ s.seats, e.2.phase ≠ .idle)
    (hj : j = 2 * k ∨ j = 2 * k + 1) : s.seat j = {} := by
  have hidle : (s.seat j).phase = .idle := by
    rw [coreEmpty, Bool.and_eq_true, beq_iff_eq, beq_iff_eq] at he
    rcases hj with rfl | rfl
    exacts [he.1, he.2]
  by_contra hne
  obtain ⟨e, hmem, hval⟩ := Sparse.get_listed hne
  exact hbusy e hmem (by rw [hval]; exact hidle)

/-- A core without steps is retired: it is reported, and nothing is recalled. -/
theorem retireCore_empty {k : Nat} (he : coreEmpty s k = true) (hbusy : ∀ e ∈ s.seats, e.2.phase ≠ .idle) :
    retireCore k s = coreEvent k (s.updCore k fun x => { x with retired := true }) := by
  have haside : Apart (coreEvent k (s.updCore k fun x => { x with retired := true }))
      (s.updCore k fun x => { x with retired := true }) := .of_aside aside_post
  refine foldl_idle fun j hj => if_neg ?_
  have hseat : (coreEvent k (s.updCore k fun x => { x with retired := true })).seat j = {} := by
    rw [haside.seat]
    exact seat_of_coreEmpty he hbusy (by simpa using hj)
  rw [hseat]
  exact Bool.false_ne_true

end Sys2Proof.Machine
namespace Sys2Proof.Proofs
set_option Elab.async false
open Sys2Proof Sys2Proof.Machine

section
variable {s : State} {c : Cmd} (hd : c.die.toNat < 4)
include hd

theorem queueCreateAnswers (hT : Takes 0x0020 s) (hz : Cmd.zeroFrom c 5 = true) (hp : c.part.toNat ≠ 0)
    (hpr : (s.part c.part.toNat).present = true) (h0 : c.a0.toNat ≤ 65535) (h3 : 1 ≤ c.a3.toNat) (h3' : c.a3.toNat ≤ 16)
    (h2 : c.a2.toNat % 4096 = 0) (hq : (s.queue (c.die.toNat * 65536 + c.a0.toNat)).present = false) :
    let q := c.die.toNat * 65536 + c.a0.toNat
    let x : Queue := { present := true, ring := c.a2, record := c.a1, sizelog := c.a3.toNat, device := c.a4.getLsbD 0
                       part := c.part.toNat, gen := (s.queue q).gen }
    (∀ v, fwReaches c.die.toNat c.part.toNat c.a1.toNat 64 s = (true, v) → Answers (.queueCreate c) 0x0020 c s 0 0
      ((v.fwWrite c.die.toNat c.part.toNat c.a1.toNat x.bytes).2.updQueue q fun _ => x)) ∧
    (∀ v, fwReaches c.die.toNat c.part.toNat c.a1.toNat 64 s = (false, v) → Answers (.queueCreate c) 0x0020 c s 4 0 v) := by
  have hrange : ¬(65535 < c.a0.toNat ∨ c.a3.toNat = 0 ∨ 16 < c.a3.toNat ∨ c.a2.toNat % 4096 ≠ 0) := by omega
  intro q x
  refine ⟨fun v hv => answers hT rfl rfl ?_, fun v hv => answers hT rfl rfl ?_⟩
  · rw [cmdQueueCreate, uses_all hz, onDie_there hd, if_neg hrange, onPart_there hp hpr]
    simp only [hq, Bool.false_eq_true, if_false, hv]
    rfl
  · rw [cmdQueueCreate, uses_all hz, onDie_there hd, if_neg hrange, onPart_there hp hpr]
    simp only [hq, Bool.false_eq_true, if_false, hv]
    rfl

theorem queueAnswers (h0 : c.a0.toNat ≤ 65535) (hpr : (s.queue (c.die.toNat * 65536 + c.a0.toNat)).present = true)
    (hpart : (s.queue (c.die.toNat * 65536 + c.a0.toNat)).part = c.part.toNat) :
    let q := c.die.toNat * 65536 + c.a0.toNat
    (Takes 0x0021 s → Cmd.zeroFrom c 1 = true → Answers (.queueDestroy c) 0x0021 c s 0 0 (destroyQueue q s)) ∧
    (Takes 0x0022 s → Cmd.zeroFrom c 2 = true → c.a1.toNat ≤ 63 →
      Answers (.queueAssign c) 0x0022 c s 0 0 (assignQueue q c.a1.toNat s)) := by
  refine ⟨fun hT hz => answers hT rfl rfl ?_, fun hT hz h1 => answers hT rfl rfl ?_⟩
  · rw [cmdQueueDestroy, uses_all hz, onQueue_there hd h0 hpr hpart]
    rfl
  · rw [cmdQueueAssign, uses_all hz, if_neg (by omega), onQueue_there hd h0 hpr hpart]
    rfl

theorem taskEndAnswers {t : Nat} (hT : Takes 0x0023 s) (hz : Cmd.zeroFrom c 2 = true) (h0 : c.a0.toNat ≤ 65535)
    (h1 : c.a1.toNat < 2 ^ 32) (ht : taskOf s (c.die.toNat * 65536 + c.a0.toNat) (c.a1.setWidth 32) = some t)
    (hpart : (s.task t).part = c.part.toNat) (hpr : (s.task t).present = true)
    (hnone : ∀ e ∈ s.steps, ¬(e.2.present = true ∧ e.2.task = t)) (hall : (s.task t).next = (s.task t).steps) :
    Answers (.taskEnd c) 0x0023 c s 0 0 { checkTask t (s.updTask t fun x =>
      { x with status := 5, code := 0, bundle := 0 }) with fw.ending := none } := by
  refine answers hT rfl rfl ?_
  rw [cmdTaskEnd, uses_all hz, onDie_there hd, if_neg (by omega)]
  simp only [ht, hpart, if_true, endTask_bare hpr hnone hall]
  rfl

theorem chanCreateAnswers (hT : Takes 0x0030 s) (hz : Cmd.zeroFrom c 3 = true) (hp : c.part.toNat ≠ 0)
    (hpr : (s.part c.part.toNat).present = true) (h0 : c.a0.toNat ≤ 4095)
    (hs : (s.chan (c.die.toNat * 4096 + c.a0.toNat)).state = 0) (hw : 1 ≤ (c.a1.extractLsb' 0 8).toNat)
    (hw' : (c.a1.extractLsb' 0 8).toNat ≤ 128)
    (hq : (c.a1.extractLsb' 16 12).toNat ≤ (c.a1.extractLsb' 32 12).toNat) (h2 : c.a2.toNat % 128 = 0) :
    Answers (.chanCreate c) 0x0030 c s 0 0 (s.updChan (c.die.toNat * 4096 + c.a0.toNat) fun _ =>
      { state := 1, armed := true, cls := c.a1.extractLsb' 8 3, part := c.part.toNat
        quota := (c.a1.extractLsb' 16 12).toNat
        qmax := (c.a1.extractLsb' 32 12).toNat
        width := (c.a1.extractLsb' 0 8).toNat
        tqueue := (c.a1.extractLsb' 48 16).toNat
        trig := c.a2 }) := by
  have hrange : ¬(4095 < c.a0.toNat ∨ (c.a1.extractLsb' 0 8).toNat = 0 ∨ 128 < (c.a1.extractLsb' 0 8).toNat ∨
      (c.a1.extractLsb' 32 12).toNat < (c.a1.extractLsb' 16 12).toNat ∨ c.a2.toNat % 128 ≠ 0) := by omega
  refine answers hT rfl rfl ?_
  rw [cmdChanCreate, uses_all hz, onDie_there hd, if_neg hrange, onPart_there hp hpr]
  exact if_neg (by rw [hs]; exact Bool.false_ne_true)

theorem chanAnswers (h0 : c.a0.toNat ≤ 4095) (hs : (s.chan (c.die.toNat * 4096 + c.a0.toNat)).state ≠ 0)
    (hpart : (s.chan (c.die.toNat * 4096 + c.a0.toNat)).part = c.part.toNat) :
    let ch := c.die.toNat * 4096 + c.a0.toNat
    (Takes 0x0031 s → Cmd.zeroFrom c 1 = true → (s.chan ch).rbound = false → (s.chan ch).wbound = false →
      Answers (.chanDestroy c) 0x0031 c s 0 0 (destroyChan ch s)) ∧
    (Takes 0x0031 s → Cmd.zeroFrom c 1 = true → (s.chan ch).rbound = true ∨ (s.chan ch).wbound = true →
      Answers (.chanDestroy c) 0x0031 c s 4 0 s) ∧
    (Takes 0x0032 s → Cmd.zeroFrom c 3 = true → c.a1.getLsbD 0 = false → c.a2.toNat ≤ (s.chan ch).qmax →
      c.a2.toNat < 0xFFFF →
      Answers (.chanSet c) 0x0032 c s 0 0 (feedProxy ch (s.updChan ch fun x => { x with quota := c.a2.toNat }))) ∧
    (Takes 0x0032 s → Cmd.zeroFrom c 3 = true → c.a1.getLsbD 0 = true → c.a2 = 0xFFFF →
      Answers (.chanSet c) 0x0032 c s 0 0 (faultChan ch s)) := by
  refine ⟨fun hT hz hr hw => answers hT rfl rfl ?_, fun hT hz hb => answers hT rfl rfl ?_,
    fun hT hz h1 hq hlt => answers hT rfl rfl ?_, fun hT hz h1 h2 => answers hT rfl rfl ?_⟩
  · rw [cmdChanDestroy, uses_all hz, onChan_there hd h0 hs hpart]
    exact if_neg (by rw [hr, hw]; exact Bool.false_ne_true)
  · rw [cmdChanDestroy, uses_all hz, onChan_there hd h0 hs hpart]
    exact if_pos (by rw [Bool.or_eq_true]; exact hb)
  · have hne : c.a2 ≠ 0xFFFF := fun h => by
      rw [h] at hlt
      exact absurd hlt (by decide)
    rw [cmdChanSet, uses_all hz, onChan_there hd h0 hs hpart, if_neg (by omega)]
    simp only [if_neg hne, h1, Bool.false_eq_true, if_false]
    rfl
  · have hrange : ¬(0xFFFF < c.a2.toNat ∨ c.a2 ≠ 0xFFFF ∧ (s.chan (c.die.toNat * 4096 + c.a0.toNat)).qmax < c.a2.toNat) := by
      rw [h2]
      simp
    rw [cmdChanSet, uses_all hz, onChan_there hd h0 hs hpart, if_neg hrange]
    simp only [if_pos h2, h1, if_true]
    rfl

theorem coreRetireAnswers (hT : Takes 0x0040 s) (hz : Cmd.zeroFrom c 1 = true) (h0 : c.a0.toNat ≤ 63) :
    let k := c.die.toNat * 64 + c.a0.toNat
    ((s.core k).retired = true → Answers (.coreRetire c) 0x0040 c s 4 0 s) ∧
    ((s.core k).retired = false → coreEmpty s k = true → s.Wf → (∀ e ∈ s.seats, e.2.phase ≠ .idle) →
      Answers (.coreRetire c) 0x0040 c s 0 (BitVec.ofNat 64 (s.die c.die.toNat).sparesLeft)
        (coreEvent k (s.updCore k fun x => { x with retired := true }))) := by
  intro k
  refine ⟨fun hr => answers hT rfl rfl ?_, fun hr he hw hbusy => answers hT rfl rfl ?_⟩
  · rw [cmdCoreRetire, uses_all hz, onDie_there hd, if_neg (by omega)]
    exact if_pos hr
  · have hretired := retireCore_empty he hbusy
    have hdies : (retireCore k s).dies = s.dies := by
      rw [hretired]
      exact talk_post.dies
    have hspares : ((retireCore k s).die c.die.toNat).sparesLeft = (s.die c.die.toNat).sparesLeft := by
      rw [State.die, hdies, State.die]
    rw [cmdCoreRetire, uses_all hz, onDie_there hd, if_neg (by omega),
      if_neg (show ¬(s.core k).retired = true by rw [hr]; exact Bool.false_ne_true)]
    show result (BitVec.ofNat 64 ((retireCore k s).die c.die.toNat).sparesLeft) (retireCore k s) = _
    rw [hspares, hretired]
    rfl

end

theorem codeLoadAnswers {s : State} {c : Cmd} (hT : Takes 0x0038 s) (hz : Cmd.zeroFrom c 3 = true) (hp : c.part.toNat ≠ 0)
    (hpr : (s.part c.part.toNat).present = true) :
    let bs := hostRead s c.a0.toNat c.a1.toNat
    let xs := loadedSections bs c.a2.toNat
    (hostBad s c.a0.toNat c.a1.toNat = true ∨ objectOk bs = false → Answers (.codeLoad c) 0x0038 c s 5 0 s) ∧
    (∀ v, hostBad s c.a0.toNat c.a1.toNat = false → objectOk bs = true → xs ≠ [] →
      (xs.map (·.1)).headD c.a2.toNat + (joinSections xs).length ≤ 2 ^ 64 →
      s.fwWrite 0 c.part.toNat ((xs.map (·.1)).headD c.a2.toNat) (joinSections xs) = (true, v) →
      Answers (.codeLoad c) 0x0038 c s 0
        (BitVec.ofNat 64 ((xs.map (·.1)).headD c.a2.toNat + (joinSections xs).length - c.a2.toNat))
        (v.updPart c.part.toNat fun x => { x with pmeas := extendMeasure x.pmeas bs })) := by
  intro bs xs
  refine ⟨fun h => answers hT rfl rfl ?_, fun v hb ho hx hfit hv => answers hT rfl rfl ?_⟩
  · have hreject : (hostBad s c.a0.toNat c.a1.toNat || !objectOk bs) = true := by
      rcases h with h | h
      · rw [h, Bool.true_or]
      · rw [h, Bool.not_false, Bool.or_true]
    rw [cmdCodeLoad, uses_all hz, onPart_there hp hpr]
    exact if_pos hreject
  · have haccept : ¬(hostBad s c.a0.toNat c.a1.toNat || !objectOk bs) = true := by
      rw [hb, ho]
      exact Bool.false_ne_true
    have hsome : xs.isEmpty = false := List.isEmpty_eq_false_iff.mpr hx
    rw [cmdCodeLoad, uses_all hz, onPart_there hp hpr]
    refine (if_neg haccept).trans ?_
    rw [placeObject, if_neg (Nat.not_lt.mpr hfit), hv]
    show result _ _ = _
    rw [show (loadedSections bs c.a2.toNat).isEmpty = false from hsome]
    rfl

/-- Settles O54: each command by its own lemma, on the state as it is, for every die is awake. -/
theorem dispatchCommands : Obligations.DispatchCommands := by
  intro s c hd d p q ch own
  refine ⟨fun hT hz hown h0 h3 h3' h2 hq => queueCreateAnswers hd hT hz hown.1 hown.2 h0 h3 h3' h2 hq,
    fun h0 hpr hpart => queueAnswers hd h0 hpr hpart,
    fun t hT hz h0 h1 ht hpart hpr hnone hall => taskEndAnswers hd hT hz h0 h1 ht hpart hpr hnone hall,
    fun hT hz h0 => answers hT rfl rfl ?_, fun hT hz h0 => answers hT rfl rfl ?_,
    fun hT hz hown h0 hs hw hw' hq h2 => chanCreateAnswers hd hT hz hown.1 hown.2 h0 hs hw hw' hq h2,
    fun h0 hs hpart => chanAnswers hd h0 hs hpart, fun hT hz hown => codeLoadAnswers hT hz hown.1 hown.2,
    fun hT hz h0 => coreRetireAnswers hd hT hz h0, fun hT hz => ?_, fun op hnone hne hT =>
      answers (f := (cmdOf op.toNat).getD cmdUnknown) hT (congrArg Host.Outcome.next (if_neg hne)) rfl ?_⟩
  · rw [cmdSlotSet, uses_all hz, onDie_there hd]
    exact if_neg (by omega)
  · rw [cmdRowSet, uses_all hz, onDie_there hd]
    exact if_neg (by omega)
  · refine congrArg Host.Outcome.next ?_
    rw [runReset, if_pos hT.takes, wakeAll_awake hT, if_pos hz, cmdReset, uses_all hz]
    rfl
  · rw [hnone]
    rfl

end Sys2Proof.Proofs
end

section
/-!
What a read and a write at a home do to memory (R375 to R379, R418 to R426), and the accesses of the host through its
apertures (R413, R445, R448).
-/
namespace Sys2Proof.Machine
set_option Elab.async false
open Sys2Proof

variable {s u v : State} {n d pa g : Nat} {bs : List Byte} {bad : Bool} {tc : BitVec 3} {via : Via}

/-! Reads of memory. -/

/-- u follows from s by reads: the memory and what waits for it stand. -/
structure Peek (u s : State) : Prop where
  mem : u.mem = s.mem
  accs : u.accs = s.accs
  aside : Aside u s

namespace Peek

theorem refl : Peek s s := ⟨rfl, rfl, .refl⟩
theorem trans (h : Peek v u) (h' : Peek u s) : Peek v s :=
  ⟨h.mem.trans h'.mem, h.accs.trans h'.accs, h.aside.trans h'.aside⟩

theorem ite {p : Prop} [Decidable p] {a b : State} (ha : Peek a s) (hb : Peek b s) : Peek (if p then a else b) s := by
  split <;> assumption

theorem foldl {α : Type} {f : State → α → State} (h : ∀ s x, Peek (f s x) s) : ∀ (xs : List α) (s : State), Peek (xs.foldl f s) s
  | [], _ => refl
  | x :: xs, s => (foldl h xs (f s x)).trans (h s x)

end Peek

theorem peek_updStack {f : Stack → Stack} : Peek (s.updStack n f) s := ⟨rfl, rfl, aside_updStack⟩
theorem peek_updDie {f : Die → Die} : Peek (s.updDie d f) s := ⟨rfl, rfl, aside_updDie⟩

theorem peek_post {type die part : Nat} {payload : List Byte} : Peek (s.post type die part payload) s := by
  obtain ⟨h, hh⟩ := post_host (s := s) (type := type) (die := die) (part := part) (payload := payload)
  exact ⟨by rw [hh], by rw [hh], aside_post⟩

theorem peek_closeRow {bank : Nat} {closing : Bool} : Peek (closeRow n bank closing s) s := by
  simp only [closeRow]
  split
  · exact .refl
  · exact .ite (peek_post.trans peek_updStack) peek_updStack

theorem peek_openRow {p : Spot} : Peek (openRow n p s) s :=
  .ite peek_updStack (peek_updStack.trans (peek_closeRow.trans peek_updStack))

theorem peek_touchRow : Peek (touchRow pa s) s :=
  .ite (peek_closeRow.trans peek_openRow) (.ite (peek_closeRow.trans peek_openRow) peek_openRow)

theorem peek_scrubGran : Peek (scrubGran g s) s :=
  .ite .refl (.ite (peek_updStack.trans ⟨rfl, rfl, aside_errs⟩)
    (peek_updStack.trans ⟨rfl, rfl, aside_poisonMem.trans aside_errs⟩))

theorem peek_homeRead : Peek (homeRead g s).2.2 s := peek_scrubGran.trans peek_touchRow

theorem peek_applyAnn {a : Ann} : Peek (applyAnn a s) s := by
  rw [applyAnn, patchCache]
  exact peek_updDie.trans peek_updDie

theorem peek_syncDie (d : Nat) : ∀ (n : Nat) (s : State), Peek (syncDie d n s) s
  | 0, _ => .refl
  | n + 1, s => by
    rw [syncDie]
    split
    · exact (peek_syncDie d n _).trans (peek_applyAnn.trans ⟨rfl, rfl, aside_anns⟩)
    · exact .refl

theorem peek_sync : Peek (s.sync d) s := peek_syncDie d _ s
theorem peek_applySeen : Peek (applySeen d g s) s := .ite .refl peek_sync
theorem peek_openWindow : Peek (openWindow d s) s := .ite (.foldl (fun _ _ => peek_sync) _ _) .refl

theorem peek_openGrans : Peek (openGrans pa n s) s :=
  .foldl (fun _ _ => .ite peek_touchRow (peek_scrubGran.trans peek_touchRow)) _ _

theorem peek_getMem : Peek (getMem d pa n via s).2.2 s := by
  unfold getMem
  simp only
  split
  · exact peek_homeRead
  · split
    · exact .refl
    · exact .ite (peek_updDie.trans (peek_homeRead.trans peek_applySeen)) (peek_homeRead.trans peek_applySeen)

/-! Bytes inside a granule. -/

theorem getMany_drop {α : Type} {x : α} {m : Sparse α} : ∀ (k a n : Nat),
    (Sparse.getMany x m a n).drop k = Sparse.getMany x m (a + k) (n - k)
  | 0, _, _ => rfl
  | _ + 1, _, 0 => by simp [Sparse.getMany]
  | k + 1, a, n + 1 => by
    rw [Sparse.getMany, List.drop_succ_cons, getMany_drop k, Nat.add_sub_add_right, Nat.add_right_comm, Nat.add_assoc]

theorem getMany_take {α : Type} {x : α} {m : Sparse α} : ∀ (k a n : Nat), k ≤ n →
    (Sparse.getMany x m a n).take k = Sparse.getMany x m a k
  | 0, _, _, _ => rfl
  | k + 1, a, n + 1, h => by
    rw [Sparse.getMany, List.take_succ_cons, getMany_take k _ _ (Nat.le_of_succ_le_succ h)]
    rfl

/-- Bytes of one granule at their home. -/
theorem homeLine_part (h : pa % 64 + n ≤ 64) : ((homeLine s (pa / 64)).drop (pa % 64)).take n = memRead s.mem pa n := by
  have hpa : 64 * (pa / 64) + pa % 64 = pa := Nat.div_add_mod ..
  rw [homeLine, memRead, getMany_drop, getMany_take _ _ _ (by omega), hpa]
  rfl

/-- A read by an agent of the home die, inside one granule. -/
theorem getMem_home (hd : homeDie pa = d) (h : pa % 64 + n ≤ 64) : (getMem d pa n via s).1 = memRead s.mem pa n := by
  rw [getMem, if_pos hd]
  show ((homeLine _ (pa / 64)).drop (pa % 64)).take n = _
  rw [homeLine_part h]
  exact congrArg (memRead · pa n) (peek_homeRead (g := pa / 64) (s := s)).mem

theorem settlePort_none (h : s.accs = []) : settlePort d pa n s tc = s := if_pos (by rw [h]; rfl)

theorem checkedRead_alone (h : s.accs = []) : checkedRead d pa n via s tc = getMem d pa n via s := by
  rw [checkedRead, settlePort_none h]

theorem checkedWrite_alone (h : s.accs = []) : checkedWrite d pa bs bad s tc = putMem d pa bs bad s := by
  rw [checkedWrite, settlePort_none h]

/-- A write writes its bytes where they lie, and leaves the seats and the accesses alone; a lost stack takes none. -/
theorem putMem_writes (hb : bs ≠ []) (hl : (s.stack (stackOf pa)).lost = false) :
    (putMem d pa bs bad s).mem = memWrite s.mem pa bs ∧ (putMem d pa bs bad s).accs = s.accs := by
  have hgo : ¬(bs.isEmpty || (s.stack (stackOf pa)).lost) = true := by
    rw [hl, List.isEmpty_eq_false_iff.mpr hb]
    exact Bool.false_ne_true
  have hopen : Peek (openWindow d (openGrans pa bs.length s)) s := peek_openWindow.trans peek_openGrans
  have hsync := peek_sync (d := homeDie pa) (s := openWindow d (openGrans pa bs.length s))
  rw [putMem, if_neg hgo]
  generalize openWindow d (openGrans pa bs.length s) = u at hopen hsync
  by_cases hd : homeDie pa = d
  · simp only [if_pos hd]
    rw [← hopen.mem, ← hopen.accs]
    exact ⟨rfl, rfl⟩
  · simp only [if_neg hd]
    rw [← hopen.mem, ← hopen.accs, ← hsync.mem, ← hsync.accs]
    exact ⟨rfl, rfl⟩

/-- Bytes of one granule are read in one piece. -/
theorem readMem_one {fuel : Nat} (ha : s.accs = []) (hn : 1 ≤ n) (h : pa % 64 + n ≤ 64) :
    readMem d via tc (fuel + 2) pa n s =
      ((getMem d pa n via s).1, [(getMem d pa n via s).2.1], (getMem d pa n via s).2.2) := by
  have hk : min n (64 - pa % 64) = n := by omega
  simp only [readMem, if_neg (show ¬n = 0 by omega), hk, checkedRead_alone ha, Nat.sub_self, if_true, List.append_nil]

/-! Apertures (R413, R445, R448). -/

section
variable {a off p va : Nat} {ep : Bool} {ty : Nat} {bytes : List Byte}

/-- An access inside one page. -/
theorem pagesOf_one {f : Nat} (hn : n ≠ 0) (h : va % 4096 + n ≤ 4096) : pagesOf (f + 2) va n = [(va, n)] := by
  have hk : inPage va n = n := by
    rw [inPage]
    omega
  simp only [pagesOf, if_neg hn, hk, Nat.sub_self, if_true]

theorem hostWrite_closed (h : (s.host.apertures.get {} a).valid = false) : hostWrite a off bytes ep s = s := by
  refine if_pos ?_
  rw [h]
  simp

/-- A write into one page that translates. -/
theorem hostWrite_page (hp : (s.die 0).pstate = 0) (hs : s.host.selfRefresh = false) (hr : s.host.resetting = false)
    (hv : (s.host.apertures.get {} a).valid = true) (hoff : off + bytes.length ≤ 2 ^ 30) (hb : bytes ≠ [])
    (hpage : ((s.host.apertures.get {} a).base.toNat + off) % 4096 + bytes.length ≤ 4096)
    (hx : hostXlate (s.host.apertures.get {} a).part ((s.host.apertures.get {} a).base.toNat + off) .write s = (some (pa, ty), v)) :
    hostWrite a off bytes ep s = checkedWrite 0 pa bytes ep v := by
  have hgo : ¬(s.host.resetting || !(s.host.apertures.get {} a).valid || decide (2 ^ 30 < off + bytes.length)) = true := by
    rw [hr, hv, decide_eq_false (by omega)]
    exact Bool.false_ne_true
  have hlen : bytes.length ≠ 0 := fun h => hb (List.length_eq_zero_iff.mp h)
  rw [hostWrite, if_neg hgo, wakeDie_awake hp hs]
  simp only [pagesOf_one hlen hpage, List.foldl_cons, List.foldl_nil, hx, Nat.sub_self, List.drop_zero, List.take_length]

/-- A read of bytes of one granule of die 0. -/
theorem hostReadAt_page (hp : (s.die 0).pstate = 0) (hs : s.host.selfRefresh = false) (hr : s.host.resetting = false)
    (hv : (s.host.apertures.get {} a).valid = true) (hoff : off + n ≤ 2 ^ 30) (hn : 1 ≤ n)
    (hpage : ((s.host.apertures.get {} a).base.toNat + off) % 4096 + n ≤ 4096)
    (hx : hostXlate (s.host.apertures.get {} a).part ((s.host.apertures.get {} a).base.toNat + off) .read s = (some (pa, ty), v))
    (ha : v.accs = []) (hgran : pa % 64 + n ≤ 64) :
    hostReadAt a off n s =
      let r := getMem 0 pa n (viaType ty) v
      { r.2.2 with host.replies := r.2.2.host.replies ++ [some (r.1, r.2.1)] } := by
  have hgo : ¬(s.host.resetting || !(s.host.apertures.get {} a).valid || decide (2 ^ 30 < off + n)) = true := by
    rw [hr, hv, decide_eq_false (by omega)]
    exact Bool.false_ne_true
  rw [hostReadAt, if_neg hgo, wakeDie_awake hp hs]
  simp only [pagesOf_one (by omega : n ≠ 0) hpage, hostPages, hx, State.read, State.readMarked, readMem_one ha hn hgran,
    List.append_nil, List.any_cons, List.any_nil, id, Bool.or_false]

theorem aside_hostXlate {w : Want} : Aside (hostXlate p va w s).2 s := by
  unfold hostXlate
  split
  · exact .refl
  · exact aside_nowXlate

end

end Sys2Proof.Machine
namespace Sys2Proof.Proofs
set_option Elab.async false
open Sys2Proof Sys2Proof.Machine

/-- Settles O51. -/
theorem hostAccesses : Obligations.HostAccesses := by
  intro s a off hp hs x va
  refine ⟨fun bytes ep pa ty v hr hv hoff hb hpage hx hl ha => ?_, fun bytes ep hv =>
    congrArg Host.Outcome.next (hostWrite_closed hv), fun p w y hy => if_pos hy,
    fun n pa ty v hr hv hoff hn hpage hx hd ha hgran => ?_, fun n h => ?_⟩
  · have hstep : exec (.hostWrite a off bytes ep) s = .next (putMem 0 pa bytes ep v) := by
      refine congrArg Host.Outcome.next ?_
      rw [hostWrite_page hp hs hr hv hoff hb hpage hx, checkedWrite_alone ha]
    exact ⟨_, hstep, (putMem_writes hb hl).1, aside_putMem.seats⟩
  · have hpeek := peek_getMem (d := 0) (pa := pa) (n := n) (via := viaType ty) (s := v)
    have hxlate : Aside v s := by
      have hs := aside_hostXlate (p := x.part) (va := va) (w := .read) (s := s)
      rwa [hx] at hs
    have hstep : exec (.hostRead a off n) s = .next _ :=
      congrArg Host.Outcome.next (hostReadAt_page hp hs hr hv hoff hn hpage hx ha hgran)
    refine ⟨_, (getMem 0 pa n (viaType ty) v).2.1, hstep, hpeek.mem, ?_⟩
    show (getMem 0 pa n (viaType ty) v).2.2.host.replies ++ [some ((getMem 0 pa n (viaType ty) v).1, _)] = _
    rw [hpeek.aside.replies, hxlate.replies, getMem_home hd hgran]
  · refine congrArg Host.Outcome.next (if_pos ?_)
    rcases h with h | h | h
    · rw [h, Bool.true_or, Bool.true_or]
    · rw [show (s.host.apertures.get {} a).valid = false from h, Bool.not_false, Bool.or_true, Bool.true_or]
    · rw [decide_eq_true h, Bool.or_true]

end Sys2Proof.Proofs
end

section
/-!
Refresh, precharge, patrol and a lost stack (R420 to R422, R426, R428).
-/
namespace Sys2Proof.Machine
set_option Elab.async false
open Sys2Proof

/-- Stack 0 is listed twice. Its first entry has row 1 of bank 0 open; once that row is closed and its prediction has
been met, the entry is the default, and the second one, of a lost stack, shows. -/
def stackTwiceListed : State :=
  { stackTab := [(0, { counters := [(0, 1)], banks := [(0, { row := some 1 })] }), (0, { lost := true })]
    errs := [(0, 1)] }

/-- The patrol opens row 0 of that bank, then finds the stack lost, and corrects nothing. -/
theorem patrol_stackTwiceListed : (patrolScrub 0 0 stackTwiceListed).errs = [(0, 1)] := by decide

end Sys2Proof.Machine
namespace Sys2Proof.Proofs
set_option Elab.async false
open Sys2Proof Sys2Proof.Machine

/-- Refutes O46: no hypothesis makes the map of the stacks canonical. A write of a default value to a stack that is listed
twice shows its second entry, and where that one is lost the patrol corrects no granule. -/
theorem not_banksAndStacks : ¬ Obligations.BanksAndStacks := by
  intro h
  obtain ⟨-, -, -, -, hpatrol, -⟩ := h stackTwiceListed 0 0 0
  obtain ⟨t, hexec, herrs, -, -⟩ := hpatrol 0 (by decide) (by decide) (by decide) (by decide) (by decide)
  have hmodel : t.errs = [(0, 1)] := by
    have ht : Host.Outcome.next (patrolScrub 0 0 stackTwiceListed) = .next t := hexec
    rw [← Host.Outcome.next.inj ht]
    exact patrol_stackTwiceListed
  rw [hmodel] at herrs
  exact absurd herrs (by decide)

end Sys2Proof.Proofs
end

section
/-!
Accesses at the memories, walks and faults (R377, R386, R406, R407, R411, R418).
-/
namespace Sys2Proof.Machine
set_option Elab.async false
open Sys2Proof

variable {s t u v : State} {d n p va agent : Nat} {w : Want} {x : Xlat} {ea e : Nat}

/-! The accesses of the copy engine. -/

theorem getElem?_modifyAt {α : Type} {f : α → α} : ∀ (xs : List α) (n : Nat), (modifyAt f xs n)[n]? = xs[n]?.map f
  | [], _ => by simp [modifyAt]
  | x :: xs, 0 => by simp [modifyAt]
  | x :: xs, n + 1 => by simp [modifyAt, getElem?_modifyAt xs n]

section
variable {a : Access} {pa : Nat} (ha : s.accs[n]? = some a) (ht : a.target = .dram pa)
include ha ht

/-- The n-th access is served where nothing of its port holds it. -/
theorem stackServe_serves {write : Bool} (hw : a.write = write) (hp : a.phase = .waiting) (hu : unblocked s n a = true)
    (hc : class0First s a = false) : stackServe write n s = serveAcc n s := by
  have hgo : ¬(a.write != write || a.phase != .waiting || !unblocked s n a || class0First s a) = true := by
    rw [hw, hp, hu, hc]
    simp
  simp only [stackServe, ha, ht, if_neg hgo]

theorem serveAcc_write (hw : a.write = true) : serveAcc n s =
    { putMem (dieOf a.seat) pa a.data a.poison s with
      accs := modifyAt (fun x => { x with phase := .served }) (putMem (dieOf a.seat) pa a.data a.poison s).accs n } := by
  simp only [serveAcc, ha, ht, hw, if_true]

theorem serveAcc_read (hw : a.write = false) : serveAcc n s =
    let r := getMem (dieOf a.seat) pa a.size (if a.uncached then .home else if a.nt then .look else .keep) s
    { r.2.2 with accs := modifyAt (fun x => { x with phase := .served, data := r.1, poison := r.2.1 }) r.2.2.accs n } := by
  simp only [serveAcc, ha, ht, hw, Bool.false_eq_true, if_false]

end

/-! Walks (R406, R407). -/

theorem wakeWaiters_dies {ws : List Waiter} : (wakeWaiters d p ws s).dies = s.dies := by
  rw [wakeWaiters]
  induction ws.filter Waiter.remote generalizing s with
  | nil => rfl
  | cons w ws ih => exact ih

theorem wakeEnded_dies (l : List WReq) : ∀ s : State, (l.foldl (fun s w => wakeWaiters d w.part w.waiters s) s).dies = s.dies := by
  induction l with
  | nil => exact fun _ => rfl
  | cons w l ih => exact fun s => (ih _).trans wakeWaiters_dies

/-- No queued request of a die satisfies q. -/
def NoneAsks (q : WReq → Bool) (x : Die) : Prop := ∀ w ∈ x.walks ++ x.walkLine, q w = false

/-- Whether the request is one that a leaf serves. -/
def WReq.servedBy (x : Xlat) (w : WReq) : Bool := x.serves w.part w.va.toNat w.agent (wantOf w)

theorem servedBy_take {r y : WReq} : (r.take y).servedBy x = y.servedBy x := by
  rw [WReq.take]
  split <;> rfl

/-- Requests that move up in the walk queue ask for what they asked before. -/
theorem noneAsks_fillWalks : ∀ (n : Nat) (y : Die), NoneAsks (WReq.servedBy x) y → NoneAsks (WReq.servedBy x) (fillWalks n y)
  | 0, _, h => h
  | n + 1, y, h => by
    rw [fillWalks]
    split
    · exact h
    · rename_i r rest hline
      have hall : ∀ q ∈ y.walks ++ (r :: rest), q.servedBy x = false := by
        have := h
        rwa [NoneAsks, hline] at this
      split
      · refine noneAsks_fillWalks n _ fun q hq => ?_
        rcases List.mem_append.mp hq with hq | hq
        · obtain ⟨o, ho, rfl⟩ := List.mem_map.mp hq
          exact servedBy_take.trans (hall o (List.mem_append_left _ ho))
        · exact hall q (List.mem_append_right _ (List.mem_cons_of_mem _ hq))
      · split
        · exact noneAsks_fillWalks n _ fun q hq => hall q (by simpa using hq)
        · exact h

/-- Once a leaf is found, and kept by its die, no queued request waits that it serves. -/
theorem serveLeaf_none (h : (s.die d).tcache ≠ []) : NoneAsks (WReq.servedBy x) ((serveLeaf d x s).die d) := by
  let y : Die := { s.die d with
    walks := (s.die d).walks.filter fun w => !w.servedBy x, walkLine := (s.die d).walkLine.filter fun w => !w.servedBy x }
  have hclear : NoneAsks (WReq.servedBy x) y := fun q hq => by
    rw [← List.filter_append, List.mem_filter] at hq
    simpa using hq.2
  by_cases hended : (((s.die d).walks ++ (s.die d).walkLine).filter fun w => w.servedBy x).isEmpty = true
  · have hstay : serveLeaf d x s = s := if_pos hended
    rw [hstay]
    intro q hq
    rw [List.isEmpty_iff, List.filter_eq_nil_iff] at hended
    exact Bool.eq_false_iff.mpr (hended q hq)
  · have hdies : (serveLeaf d x s).dies = (s.updDie d fun _ => Die.fillWalks y).dies :=
      (congrArg State.dies (if_neg hended)).trans (wakeEnded_dies _ _)
    have hdie : (serveLeaf d x s).die d = Die.fillWalks y := by
      rw [State.die, hdies]
      refine Sparse.get_set_same fun hdefault => h ?_
      have hcache : ∀ (n : Nat) (z : Die), (fillWalks n z).tcache = z.tcache := fun n => by
        induction n with
        | zero => exact fun _ => rfl
        | succ n ih =>
          intro z
          rw [fillWalks]
          split
          · rfl
          · split
            · exact ih _
            · split
              · exact ih _
              · rfl
      exact (hcache _ y).symm.trans (congrArg Die.tcache hdefault)
    rw [hdie]
    exact noneAsks_fillWalks _ _ hclear

theorem keepLast_append_ne {α : Type} {m : Nat} {ys : List α} {y : α} (hm : 0 < m) : keepLast m (ys ++ [y]) ≠ [] := by
  rw [keepLast, Ne, List.drop_eq_nil_iff, List.length_append, List.length_singleton]
  omega

theorem keepWalk_kept {es : List (Nat × Nat × Nat × Nat)} : ((keepWalk d p x es s).die d).tcache ≠ [] := by
  have hkept : ∀ f : Die → Die, (f (s.die d)).tcache ≠ [] → ((s.updDie d f).die d).tcache ≠ [] := fun f hz => by
    have hdie : (s.updDie d f).die d = f (s.die d) := Sparse.get_set_same fun h => hz (congrArg Die.tcache h)
    rwa [hdie]
  rw [keepWalk]
  refine hkept _ ?_
  dsimp only
  exact keepLast_append_ne (by omega)

/-- The end of a pass: the leaf is kept, or the entry has changed under the walk. -/
theorem passEnd_kept {r : Bool × State} {y : Xlat} {es : List (Nat × Nat × Nat × Nat)} {a b : Nat}
    (h : (if r.1 then some (WalkRes.ok y a b) else none, if r.1 then keepWalk d p y es r.2 else r.2) =
      (some (.ok x ea e), v)) : (v.die d).tcache ≠ [] := by
  obtain ⟨hres, hst⟩ := Prod.mk.inj h
  by_cases hdone : r.1 = true
  · rw [if_pos hdone] at hst
    rw [← hst]
    exact keepWalk_kept
  · rw [if_neg hdone] at hres
    cases hres

/-- A pass that finds a leaf keeps it. -/
theorem walkPass_kept {src : Nat → Nat} {start : Lvl × Nat × Nat}
    (h : walkPass src start d p va agent w s = (some (.ok x ea e), v)) : (v.die d).tcache ≠ [] := by
  rw [walkPass] at h
  split at h
  · cases h
  · split at h
    · cases h
    · exact passEnd_kept h

theorem walkAgain_kept : ∀ {n : Nat} {s : State}, walkAgain d p va agent w n s = (.ok x ea e, v) → (v.die d).tcache ≠ []
  | 0, _, h => by cases h
  | n + 1, s, h => by
    rw [walkAgain] at h
    split at h
    · rename_i hpass
      rw [Prod.mk.injEq] at h
      obtain ⟨rfl, rfl⟩ := h
      exact walkPass_kept hpass
    · exact walkAgain_kept h

theorem endWalk_ok {r : WalkRes × State} (h : endWalk d r = (.ok x ea e, v)) :
    r.1 = .ok x ea e ∧ v = serveLeaf d x r.2 := by
  obtain ⟨res, t⟩ := r
  cases res with
  | ok y a b =>
    obtain ⟨hres, hst⟩ := Prod.mk.inj h
    obtain ⟨rfl, rfl, rfl⟩ := WalkRes.ok.inj hres
    exact ⟨rfl, hst.symm⟩
  | fault k lv e po => cases (Prod.mk.inj h).1

/-- A walk that finds a leaf serves what waits for it. -/
theorem walk_serves (h : walk d p va agent w s = (.ok x ea e, v)) : NoneAsks (WReq.servedBy x) (v.die d) := by
  rw [walk] at h
  split at h
  · cases h
  · obtain ⟨hres, rfl⟩ := endWalk_ok h
    refine serveLeaf_none ?_
    revert hres
    split
    · rename_i hpass
      rintro rfl
      exact walkPass_kept hpass
    · exact fun hres => walkAgain_kept (Prod.ext hres rfl)

section
variable {r : WReq} (hr : (s.die d).walks[n]? = some r) (ht : walkTaken s d n = true)
include hr ht

theorem translationWalk_ok
    (h : walk d r.part r.va.toNat r.agent (wantOf r) (s.updDie d fun x => Die.fillWalks { x with walks := x.walks.eraseIdx n }) =
      (.ok x ea e, v)) : translationWalk d n s = wakeWaiters d r.part r.waiters v := by
  simp only [translationWalk, hr, ht, Bool.not_true, Bool.false_eq_true, if_false, h]

/-- A failure of which every waiter is of this package becomes the outcome of each, or a fault that holds them. -/
theorem translationWalk_fault {kind lv : Nat} {po : Bool}
    (h : walk d r.part r.va.toNat r.agent (wantOf r) (s.updDie d fun x => Die.fillWalks { x with walks := x.walks.eraseIdx n }) =
      (.fault kind lv e po, v)) (hw : ∀ y ∈ r.waiters, r.concerns kind y = true ∧ y.remote = false) :
    translationWalk d n s = if unresolvable v r.part kind then r.waiters.foldl (failWaiter d r.part) v
      else r.waiters.foldl holdWaiter (recordFault d r.part r.va kind r.access r.agent lv e po r.tcls r.waiters v) := by
  have hmine : r.waiters.filter (r.concerns kind) = r.waiters := List.filter_eq_self.mpr fun y hy => (hw y hy).1
  have hrest : (r.waiters.filter fun y => !r.concerns kind y) = [] :=
    List.filter_eq_nil_iff.mpr fun y hy => by rw [(hw y hy).1]; exact Bool.false_ne_true
  have hlocal : r.waiters.any Waiter.remote = false := List.any_eq_false.mpr fun y hy => Bool.eq_false_iff.mp (hw y hy).2
  have hwake : wakeWaiters d r.part [] v = v := rfl
  simp only [translationWalk, hr, ht, Bool.not_true, Bool.false_eq_true, if_false, h, hmine, hrest, hlocal, hwake]

end

/-- A fault that nobody waits for ends with its time. -/
theorem faultTimeout_ends {f : FaultRec} (hf : (s.die d).faults[n]? = some f) (hl : (s.part f.part).ftimeout ≠ 0)
    (hw : f.waiters = []) (hq : ∀ e ∈ s.queues, e.2.recWait = false)
    (hfind : ((s.die d).faults.find? fun g => g.id == f.id) = some f) :
    faultTimeout d n s = s.updDie d fun x => { x with faults := x.faults.filter fun g => g.id != f.id } := by
  have hend : endFault d f.id false s = s.updDie d fun x => { x with faults := x.faults.filter fun g => g.id != f.id } := by
    simp only [endFault, hfind, hw, Bool.false_eq_true, if_false, List.foldl_nil]
  have hrecords : (s.queues.filter fun e => e.1 / 65536 == d && e.2.present && e.2.recWait) = [] :=
    List.filter_eq_nil_iff.mpr fun e he => by rw [hq e he, Bool.and_false]; exact Bool.false_ne_true
  simp only [faultTimeout, hf, beq_eq_false_iff_ne.mpr hl, Bool.false_eq_true, if_false]
  rw [faultEnd, hend, retryRecords]
  show List.foldl _ _ (List.map _ (s.queues.filter fun e => e.1 / 65536 == d && e.2.present && e.2.recWait)) = _
  rw [hrecords]
  rfl

end Sys2Proof.Machine
namespace Sys2Proof.Proofs
set_option Elab.async false
open Sys2Proof Sys2Proof.Machine

/-- A stack serves an access that nothing of its port holds: a write reaches memory, a read takes its bytes from there. -/
theorem stackServes {s : State} {n : Nat} {a : Access} {pa : Nat} (ha : s.accs[n]? = some a) (ht : a.target = .dram pa)
    (hp : a.phase = .waiting) (hu : unblocked s n a = true) (hc : class0First s a = false) :
    (a.write = true → a.data ≠ [] → (s.stack (stackOf pa)).lost = false →
      ∃ t, exec (.stackWrite n) s = .next t ∧ t.mem = memWrite s.mem pa a.data ∧
        t.accs[n]? = some { a with phase := .served }) ∧
    (a.write = false → ∃ t bs bad, exec (.stackRead n) s = .next t ∧ t.mem = s.mem ∧ t.seats = s.seats ∧
      t.accs[n]? = some { a with phase := .served, data := bs, poison := bad } ∧
      (homeDie pa = dieOf a.seat → pa % 64 + a.size ≤ 64 → bs = memRead s.mem pa a.size)) := by
  refine ⟨fun hw hb hl => ?_, fun hw => ?_⟩
  · obtain ⟨hmem, haccs⟩ := putMem_writes (d := dieOf a.seat) (bad := a.poison) hb hl
    have hstep : exec (.stackWrite n) s = .next _ := congrArg Host.Outcome.next
      ((stackServe_serves ha ht hw hp hu hc).trans (serveAcc_write ha ht hw))
    refine ⟨_, hstep, hmem, ?_⟩
    show (modifyAt _ (putMem _ pa a.data a.poison s).accs n)[n]? = _
    rw [getElem?_modifyAt, haccs, ha]
    rfl
  · let r := getMem (dieOf a.seat) pa a.size (if a.uncached then .home else if a.nt then .look else .keep) s
    have hpeek : Peek r.2.2 s := peek_getMem
    have hstep : exec (.stackRead n) s = .next _ := congrArg Host.Outcome.next
      ((stackServe_serves ha ht hw hp hu hc).trans (serveAcc_read ha ht hw))
    refine ⟨_, r.1, r.2.1, hstep, hpeek.mem, hpeek.aside.seats, ?_, fun hd hgran => getMem_home hd hgran⟩
    show (modifyAt _ r.2.2.accs n)[n]? = _
    rw [getElem?_modifyAt, hpeek.accs, ha]
    rfl

/-- Settles O45. -/
theorem memoryAccesses : Obligations.MemoryAccesses := by
  intro s d n
  refine ⟨fun a pa ha ht hp hu hc => stackServes ha ht hp hu hc, fun a ha hd hp => ⟨_, rfl, ?_, rfl, rfl⟩,
    fun a ha hd hr => ?_, fun a ha hr => ?_, fun hsome ht => ?_, fun r hr ht => ⟨fun x ea e v hv => ⟨?_, walk_serves hv⟩,
      fun kind lv e po v hv hw => ?_⟩, fun f hf => ⟨fun hl => ?_, fun hl hw hq hfind => ?_⟩⟩
  · show (modifyAt _ s.accs n)[n]? = _
    rw [getElem?_modifyAt, ha]
    simp [hd, hp]
  · refine congrArg Host.Outcome.next ?_
    simp only [announcementApply, ha, hd, hr, beq_self_eq_true, Bool.and_self, if_true]
  · refine congrArg Host.Outcome.next ?_
    simp only [announcementApply, ha, hr, Bool.and_false, Bool.false_eq_true, if_false]
  · obtain ⟨r, hr⟩ := Option.isSome_iff_exists.mp hsome
    refine congrArg Host.Outcome.next ?_
    simp only [translationWalk, hr, ht, Bool.not_false, if_true]
  · exact congrArg Host.Outcome.next (translationWalk_ok hr ht hv)
  · exact congrArg Host.Outcome.next (translationWalk_fault hr ht hv hw)
  · refine congrArg Host.Outcome.next ?_
    simp only [faultTimeout, hf, hl, beq_self_eq_true, if_true]
  · exact congrArg Host.Outcome.next (faultTimeout_ends hf hl hw hq hfind)

end Sys2Proof.Proofs
end

section
/-!
Near memory: granules of a fill and atomic adds (R434, R435, R439).
-/
namespace Sys2Proof.Machine
set_option Elab.async false
open Sys2Proof

variable {s u : State} {d n i pa g z : Nat} {x : NmCmd} {r bs : List Byte} {tc : BitVec 3}

/-! What the end of a step of a command leaves alone. -/

@[simp] theorem updMemberCtx_mem {st m : Nat} {f : Ctx → Ctx} : (s.updMemberCtx st m f).mem = s.mem := by
  unfold State.updMemberCtx
  split <;> rfl

@[simp] theorem onNmHandle_mem {f : Handle → Handle} : (onNmHandle x f s).mem = s.mem := by
  unfold onNmHandle
  split
  · exact updMemberCtx_mem
  · rfl

@[simp] theorem pruneFences_mem {st m : Nat} : (pruneFences st m s).mem = s.mem := by
  unfold pruneFences
  simp only
  split
  · rfl
  · exact updMemberCtx_mem

@[simp] theorem nmClose_mem {status done skipped stopat : Nat} : (nmClose i x status done skipped stopat s).mem = s.mem := rfl

@[simp] theorem nmEnd_mem : (nmEnd i x s).mem = s.mem := onNmHandle_mem

/-! Lost stacks. -/

theorem syncDie_stackTab (d : Nat) : ∀ (n : Nat) (s : State), (syncDie d n s).stackTab = s.stackTab
  | 0, _ => rfl
  | n + 1, s => by
    rw [syncDie]
    split
    · exact syncDie_stackTab d n _
    · rfl

theorem sync_stack : (s.sync d).stack n = s.stack n := by
  rw [State.stack, State.sync, syncDie_stackTab, State.stack]

theorem applySeen_stack : (applySeen d g s).stack n = s.stack n := by
  unfold applySeen
  split
  · rfl
  · exact sync_stack

/-- A granule that reads without poison lies in a stack that is not lost. -/
theorem stack_of_granGood (h : s.granBad (pa / 64) = false) : (s.stack (stackOf pa)).lost = false := by
  rw [State.granBad, Bool.or_eq_false_iff] at h
  have hstack : stackOf (64 * (pa / 64)) = stackOf pa := by
    rw [stackOf, stackOf]
    omega
  rw [← hstack]
  exact h.2

/-! The unit (R435, R439). -/

/-- What the unit writes reaches memory. -/
theorem nmWrite_mem (ha : s.accs = []) (hb : bs ≠ []) (hl : (s.stack (stackOf pa)).lost = false) :
    (nmWrite pa bs s tc).mem = memWrite s.mem pa bs := by
  have hsync := peek_sync (d := homeDie pa) (s := s)
  rw [nmWrite, writeMem, checkedWrite_alone (hsync.accs.trans ha), (putMem_writes hb (by rw [sync_stack]; exact hl)).1, hsync.mem]

theorem nmFetch_alone (ha : s.accs = []) : nmFetch d pa n s tc =
    ((getMem (homeDie pa) pa n .home s).1, (getMem (homeDie pa) pa n .home s).2.1,
      applySeen d (pa / 64) (getMem (homeDie pa) pa n .home s).2.2) := by
  rw [nmFetch, checkedRead_alone ha]

theorem peek_nmFetch (ha : s.accs = []) : Peek (nmFetch d pa n s tc).2.2 s := by
  rw [nmFetch_alone ha]
  exact peek_applySeen.trans peek_getMem

/-- A fetch without poison comes from a stack that is not lost. -/
theorem nmFetch_stack (ha : s.accs = []) (h : (nmFetch d pa n s tc).2.1 = false) :
    ((nmFetch d pa n s tc).2.2.stack (stackOf pa)).lost = false := by
  rw [nmFetch_alone ha] at h ⊢
  show ((applySeen _ _ _).stack _).lost = false
  rw [applySeen_stack]
  rw [getMem, if_pos rfl] at h ⊢
  exact stack_of_granGood h

theorem nmApply_fill {dst src : List Byte} (h : nmOp r = 2) :
    nmApply r dst src = (List.range 8).flatMap fun _ => leBytes 8 (fieldAt r 0x20 8) := by
  simp only [nmApply, h]

/-- A granule of a fill takes eight copies of VALUE. -/
theorem nmGranule_fill_mem (ho : nmOp r = 2) (hx : nmXlate x (nmDst r + 64 * x.gno) .update s = (some pa, s)) (ha : s.accs = [])
    (hl : (s.stack (stackOf pa)).lost = false) :
    (nmGranule i x r s).mem = memWrite s.mem pa ((List.range 8).flatMap fun _ => leBytes 8 (fieldAt r 0x20 8)) := by
  have hne : ((List.range 8).flatMap fun _ => leBytes 8 (fieldAt r 0x20 8)) ≠ [] := List.cons_ne_nil _ _
  have hmem := nmWrite_mem (tc := x.tcls) ha hne hl
  simp only [nmGranule, hx, ho, if_true, nmApply_fill ho, Bool.or_self, Bool.false_eq_true, if_false,
    show (decide ((2 : Nat) = 0) || decide ((2 : Nat) = 3)) = false from rfl]
  split
  · exact onNmHandle_mem.trans hmem
  · exact onNmHandle_mem.trans hmem

theorem atNew_add {old : Nat} (h : atOp r = 0) :
    atNew r old = some ((old + fieldAt r 0x10 8 % 2 ^ (8 * atSize r)) % 2 ^ (8 * atSize r)) := by
  simp only [atNew, h]

theorem leBytes_ne_nil {w : Nat} (h : z ≠ 0) : leBytes z w ≠ [] := by
  cases z with
  | zero => exact absurd rfl h
  | succ z => exact List.cons_ne_nil _ _

theorem atSize_cases : atSize r = 4 ∨ atSize r = 8 := by
  rw [atSize]
  split
  · exact .inr rfl
  · exact .inl rfl

/-- An atomic add that reads poison changes nothing in memory. -/
theorem atPerform_poison_mem (ha : s.accs = []) (hbad : (nmFetch (homeDie pa) pa (atSize r) s x.tcls).2.1 = true) :
    (atPerform i x r pa none s).mem = s.mem := by
  simp only [atPerform, hbad, if_true]
  exact nmEnd_mem.trans (onNmHandle_mem.trans (peek_nmFetch ha).mem)

/-- An atomic add writes the sum of its operand and what its home holds. -/
theorem atPerform_add_mem (ha : s.accs = []) (ho : atOp r = 0)
    (hbad : (nmFetch (homeDie pa) pa (atSize r) s x.tcls).2.1 = false) :
    (atPerform i x r pa none s).mem = memWrite s.mem pa (leBytes (atSize r)
      ((leNat (nmFetch (homeDie pa) pa (atSize r) s x.tcls).1 + fieldAt r 0x10 8 % 2 ^ (8 * atSize r)) %
        2 ^ (8 * atSize r))) := by
  have hpeek := peek_nmFetch (d := homeDie pa) (pa := pa) (n := atSize r) (tc := x.tcls) ha
  have hsize : atSize r ≠ 0 := by rcases atSize_cases (r := r) with h | h <;> omega
  simp only [atPerform, hbad, Bool.false_eq_true, if_false, atNew_add ho, onNmHandle_mem]
  show (nmWrite pa _ _ x.tcls).mem = _
  rw [nmWrite_mem (hpeek.accs.trans ha) (leBytes_ne_nil hsize) (nmFetch_stack ha hbad), hpeek.mem]

end Sys2Proof.Machine
namespace Sys2Proof.Proofs
set_option Elab.async false
open Sys2Proof Sys2Proof.Machine

/-- Settles O44. -/
theorem nearMemorySteps : Obligations.NearMemorySteps := by
  intro s i x r pa hn hs hheld haccs hr hf hc
  refine ⟨fun hat hstop hcl ho hx => ?_, fun hat ho hres hx => ?_⟩
  · have hgo : ¬(x.atomic || x.suspended || nmHeld s x) = true := by
      rw [hat, hs, hheld]
      exact Bool.false_ne_true
    have hstep : exec (.nearMemoryGranule i) s = .next (pruneFences x.step x.member (nmGranule i x r s)) := by
      refine congrArg Host.Outcome.next ?_
      simp only [nearMemoryGranule, hn, if_neg hgo, nmStep, hcl, hr, hstop, hf, hc, Bool.false_eq_true, if_false]
    exact ⟨_, hstep, fun hl => pruneFences_mem.trans (nmGranule_fill_mem ho hx haccs hl)⟩
  · have hgo : ¬(!x.atomic || x.suspended || (nmHeld s x && !x.cancelled)) = true := by
      rw [hat, hs, hheld]
      exact Bool.false_ne_true
    have hat : atStep i x s = atPerform i x r pa none s := by
      simp only [atStep, hr, hf, hc, Bool.false_eq_true, if_false, hx, hres, if_true]
    have hstep : exec (.nmAtomicRecord i) s = .next (pruneFences x.step x.member (atPerform i x r pa none s)) := by
      refine congrArg Host.Outcome.next ?_
      simp only [nmAtomicRecord, hn, if_neg hgo, hat]
    refine ⟨_, _, _, _, rfl, hstep, fun halign => ?_, fun hbad => ?_, fun hbad => ?_⟩
    · rw [checkedRead_alone haccs]
      refine getMem_home rfl ?_
      rcases atSize_cases (r := r) with h | h <;> rw [h] at halign ⊢ <;> omega
    · exact pruneFences_mem.trans (atPerform_poison_mem haccs hbad)
    · exact pruneFences_mem.trans (atPerform_add_mem haccs ho hbad)

end Sys2Proof.Proofs
end

section
/-!
Placement: visits of the timetable, reservations, and the entry of a member (R67, R325, R326, R331, R334).
-/
namespace Sys2Proof.Machine
set_option Elab.async false
open Sys2Proof

variable {s v : State} {d st i tr m k : Nat}

/-! Visits (R325). -/

theorem retryRecords_none (h : ∀ e ∈ s.queues, e.2.recWait = false) : retryRecords d s = s := by
  have hnone : (s.queues.filter fun e => e.1 / 65536 == d && e.2.present && e.2.recWait) = [] :=
    List.filter_eq_nil_iff.mpr fun e he => by rw [h e he, Bool.and_false]; exact Bool.false_ne_true
  rw [retryRecords, hnone]
  rfl

theorem pumpWork_none (h : s.fab.work = []) : pumpWork d s = s := by
  rw [pumpWork, h]
  rfl

/-- The die after its row pointer has moved on. -/
def nextRow (d : Nat) (s : State) : State := s.updDie d fun x => { x with rowPtr := (x.rowPtr + 1) % 256 }

section
variable (hp : (s.die d).pstate = 0) (hq : ∀ e ∈ s.queues, e.2.recWait = false)
include hp hq

omit hp in
theorem nextRow_records : retryRecords d (s.updDie d fun x => { x with rowPtr := (x.rowPtr + 1) % 256 }) = nextRow d s :=
  retryRecords_none hq

omit hq in
theorem row_active : ¬((s.die d).pstate != 0) = true := by
  rw [hp]
  exact Bool.false_ne_true

theorem timetableVisit_invalid (h : ((s.die d).rows.get {} (s.die d).rowPtr).valid = false) : timetableVisit d s = nextRow d s := by
  simp only [timetableVisit, nextRow_records hq, if_neg (row_active hp), h, Bool.not_false, Bool.true_or, if_true]

/-- The ready step of the row's slot is placed where it fits. -/
theorem timetableVisit_places {r : TRow} (hr : (s.die d).rows.get {} (s.die d).rowPtr = r) (hv : r.valid = true)
    (hs : (hwSlot (nextRow d s) d r.slot.toNat).valid = true) (hpart : r.part = (hwSlot (nextRow d s) d r.slot.toNat).part)
    (he : earliestReady (nextRow d s) d r.slot.toNat = some st)
    (hplace : place d ⟨((nextRow d s).step1 st).task, some st⟩ r.grant.toNat r.tgrant.toNat (nextRow d s) = some v) :
    timetableVisit d s = updSlot d r.slot.toNat (fun x => { x with streak := 0 }) v := by
  have hgo : ¬(!r.valid || !(hwSlot (nextRow d s) d r.slot.toNat).valid ||
      r.part != (hwSlot (nextRow d s) d r.slot.toNat).part) = true := by
    rw [hv, hs, ← hpart]
    simp
  have hcand : candidate d r.slot.toNat (nextRow d s) = (some (⟨((nextRow d s).step1 st).task, some st⟩, false), nextRow d s) := by
    simp only [candidate, he]
  simp only [timetableVisit, nextRow_records hq, if_neg (row_active hp), hr, if_neg hgo, hcand, hplace,
    Bool.false_eq_true, if_false]

end

/-! Reservations (R326, R334). -/

theorem placeReserved_gone {r : Reserve} (h : candWaits s r.cand = false) : placeReserved d s r = endReserve d r.cand [] s := by
  rw [placeReserved, h]
  rfl

theorem placeReserved_fits {r : Reserve} (h : candWaits s r.cand = true)
    (hv : (hwSlot s d (s.task r.cand.task).slot).valid = true)
    (hp : place d r.cand r.grantI r.grantT s = some v) : placeReserved d s r = v := by
  rw [placeReserved, h, hv, hp]
  rfl

/-! The entry of a member (R67, R331). -/

/-- Values set one after another from key a on. -/
theorem setMany_of_foldl {xs : List Word} : ∀ {a : Nat} {r : Sparse Word},
    (xs.zipIdx a).foldl (fun r x => Sparse.set 0 r (x.2 + 1) x.1) r = Sparse.setMany 0 r (a + 1) xs := by
  induction xs with
  | nil => intros; rfl
  | cons x xs ih =>
    intro a r
    rw [List.zipIdx_cons, List.foldl_cons, ih]
    rfl

/-- The values of s1 to s8 at the entry of a member. -/
def entryVals (t : Task) (number m : Nat) : List Word :=
  t.wb.params :: ((List.range 6).map fun l =>
    BitVec.ofNat 64 (number / (t.wb.walk.take l).prod % t.wb.walk.getD l 1)) ++ [BitVec.ofNat 64 m]

theorem entryCtx_s {t : Task} {number : Nat} {maxrun : BitVec 17} {j : Nat} (hj : j < 8) :
    (entryCtx t number m maxrun).s (BitVec.ofNat 6 (j + 1)) = (entryVals t number m)[j]'hj := by
  have hne : BitVec.ofNat 6 (j + 1) ≠ 0 := fun h => by
    have := congrArg BitVec.toNat h
    rw [BitVec.toNat_ofNat, Nat.mod_eq_of_lt (by omega)] at this
    exact absurd this (Nat.succ_ne_zero j)
  have hkey : (BitVec.ofNat 6 (j + 1)).toNat = 0 + 1 + j := by
    rw [BitVec.toNat_ofNat, Nat.mod_eq_of_lt (by omega), Nat.add_comm j 1]
  rw [Ctx.s, if_neg hne, hkey]
  show Sparse.get 0 (((entryVals t number m).zipIdx).foldl (fun r x => Sparse.set 0 r (x.2 + 1) x.1) []) _ = _
  rw [setMany_of_foldl]
  exact Sparse.get_setMany_inside rfl hj

/-- A step that has not run enters at the entry of its waybill. -/
theorem placeMember_seat (hf : (s.step1 st).fresh = true) (hr : (s.step1 st).restarts = 0) :
    let t := s.task (s.step1 st).task
    (placeMember st i tr m k s).seat k = {
      phase := .running, step := some (st, m), share := t.wb.share * 2048
      origin := if k % 2 = 0 then 0 else 65536 - t.wb.share * 2048
      ctx := entryCtx t (s.step1 st).number m (hwSlot s (st / 16384) t.slot).maxrun } := by
  have hseat : ∀ x : Seat, x.phase ≠ .idle → ∀ f, ((s.setSeat k x).updMember st m f).seat k = x := fun x hx f =>
    Sparse.get_set_same fun h => hx (congrArg Seat.phase h)
  simp only [placeMember, hf, Bool.not_true, Bool.false_eq_true, if_false, hr, if_true]
  exact hseat _ (by simp) _

end Sys2Proof.Machine
namespace Sys2Proof.Proofs
set_option Elab.async false
open Sys2Proof Sys2Proof.Machine

/-- A first placement enters its step with PARAMS, the indices of the walk and the member. -/
theorem memberEnters (s : State) (st i tr m k : Nat) (hf : (s.step1 st).fresh = true) (hr : (s.step1 st).restarts = 0)
    (hm : m < 16) :
    let x := s.step1 st
    let t := s.task x.task
    let u := placeMember st i tr m k s
    (u.seat k).phase = .running ∧ (u.seat k).step = some (st, m) ∧ (u.seat k).share = 2048 * t.wb.share ∧
    (u.ctx k).pos = { pc := t.wb.entry } ∧ (u.ctx k).s 1 = t.wb.params ∧ (u.ctx k).s 8 = BitVec.ofNat 64 m ∧
    (∀ l < 6, (u.ctx k).s (BitVec.ofNat 6 (l + 2)) =
      BitVec.ofNat 64 (x.number / (t.wb.walk.take l).prod % t.wb.walk.getD l 1)) ∧
    (u.ctx k).sig.table = t.image ∧ (u.ctx k).csr.member.toNat = m ∧
    (u.ctx k).bud.maxrun = (hwSlot s (st / 16384) t.slot).maxrun ∧
    (u.ctx k).bud.ibud = BitVec.ofNat 48 (min t.wb.ibud (2 ^ 47 - 1)) ∧
    (u.ctx k).bud.tbud = BitVec.ofNat 48 (min t.wb.tbud (2 ^ 47 - 1)) := by
  intro x t u
  have hseat := placeMember_seat (i := i) (tr := tr) (m := m) (k := k) hf hr
  have hctx : u.ctx k = entryCtx t x.number m (hwSlot s (st / 16384) t.slot).maxrun := congrArg Seat.ctx hseat
  rw [hseat, hctx]
  refine ⟨rfl, rfl, Nat.mul_comm .., rfl, entryCtx_s (j := 0) (by omega), entryCtx_s (j := 7) (by omega), fun l hl => ?_, rfl, ?_,
    rfl, rfl, rfl⟩
  · have hval := entryCtx_s (t := t) (number := x.number) (m := m)
      (maxrun := (hwSlot s (st / 16384) t.slot).maxrun) (j := l + 1) (by omega)
    rw [hval]
    simp only [entryVals, List.cons_append, List.getElem_cons_succ]
    rw [List.getElem_append_left (by simpa using hl), List.getElem_map, List.getElem_range]
  · show (BitVec.ofNat 4 m).toNat = m
    rw [BitVec.toNat_ofNat, Nat.mod_eq_of_lt (by omega)]

/-- Settles O47. -/
theorem placement : Obligations.Placement := by
  refine ⟨fun s d hp hw hq => ⟨fun hv => ?_, fun st v hv hs hpart he hplace hvw => ?_⟩, fun s d r => ⟨fun hresv => ⟨fun hg => ?_,
    fun v hwaits hplace => ?_⟩, fun hconvoy => ⟨fun hg => ?_, fun v hwaits hplace => ?_⟩⟩, memberEnters⟩
  · refine congrArg Host.Outcome.next ?_
    rw [timetableVisit_invalid hp hq hv]
    exact pumpWork_none hw
  · refine congrArg Host.Outcome.next ?_
    rw [timetableVisit_places hp hq rfl hv hs hpart he hplace]
    exact pumpWork_none hvw
  · refine congrArg Host.Outcome.next ?_
    rw [reservedPlacement, hresv]
    exact placeReserved_gone hg
  · refine congrArg Host.Outcome.next ?_
    rw [reservedPlacement, hresv]
    exact placeReserved_fits hwaits.1 hwaits.2 hplace
  · refine congrArg Host.Outcome.next ?_
    simp only [convoyPlacement, hconvoy]
    exact placeReserved_gone hg
  · refine congrArg Host.Outcome.next ?_
    simp only [convoyPlacement, hconvoy]
    exact placeReserved_fits hwaits.1 hwaits.2 hplace

end Sys2Proof.Proofs
end

section
/-! Launched work, graphs and the wait table. -/
namespace Sys2Proof.Machine
set_option Elab.async false
open Sys2Proof

/-! The dispatcher's side of a LAUNCH. -/

theorem launchEntryWrite_waits {s : State} {d n : Nat} {l : Launch} (hl : (s.die d).launches[n]? = some l)
    (hv : launchLives s l = true) (ho : releaseOpen s d (s.memberCtx l.step l.member) l.seq 3 0xFF = true) :
    launchEntryWrite d n s = s := by
  simp only [launchEntryWrite, hl, hv, ho, Bool.and_self, if_true]

/-- The release is complete, and the queue has been destroyed. -/
theorem launchEntryWrite_dead {s : State} {d n : Nat} {l : Launch} (hl : (s.die d).launches[n]? = some l)
    (ho : releaseOpen s d (s.memberCtx l.step l.member) l.seq 3 0xFF = false) (hq : launchQueueLives s l = false) :
    launchEntryWrite d n s = failLaunch d n l s := by
  simp only [launchEntryWrite, hl, ho, hq, Bool.and_false, Bool.not_false, Bool.false_eq_true, if_true, if_false]

theorem borrow_none {s : State} {d p : Nat} {l : Launch} (hb : l.borrowed = false) : borrow d p l s = (.ok l, s) := by
  simp only [borrow, hb, Bool.not_false, Bool.true_or, if_true]

/-- The release is complete, and the entry that borrows no weight is the next of its queue. -/
theorem launchEntryWrite_writes {s v : State} {d n : Nat} {l : Launch} {e : Nat}
    (hl : (s.die d).launches[n]? = some l)
    (ho : releaseOpen s d (s.memberCtx l.step l.member) l.seq 3 0xFF = false) (hq : launchQueueLives s l = true)
    (hb : l.borrowed = false) (ht : (s.queue l.queue).tail = l.k)
    (hp : putEntry l.queue l.entry (.launch l.step l.uid l.member l.ibud l.tbud)
      (s.updDie d fun x => { x with launches := modifyAt (fun _ => l) x.launches n }) = (.ok e, v)) :
    launchEntryWrite d n s =
      dropLaunch d n false l (onLaunchHandle l (fun h => { h with progress := 1, state := 5 }) v) := by
  have hk : (((s.updDie d fun x => { x with launches := modifyAt (fun _ => l) x.launches n }).queue l.queue).tail != l.k)
      = false := bne_eq_false_iff_eq.mpr ht
  simp only [launchEntryWrite, hl, ho, hq, borrow_none hb, hk, hp, Bool.and_false, Bool.not_true, Bool.false_eq_true,
    if_false]

/-! Graphs. -/

/-- The weight of a task that did not fail returns, and its completion follows. -/
theorem graphReturn_adds {s v : State} {d n t sum : Nat} (hr : (s.die d).returns[n]? = some t)
    (h0 : (s.task t).status = 0)
    (ha : nearAdd d (s.task t).part (dispRequest 4 t) ((s.task t).wb.graph.toNat + 8) (s.task t).purse s =
      (.ok sum, v)) :
    graphReturn d n s = finishTask t
      ((graphSum d (s.task t).part t (s.task t).wb.graph.toNat sum v).updDie d fun y =>
        { y with returns := y.returns.eraseIdx n }) := by
  simp only [graphReturn, hr, h0, if_true, ha]

/-! The wait table. -/

theorem anyHolds_one (s : State) (st : Nat) (p : ParkCond) : anyHolds s st [p] = condHolds s st 0 p := Bool.or_false _

theorem groupPark_parks {s : State} {d n k : Nat} {p : ParkCond} (hs : stepSeats s (d * 16384 + n) = [k])
    (hp : parkConds (d * 16384 + n) s = some [p]) (hc : condHolds s (d * 16384 + n) 0 p = false)
    (hf : parkedCount s d < 512) :
    groupPark d n s = beginYield k 0 (s.updStep (d * 16384 + n) fun x => { x with parked := some [p] }) := by
  simp only [groupPark, hp, anyHolds_one, hc, hs, if_neg (Nat.not_le.mpr hf), Bool.false_eq_true, if_false,
    List.foldl_cons, List.foldl_nil]

/-- The wait table is full. -/
theorem groupPark_full {s : State} {d n k : Nat} {p : ParkCond} (hs : stepSeats s (d * 16384 + n) = [k])
    (hp : parkConds (d * 16384 + n) s = some [p]) (hc : condHolds s (d * 16384 + n) 0 p = false)
    (hf : 512 ≤ parkedCount s d) :
    groupPark d n s = s.updCtx k fun c => { c with wait.exam := true } := by
  simp only [groupPark, hp, anyHolds_one, hc, hs, if_pos hf, Bool.false_eq_true, if_false, List.foldl_cons,
    List.foldl_nil]

section
variable {s : State} {d n : Nat} {ps : List ParkCond} (hp : (s.step1 (d * 16384 + n)).parked = some ps)
include hp

theorem groupWake_stays (ha : anyHolds s (d * 16384 + n) ps = false) : groupWake d n s = s := by
  simp only [groupWake, hp, ha, Bool.not_false, if_true]

theorem groupWake_readies (hd : (s.die d).pstate = 0) (hr : s.host.selfRefresh = false)
    (ha : anyHolds s (d * 16384 + n) ps = true) (hn : noneOnSeat (s.step1 (d * 16384 + n)) = true) :
    groupWake d n s = readyStep (d * 16384 + n) s := by
  simp only [groupWake, hp, ha, hn, wakeDie_awake hd hr, Bool.not_true, Bool.false_eq_true, if_true, if_false]

/-- The group has not left its seats yet. -/
theorem groupWake_unparks (ha : anyHolds s (d * 16384 + n) ps = true)
    (hn : noneOnSeat (s.step1 (d * 16384 + n)) = false) :
    groupWake d n s = s.updStep (d * 16384 + n) fun y => { y with parked := none } := by
  simp only [groupWake, hp, ha, hn, Bool.not_true, Bool.false_eq_true, if_false]

end

end Sys2Proof.Machine

namespace Sys2Proof.Proofs
set_option Elab.async false
open Sys2Proof Sys2Proof.Machine

/-- Settles O48: each event of the dispatcher in the case of its clause. -/
theorem workAndWaits : Obligations.WorkAndWaits := by
  intro s d n
  refine ⟨fun l hl => ⟨fun hv ho => ?_, fun ho hq => ?_, fun e v ho hq hb ht hp => ?_⟩, fun t sum v hr h0 ha => ?_, ?_⟩
  · exact congrArg Host.Outcome.next (launchEntryWrite_waits hl hv ho)
  · exact congrArg Host.Outcome.next (launchEntryWrite_dead hl ho hq)
  · exact congrArg Host.Outcome.next (launchEntryWrite_writes hl ho hq hb ht hp)
  · exact congrArg Host.Outcome.next (graphReturn_adds hr h0 ha)
  · intro st
    refine ⟨fun k p hs hp hc hf => ?_, fun k p hs hp hc hf => ?_, fun ps hp hd hr => ⟨fun ha => ?_, fun ha hn => ?_,
      fun ha hn => ?_⟩⟩
    · exact congrArg Host.Outcome.next (groupPark_parks hs hp hc hf)
    · exact congrArg Host.Outcome.next (groupPark_full hs hp hc hf)
    · exact congrArg Host.Outcome.next (groupWake_stays hp ha)
    · exact congrArg Host.Outcome.next (groupWake_readies hp hd hr ha hn)
    · exact congrArg Host.Outcome.next (groupWake_unparks hp ha hn)

end Sys2Proof.Proofs
end

section
/-! The channel engine: delivery, the cistern, triggers, the detector and the audit. -/
namespace Sys2Proof.Machine
set_option Elab.async false
open Sys2Proof
variable {s v : State} {d n ch k : Nat} {sig : BitVec 7} {m : ChMsg} {rest : List ChMsg}

/-! What delivery leaves. -/

theorem wakeDie_beside : (s.wakeDie d).chans = s.chans ∧ (s.wakeDie d).seats = s.seats ∧ (s.wakeDie d).mem = s.mem := by
  unfold State.wakeDie
  split
  · exact ⟨rfl, rfl, rfl⟩
  · exact ⟨rfl, rfl, rfl⟩

theorem setLines_chans {g : Sig} {i : Int} : ∀ (us : List (UnitW × Nat)) (s : State),
    (us.foldl (fun v u => v.setLine k (v.unitOf k g (g.slotOf i) u.2) u.1) s).chans = s.chans
  | [], _ => rfl
  | y :: us, s => setLines_chans us (s.setLine k (s.unitOf k g (g.slotOf i) y.2) y.1)

theorem landMessage_chans {i : Int} {us : List UnitW} {poison : BitVec 128} :
    (landMessage k sig i us poison s).chans = s.chans :=
  setLines_chans (g := (s.ctx k).sg sig) us.zipIdx s

/-- The count of a message changes one channel, and no signal. -/
theorem countMessage_beside : (countMessage ch m s).seats = s.seats ∧ (countMessage ch m s).mem = s.mem ∧
    ((countMessage ch m s).chan ch).flight = (s.chan ch).flight ∧
    ((countMessage ch m s).chan ch).deliv = (s.chan ch).deliv + 1 ∧
    ((countMessage ch m s).chan ch).wpermits = (s.chan ch).wpermits := by
  have hchan : (countMessage ch m s).chan ch = { s.chan ch with
      deliv := (s.chan ch).deliv + 1
      devwriter := (s.chan ch).devwriter &&
        (!m.dev || (devWanted s ch || ((s.chan ch).flight ++ (s.chan ch).spill).any fun x => x.dev)) } :=
    Sparse.get_set_same fun h => Nat.succ_ne_zero _ (congrArg Chan.deliv h)
  exact ⟨rfl, rfl, (congrArg Chan.flight hchan).trans rfl,
    (congrArg Chan.deliv hchan).trans rfl, (congrArg Chan.wpermits hchan).trans rfl⟩

theorem readerSeat_bound (h : readerSeat s ch = some (k, sig)) : (s.chan ch).rbound = true := by
  simp only [readerSeat] at h
  split at h
  · next hr => by_contra hb; simp [hb] at h
  · cases h

/-- The channel of the message that leaves flight: another reader has none. -/
theorem takeFlight_chan (hb : (s.chan ch).rbound = true) :
    (s.updChan ch fun x => { x with flight := rest }).chan ch = { s.chan ch with flight := rest } :=
  Sparse.get_set_same fun h => by
    have hrbound : (s.chan ch).rbound = false := congrArg Chan.rbound h
    rw [hb] at hrbound
    cases hrbound

/-- A message with a permit goes into the ring of its reader. -/
theorem messageDelivery_lands (hf : (s.chan (d * 4096 + n)).flight = m :: rest)
    (hr : readerSeat s (d * 4096 + n) = some (k, sig)) (hm : msgFree s m = true)
    (hk : m.k = (s.chan (d * 4096 + n)).deliv) (hl : permitLive (s.chan (d * 4096 + n)) m = true) :
    messageDelivery d n s = countMessage (d * 4096 + n) m (landMessage k sig
      ((m.k : Int) - (s.chan (d * 4096 + n)).base) m.units m.poison
      ((s.wakeDie d).updChan (d * 4096 + n) fun x => { x with flight := rest })) := by
  have hdue : (m.k != (s.chan (d * 4096 + n)).deliv) = false := bne_eq_false_iff_eq.mpr hk
  simp only [messageDelivery, hf, hr, hm, hl, hdue, Bool.not_true, Bool.true_or, Bool.false_or, Bool.false_eq_true,
    if_false, if_true]

/-- What that delivery leaves: the channel's counts, its reader's signal, and everything else of the seat. -/
theorem messageDelivery_counts (hf : (s.chan (d * 4096 + n)).flight = m :: rest)
    (hr : readerSeat s (d * 4096 + n) = some (k, sig)) (hm : msgFree s m = true)
    (hk : m.k = (s.chan (d * 4096 + n)).deliv) (hl : permitLive (s.chan (d * 4096 + n)) m = true)
    (hp : (s.seat k).phase ≠ .idle) (hg : ((s.ctx k).sg sig).present = true) :
    let t := messageDelivery d n s
    let c := s.chan (d * 4096 + n)
    t.mem = s.mem ∧ (t.chan (d * 4096 + n)).flight = rest ∧ (t.chan (d * 4096 + n)).deliv = c.deliv + 1 ∧
      (t.chan (d * 4096 + n)).wpermits = c.wpermits ∧ (t.ctx k).regs = (s.ctx k).regs ∧
      (t.ctx k).sg sig = ((s.ctx k).sg sig).setFill ((m.k : Int) - c.base) := by
  rw [messageDelivery_lands hf hr hm hk hl]
  obtain ⟨hchans, hseats, hmem⟩ := wakeDie_beside (s := s) (d := d)
  generalize hw : s.wakeDie d = w at hchans hseats hmem ⊢
  have hchan : w.chan (d * 4096 + n) = s.chan (d * 4096 + n) := congrArg (fun l => Sparse.get ({} : Chan) l _) hchans
  have hseat : w.seat k = s.seat k := congrArg (fun l => Sparse.get ({} : Seat) l k) hseats
  have hctx : w.ctx k = s.ctx k := congrArg Seat.ctx hseat
  have htaken := takeFlight_chan (rest := rest) (s := w) (ch := d * 4096 + n) (by rw [hchan]; exact readerSeat_bound hr)
  rw [hchan] at htaken
  generalize hx : w.updChan (d * 4096 + n) (fun x => { x with flight := rest }) = x at htaken
  have hxseats : x.seats = w.seats := hx ▸ rfl
  have hxmem : x.mem = w.mem := hx ▸ rfl
  have hxseat : x.seat k = s.seat k := (congrArg (fun l => Sparse.get ({} : Seat) l k) hxseats).trans hseat
  have hxctx : x.ctx k = s.ctx k := congrArg Seat.ctx hxseat
  obtain ⟨hsg, hregs, hland⟩ := landMessage_counts (s := x) (k := k) (n := sig)
    (i := (m.k : Int) - (s.chan (d * 4096 + n)).base) (us := m.units) (poison := m.poison) (hxseat ▸ hp) (hxctx ▸ hg)
  rw [hxctx] at hsg hregs
  have hlchan := congrArg (fun l => Sparse.get ({} : Chan) l (d * 4096 + n)) (landMessage_chans (s := x) (k := k)
    (sig := sig) (i := (m.k : Int) - (s.chan (d * 4096 + n)).base) (us := m.units) (poison := m.poison))
  generalize landMessage k sig ((m.k : Int) - (s.chan (d * 4096 + n)).base) m.units m.poison x = y at hsg hregs hland hlchan ⊢
  have hychan : y.chan (d * 4096 + n) = _ := (hlchan : y.chan _ = x.chan _).trans htaken
  obtain ⟨hcseats, hcmem, hcflight, hcdeliv, hcpermits⟩ := countMessage_beside (s := y) (m := m) (ch := d * 4096 + n)
  rw [hychan] at hcflight hcdeliv hcpermits
  have hcctx : (countMessage (d * 4096 + n) m y).ctx k = y.ctx k :=
    congrArg (fun l => (Sparse.get ({} : Seat) l k).ctx) hcseats
  exact ⟨(hcmem.trans hland).trans (hxmem.trans hmem), hcflight, hcdeliv, hcpermits, hcctx ▸ hregs, hcctx ▸ hsg⟩

/-! The cistern. -/

/-- A message that cannot go into a ring goes into the cistern, where its segment stands. -/
theorem messageSpill_spills (hf : (s.chan (d * 4096 + n)).flight = m :: rest) (hm : msgFree s m = true)
    (hl : permitLive (s.chan (d * 4096 + n)) m = false ∨ (s.chan (d * 4096 + n)).rbound = false ∨
      (s.chan (d * 4096 + n)).raway = true)
    (hroom : ((s.chan (d * 4096 + n)).segHead + (s.chan (d * 4096 + n)).spill.length) /
      segMsgs (s.chan (d * 4096 + n)).width < (s.chan (d * 4096 + n)).segs.length)
    (hw : (s.wakeDie d).agentWrite d (s.chan (d * 4096 + n)).part (request agentChan (2 * (d * 4096 + n)))
      (segAddr s (s.chan (d * 4096 + n)) ((s.chan (d * 4096 + n)).segHead + (s.chan (d * 4096 + n)).spill.length))
      (m.units.flatMap fun u => leBytes 32 u.toNat) = (.ok (), v)) :
    messageSpill d n s = v.updChan (d * 4096 + n) fun x =>
      { x with segs := (s.chan (d * 4096 + n)).segs, flight := rest, spilling := true
               heldback := x.heldback + bit (permitLive (s.chan (d * 4096 + n)) m && !(s.chan (d * 4096 + n)).rbound)
               spill := x.spill ++ [{ m with units := [], permit := m.permit &&
                 !(permitLive (s.chan (d * 4096 + n)) m && !(s.chan (d * 4096 + n)).rbound) }] } := by
  have hgo : (permitLive (s.chan (d * 4096 + n)) m && (s.chan (d * 4096 + n)).rbound &&
      !(s.chan (d * 4096 + n)).raway) = false := by
    obtain h | h | h := hl <;> simp only [h, Bool.false_and, Bool.and_false, Bool.not_true]
  simp only [messageSpill, hf, hm, hgo, if_pos hroom, Bool.not_true, Bool.or_false, Bool.false_eq_true, if_false]
  have hsame : (s.wakeDie d).agentWrite d (s.chan (d * 4096 + n)).part (request agentChan (2 * (d * 4096 + n)))
      (segAddr s { s.chan (d * 4096 + n) with flight := m :: rest }
        ((s.chan (d * 4096 + n)).segHead + (s.chan (d * 4096 + n)).spill.length))
      (m.units.flatMap fun u => leBytes 32 u.toNat) = (.ok (), v) := hw
  dsimp only at hsame
  simp only [hsame]

/-- A returned permit carries the oldest spilled message into the ring. -/
theorem cisternDrain_drains {bs : List Byte} (hf : (s.chan (d * 4096 + n)).spill = m :: rest)
    (hr : readerSeat s (d * 4096 + n) = some (k, sig)) (hk : m.k = (s.chan (d * 4096 + n)).deliv)
    (hl : permitLive (s.chan (d * 4096 + n)) m = false) (hp : (s.chan (d * 4096 + n)).wpermits ≠ 0)
    (hread : (s.wakeDie d).agentRead d (s.chan (d * 4096 + n)).part (request agentChan (2 * (d * 4096 + n) + 1))
      (segAddr s (s.chan (d * 4096 + n)) (s.chan (d * 4096 + n)).segHead) (32 * (s.chan (d * 4096 + n)).width) =
      (.ok (bs, false), v)) :
    cisternDrain d n s = afterDrain (d * 4096 + n) m.k (countMessage (d * 4096 + n) m (landMessage k sig
      ((m.k : Int) - (s.chan (d * 4096 + n)).base) (unitsOf (s.chan (d * 4096 + n)).width bs) m.poison
      (v.updChan (d * 4096 + n) fun x => { x with spill := rest, wpermits := x.wpermits - 1 }))) := by
  have hdue : (m.k != (s.chan (d * 4096 + n)).deliv) = false := bne_eq_false_iff_eq.mpr hk
  have hpermit : ((s.chan (d * 4096 + n)).wpermits == 0) = false := beq_eq_false_iff_ne.mpr hp
  simp only [cisternDrain, hf, hr, hdue, hl, hpermit, hread, Bool.not_false, Bool.true_and, Bool.or_false,
    Bool.false_eq_true, if_false]

/-! Triggers. -/

theorem triggerFire_none (h : (s.chan (d * 4096 + n)).trigPending = false) : triggerFire d n s = s := by
  simp only [triggerFire, h, Bool.not_false, if_true]

section
variable (hp : (s.chan (d * 4096 + n)).trigPending = true) (he : (s.chan (d * 4096 + n)).trigEntry = none)
include hp he

theorem triggerFire_unread (hr : s.agentRead d (s.chan (d * 4096 + n)).part (dispRequest 6 (d * 4096 + n))
      (s.chan (d * 4096 + n)).trig.toNat 128 = (.fail, v)) :
    triggerFire d n s = trigFail (d * 4096 + n) 3 v := by
  simp only [triggerFire, hp, he, hr, Bool.not_true, Bool.false_eq_true, if_false]

variable {bs : List Byte} (hr : s.agentRead d (s.chan (d * 4096 + n)).part (dispRequest 6 (d * 4096 + n))
  (s.chan (d * 4096 + n)).trig.toNat 128 = (.ok (bs, false), v))
include hr

theorem triggerFire_undrawn (hd : drawReserve (s.chan (d * 4096 + n)).part
      (entryBudget (patchBytes bs 0x60 (leBytes 8 0))).1 (entryBudget (patchBytes bs 0x60 (leBytes 8 0))).2 v = none) :
    triggerFire d n s = trigFail (d * 4096 + n) 6 v := by
  simp only [triggerFire, hp, he, hr, hd, Bool.not_true, Bool.false_eq_true, if_false]

theorem triggerFire_drawn {u : State} (hd : drawReserve (s.chan (d * 4096 + n)).part
      (entryBudget (patchBytes bs 0x60 (leBytes 8 0))).1 (entryBudget (patchBytes bs 0x60 (leBytes 8 0))).2 v = some u) :
    triggerFire d n s = trigWrite (d * 4096 + n) (patchBytes bs 0x60 (leBytes 8 0))
      (u.updChan (d * 4096 + n) fun y => { y with trigEntry := some (patchBytes bs 0x60 (leBytes 8 0)) }) := by
  simp only [triggerFire, hp, he, hr, hd, Bool.not_true, Bool.false_eq_true, if_false]

end

/-! The detector and the audit. -/

/-- A partition that is not stuck: the detector notes its progress on the die. -/
theorem deadlockSample_moves {p : Nat} (h : allStuck s d p = false) :
    ∃ f, deadlockSample d p s = s.updDie d f := by
  refine ⟨_, if_pos ?_⟩
  rw [h]
  rfl

/-- A stuck partition before its third sample. -/
theorem deadlockSample_counts {p : Nat} (h : allStuck s d p = true) (hb : partBusy s d p = true)
    (hg : (s.die d).progress.get [] p = progressOf s d p) (hn : (s.die d).stalled.get 0 p < 2) :
    deadlockSample d p s =
      s.updDie d fun y => { y with stalled := y.stalled.set 0 p ((s.die d).stalled.get 0 p + 1) } := by
  have hfew : (decide ((s.die d).stalled.get 0 p + 1 < 3) || (s.die d).detRaised.contains p) = true := by
    rw [decide_eq_true (by omega), Bool.true_or]
  have hsame : ((s.die d).progress.get [] p != progressOf s d p) = false := bne_eq_false_iff_eq.mpr hg
  simp only [deadlockSample, h, hb, hsame, hfew, Bool.not_true, Bool.or_false, Bool.false_eq_true, if_false, if_true]

/-- Where every count agrees, the audit reports nothing. -/
theorem permitAudit_agrees (hc : ∀ e ∈ s.chans, e.1 / 4096 = d → ∀ x, permitCount s e.1 = some x → x.1 = x.2)
    (hs : ∀ x ∈ (s.die d).streams, (streamCount s x).1 = (streamCount s x).2) : permitAudit d s = s := by
  have hstreams : (s.die d).streams.filter (fun x => (streamCount s x).1 != (streamCount s x).2) = [] :=
    List.filter_eq_nil_iff.mpr fun x hx => by simp [hs x hx]
  unfold permitAudit
  simp only [hstreams, List.foldl_nil]
  rw [List.filter_eq_nil_iff.mpr]
  · rfl
  · intro e he
    obtain ⟨hmem, hd⟩ := List.mem_filter.mp he
    cases hp : permitCount s e.1 with
    | none => simp
    | some x => simp [hc e hmem (beq_iff_eq.mp hd) x hp]

end Sys2Proof.Machine

namespace Sys2Proof.Proofs
set_option Elab.async false
open Sys2Proof Sys2Proof.Machine

/-- Settles O49: each event of the channel engine in the case of its clause. -/
theorem channelSteps : Obligations.ChannelSteps := by
  intro s d n ch c
  refine ⟨fun m rest k sig hf hr hm hk hl hp hg => ?_, fun m rest v hf hm hl hroom hw => ?_,
    fun m rest k sig bs v hf hr hk hl hp hread => ?_, fun h => ?_, fun hp he => ⟨fun v hr => ?_, fun bs v hr => ?_⟩,
    fun h => ?_, fun h hb hg hn => ?_, fun hc hs => ?_⟩
  · exact ⟨_, rfl, messageDelivery_counts hf hr hm hk hl hp hg⟩
  · exact congrArg Host.Outcome.next (messageSpill_spills hf hm hl hroom hw)
  · exact congrArg Host.Outcome.next (cisternDrain_drains hf hr hk hl hp hread)
  · exact congrArg Host.Outcome.next (triggerFire_none h)
  · exact congrArg Host.Outcome.next (triggerFire_unread hp he hr)
  · exact ⟨fun hd => congrArg Host.Outcome.next (triggerFire_undrawn hp he hr hd),
      fun u hd => congrArg Host.Outcome.next (triggerFire_drawn hp he hr hd)⟩
  · obtain ⟨f, hf⟩ := deadlockSample_moves (d := d) (p := n) h
    exact ⟨_, congrArg Host.Outcome.next hf, rfl, rfl, rfl, rfl⟩
  · exact congrArg Host.Outcome.next (deadlockSample_counts h hb hg hn)
  · exact congrArg Host.Outcome.next (permitAudit_agrees hc hs)

end Sys2Proof.Proofs
end

section
/-!
O53. No hypothesis makes the map of the partitions canonical. Where that map lists partition 0 twice, first as the empty
one and then as one that is swapped out, the return of owed budget writes partition 0, the empty entry goes, and the seat
that the host retries is recalled at once: its budget is 0, not what it was owed (R269, R284).
-/
namespace Sys2Proof.Machine
set_option Elab.async false
open Sys2Proof

/-- Seat 0 is held with cause 0x0F and is owed a budget of 1; partition 0 stands twice in the map of the partitions. -/
def partTwiceListed : State :=
  { seats := [(0, { phase := .trapHeld, step := some (0, 0), ctx := { bud := { owedI := 1 }, trap := { info := 0x0F } } })]
    parts := [(0, {}), (0, { swapped := 0xF })]
    steps := [(0, { present := true, members := [{ place := .onSeat 0 }] })]
    host := { ready := true, cpl := { size := 4 } } }

theorem takes_partTwiceListed : Takes 0x0018 partTwiceListed where
  takes := by decide
  awake := fun _ _ => rfl
  memory := rfl

/-- The host's retry of seat 0 recalls it. -/
theorem budget_partTwiceListed : seatBudget (exec (.trapDisposeRetry ⟨0, 0, 0, 0, 0, 0, 0, 0, 0, 0⟩) partTwiceListed) = 0 := by decide +kernel

end Sys2Proof.Machine
namespace Sys2Proof.Proofs
set_option Elab.async false
open Sys2Proof Sys2Proof.Machine

/-- Refutes O53: with a partition listed twice, a retry that the statement says returns the budget owed is recalled to 0. -/
theorem not_trapCommands : ¬ Obligations.TrapCommands := by
  intro h
  obtain ⟨hseat, -⟩ := h partTwiceListed ⟨0, 0, 0, 0, 0, 0, 0, 0, 0, 0⟩
  obtain ⟨hretry, -⟩ := hseat 0 rfl rfl
  obtain ⟨hgoes, -⟩ := hretry takes_partTwiceListed rfl rfl rfl rfl rfl rfl
  obtain ⟨t, hexec, -, -, -, -, ⟨-, hbudget⟩, -⟩ := hgoes (by decide)
  obtain ⟨hibud, -⟩ := hbudget rfl
  have hmodel : (t.ctx 0).bud.ibud.toInt = 0 := by
    have := budget_partTwiceListed
    rwa [hexec] at this
  rw [hibud] at hmodel
  exact absurd hmodel (by decide)

end Sys2Proof.Proofs
end

section
/-!
What the engines of a core change: the seats and the step records, line memories, and the contexts of stacks; all else
stands, the memories among it.
-/
namespace Sys2Proof.Machine
set_option Elab.async false
open Sys2Proof

/-- The state without what engines change inside the cores. -/
def State.outside (s : State) : State := { s with cores := [], seats := [], steps := [], freeCtr := 0, stackTab := [] }

/-- u follows from s by what engines do inside the cores. -/
structure Inside (u s : State) : Prop where
  outside : u.outside = s.outside
  seatsWf : Sparse.wf ({} : Seat) s.seats = true → Sparse.wf ({} : Seat) u.seats = true

namespace Inside

variable {s u v : State}

theorem refl : Inside s s := ⟨rfl, id⟩

theorem trans (h : Inside v u) (h' : Inside u s) : Inside v s := ⟨h.outside.trans h'.outside, h.seatsWf ∘ h'.seatsWf⟩

theorem ite {p : Prop} [Decidable p] {a b : State} (ha : Inside a s) (hb : Inside b s) : Inside (if p then a else b) s := by
  split <;> assumption

theorem foldl {α : Type} {f : State → α → State} (h : ∀ s x, Inside (f s x) s) :
    ∀ (xs : List α) (s : State), Inside (xs.foldl f s) s
  | [], _ => refl
  | x :: xs, s => (foldl h xs (f s x)).trans (h s x)

theorem field {α : Type} (f : State → α) (h : Inside u s) (hf : ∀ w : State, f w.outside = f w) : f u = f s := by
  rw [← hf u, h.outside, hf]

theorem mem (h : Inside u s) : u.mem = s.mem := field State.mem h fun _ => rfl
theorem host (h : Inside u s) : u.host = s.host := field State.host h fun _ => rfl
theorem accs (h : Inside u s) : u.accs = s.accs := field State.accs h fun _ => rfl
theorem fab (h : Inside u s) : u.fab = s.fab := field State.fab h fun _ => rfl
theorem chans (h : Inside u s) : u.chans = s.chans := field State.chans h fun _ => rfl
theorem dies (h : Inside u s) : u.dies = s.dies := field State.dies h fun _ => rfl
theorem parts (h : Inside u s) : u.parts = s.parts := field State.parts h fun _ => rfl
theorem tasks (h : Inside u s) : u.tasks = s.tasks := field State.tasks h fun _ => rfl

theorem wf (h : Inside u s) (hs : s.Wf) : u.Wf :=
  ⟨h.mem ▸ hs.mem, h.host ▸ hs.host, h.seatsWf hs.seats⟩

end Inside

variable {s : State}

theorem inside_setSeat {k : Nat} {x : Seat} : Inside (s.setSeat k x) s := ⟨rfl, fun h => Sparse.set_wf h⟩

theorem inside_updSeat {k : Nat} {f : Seat → Seat} : Inside (s.updSeat k f) s := inside_setSeat

theorem inside_updCtx {k : Nat} {f : Ctx → Ctx} : Inside (s.updCtx k f) s := inside_updSeat

theorem inside_updCore {c : Nat} {f : Core → Core} : Inside (s.updCore c f) s := ⟨rfl, id⟩

theorem inside_updStep {st : Nat} {f : Step → Step} : Inside (s.updStep st f) s := ⟨rfl, id⟩

theorem inside_updStack {n : Nat} {f : Stack → Stack} : Inside (s.updStack n f) s := ⟨rfl, id⟩

theorem inside_freeCtr {n : Nat} : Inside { s with freeCtr := n } s := ⟨rfl, id⟩

theorem inside_updMemberCtx {st m : Nat} {f : Ctx → Ctx} : Inside (s.updMemberCtx st m f) s := by
  unfold State.updMemberCtx
  split
  · exact inside_updCtx
  · exact inside_updStep

/-! Line memory. -/

theorem inside_setLine {k p : Nat} {x : UnitW} : Inside (s.setLine k p x) s := inside_updCore

theorem inside_useUnit {k p : Nat} : Inside (s.useUnit k p) s := inside_updCore

theorem inside_poisonUnits {k : Nat} {n : BitVec 7} {g : Sig} {i : Int} {us : List Nat} :
    Inside (poisonUnits k n g i us s) s := inside_updCtx

theorem inside_putBytes {k : Nat} {g : Sig} {slot b z v : Nat} : Inside (putBytes k g slot b z v s) s := inside_setLine

theorem inside_putPlaneBit {k : Nat} {g : Sig} {slot q e v : Nat} : Inside (putPlaneBit k g slot q e v s) s :=
  inside_putBytes

theorem inside_putCopy {k : Nat} {g : Sig} {i : Int} {mem : Fmt} {e x : Nat} : Inside (putCopy k g i mem e x s) s := by
  unfold putCopy
  dsimp only
  split
  · exact .ite inside_putBytes ((Inside.foldl (fun _ _ => inside_putPlaneBit) _ _).trans inside_putPlaneBit)
  · exact inside_putBytes

theorem inside_zeroBeyond {k : Nat} {g : Sig} {i : Int} {mem : Fmt} {p : Nat} : Inside (zeroBeyond k g i mem p s) s :=
  .foldl (fun _ _ => .ite .refl inside_setLine) _ _

/-! The data of a load (R220, R224). -/

theorem inside_landElem {k : Nat} {p : Copy} {i : Int} {e x : Nat} {bad : Bool} : Inside (landElem k p i e x bad s) s :=
  .ite (inside_poisonUnits.trans inside_putCopy) inside_putCopy

theorem inside_landGroup {k : Nat} {h : BitVec 4} {p : Copy} {n mt v0 v1 : Nat} {bad : Bool} :
    Inside (landGroup k h p n mt v0 v1 bad s) s := by
  unfold landGroup
  dsimp only
  split
  · exact inside_landElem.trans (inside_landElem.trans (.foldl (fun _ _ => inside_landElem) _ _))
  · exact inside_updCtx.trans ((Inside.foldl (fun _ _ => inside_landElem) _ _).trans (.foldl (fun _ _ => inside_landElem) _ _))

theorem inside_landAccess {k : Nat} {h : BitVec 4} {n x : Nat} {bad : Bool} : Inside (landAccess k h n x bad s) s := by
  have hzero : ∀ {k : Nat} {g : Sig} {i : Int} {mem : Fmt} {p q : Nat},
      Inside (if q = 0 then zeroBeyond k g i mem p s else s) s := .ite inside_zeroBeyond .refl
  unfold landAccess
  dsimp only
  split
  · split
    · exact inside_landGroup.trans (inside_updCtx.trans hzero)
    · exact inside_updCtx.trans hzero
  · exact inside_landElem.trans hzero

theorem inside_landRun {k : Nat} {h : BitVec 4} {n c : Nat} {bs : List Byte} {bad : Bool} :
    Inside (landRun k h n c bs bad s) s :=
  (Inside.foldl (fun _ _ => inside_useUnit) _ _).trans (.foldl (fun _ _ => inside_landAccess) _ _)

/-! The end of an access and of a command. -/

theorem inside_freeStackCtx {p : Copy} : Inside (freeStackCtx p s) s := by
  unfold freeStackCtx
  split
  · exact inside_updStack
  · exact .refl

theorem inside_spoilLoad {st m h : Nat} : Inside (spoilLoad st m h s) s := by
  simp only [spoilLoad]
  split
  · exact .refl
  · exact .ite .refl (.foldl (fun _ _ => .foldl (fun _ _ => inside_freeCtr.trans inside_setLine) _ _) _ _)

theorem inside_tryFinish {st m h : Nat} : Inside (tryFinish st m h s) s :=
  .ite (inside_freeStackCtx.trans (inside_updMemberCtx.trans inside_spoilLoad)) .refl

theorem inside_countAccess {k : Nat} {h : BitVec 4} {n c : Nat} {bad : Bool} : Inside (countAccess k h n c bad s) s :=
  inside_tryFinish.trans inside_updCtx

theorem inside_endAccess {a : Access} {bs : List Byte} {bad : Bool} : Inside (endAccess a bs bad s) s :=
  inside_countAccess.trans (.ite .refl inside_landRun)

theorem inside_failCopy {st m : Nat} {h : BitVec 4} {va : Word} : Inside (failCopy st m h va s) s :=
  inside_tryFinish.trans inside_updMemberCtx

end Sys2Proof.Machine
end

section
/-! Flows and lost packages. -/
namespace Sys2Proof.Machine
set_option Elab.async false
open Sys2Proof
variable {s u v : State} {w : Wire} {n : Nat} {pkg : BitVec 18}

/-! A message that arrives (R476, R478, R491). -/

theorem arrive_foreign {act : Wire → State → State} (h : endPkg w.dst ≠ s.pkgid) : arrive act w s = launchWire w s :=
  if_pos (bne_iff_ne.mpr h)

theorem arrive_here {act : Wire → State → State} (h : endPkg w.dst = s.pkgid) : arrive act w s =
    if !w.lengthOk s || workFull s w then s
    else match meetEpoch (endPkg w.src) w.epoch (s.wakeDie w.actsOn) with
      | (false, s1) => s1
      | (true, s1) =>
        match takeFlow w s1 with
        | (true, s2) => act w s2
        | (false, s2) => s2 :=
  if_neg (by rw [bne_iff_ne]; exact not_not.mpr h)

theorem arrive_bad {act : Wire → State → State} (h : endPkg w.dst = s.pkgid) (hl : w.lengthOk s = false) :
    arrive act w s = s := by
  rw [arrive_here h, hl]
  rfl

/-- A sender that is known has shown its EPOCH before. -/
theorem meetEpoch_known {p : BitVec 18} {e : BitVec 32} (h : (s.peer p).epoch = some e) (hp : p ≠ s.pkgid) :
    meetEpoch p e s = (!(s.peer p).lost, s) := by
  simp only [meetEpoch, if_neg hp, h, if_true]

theorem takeFlow_own (h : w.ordered = false ∨ endPkg w.src = s.pkgid) : takeFlow w s = (true, s) := by
  refine if_pos ?_
  obtain h | h := h <;> simp [h]

theorem takeFlow_other (ho : w.ordered = true) (hf : endPkg w.src ≠ s.pkgid) (hn : w.flowseq ≠ nextTaken s w) :
    takeFlow w s = (false, s) := by
  have hgo : (!w.ordered || endPkg w.src == s.pkgid) = false := by rw [ho, beq_eq_false_iff_ne.mpr hf]; rfl
  rw [takeFlow, hgo]
  exact if_neg hn

/-- A message that arrives acts once it is taken. -/
theorem arrive_acts {act : Wire → State → State} (h : Arrives w s) : arrive act w s = act w (taken w s) := by
  have hmeet : meetEpoch (endPkg w.src) w.epoch s = (true, s) := by
    by_cases hown : endPkg w.src = s.pkgid
    · exact if_pos hown
    · obtain ⟨he, hl⟩ := h.known.resolve_left hown
      rw [meetEpoch_known he hown, hl]
      rfl
  have htake : takeFlow w s = (true, taken w s) := by
    by_cases hown : w.ordered = false ∨ endPkg w.src = s.pkgid
    · rw [taken, takeFlow_own hown]
    · rw [not_or, Bool.not_eq_false] at hown
      have hgo : (!w.ordered || endPkg w.src == s.pkgid) = false := by
        rw [hown.1, beq_eq_false_iff_ne.mpr hown.2]
        rfl
      rw [taken, takeFlow, hgo]
      simp only [Bool.false_eq_true, if_false, if_pos (h.following hown.1 hown.2)]
  rw [arrive_here h.here, wakeDie_awake h.awake h.memory, hmeet, h.layout, h.room]
  simp only [htake]
  rfl

/-- A message of a wrong number does nothing. -/
theorem arrive_wrong {act : Wire → State → State} (h : endPkg w.dst = s.pkgid) (hp : (s.die w.actsOn).pstate = 0)
    (hr : s.host.selfRefresh = false) (hf : endPkg w.src ≠ s.pkgid) (he : (s.peer (endPkg w.src)).epoch = some w.epoch)
    (ho : w.ordered = true) (hn : w.flowseq ≠ nextTaken s w) : arrive act w s = s := by
  rw [arrive_here h, wakeDie_awake hp hr, meetEpoch_known he hf]
  split
  · rfl
  · cases (s.peer (endPkg w.src)).lost
    · simp only [Bool.not_false, takeFlow_other ho hf hn]
    · rfl

theorem taken_unordered (h : w.ordered = false) : taken w s = s := by rw [taken, takeFlow_own (.inl h)]

/-! A message that is taken in its flow (R478). -/

/-- The incoming flow of a message, with the number after e as its next. -/
def flowsTaken (w : Wire) (e : BitVec 32) (s : State) : List Flow :=
  if s.fab.flows.any fun f => f.hits false w.cls (endPkg w.src) w.key then
    s.fab.flows.map fun f => if f.hits false w.cls (endPkg w.src) w.key then { f with next := e + 1 } else f
  else s.fab.flows ++ [⟨false, w.cls, endPkg w.src, w.key, 1, []⟩]

theorem taken_following (ho : w.ordered = true) (hf : endPkg w.src ≠ s.pkgid) (hn : w.flowseq = nextTaken s w) :
    taken w s = sendAck w w.flowseq (turnAway w { s with fab.flows := flowsTaken w w.flowseq s }) := by
  have hgo : (!w.ordered || endPkg w.src == s.pkgid) = false := by rw [ho, beq_eq_false_iff_ne.mpr hf]; rfl
  rw [taken, takeFlow, hgo]
  simp only [Bool.false_eq_true, if_false, ← hn]
  rfl

/-- The next number of a flow among flows of which those that hit have one next number. -/
theorem find_next {q : Flow → Bool} {x : BitVec 32} : ∀ {fs : List Flow}, (∀ f ∈ fs, q f = true → f.next = x) →
    fs.any q = true → ((fs.find? q).map (·.next)).getD 0 = x
  | [], _, h => by simp at h
  | f :: fs, hx, h => by
    by_cases hq : q f = true
    · rw [List.find?_cons_of_pos hq]
      exact hx f (by simp) hq
    · rw [List.find?_cons_of_neg hq]
      rw [List.any_cons, Bool.eq_false_iff.mpr hq, Bool.false_or] at h
      exact find_next (fun g hg => hx g (List.mem_cons_of_mem _ hg)) h

/-- Where no flow hits, the next number is 0. -/
theorem nextTaken_none (h : (s.fab.flows.any fun f => f.hits false w.cls (endPkg w.src) w.key) = false) :
    nextTaken s w = 0 := by
  have hfind : (s.fab.flows.find? fun f => f.hits false w.cls (endPkg w.src) w.key) = none :=
    List.find?_eq_none.mpr fun f hf => by
      have := List.any_eq_false.mp h f hf
      simpa using this
  rw [nextTaken, hfind]
  rfl

/-- After a message the number that follows its own is the next. -/
theorem nextTaken_following (hn : w.flowseq = nextTaken s w) :
    nextTaken { s with fab.flows := flowsTaken w w.flowseq s } w = w.flowseq + 1 := by
  refine find_next ?_ ?_
  · intro f hf hhit
    simp only [flowsTaken] at hf
    split at hf
    · obtain ⟨g, -, rfl⟩ := List.mem_map.mp hf
      split
      · rfl
      · next hg => rw [if_neg hg] at hhit; exact absurd hhit hg
    · next hany =>
      rw [Bool.not_eq_true] at hany
      obtain hf | hf := List.mem_append.mp hf
      · have := List.any_eq_false.mp hany f hf
        exact absurd hhit (by simpa using this)
      · rw [List.mem_singleton.mp hf, hn, nextTaken_none hany]
        rfl
  · simp only [flowsTaken]
    split
    · next hany =>
      obtain ⟨f, hf, hhit⟩ := List.any_eq_true.mp hany
      refine List.any_eq_true.mpr ⟨_, List.mem_map.mpr ⟨f, hf, rfl⟩, ?_⟩
      rw [if_pos hhit]
      exact hhit
    · refine List.any_eq_true.mpr ⟨_, List.mem_append_right _ (List.mem_singleton.mpr rfl), ?_⟩
      simp [Flow.hits]

/-! Flows send again. -/

theorem flowResend_out {f : Flow} (h : s.fab.flows[n]? = some f) (ho : f.out = true) :
    flowResend n s = f.held.foldl (fun s w => launchWire w s) s := by
  simp only [flowResend, h, ho, if_true]

theorem flowResend_none (h : s.fab.flows[n]? = none ∨ ∃ f, s.fab.flows[n]? = some f ∧ f.out = false) :
    flowResend n s = s := by
  obtain h | ⟨f, h, ho⟩ := h
  · simp only [flowResend, h]
  · simp only [flowResend, h, ho, Bool.false_eq_true, if_false]

/-! Loss of a package (R491, R492): what ends leaves the list of the peers alone. -/

theorem peers_foldl {α : Type} {f : State → α → State} (h : ∀ s x, (f s x).fab.peers = s.fab.peers) :
    ∀ (xs : List α) (s : State), (xs.foldl f s).fab.peers = s.fab.peers
  | [], _ => rfl
  | x :: xs, s => (peers_foldl h xs (f s x)).trans (h s x)

theorem peers_send {die cls op : Nat} {tcls : BitVec 3} {ddie : Nat} {target : Word} {tag : BitVec 32}
    {payload : List Byte} : (s.send die cls op tcls pkg ddie target tag payload).fab.peers = s.fab.peers := talk_send.peers

theorem peers_updMemberCtx {st m : Nat} {f : Ctx → Ctx} : (s.updMemberCtx st m f).fab.peers = s.fab.peers :=
  congrArg Fabric.peers inside_updMemberCtx.fab

theorem peers_faultChan {ch : Nat} : (faultChan ch s).fab.peers = s.fab.peers := by
  have hhit : ∀ (p : Prop) [Decidable p] (u : State) (st m : Nat) (f : Ctx → Ctx),
      (if p then u.updMemberCtx st m f else u).fab.peers = u.fab.peers := by
    intro p _ u st m f
    split
    · exact peers_updMemberCtx
    · rfl
  unfold faultChan
  dsimp only
  split
  · rw [peers_send]
    split
    · exact hhit _ _ _ _ _
    · rfl
  · split
    · rw [hhit]
      split
      · exact hhit _ _ _ _ _
      · rfl
    · split
      · exact hhit _ _ _ _ _
      · rfl

theorem peers_feedProxy {ch : Nat} : (feedProxy ch s).fab.peers = s.fab.peers := by
  have hgrant : ∀ (b : Bool) (p r : Nat) (f : Chan → Chan),
      (if b then s else sendGrant ch p r (s.updChan ch f)).fab.peers = s.fab.peers := by
    intro b p r f
    split
    · rfl
    · exact peers_send
  unfold feedProxy
  dsimp only
  split
  · rfl
  · exact hgrant _ _ _ _

theorem peers_feedPool {p : Nat} : (feedPool p s).fab.peers = s.fab.peers := peers_foldl (fun _ _ => peers_feedProxy) _ _

theorem peers_faultMember {r : Word} {st m : Nat} : (faultMember r st m s).fab.peers = s.fab.peers := by
  unfold faultMember
  dsimp only
  split
  · exact peers_updMemberCtx
  · rfl

theorem peers_faultRemote {r : Word} : (faultRemote r s).fab.peers = s.fab.peers :=
  peers_foldl (f := fun s (w : Nat × Nat) => faultMember r w.1 w.2 s) (fun _ _ => peers_faultMember) _ _

theorem peers_onWorkHandle {q : Req} {f : Handle → Handle} : (onWorkHandle q f s).fab.peers = s.fab.peers := by
  unfold onWorkHandle
  split
  · split
    · exact peers_updMemberCtx
    · rfl
  · rfl
  · rfl

theorem inside_refuseAccess {a : Access} : Inside (refuseAccess a s) s := by
  unfold refuseAccess
  split
  · exact inside_endAccess.trans inside_updCtx
  · exact inside_endAccess.trans inside_freeCtr

theorem peers_dropRequests {d : Nat} {q : Nat → Bool} : (dropRequests d q s).fab.peers = s.fab.peers := by
  simp only [dropRequests]
  split <;> rfl

/-- What depends on a package ends: the peers stand, and no flow and no request of the package is left. -/
theorem endPeer_ends : (endPeer pkg s).fab.peers = s.fab.peers ∧ (∀ f ∈ (endPeer pkg s).fab.flows, f.peer ≠ pkg) ∧
    ∀ q ∈ (endPeer pkg s).fab.reqs, q.pkg ≠ pkg := by
  simp only [endPeer]
  refine ⟨?_, fun f hf => bne_iff_ne.mp (List.mem_filter.mp hf).2, fun q hq => bne_iff_ne.mp (List.mem_filter.mp hq).2⟩
  rw [peers_foldl (fun _ _ => peers_dropRequests), peers_foldl (fun _ _ => congrArg Fabric.peers inside_refuseAccess.fab)]
  dsimp only
  rw [peers_foldl (fun _ _ => peers_onWorkHandle), peers_foldl (fun _ _ => peers_faultRemote),
    peers_foldl (fun _ _ => peers_feedPool)]
  refine (peers_foldl ?_ _ (breakBars pkg s)).trans rfl
  exact fun _ _ => peers_faultChan

/-! The announcement of a loss keeps flows and requests. -/

theorem flows_launchWire : (launchWire w s).fab.flows = s.fab.flows ∧ (launchWire w s).fab.reqs = s.fab.reqs := by
  have hpump : ∀ (n : Nat) (u : State), (u.pump n).fab.flows = u.fab.flows ∧ (u.pump n).fab.reqs = u.fab.reqs := by
    intro n u
    simp only [State.pump]
    split
    · exact ⟨rfl, rfl⟩
    · exact ⟨rfl, rfl⟩
  unfold launchWire
  split
  · exact ⟨rfl, rfl⟩
  · split
    · exact ⟨rfl, rfl⟩
    · exact hpump _ _

/-- A message of EVENT has no flow. -/
theorem flows_sendEvent {die op : Nat} {tcls : BitVec 3} {ddie : Nat} {target : Word} {tag : BitVec 32}
    {payload : List Byte} (s : State) : (s.send die 2 op tcls pkg ddie target tag payload).fab.flows = s.fab.flows ∧
      (s.send die 2 op tcls pkg ddie target tag payload).fab.reqs = s.fab.reqs := by
  unfold State.send sendWire
  split
  · exact ⟨rfl, rfl⟩
  · exact flows_launchWire

theorem flows_announce {reason : Nat} : (announce reason pkg s).fab.flows = s.fab.flows ∧
    (announce reason pkg s).fab.reqs = s.fab.reqs := by
  have hfold : ∀ (l : List (BitVec 18)) (u : State),
      let t := l.foldl (fun s q => if (q = pkg && reason = 3) = true then s
        else s.send 0 2 0 7 q 0 0 0 (leBytes 4 reason ++ leBytes 4 pkg.toNat)) u
      t.fab.flows = u.fab.flows ∧ t.fab.reqs = u.fab.reqs := by
    intro l
    induction l with
    | nil => exact fun u => ⟨rfl, rfl⟩
    | cons q l ih =>
      intro u
      rw [List.foldl_cons]
      split
      · exact ih u
      · obtain ⟨hf, hr⟩ := ih (u.send 0 2 0 7 q 0 0 0 (leBytes 4 reason ++ leBytes 4 pkg.toNat))
        obtain ⟨hsf, hsr⟩ := flows_sendEvent (pkg := q) (die := 0) (op := 0) (tcls := 7) (ddie := 0) (target := 0) (tag := 0)
          (payload := leBytes 4 reason ++ leBytes 4 pkg.toNat) u
        exact ⟨hf.trans hsf, hr.trans hsr⟩
  exact hfold _ s

theorem packageLost_none (h : pkg = s.pkgid ∨ (s.peer pkg).lost = true) : packageLost pkg s = s := by
  refine if_pos ?_
  simpa using h

/-- A package that is lost is marked so, and no flow and no request of it is left. -/
theorem packageLost_ends (hp : pkg ≠ s.pkgid) (hl : (s.peer pkg).lost = false) :
    let t := packageLost pkg s
    (t.peer pkg).lost = true ∧ (∀ f ∈ t.fab.flows, f.peer ≠ pkg) ∧ ∀ q ∈ t.fab.reqs, q.pkg ≠ pkg := by
  let v := s.updPeer pkg fun p => { p with lost := true }
  have hlost : packageLost pkg s = fabricEvent 0 3 0xFF pkg 0 (announce 3 pkg (endPeer pkg v)) :=
    if_neg (by simp [hp, hl])
  obtain ⟨hpeers, hflows, hreqs⟩ := endPeer_ends (pkg := pkg) (s := v)
  obtain ⟨haf, har⟩ := flows_announce (reason := 3) (pkg := pkg) (s := endPeer pkg v)
  obtain ⟨h, hpost⟩ := post_host (s := announce 3 pkg (endPeer pkg v)) (type := 10) (die := 0) (part := 0)
    (payload := leBytes 1 3 ++ leBytes 1 0xFF ++ leBytes 2 0 ++ leBytes 4 pkg.toNat ++ leBytes 8 (0 : Word).toNat)
  have hfab : (packageLost pkg s).fab = (announce 3 pkg (endPeer pkg v)).fab := by
    rw [hlost, fabricEvent, hpost]
  have hpeer : v.peer pkg = { s.peer pkg with lost := true } :=
    Sparse.get_set_same fun he => Bool.noConfusion (congrArg Peer.lost he)
  refine ⟨?_, ?_, ?_⟩
  · have hsame : (packageLost pkg s).peer pkg = v.peer pkg := by
      rw [State.peer, hfab, talk_announce.peers, hpeers, State.peer]
    rw [hsame, hpeer]
  · rw [hfab, haf]
    exact hflows
  · rw [hfab, har]
    exact hreqs

end Sys2Proof.Machine

namespace Sys2Proof.Proofs
set_option Elab.async false
open Sys2Proof Sys2Proof.Machine

/-- Settles O58: the cases of a message that arrives, and what a loss leaves of flows, requests and peers. -/
theorem flowsAndLoss : Obligations.FlowsAndLoss := by
  intro s
  refine ⟨fun w => ?_, fun n h => ?_, fun n f h ho => ?_, fun pkg h => ?_, fun pkg hp hl => ?_⟩
  · intro foreign
    refine ⟨fun h => arrive_foreign h, fun h hl => arrive_bad h hl, fun h => arrive_acts h,
      fun h _ hp hr hf he ho hn => arrive_wrong h hp hr hf he ho hn, fun h => taken_unordered h,
      fun ho hf hn => ⟨{ s with fab.flows := flowsTaken w w.flowseq s }, taken_following ho hf hn, nextTaken_following hn,
        rfl, rfl⟩⟩
  · exact congrArg Host.Outcome.next (flowResend_none h)
  · exact congrArg Host.Outcome.next (flowResend_out h ho)
  · exact congrArg Host.Outcome.next (packageLost_none h)
  · exact ⟨_, rfl, packageLost_ends hp hl⟩

end Sys2Proof.Proofs
end

section
/-! DATA, WORK, EVENT and BULK messages. -/
namespace Sys2Proof.Machine
set_option Elab.async false
open Sys2Proof
variable {s u v : State} {w : Wire} {d n pa p ch : Nat}

/-- The action of a message that arrives. -/
theorem exec_arrives {act : Wire → State → State} {i : Instr} {t : State} (h : Arrives w s)
    (hi : exec i s = .next (arrive act w s)) (ht : act w (taken w s) = t) : exec i s = .next t := by
  rw [hi, arrive_acts h, ht]

/-- The action of one that no flow counts. -/
theorem exec_unordered {act : Wire → State → State} {i : Instr} {t : State} (h : Arrives w s) (ho : w.ordered = false)
    (hi : exec i s = .next (arrive act w s)) (ht : act w s = t) : exec i s = .next t :=
  exec_arrives h hi (by rw [taken_unordered ho, ht])

/-! DATA (R484, R485). -/

theorem updChan_congr {f g : Chan → Chan} (h : f (u.chan ch) = g (u.chan ch)) : u.updChan ch f = u.updChan ch g := by
  rw [State.updChan, State.updChan, h]

theorem turnAway_data (hc : w.cls = 0) (h : dataOk v w = false) :
    turnAway w v = if chanAdmits v w then failData w v else noteRefusal w (failData w v) := by
  refine if_neg ?_
  rw [hc, h]
  decide

theorem actMsg_refused (h : dataOk u w = false) : actMsg w u = u := by
  simp only [actMsg, h, Bool.not_false, if_true]

/-- The checks that a DATA message of the bound writer passes. -/
theorem dataOk_of (ha : chanAdmits u w = true) (hw : isWriter u w = true)
    (hs : w.op = 1 ∨ (u.chan (regKey w.target)).state = 1) : dataOk u w = true := by
  rw [dataOk, ha, hw]
  obtain h | h := hs <;> simp [h]

/-- The channel once a message of its writer has come, with a permit of the current binding (live) that its reader uses
(keep), or as a spilled one. -/
def received (w : Wire) (live keep : Bool) (x : Chan) : Chan :=
  { x with
    sent := x.sent + 1
    flight := x.flight ++ [⟨fieldAt w.payload 0 8, BitVec.ofNat 32 (fieldAt w.payload 0x0C 4),
      unitsOf x.width (w.payload.drop 0x20), BitVec.ofNat 128 (fieldAt w.payload 0x10 16), keep, none, false⟩]
    spilling := x.spilling || !keep, heldback := x.heldback + bit (live && !keep)
    permOut := if live then x.permOut - 1 else x.permOut
    roomOut := if fieldAt w.payload 8 1 = 0 then x.roomOut else x.roomOut - 1 }

theorem chan_received {live keep : Bool} :
    (u.updChan ch (received w live keep)).chan ch = received w live keep (u.chan ch) :=
  Sparse.get_set_same fun h => Nat.succ_ne_zero _ (congrArg Chan.sent h)

theorem actMsg_takes (ha : chanAdmits u w = true) (hw : isWriter u w = true)
    (hs : (u.chan (regKey w.target)).state = 1) {live keep : Bool}
    (hlive : (decide (fieldAt w.payload 8 1 = 0) &&
      (BitVec.ofNat 32 (fieldAt w.payload 0x0C 4) == (u.chan (regKey w.target)).binds)) = live)
    (hkeep : (live && (u.chan (regKey w.target)).rbound) = keep) :
    actMsg w u = feedProxy (regKey w.target) (if (u.chan (regKey w.target)).rbound
      then u.updChan (regKey w.target) (received w live keep)
      else armTrigger (regKey w.target) (u.updChan (regKey w.target) (received w live keep))) := by
  have hok := dataOk_of ha hw (.inr hs)
  have hrbound : ((u.updChan (regKey w.target) (received w live keep)).chan (regKey w.target)).rbound =
      (u.chan (regKey w.target)).rbound := (congrArg Chan.rbound chan_received).trans rfl
  rw [← hrbound]
  subst hkeep hlive
  simp only [actMsg, hok, Bool.not_true, Bool.false_eq_true, if_false]
  rfl

/-- A message with a permit of the current binding, whose reader is bound. -/
theorem actMsg_ring (ha : chanAdmits u w = true) (hw : isWriter u w = true) (hs : (u.chan (regKey w.target)).state = 1)
    (hb : (u.chan (regKey w.target)).rbound = true) (hr : fieldAt w.payload 8 1 = 0)
    (hbinds : BitVec.ofNat 32 (fieldAt w.payload 0x0C 4) = (u.chan (regKey w.target)).binds) :
    actMsg w u = feedProxy (regKey w.target) (u.updChan (regKey w.target) fun x => { x with
      sent := x.sent + 1
      flight := x.flight ++ [⟨fieldAt w.payload 0 8, x.binds, unitsOf x.width (w.payload.drop 0x20),
        BitVec.ofNat 128 (fieldAt w.payload 0x10 16), true, none, false⟩]
      permOut := x.permOut - 1 }) := by
  rw [actMsg_takes ha hw hs (live := true) (keep := true) (by rw [hr, hbinds]; simp) (by rw [hb]; rfl)]
  rw [if_pos hb]
  refine congrArg _ (updChan_congr ?_)
  simp only [received, hbinds, hr, if_true, Bool.not_true, Bool.or_false, Bool.and_false]
  rfl

/-- A spilled message, whose reader is bound. -/
theorem actMsg_spilled (ha : chanAdmits u w = true) (hw : isWriter u w = true) (hs : (u.chan (regKey w.target)).state = 1)
    (hb : (u.chan (regKey w.target)).rbound = true) (hr : ¬fieldAt w.payload 8 1 = 0) :
    actMsg w u = feedProxy (regKey w.target) (u.updChan (regKey w.target) fun x => { x with
      sent := x.sent + 1
      flight := x.flight ++ [⟨fieldAt w.payload 0 8, BitVec.ofNat 32 (fieldAt w.payload 0x0C 4),
        unitsOf x.width (w.payload.drop 0x20), BitVec.ofNat 128 (fieldAt w.payload 0x10 16), false, none, false⟩]
      spilling := true
      roomOut := x.roomOut - 1 }) := by
  rw [actMsg_takes ha hw hs (live := false) (keep := false) (by simp [hr]) rfl]
  rw [if_pos hb]
  refine congrArg _ (updChan_congr ?_)
  simp only [received, if_neg hr, Bool.not_false, Bool.or_true, Bool.false_and, Bool.false_eq_true, if_false]
  rfl

/-- A message whose permit is void, or that finds no reader bound. -/
theorem actMsg_late (ha : chanAdmits u w = true) (hw : isWriter u w = true) (hs : (u.chan (regKey w.target)).state = 1)
    (hr : fieldAt w.payload 8 1 = 0) (hl : (u.chan (regKey w.target)).rbound = false ∨
      BitVec.ofNat 32 (fieldAt w.payload 0x0C 4) ≠ (u.chan (regKey w.target)).binds) :
    let ch := regKey w.target
    let now := BitVec.ofNat 32 (fieldAt w.payload 0x0C 4) == (u.chan ch).binds
    let v := u.updChan ch fun x => { x with
      sent := x.sent + 1
      flight := x.flight ++ [⟨fieldAt w.payload 0 8, BitVec.ofNat 32 (fieldAt w.payload 0x0C 4),
        unitsOf x.width (w.payload.drop 0x20), BitVec.ofNat 128 (fieldAt w.payload 0x10 16), false, none, false⟩]
      spilling := true, heldback := x.heldback + bit now
      permOut := if now then x.permOut - 1 else x.permOut }
    actMsg w u = feedProxy ch (if (u.chan ch).rbound then v else armTrigger ch v) := by
  intro ch now v
  have hkeep : (now && (u.chan ch).rbound) = false := by
    obtain h | h := hl
    · rw [show (u.chan ch).rbound = false from h, Bool.and_false]
    · rw [show now = false from beq_eq_false_iff_ne.mpr h, Bool.false_and]
  rw [actMsg_takes ha hw hs (live := now) (keep := false) (by rw [hr]; simp [now, ch]) hkeep]
  have hsame : v = u.updChan ch (received w now false) := by
    refine updChan_congr ?_
    simp only [received, hr, if_true, Bool.not_false, Bool.or_true, Bool.and_true]
  rw [hsame]

theorem actClose_refused (h : dataOk u w = false) : actClose w u = u := by
  simp only [actClose, h, Bool.not_false, if_true]

theorem actClose_takes (ha : chanAdmits u w = true) (hw : isWriter u w = true) (ho : w.op = 1) :
    actClose w u = feedPool (u.chan (regKey w.target)).part (closeWriter (regKey w.target)
      (u.updChan (regKey w.target) fun x => { x with wpermits := x.wpermits + x.permOut, permOut := 0, roomOut := 0 })) := by
  simp only [actClose, dataOk_of ha hw (.inl ho), Bool.not_true, Bool.false_eq_true, if_false]

/-! WORK (R486 to R489). -/

/-- The queue that a WORK message names. -/
def Wire.queueKey (w : Wire) : Nat := w.target.toNat / 2 ^ 16 % 4 * 65536 + w.target.toNat % 65536

/-- The queue takes waybills of the sender's package. -/
def opensTo (u : State) (w : Wire) : Bool :=
  (u.queue w.queueKey).present && (u.queue w.queueKey).device && admits u (u.queue w.queueKey).part (endPkg w.src)

/-- The waybill as it is written: its parent is none. -/
def Wire.waybillBytes (w : Wire) : List Byte := patchBytes w.payload 0x60 (leBytes 8 0)

/-- The budgets of the steps of a WORK message. -/
def Wire.budget (w : Wire) : Nat × Nat := entryBudget w.waybillBytes

theorem actWaybill_behind (h : ∃ y ∈ u.fab.work, y.target = w.target) :
    actWaybill w u = { u with fab.work := u.fab.work ++ [w] } := by
  refine if_pos (List.any_eq_true.mpr ?_)
  obtain ⟨y, hy, ht⟩ := h
  exact ⟨y, hy, beq_iff_eq.mpr ht⟩

section
variable (hnone : ∀ y ∈ u.fab.work, y.target ≠ w.target)
include hnone

/-- A waybill that no other waits before. -/
theorem actWaybill_first : actWaybill w u = if (writeWork w u).1
    then { (writeWork w u).2 with fab.work := (writeWork w u).2.fab.work ++ [w] } else (writeWork w u).2 := by
  have hgo : (u.fab.work.any fun x => x.target == w.target) = false :=
    List.any_eq_false.mpr fun y hy => by simpa using hnone y hy
  rw [actWaybill, hgo]
  simp only [Bool.false_eq_true, if_false]
  rcases writeWork w u with ⟨b, t⟩
  cases b <;> rfl

theorem actWaybill_refused (h : opensTo u w = false) : actWaybill w u = noteRefusal w (workReply w 1 0 u) := by
  have hwrite : writeWork w u = (false, noteRefusal w (workReply w 1 0 u)) := if_pos (by
    have hnot := congrArg (!·) h
    rwa [opensTo, Bool.not_and, Bool.not_and] at hnot)
  rw [actWaybill_first hnone, hwrite]
  rfl

variable (ho : opensTo u w = true)
include ho

omit hnone in
theorem writeWork_open : ¬(!(u.queue w.queueKey).present || !(u.queue w.queueKey).device ||
    !admits u (u.queue w.queueKey).part (endPkg w.src)) = true := by
  rw [← Bool.not_and, ← Bool.not_and, ← opensTo, ho]
  decide

theorem actWaybill_waits (h : (u.queue w.queueKey).reserved ≠ 0 ∨ (u.queue w.queueKey).full = true) :
    actWaybill w u = { u with fab.work := u.fab.work ++ [w] } := by
  have hwrite : writeWork w u = (true, u) := (if_neg (writeWork_open ho)).trans (if_pos (by
    rw [Bool.or_eq_true, bne_iff_ne]
    exact h))
  rw [actWaybill_first hnone, hwrite]
  rfl

section
variable (hr : (u.queue w.queueKey).reserved = 0) (hf : (u.queue w.queueKey).full = false)
include hr hf

omit ho hnone in
theorem writeWork_roomy : ¬((u.queue w.queueKey).reserved != 0 || (u.queue w.queueKey).full) = true := by
  rw [hr, hf]
  decide

theorem actWaybill_undrawn (hd : drawReserve (u.queue w.queueKey).part w.budget.1 w.budget.2 u = none) :
    actWaybill w u = noteRefusal w (workReply w 1 0 u) := by
  have hwrite : writeWork w u = (false, noteRefusal w (workReply w 1 0 u)) := by
    refine ((if_neg (writeWork_open ho)).trans (if_neg (writeWork_roomy hr hf))).trans ?_
    have hnone : drawReserve (u.queue w.queueKey).part (entryBudget w.waybillBytes).1 (entryBudget w.waybillBytes).2 u =
      none := hd
    dsimp only [Wire.queueKey, Wire.waybillBytes] at hnone
    simp only [hnone]
  rw [actWaybill_first hnone, hwrite]
  rfl

theorem actWaybill_written {t : State} {k : Nat} (hd : drawReserve (u.queue w.queueKey).part w.budget.1 w.budget.2 u = some v)
    (hput : putEntry w.queueKey w.waybillBytes (.reserve w.budget.1 w.budget.2 none) v = (.ok k, t)) :
    actWaybill w u = workReply w 0 k t := by
  have hwrite : writeWork w u = (false, workReply w 0 k t) := by
    refine ((if_neg (writeWork_open ho)).trans (if_neg (writeWork_roomy hr hf))).trans ?_
    dsimp only [Wire.queueKey, Wire.budget, Wire.waybillBytes] at hd hput
    simp only [hd, hput]
  rw [actWaybill_first hnone, hwrite]
  rfl

end

end

/-! EVENT (R482, R491). -/

theorem actLoss_lost (h : fieldAt w.payload 0 1 = 1 ∨ fieldAt w.payload 0 1 = 2) :
    actLoss w u = packageLost (endPkg w.src) u := if_pos h

theorem actLoss_other (h1 : fieldAt w.payload 0 1 ≠ 1) (h2 : fieldAt w.payload 0 1 ≠ 2) : actLoss w u = u :=
  if_neg (not_or.mpr ⟨h1, h2⟩)

/-! BULK (R480, R481). -/

section
variable {wr : Bool} {x : Nat}

/-- An access that a partition serves has bytes. -/
theorem bulkPart_some (h : bulkPart s w n wr = some p) : 1 ≤ n := by
  unfold bulkPart at h
  dsimp only at h
  split at h
  · cases h
  · rw [Option.ite_none_right_eq_some] at h
    simp only [Bool.and_eq_true, decide_eq_true_eq] at h
    obtain ⟨⟨⟨⟨⟨⟨hn, -⟩, -⟩, -⟩, -⟩, -⟩, -⟩ := h
    exact hn

theorem actRead_refused (h : bulkPart s w (fieldAt w.payload 0 4) false = none) : actRead w s = refuseBulk w 1 s := by
  simp only [actRead, h]

theorem actWrite_refused (h : bulkPart s w (w.payload.drop 8).length true = none) : actWrite w s = refuseBulk w 1 s := by
  simp only [actWrite, h]

section
variable (hp : bulkPart s w (fieldAt w.payload 0 4) false = some p)
include hp

theorem actRead_waits (hx : agentXlate w.die p (BitVec.ofNat 64 (w.target.toNat % 2 ^ 48)) w.request .read s = (.wait, v)) :
    actRead w s = waitBulk w p (w.target.toNat % 2 ^ 48) v := by
  simp only [actRead, hp, hx]

theorem actRead_fails (hx : agentXlate w.die p (BitVec.ofNat 64 (w.target.toNat % 2 ^ 48)) w.request .read s = (.fail, v)) :
    actRead w s = refuseBulk w 2 v := by
  simp only [actRead, hp, hx]

variable (hx : agentXlate w.die p (BitVec.ofNat 64 (w.target.toNat % 2 ^ 48)) w.request .read s = (.ok pa x, v))
include hx

theorem actRead_reads : actRead w s =
    let got := v.readMarked w.die pa (fieldAt w.payload 0 4) (viaType x) w.tcls
    answer w 3 1 w.tcls (leBytes 8 0 ++ leBytes 8 (packMarks got.2.1) ++ got.1) got.2.2 := by
  simp only [actRead, hp, hx]

/-- A read of one granule at its home. -/
theorem actRead_home (ha : v.accs = []) (hd : homeDie pa = w.die) (hn : fieldAt w.payload 0 4 ≤ 64 - pa % 64) :
    ∃ t, actRead w s = answer w 3 1 w.tcls (leBytes 8 0 ++ leBytes 8 (bit (t.granBad (pa / 64))) ++
      memRead v.mem pa (fieldAt w.payload 0 4)) t ∧ t.mem = v.mem ∧ t.seats = v.seats := by
  have hfit : pa % 64 + fieldAt w.payload 0 4 ≤ 64 := by omega
  have hone : v.readMarked w.die pa (fieldAt w.payload 0 4) (viaType x) w.tcls = _ :=
    readMem_one ha (bulkPart_some hp) hfit
  refine ⟨(homeRead (pa / 64) v).2.2, ?_, peek_homeRead.mem, peek_homeRead.aside.seats⟩
  have hget : getMem w.die pa (fieldAt w.payload 0 4) (viaType x) v =
      (memRead v.mem pa (fieldAt w.payload 0 4), (homeRead (pa / 64) v).2.1, (homeRead (pa / 64) v).2.2) := by
    refine Prod.ext (getMem_home hd hfit) ?_
    rw [getMem, if_pos hd]
  rw [actRead_reads hp hx, hone, hget]
  simp only [packMarks, List.zipIdx_cons, List.zipIdx_nil, List.map_cons, List.map_nil, List.sum_cons, List.sum_nil,
    Nat.pow_zero, Nat.mul_one, Nat.add_zero]
  rfl

end

section
variable (hp : bulkPart s w (w.payload.drop 8).length true = some p)
include hp

theorem actWrite_waits (hx : agentXlate w.die p (BitVec.ofNat 64 (w.target.toNat % 2 ^ 48)) w.request .write s = (.wait, v)) :
    actWrite w s = waitBulk w p (w.target.toNat % 2 ^ 48) v := by
  simp only [actWrite, hp, hx]

theorem actWrite_fails (hx : agentXlate w.die p (BitVec.ofNat 64 (w.target.toNat % 2 ^ 48)) w.request .write s = (.fail, v)) :
    actWrite w s = refuseBulk w 2 v := by
  simp only [actWrite, hp, hx]

variable (hx : agentXlate w.die p (BitVec.ofNat 64 (w.target.toNat % 2 ^ 48)) w.request .write s = (.ok pa x, v))
include hx

theorem actWrite_writes : actWrite w s = answer w 3 3 w.tcls (leBytes 8 0)
    (writeMarked w.die w.tcls ((w.payload.drop 8).length / 64 + 2) pa (w.payload.drop 8)
      (unpackMarks ((w.payload.drop 8).length / 64 + 2) (fieldAt w.payload 0 8)) v) := by
  simp only [actWrite, hp, hx]

/-- A write of bytes of one granule. -/
theorem actWrite_one (ha : v.accs = []) (hn : (w.payload.drop 8).length ≤ 64 - pa % 64)
    (hl : (v.stack (stackOf pa)).lost = false) :
    ∃ t, actWrite w s = answer w 3 3 w.tcls (leBytes 8 0) t ∧ t.mem = memWrite v.mem pa (w.payload.drop 8) ∧
      t.seats = v.seats := by
  have hne : w.payload.drop 8 ≠ [] := List.ne_nil_of_length_pos (bulkPart_some hp)
  refine ⟨_, actWrite_writes hp hx, ?_, (aside_writeMarked _ _ _ _ _ _ _).seats⟩
  generalize w.payload.drop 8 = bs at hn hne ⊢
  rw [writeMarked, if_neg (by rw [List.isEmpty_eq_false_iff.mpr hne]; exact Bool.false_ne_true)]
  dsimp only
  rw [writeMarked, List.drop_eq_nil_of_le hn, List.take_of_length_le hn, checkedWrite_alone ha]
  exact (putMem_writes hne hl).1

end

end

/-! Responses. -/

theorem actReadresp_none (h : takeAccess w false s = none) : actReadresp w s = s := by simp only [actReadresp, h]

theorem actWriteack_none (h : takeAccess w true s = none) : actWriteack w s = s := by simp only [actWriteack, h]

section
variable {a : Access}

theorem actReadresp_data (h : takeAccess w false s = some (a, v)) (hf : fieldAt w.payload 0 1 = 0) :
    actReadresp w s = endAccess a ((w.payload.drop 16).take a.size) (decide (fieldAt w.payload 8 8 ≠ 0)) v := by
  have hne : (fieldAt w.payload 8 8 != 0) = decide (fieldAt w.payload 8 8 ≠ 0) := by
    rw [Bool.eq_iff_iff, bne_iff_ne, decide_eq_true_eq]
  simp only [actReadresp, h, hf, hne]

theorem actReadresp_refused (h : takeAccess w false s = some (a, v)) (hf : fieldAt w.payload 0 1 = 1) :
    actReadresp w s = refuseAccess a v := by
  simp only [actReadresp, h, hf]

theorem actReadresp_faults (h : takeAccess w false s = some (a, v)) (hf : 2 ≤ fieldAt w.payload 0 1) :
    actReadresp w s = faultAccess a v := by
  obtain ⟨n, hn⟩ := Nat.exists_eq_add_of_le' hf
  simp only [actReadresp, h, hn]

theorem actWriteack_done (h : takeAccess w true s = some (a, v)) (hf : fieldAt w.payload 0 1 = 0) :
    actWriteack w s = endAccess a [] false v := by
  simp only [actWriteack, h, hf]

theorem actWriteack_refused (h : takeAccess w true s = some (a, v)) (hf : fieldAt w.payload 0 1 = 1) :
    actWriteack w s = refuseAccess a v := by
  simp only [actWriteack, h, hf]

theorem actWriteack_faults (h : takeAccess w true s = some (a, v)) (hf : 2 ≤ fieldAt w.payload 0 1) :
    actWriteack w s = faultAccess a v := by
  obtain ⟨n, hn⟩ := Nat.exists_eq_add_of_le' hf
  simp only [actWriteack, h, hn]

end

end Sys2Proof.Machine

namespace Sys2Proof.Proofs
set_option Elab.async false
open Sys2Proof Sys2Proof.Machine

/-- Settles O59: each message acts, once it is taken, in the case of its clause. -/
theorem dataMessages : Obligations.DataMessages := by
  intro s m
  refine ⟨?_, ?_, ?_, ?_, fun hA => ?_, fun hA => ?_, ?_, ?_, ?_, ?_⟩
  · intro w u ch ring hA
    refine ⟨fun v h => turnAway_data rfl h, fun h => exec_arrives hA rfl (actMsg_refused h),
      fun ha hw hs hb hr hbinds => exec_arrives hA rfl (actMsg_ring ha hw hs hb hr hbinds),
      fun ha hw hs hb hr => exec_arrives hA rfl (actMsg_spilled ha hw hs hb hr), fun ha hw hs hr hl => ?_⟩
    exact exec_arrives hA rfl (actMsg_late ha hw hs hr hl)
  · intro w u ch hA
    exact ⟨fun h => exec_arrives hA rfl (actClose_refused h),
      fun ha hw => exec_arrives hA rfl (actClose_takes ha hw rfl)⟩
  · intro w u q x bs opens hA
    have hopens : opens ↔ opensTo u w = true := by
      rw [opensTo, Bool.and_eq_true, Bool.and_eq_true, and_assoc]
      rfl
    refine ⟨fun h => exec_arrives hA rfl (actWaybill_behind h), fun hnone => ⟨fun ho => ?_, fun ho h => ?_,
      fun ho hr hf => ⟨fun hd => ?_, fun v k t hd hput => ?_⟩⟩⟩
    · exact exec_arrives hA rfl (actWaybill_refused hnone (Bool.eq_false_iff.mpr fun h => ho (hopens.mpr h)))
    · exact exec_arrives hA rfl (actWaybill_waits hnone (hopens.mp ho) h)
    · exact exec_arrives hA rfl (actWaybill_undrawn hnone (hopens.mp ho) hr hf hd)
    · exact exec_arrives hA rfl (actWaybill_written hnone (hopens.mp ho) hr hf hd hput)
  · intro w hA
    exact ⟨fun h => exec_unordered hA rfl rfl (actLoss_lost h), fun h1 h2 => exec_unordered hA rfl rfl (actLoss_other h1 h2)⟩
  · exact exec_unordered hA rfl rfl rfl
  · exact exec_unordered hA rfl rfl rfl
  · intro w d n va hA
    refine ⟨fun h => exec_unordered hA rfl rfl (actRead_refused h), fun p pa x v hp hx => ⟨?_, fun ha hd hn => ?_⟩,
      fun p v hp => ⟨fun hx => exec_unordered hA rfl rfl (actRead_waits hp hx),
        fun hx => exec_unordered hA rfl rfl (actRead_fails hp hx)⟩⟩
    · exact exec_unordered hA rfl rfl (actRead_reads hp hx)
    · obtain ⟨t, ht, hmem, hseats⟩ := actRead_home hp hx ha hd hn
      exact ⟨t, exec_unordered hA rfl rfl ht, hmem, hseats⟩
  · intro w hA
    exact ⟨fun h => exec_unordered hA rfl rfl (actReadresp_none h), fun a v h =>
      ⟨fun hf => exec_unordered hA rfl rfl (actReadresp_data h hf),
        fun hf => exec_unordered hA rfl rfl (actReadresp_refused h hf),
        fun hf => exec_unordered hA rfl rfl (actReadresp_faults h hf)⟩⟩
  · intro w d bs va hA
    refine ⟨fun h => exec_unordered hA rfl rfl (actWrite_refused h), fun p pa x v hp hx => ⟨?_, fun ha hn hl => ?_⟩,
      fun p v hp => ⟨fun hx => exec_unordered hA rfl rfl (actWrite_waits hp hx),
        fun hx => exec_unordered hA rfl rfl (actWrite_fails hp hx)⟩⟩
    · exact exec_unordered hA rfl rfl (actWrite_writes hp hx)
    · obtain ⟨t, ht, hmem, hseats⟩ := actWrite_one hp hx ha hn hl
      exact ⟨t, exec_unordered hA rfl rfl ht, hmem, hseats⟩
  · intro w hA
    exact ⟨fun h => exec_unordered hA rfl rfl (actWriteack_none h), fun a v h =>
      ⟨fun hf => exec_unordered hA rfl rfl (actWriteack_done h hf),
        fun hf => exec_unordered hA rfl rfl (actWriteack_refused h hf),
        fun hf => exec_unordered hA rfl rfl (actWriteack_faults h hf)⟩⟩

end Sys2Proof.Proofs
end

section
/-! CONTROL messages. -/
namespace Sys2Proof.Machine
set_option Elab.async false
open Sys2Proof
variable {s u v : State} {w : Wire} {q : Req} {r : Word} {st m k p : Nat}

/-- Taking a message that is no DATA message posts and sends only. -/
theorem talk_taken (hc : w.cls ≠ 0) : Talk (taken w s) s := by
  have haway : ∀ u : State, turnAway w u = u := fun u => if_pos (by rw [bne_iff_ne.mpr hc]; rfl)
  simp only [taken, takeFlow]
  split
  · exact .refl
  · split
    · rw [haway]
      exact talk_send.trans (.of_ports rfl rfl rfl rfl)
    · exact .refl

/-! Acknowledgements, bindings and grants (R478, R483 to R485). -/

/-- A flow once its messages up to the number that an ACK carries are acknowledged. -/
def ackedFlow (w : Wire) (f : Flow) : Flow :=
  if f.hits true (w.target.toNat % 8) (endPkg w.src)
      (if w.target.toNat % 8 = 4 then 0 else BitVec.ofNat 64 (w.target.toNat / 256)) = true then
    { f with held := f.held.filter fun x =>
        decide (2 ^ 31 ≤ (BitVec.ofNat 32 (fieldAt w.payload 0 4) - x.flowseq).toNat) }
  else f

theorem actAck_eq : actAck w u = pruneProxies { u with fab.flows := u.fab.flows.map (ackedFlow w) } := by
  have hlate : ∀ n : Nat, (!decide (n < 2 ^ 31)) = decide (2 ^ 31 ≤ n) := fun n => by
    rw [← decide_not, decide_eq_decide, Nat.not_lt]
  simp only [actAck, hlate]
  rfl

theorem actBindreq_refused (h : chanAdmits u w = false ∨ (u.chan (regKey w.target)).state = 3) :
    actBindreq w u = noteRefusal w (answer w 4 2 0 (leBytes 24 2) u) := by
  refine if_pos ?_
  obtain h | h := h <;> simp [h]

section
variable (ha : chanAdmits u w = true) (hs : (u.chan (regKey w.target)).state ≠ 3)
include ha hs

theorem bindreq_admits : ¬(!chanAdmits u w || (u.chan (regKey w.target)).state == 3) = true := by
  rw [ha, beq_eq_false_iff_ne.mpr hs]
  decide

theorem actBindreq_bound (h : (u.chan (regKey w.target)).wbound = true ∨ (u.chan (regKey w.target)).devwriter = true) :
    actBindreq w u = answer w 4 2 0 (leBytes 1 1 ++ leBytes 1 (u.chan (regKey w.target)).cls.toNat ++
      leBytes 2 (u.chan (regKey w.target)).width ++ leBytes 4 (u.chan (regKey w.target)).binds.toNat ++ leBytes 4 0 ++
      leBytes 4 0 ++ leBytes 8 (u.chan (regKey w.target)).sent) u :=
  (if_neg (bindreq_admits ha hs)).trans (if_pos (Bool.or_eq_true _ _ ▸ h))

theorem actBindreq_binds (hw : (u.chan (regKey w.target)).wbound = false)
    (hd : (u.chan (regKey w.target)).devwriter = false) :
    actBindreq w u =
      let ch := regKey w.target
      let c := u.chan ch
      answer w 4 2 0 (leBytes 1 0 ++ leBytes 1 c.cls.toNat ++ leBytes 2 c.width ++ leBytes 4 c.binds.toNat ++
        leBytes 4 (bindCredit c) ++ leBytes 4 (grantRoom u ch) ++ leBytes 8 c.sent)
        (u.updChan ch fun y => { y with
          wbound := true, remote := true, wpkg := w.src.zeroExtend 32
          writer := some (fieldAt w.payload 0 2 % 4096, fieldAt w.payload 0 2 / 4096)
          state := if y.state = 2 then 1 else y.state
          wpermits := y.wpermits - bindCredit c, permOut := y.permOut + bindCredit c
          roomOut := y.roomOut + grantRoom u ch }) := by
  refine ((if_neg (bindreq_admits ha hs)).trans (if_neg (by rw [hw, hd]; decide))).trans ?_
  simp only [beq_iff_eq]

end

theorem actBindreply_none (h : takeReq w u = none) : actBindreply w u = u := by simp only [actBindreply, h]

/-- The proxy that a binding makes. -/
def boundProxy (w : Wire) (q : Req) : Proxy :=
  ⟨w.target, q.step / 16384, fieldAt w.payload 8 4, fieldAt w.payload 0x0C 4, false, BitVec.ofNat 3 (fieldAt w.payload 1 1),
    fieldAt w.payload 2 1, fieldAt w.payload 0x10 8, BitVec.ofNat 32 (fieldAt w.payload 4 4), false, (q.step, q.member),
    false, q.uid⟩

section
variable (h : takeReq w u = some (q, v))
include h

section
variable (hw : reqWaits v q w.target = true)
include hw

theorem actBindreply_binds (hf : fieldAt w.payload 0 1 = 0) :
    actBindreply w u = giveReply q 0 { v with fab.proxies := v.fab.proxies ++ [boundProxy w q] } := by
  simp only [actBindreply, h, hf, hw]
  rfl

theorem actBindreply_busy (hf : fieldAt w.payload 0 1 = 1) : actBindreply w u = giveReply q 1 v := by
  simp only [actBindreply, h, hf, hw]

theorem actBindreply_fails (hf : 2 ≤ fieldAt w.payload 0 1) :
    actBindreply w u = faultMember w.target q.step q.member v := by
  obtain ⟨n, hn⟩ := Nat.exists_eq_add_of_le' hf
  simp only [actBindreply, h, hn, hw]

theorem actStatreply_gives : actStatreply w u = giveReply q (BitVec.ofNat 64 (fieldAt w.payload 0 8)) v := by
  simp only [actStatreply, h, hw, if_true]

end

section
variable (hw : reqWaits v q w.target = false)
include hw

theorem actBindreply_closes (hf : fieldAt w.payload 0 1 = 0) : actBindreply w u = closeProxy (boundProxy w q) v := by
  simp only [actBindreply, h, hf, hw]
  rfl

theorem actBindreply_late (hf : fieldAt w.payload 0 1 ≠ 0) : actBindreply w u = v := by
  obtain ⟨n, hn⟩ := Nat.exists_eq_add_of_lt (Nat.pos_of_ne_zero hf)
  rw [Nat.zero_add] at hn
  simp only [actBindreply, h, hn, hw]

theorem actStatreply_late : actStatreply w u = v := by simp only [actStatreply, h, hw, Bool.false_eq_true, if_false]

end

end

theorem actStatreply_none (h : takeReq w u = none) : actStatreply w u = u := by simp only [actStatreply, h]

theorem actGrant_proxy (h : fieldAt w.payload 0x0C 1 = 0) :
    actGrant w u = { u with fab.proxies := u.fab.proxies.map fun p =>
      if p.reg = w.target then
        { p with pcred := if p.binds = BitVec.ofNat 32 (fieldAt w.payload 8 4) then p.pcred + fieldAt w.payload 0 4
                   else fieldAt w.payload 0 4
                 binds := BitVec.ofNat 32 (fieldAt w.payload 8 4), scred := p.scred + fieldAt w.payload 4 4 }
      else p } := by
  simp only [actGrant, h, if_true, beq_iff_eq]

theorem actGrant_channel (h : fieldAt w.payload 0x0C 1 ≠ 0) (hw : isWriter u w = true)
    (hb : (u.chan (regKey w.target)).binds = BitVec.ofNat 32 (fieldAt w.payload 8 4)) :
    actGrant w u = u.updChan (regKey w.target) fun x =>
      { x with wpermits := x.wpermits + fieldAt w.payload 0 4, permOut := x.permOut - fieldAt w.payload 0 4 } :=
  (if_neg h).trans (if_pos (by rw [hw, beq_iff_eq.mpr hb]; rfl))

theorem actGrant_void (h : fieldAt w.payload 0x0C 1 ≠ 0) (hv : isWriter u w = false ∨
    (u.chan (regKey w.target)).binds ≠ BitVec.ofNat 32 (fieldAt w.payload 8 4)) : actGrant w u = u := by
  refine (if_neg h).trans (if_neg ?_)
  obtain hv | hv := hv
  · rw [hv]
    exact Bool.false_ne_true
  · rw [beq_eq_false_iff_ne.mpr hv, Bool.and_false]
    exact Bool.false_ne_true

/-- A proxy once DRAINED tells that none of its messages is in the cistern. -/
def drainedProxy (w : Wire) (p : Proxy) : Proxy :=
  if p.reg = w.target ∧ p.sent = fieldAt w.payload 0 8 + 1 then { p with pspill := false } else p

theorem actDrained_eq : actDrained w u = { u with fab.proxies := u.fab.proxies.map (drainedProxy w) } := by
  simp only [actDrained, Bool.and_eq_true, beq_iff_eq]
  rfl

/-! Status, growth, barriers, WSEND (R364, R485, R488, R490). -/

theorem actStatreq_refused (h : chanAdmits u w = false) : actStatreq w u = noteRefusal w (tellFault w u) := by
  simp only [actStatreq, h, Bool.not_false, if_true]

theorem actStatreq_faulted (h : chanAdmits u w = true) (hs : (u.chan (regKey w.target)).state = 3) :
    actStatreq w u = tellFault w u := by
  simp only [actStatreq, h, hs, Bool.not_true, Bool.false_eq_true, if_false]
  rfl

theorem actStatreq_answers (h : chanAdmits u w = true) (hs : (u.chan (regKey w.target)).state ≠ 3) :
    actStatreq w u = answer w 4 6 0 (leBytes 8 (statusWord (u.chan (regKey w.target))).toNat) u := by
  simp only [actStatreq, h, beq_eq_false_iff_ne.mpr hs, Bool.not_true, Bool.false_eq_true, if_false]

theorem actGrow_grows (hw : isWriter u w = true) (hg : canGrow u (regKey w.target) = true) :
    actGrow w u = growChan (regKey w.target) u := by
  simp only [actGrow, hw, hg, Bool.not_true, Bool.false_eq_true, if_false, if_true]

theorem actGrow_stalls (hw : isWriter u w = true) (hg : canGrow u (regKey w.target) = false) :
    actGrow w u = raiseStall (regKey w.target / 4096) (u.chan (regKey w.target)).part u := by
  simp only [actGrow, hw, hg, Bool.not_true, Bool.false_eq_true, if_false]

theorem actGrow_none (hw : isWriter u w = false) : actGrow w u = u := by
  simp only [actGrow, hw, Bool.not_false, if_true]

theorem actBararr_none (h : barPart u (endPkg w.src) = none) : actBararr w u = u := by simp only [actBararr, h]

theorem actBararr_arrives (h : barPart u (endPkg w.src) = some p) (hr : fieldAt w.payload 0 4 = u.pkgid.toNat) :
    actBararr w u = rootArrival (endPkg w.src) p (w.target.toNat % 8) (w.target.toNat / 256 % 64) u := by
  simp only [actBararr, h, if_pos hr]

theorem actBararr_other (h : barPart u (endPkg w.src) = some p) (hr : fieldAt w.payload 0 4 ≠ u.pkgid.toNat) :
    actBararr w u = u := by
  simp only [actBararr, h, if_neg hr]

theorem actBarrel_none (h : barPart u (endPkg w.src) = none) : actBarrel w u = u := by simp only [actBarrel, h]

theorem actBarrel_releases (h : barPart u (endPkg w.src) = some p) :
    actBarrel w u = releasePod p (w.target.toNat % 8) (w.target.toNat / 256 % 64) u := by
  simp only [actBarrel, h]

theorem actWorkdone_none (h : takeReq w u = none) : actWorkdone w u = u := by simp only [actWorkdone, h]

theorem actWorkdone_done (h : takeReq w u = some (q, v)) (hf : fieldAt w.payload 0 1 = 0) :
    actWorkdone w u = onWorkHandle q (fun h =>
      { h with state := 5, progress := 1, first := BitVec.ofNat 44 (fieldAt w.payload 4 4) }) v := by
  simp only [actWorkdone, h, hf, if_true]

theorem actWorkdone_fails (h : takeReq w u = some (q, v)) (hf : fieldAt w.payload 0 1 ≠ 0) :
    actWorkdone w u = onWorkHandle q failHandle v := by
  simp only [actWorkdone, h, if_neg hf]

/-! Faults of a remote channel (R351, R492). -/

theorem inside_addFault : Inside (addFault r st m s) s := inside_updMemberCtx

theorem inside_faultMember : Inside (faultMember r st m s) s := .ite inside_addFault .refl

theorem faultRemote_mem : (faultRemote r s).mem = s.mem := by
  have hfold : ∀ l : List (Nat × Nat), (l.foldl (fun s w => faultMember r w.1 w.2 s) s).mem = s.mem := fun l =>
    (Inside.foldl (fun _ _ => inside_faultMember) l s).mem
  exact hfold _

/-- Every proxy of the channel is marked. -/
theorem faultRemote_marks : ∀ p ∈ (faultRemote r s).fab.proxies, p.reg = r → p.fault = true := by
  intro p hp hreg
  simp only [faultRemote, List.mem_map] at hp
  obtain ⟨x, -, rfl⟩ := hp
  split
  · rfl
  · next hx =>
    rw [if_neg hx] at hreg
    exact absurd (beq_iff_eq.mpr hreg) hx

/-- Member (st', m') stands on a busy seat k. -/
structure Seated (st m k : Nat) (s : State) : Prop where
  seat : memberSeat s st m = some k
  busy : (s.seat k).phase ≠ .idle

/-- The member of a step that stands on a seat. -/
theorem memberSeat_eq : memberSeat s st m = some k ↔ ∃ x, (s.step1 st).members[m]? = some x ∧ x.place = .onSeat k := by
  unfold memberSeat
  constructor
  · intro h
    split at h
    · next x hx =>
      refine ⟨x, hx, ?_⟩
      split at h
      · next j hj => rw [hj, Option.some.inj h]
      · cases h
      · cases h
      · cases h
    · cases h
  · rintro ⟨x, hx, hplace⟩
    rw [hx]
    simp only [hplace]

theorem getElem?_modifyAt_other {α : Type} {f : α → α} : ∀ {xs : List α} {n i : Nat}, i ≠ n →
    (modifyAt f xs n)[i]? = xs[i]?
  | [], _, _, _ => by simp [modifyAt]
  | x :: xs, 0, 0, h => absurd rfl h
  | x :: xs, 0, i + 1, _ => by simp [modifyAt]
  | x :: xs, n + 1, 0, _ => by simp [modifyAt]
  | x :: xs, n + 1, i + 1, h => by
    simp only [modifyAt, List.getElem?_cons_succ]
    exact getElem?_modifyAt_other fun he => h (he ▸ rfl)

/-- A write of another member's saved context leaves a seated member on its seat. -/
theorem memberSeat_updMember {st' m' : Nat} {f : Member → Member} (hm : memberSeat s st m = some k)
    (hn : memberSeat s st' m' = none) : memberSeat (s.updMember st' m' f) st m = some k := by
  obtain ⟨x, hx, hplace⟩ := memberSeat_eq.mp hm
  refine memberSeat_eq.mpr ⟨x, ?_, hplace⟩
  have hlisted : s.step1 st ≠ {} := fun h => by
    rw [h] at hx
    cases hx
  by_cases hst : st = st'
  · subst hst
    have hother : m ≠ m' := fun h => by
      subst h
      rw [hm] at hn
      cases hn
    have hkeeps : (modifyAt f (s.step1 st).members m')[m]? = some x := by
      rw [getElem?_modifyAt_other hother, hx]
    have hstep : (s.updMember st m' f).step1 st = { s.step1 st with members := modifyAt f (s.step1 st).members m' } :=
      Sparse.get_set_same fun h => by
        have hnil : modifyAt f (s.step1 st).members m' = [] := congrArg Step.members h
        rw [hnil] at hkeeps
        cases hkeeps
    rw [hstep]
    exact hkeeps
  · have hstep : (s.updMember st' m' f).step1 st = s.step1 st := Sparse.get_set_listed hlisted hst
    rw [hstep]
    exact hx

/-- A write of a member's context leaves a seated member on its seat; its context is written where it is that member. -/
theorem Seated.updMemberCtx {st' m' : Nat} {f : Ctx → Ctx} (h : Seated st m k s) :
    Seated st m k (s.updMemberCtx st' m' f) ∧
      ((s.updMemberCtx st' m' f).ctx k = s.ctx k ∨ (s.updMemberCtx st' m' f).ctx k = f (s.ctx k)) ∧
      (st' = st → m' = m → (s.updMemberCtx st' m' f).ctx k = f (s.ctx k)) := by
  cases hj : memberSeat s st' m' with
  | none =>
    have hupd : s.updMemberCtx st' m' f = s.updMember st' m' fun x => { x with ctx := f x.ctx } := by
      simp only [State.updMemberCtx, hj]
    rw [hupd]
    refine ⟨⟨memberSeat_updMember h.seat hj, h.busy⟩, .inl rfl, fun hs hm => ?_⟩
    rw [hs, hm, h.seat] at hj
    cases hj
  | some j =>
    have hupd : s.updMemberCtx st' m' f = s.updCtx j f := by simp only [State.updMemberCtx, hj]
    by_cases hjk : j = k
    · subst hjk
      have hseat := State.seat_updCtx_same (f := f) h.busy
      rw [← hupd] at hseat
      have hctx : (s.updMemberCtx st' m' f).ctx j = f (s.ctx j) := congrArg Seat.ctx hseat
      refine ⟨⟨?_, ?_⟩, .inr hctx, fun _ _ => hctx⟩
      · rw [hupd]
        exact h.seat
      · rw [hseat]
        exact h.busy
    · have hseat : (s.updMemberCtx st' m' f).seat k = s.seat k :=
        updMemberCtx_beside h.busy (by rw [hj]; exact fun he => hjk (Option.some.inj he))
      refine ⟨⟨?_, ?_⟩, .inl (congrArg Seat.ctx hseat), fun hs hm => ?_⟩
      · rw [hupd]
        exact h.seat
      · rw [hseat]
        exact h.busy
      · rw [hs, hm, h.seat] at hj
        exact absurd (Option.some.inj hj).symm hjk

/-- A seated member with cause 0x12 of a channel. -/
structure Faulted (r : Word) (st m k : Nat) (s : State) : Prop extends Seated st m k s where
  cause : ⟨0x12, r, 0⟩ ∈ (s.ctx k).causes

/-- The context that takes cause 0x12. -/
theorem mem_addFault {c : Ctx} {x : Cause} (h : x = ⟨0x12, r, 0⟩ ∨ x ∈ c.causes) :
    x ∈ (if c.causes.contains ⟨0x12, r, 0⟩ then c.causes else c.causes ++ [⟨0x12, r, 0⟩]) := by
  split
  · next hc =>
    obtain rfl | h := h
    · exact List.contains_iff_mem.mp hc
    · exact h
  · obtain rfl | h := h
    · exact List.mem_append_right _ (List.mem_singleton.mpr rfl)
    · exact List.mem_append_left _ h

theorem Seated.addFault {st' m' : Nat} (h : Seated st m k s) : Seated st m k (addFault r st' m' s) := h.updMemberCtx.1

theorem Seated.addFault_same (h : Seated st m k s) : Faulted r st m k (Machine.addFault r st m s) :=
  { h.addFault with
    cause := by
      rw [Machine.addFault, h.updMemberCtx.2.2 rfl rfl]
      exact mem_addFault (.inl rfl) }

theorem Faulted.addFault {st' m' : Nat} (h : Faulted r st m k s) : Faulted r st m k (Machine.addFault r st' m' s) :=
  { h.toSeated.addFault with
    cause := by
      obtain ⟨-, hc, -⟩ := h.toSeated.updMemberCtx (st' := st') (m' := m') (f := fun c =>
        { c with causes := if c.causes.contains ⟨0x12, r, 0⟩ then c.causes else c.causes ++ [⟨0x12, r, 0⟩]
                 wait.remote := c.wait.remote.filter fun w => !w.awaits r })
      obtain hc | hc := hc
      · exact hc ▸ h.cause
      · exact hc ▸ mem_addFault (.inr h.cause) }

theorem Faulted.faultMember {st' m' : Nat} (h : Faulted r st m k s) : Faulted r st m k (Machine.faultMember r st' m' s) := by
  unfold Machine.faultMember
  dsimp only
  split
  · exact h.addFault
  · exact h

theorem Faulted.foldl {α : Type} {f : State → α → State} (hf : ∀ s x, Faulted r st m k s → Faulted r st m k (f s x)) :
    ∀ (xs : List α) {s : State}, Faulted r st m k s → Faulted r st m k (xs.foldl f s)
  | [], _, h => h
  | x :: xs, _, h => foldl hf xs (hf _ x h)

theorem Faulted.faultRemote (h : Faulted r st m k s) : Faulted r st m k (Machine.faultRemote r s) := by
  have hfold := fun l : List (Nat × Nat) =>
    Faulted.foldl (f := fun s w => Machine.faultMember r w.1 w.2 s) (fun _ _ h => h.faultMember) l h
  obtain ⟨⟨hs, hb⟩, hc⟩ := hfold (((s.fab.proxies.filter fun p => p.reg == r).map (·.writer) ++
    (s.fab.reqs.filter fun q => awaitsReply (s.memberCtx q.step q.member) r).map fun q => (q.step, q.member)).dedup)
  exact ⟨⟨hs, hb⟩, hc⟩

/-- Among the writers of a list of proxies every seated one takes the cause. -/
theorem addFaults_foldl {x : Proxy} (l : List Proxy) : ∀ {s : State}, x ∈ l → Seated x.writer.1 x.writer.2 k s →
    Faulted r x.writer.1 x.writer.2 k (l.foldl (fun s p => addFault r p.writer.1 p.writer.2 s) s) := by
  induction l with
  | nil => exact fun hx => absurd hx List.not_mem_nil
  | cons y l ih =>
    intro s hx h
    rw [List.foldl_cons]
    obtain hx | hx := List.mem_cons.mp hx
    · subst hx
      exact Faulted.foldl (fun _ _ h => h.addFault) l h.addFault_same
    · exact ih hx h.addFault

theorem actRefuse_mem : (actRefuse w u).mem = u.mem :=
  faultRemote_mem.trans (Inside.foldl (fun _ _ => inside_addFault) _ _).mem

/-- A writer that stands on a seat takes 0x12 where a message of its proxy was turned away. -/
theorem actRefuse_faults {x : Proxy} (hx : x ∈ u.fab.proxies) (hr : x.reg = w.target) (hl : proxyLives u x = true)
    (hs : Seated x.writer.1 x.writer.2 k u) : ⟨0x12, w.target, 0⟩ ∈ ((actRefuse w u).ctx k).causes :=
  (addFaults_foldl (r := w.target) _ (List.mem_filter.mpr ⟨hx, by rw [hr, hl, beq_self_eq_true]; rfl⟩) hs).faultRemote.cause

end Sys2Proof.Machine

namespace Sys2Proof.Proofs
set_option Elab.async false
open Sys2Proof Sys2Proof.Machine

/-- Settles O60: each message acts, once it is taken, in the case of its clause. -/
theorem controlMessages : Obligations.ControlMessages := by
  intro s m wire u b ch src
  have htalk : ∀ op, Talk (u op) s := fun op => talk_taken (by show (4 : Nat) ≠ 0; decide)
  refine ⟨fun hA => ?_, fun hA => ?_, fun hA => ?_, fun hA => ?_, fun hA => ?_, fun hA => ?_, fun hA => ?_, fun hA => ?_,
    fun hA => ?_, fun hA => ?_, ?_, fun hA => ?_, fun hA => ?_⟩
  · intro cls key seq rest
    exact exec_arrives hA rfl actAck_eq
  · intro c
    exact ⟨fun h => exec_arrives hA rfl (actBindreq_refused h), fun ha hs h => exec_arrives hA rfl (actBindreq_bound ha hs h),
      fun ha hs hw hd => exec_arrives hA rfl (actBindreq_binds ha hs hw hd)⟩
  · refine ⟨fun h => exec_arrives hA rfl (actBindreply_none h), fun q v h => ?_⟩
    intro p
    exact ⟨fun hw => ⟨fun hf => exec_arrives hA rfl (actBindreply_binds h hw hf),
        fun hf => exec_arrives hA rfl (actBindreply_busy h hw hf),
        fun hf => exec_arrives hA rfl (actBindreply_fails h hw hf)⟩,
      fun hw => ⟨fun hf => exec_arrives hA rfl (actBindreply_closes h hw hf),
        fun hf => exec_arrives hA rfl (actBindreply_late h hw hf)⟩⟩
  · intro n binds gains
    exact ⟨fun h => exec_arrives hA rfl (actGrant_proxy h), fun h hw hb => exec_arrives hA rfl (actGrant_channel h hw hb),
      fun h hv => exec_arrives hA rfl (actGrant_void h hv)⟩
  · intro empty
    exact exec_arrives hA rfl actDrained_eq
  · exact ⟨fun h => exec_arrives hA rfl (actStatreq_refused h),
      fun h hs => exec_arrives hA rfl (actStatreq_faulted h hs),
      fun h hs => exec_arrives hA rfl (actStatreq_answers h hs)⟩
  · exact ⟨fun h => exec_arrives hA rfl (actStatreply_none h), fun q v h =>
      ⟨fun hw => exec_arrives hA rfl (actStatreply_gives h hw), fun hw => exec_arrives hA rfl (actStatreply_late h hw)⟩⟩
  · exact ⟨fun hw hg => exec_arrives hA rfl (actGrow_grows hw hg), fun hw hg => exec_arrives hA rfl (actGrow_stalls hw hg),
      fun hw => exec_arrives hA rfl (actGrow_none hw)⟩
  · exact ⟨_, exec_arrives hA rfl rfl, faultRemote_mem.trans (htalk 8).mem, faultRemote_marks⟩
  · refine ⟨_, exec_arrives hA rfl rfl, actRefuse_mem.trans (htalk 13).mem, faultRemote_marks, fun p hp hr hl q hq hb => ?_⟩
    have hquiet : (u 13).quiet = s.quiet := (htalk 13).quiet
    have hsteps : (u 13).steps = s.steps := show (u 13).quiet.steps = s.quiet.steps by rw [hquiet]
    refine actRefuse_faults hp hr hl ⟨?_, ?_⟩
    · rw [memberSeat, State.step1, hsteps]
      exact hq
    · rw [State.seat, (htalk 13).seats]
      exact hb
  · intro sc id
    have hpkgid : ∀ op, (u op).pkgid = s.pkgid := fun op => show (u op).quiet.pkgid = s.quiet.pkgid by rw [(htalk op).quiet]
    refine ⟨fun hA => ⟨fun h => exec_arrives hA rfl (actBararr_none h), fun p h => ⟨fun hr => ?_, fun hr => ?_⟩⟩,
      fun hA => ⟨fun h => exec_arrives hA rfl (actBarrel_none h),
        fun p h => exec_arrives hA rfl (actBarrel_releases h)⟩⟩
    · exact exec_arrives hA rfl (actBararr_arrives h (hr.trans (congrArg BitVec.toNat (hpkgid 9).symm)))
    · exact exec_arrives hA rfl (actBararr_other h fun he => hr (he.trans (congrArg BitVec.toNat (hpkgid 9))))
  · exact ⟨fun h => exec_arrives hA rfl (actWorkdone_none h), fun q v h =>
      ⟨fun hf => exec_arrives hA rfl (actWorkdone_done h hf), fun hf => exec_arrives hA rfl (actWorkdone_fails h hf)⟩⟩
  · intro pkg links
    exact exec_arrives hA rfl rfl

end Sys2Proof.Proofs
end

section
/-! What the copy engine leaves of the seat that it works for (R220 to R226). -/
namespace Sys2Proof.Machine
set_option Elab.async false
open Sys2Proof
variable {s u v : State} {k n c : Nat} {h : BitVec 4} {bad : Bool} {p : Copy}

/-! Phase and registers. -/

/-- Seat k, where it is busy, keeps its phase and its registers. -/
structure Minds (k : Nat) (u s : State) : Prop where
  phase : (s.seat k).phase ≠ .idle → (u.seat k).phase = (s.seat k).phase
  regs : (s.seat k).phase ≠ .idle → (u.ctx k).regs = (s.ctx k).regs

namespace Minds

theorem refl : Minds k s s := ⟨fun _ => rfl, fun _ => rfl⟩

theorem trans (h : Minds k v u) (h' : Minds k u s) : Minds k v s := by
  have hbusy : (s.seat k).phase ≠ .idle → (u.seat k).phase ≠ .idle := fun hb => by rw [h'.phase hb]; exact hb
  exact ⟨fun hb => (h.phase (hbusy hb)).trans (h'.phase hb), fun hb => (h.regs (hbusy hb)).trans (h'.regs hb)⟩

theorem ite {p : Prop} [Decidable p] {a b : State} (ha : Minds k a s) (hb : Minds k b s) : Minds k (if p then a else b) s := by
  split <;> assumption

theorem foldl {α : Type} {f : State → α → State} (h : ∀ s x, Minds k (f s x) s) :
    ∀ (xs : List α) (s : State), Minds k (xs.foldl f s) s
  | [], _ => refl
  | x :: xs, s => (foldl h xs (f s x)).trans (h s x)

theorem of_seats (h : u.seats = s.seats) : Minds k u s := by
  have hseat : u.seat k = s.seat k := by rw [State.seat, State.seat, h]
  exact ⟨fun _ => by rw [hseat], fun _ => by rw [State.ctx, State.ctx, hseat]⟩

theorem updCtx {f : Ctx → Ctx} (hf : ∀ x, (f x).regs = x.regs) : Minds k (s.updCtx k f) s := by
  refine ⟨fun hb => ?_, fun hb => ?_⟩
  · rw [State.seat_updCtx_same hb]
  · rw [State.ctx_updCtx_same hb, hf]

theorem updMemberCtx {st m : Nat} {f : Ctx → Ctx} (hf : ∀ x, (f x).regs = x.regs) : Minds k (s.updMemberCtx st m f) s := by
  by_cases hm : memberSeat s st m = some k
  · refine ⟨fun hb => ?_, fun hb => ?_⟩
    · rw [updMemberCtx_here hb hm]
    · rw [State.ctx, updMemberCtx_here hb hm]
      exact hf _
  · refine ⟨fun hb => ?_, fun hb => ?_⟩
    · rw [updMemberCtx_beside hb hm]
    · rw [State.ctx, updMemberCtx_beside hb hm]
      rfl

theorem mild {f : Ctx → Ctx} (hf : Mild f) : Minds k (s.updCtx k f) s := updCtx fun x => (hf x).1

end Minds

/-- A write of a command and of its handle. -/
theorem minds_updCommand {a b : Nat} {f : Handle → Handle} {g : Copy → Copy} :
    Minds k (s.updCtx k fun c => (c.updHandle a f).updCopy b g) s := .updCtx fun _ => rfl

theorem markPoison_regs (x : Ctx) (n : BitVec 7) (b : Nat) (us : List Nat) :
    (us.foldl (fun c u => c.markPoison n b u true) x).regs = x.regs := (markPoison_fold us x).2

theorem minds_poisonUnits {n : BitVec 7} {g : Sig} {i : Int} {us : List Nat} : Minds k (poisonUnits k n g i us s) s :=
  .updCtx fun _ => markPoison_regs _ _ _ _

theorem minds_setLine {j p : Nat} {x : UnitW} : Minds k (s.setLine j p x) s := .of_seats rfl

theorem minds_freeCtr {n : Nat} : Minds k { s with freeCtr := n } s := .of_seats rfl

theorem minds_useUnit {p : Nat} : Minds k (s.useUnit k p) s := .of_seats rfl

theorem minds_putBytes {g : Sig} {slot b z v : Nat} : Minds k (putBytes k g slot b z v s) s := minds_setLine

theorem minds_putCopy {g : Sig} {i : Int} {mem : Fmt} {e x : Nat} : Minds k (putCopy k g i mem e x s) s := by
  unfold putCopy
  dsimp only
  split
  · exact .ite minds_putBytes ((Minds.foldl (fun _ _ => minds_putBytes) _ _).trans minds_putBytes)
  · exact minds_putBytes

theorem minds_landElem {i : Int} {e x : Nat} : Minds k (landElem k p i e x bad s) s :=
  .ite (minds_poisonUnits.trans minds_putCopy) minds_putCopy

theorem minds_landGroup {mt v0 v1 : Nat} : Minds k (landGroup k h p n mt v0 v1 bad s) s := by
  unfold landGroup
  dsimp only
  split
  · exact minds_landElem.trans (minds_landElem.trans (.foldl (fun _ _ => minds_landElem) _ _))
  · exact minds_updCommand.trans
      ((Minds.foldl (fun _ _ => minds_landElem) _ _).trans (.foldl (fun _ _ => minds_landElem) _ _))

theorem minds_zeroBeyond {g : Sig} {i : Int} {mem : Fmt} {q : Nat} : Minds k (zeroBeyond k g i mem q s) s :=
  .foldl (fun _ _ => .ite .refl minds_setLine) _ _

theorem minds_landAccess {x : Nat} : Minds k (landAccess k h n x bad s) s := by
  have hzero : ∀ {g : Sig} {i : Int} {mem : Fmt} {p q : Nat},
      Minds k (if q = 0 then zeroBeyond k g i mem p s else s) s := .ite minds_zeroBeyond .refl
  unfold landAccess
  dsimp only
  split
  · split
    · exact minds_landGroup.trans ((Minds.mild mild_updCopy).trans hzero)
    · exact (Minds.mild mild_updCopy).trans hzero
  · exact minds_landElem.trans hzero

theorem minds_spoilLoad {st m h : Nat} : Minds k (spoilLoad st m h s) s := by
  simp only [spoilLoad]
  split
  · exact .refl
  · exact .ite .refl (.foldl (fun _ _ => .foldl (fun _ _ => minds_freeCtr.trans minds_setLine) _ _) _ _)

theorem minds_freeStackCtx : Minds k (freeStackCtx p s) s := .of_seats aside_freeStackCtx.seats

theorem minds_tryFinish {st m h : Nat} : Minds k (tryFinish st m h s) s :=
  .ite (minds_freeStackCtx.trans ((Minds.updMemberCtx fun x => (mild_finishCopy x).1).trans minds_spoilLoad)) .refl

theorem minds_countAccess : Minds k (countAccess k h n c bad s) s :=
  minds_tryFinish.trans (.updCtx fun x => by
    dsimp only
    split
    · exact (mild_raise _).1
    · rfl)

/-! The data that a store takes. -/

/-- A seat whose handle h holds a store. -/
structure Storing (k : Nat) (h : BitVec 4) (s : State) : Prop where
  busy : (s.seat k).phase ≠ .idle
  op : ((s.ctx k).copy h.toNat).op ≠ 0

/-- u follows from s as the store of handle h takes data: the command keeps all but what it has taken. -/
structure Fetches (k : Nat) (h : BitVec 4) (u s : State) : Prop where
  inside : Inside u s
  steps : u.steps = s.steps
  stackTab : u.stackTab = s.stackTab
  phase : (u.seat k).phase = (s.seat k).phase
  ctx : ∃ cs, u.ctx k = { s.ctx k with eng.copies := cs }
  copy : ∃ sn kp, (u.ctx k).copy h.toNat = { (s.ctx k).copy h.toNat with snaps := sn, kept := kp }

namespace Fetches

theorem refl : Fetches k h s s := ⟨.refl, rfl, rfl, rfl, ⟨_, rfl⟩, ⟨_, _, rfl⟩⟩

theorem trans (h1 : Fetches k h v u) (h2 : Fetches k h u s) : Fetches k h v s := by
  obtain ⟨c1, hc1⟩ := h1.ctx
  obtain ⟨c2, hc2⟩ := h2.ctx
  obtain ⟨sn, kp, hcopy1⟩ := h1.copy
  obtain ⟨_, _, hcopy2⟩ := h2.copy
  refine ⟨h1.inside.trans h2.inside, h1.steps.trans h2.steps, h1.stackTab.trans h2.stackTab, h1.phase.trans h2.phase,
    ⟨c1, ?_⟩, ⟨sn, kp, ?_⟩⟩
  · rw [hc1, hc2]
  · rw [hcopy1, hcopy2]

theorem storing (hf : Fetches k h u s) (hS : Storing k h s) : Storing k h u := by
  obtain ⟨_, _, hcopy⟩ := hf.copy
  refine ⟨by rw [hf.phase]; exact hS.busy, ?_⟩
  rw [hcopy]
  exact hS.op

theorem foldl {α : Type} {f : State → α → State} (hf : ∀ s x, Storing k h s → Fetches k h (f s x) s) :
    ∀ (xs : List α) {s : State}, Storing k h s → Fetches k h (xs.foldl f s) s
  | [], _, _ => refl
  | x :: xs, s, hS => (foldl hf xs ((hf s x hS).storing hS)).trans (hf s x hS)

theorem regs (hf : Fetches k h u s) : (u.ctx k).regs = (s.ctx k).regs := by
  obtain ⟨cs, hc⟩ := hf.ctx
  rw [hc]

end Fetches

theorem copy_updCopy {x : Ctx} {i : Nat} {f : Copy → Copy} (hf : f (x.copy i) ≠ {}) :
    (x.updCopy i f).copy i = f (x.copy i) := Sparse.get_set_same hf

theorem handle_updHandle {x : Ctx} {i : Nat} {f : Handle → Handle} (hf : f (x.handle i) ≠ {}) :
    (x.updHandle i f).handle i = f (x.handle i) := Sparse.get_set_same hf

theorem fetches_useUnit {q : Nat} : Fetches k h (s.useUnit k q) s := ⟨inside_useUnit, rfl, rfl, rfl, ⟨_, rfl⟩, ⟨_, _, rfl⟩⟩

theorem fetches_updCopy {a : Copy → List Snap} {b : Copy → List Kept} (hS : Storing k h s) :
    Fetches k h (s.updCtx k fun c => c.updCopy h.toNat fun q => { q with snaps := a q, kept := b q }) s := by
  have hctx := State.ctx_updCtx_same (f := fun c => c.updCopy h.toNat fun q => { q with snaps := a q, kept := b q }) hS.busy
  refine ⟨inside_updCtx, rfl, rfl, (congrArg Seat.phase (State.seat_updCtx_same hS.busy)).trans rfl, ⟨_, hctx⟩,
    ⟨a ((s.ctx k).copy h.toNat), b ((s.ctx k).copy h.toNat), ?_⟩⟩
  · rw [hctx]
    exact copy_updCopy fun he => hS.op (congrArg Copy.op he)

theorem fetches_takeWord {i : Int} {q : Nat} (hS : Storing k h s) : Fetches k h (takeWord k h i q s).2 s := by
  have huse : ∀ b : Prop, ∀ _ : Decidable b, ∀ w, Fetches k h (if b then s else s.useUnit k w) s := by
    intro b _ w
    split
    · exact .refl
    · exact fetches_useUnit
  simp only [takeWord]
  split
  · exact .refl
  · exact (fetches_updCopy (b := Copy.kept) ((huse _ _ _).storing hS)).trans (huse _ _ _)

theorem fetches_takeElem (hS : Storing k h s) : Fetches k h (takeElem k h n s).2.2 s := by
  simp only [takeElem]
  split
  · exact fetches_updCopy (a := Copy.snaps) hS
  · exact fetches_takeWord hS

theorem fetches_takeElems : ∀ (c n : Nat) {s : State}, Storing k h s → Fetches k h (takeElems k h c n s).2.2 s
  | 0, _, _, _ => .refl
  | c + 1, n, _, hS =>
    (fetches_takeElems c (n + 1) ((fetches_takeElem hS).storing hS)).trans (fetches_takeElem hS)

theorem fetches_keepElem (hS : Storing k h s) : Fetches k h (keepElem k h s n) s :=
  (fetches_updCopy (a := Copy.snaps) ((fetches_takeElem hS).storing hS)).trans (fetches_takeElem hS)

theorem fetches_keepRest (hS : Storing k h s) : Fetches k h (keepRest k h p n c s) s :=
  .foldl (fun _ _ hS => fetches_keepElem hS) _ hS

/-- An element that waits for its piece: the store has taken its data, and nothing is sent. -/
theorem holdElem_holds (hS : Storing k h s) :
    let t := holdElem k h n s
    t.accs = s.accs ∧ t.mem = s.mem ∧ ((t.ctx k).copy h.toNat).issued = n + 1 ∧
      ((t.ctx k).copy h.toNat).flying = ((s.ctx k).copy h.toNat).flying ∧
      ∃ e ∈ ((t.ctx k).copy h.toNat).kept, e.elem = n ∧ e.data = (takeElem k h n s).1 := by
  let u := keepElem k h s n
  have hu : Fetches k h u s := fetches_keepElem hS
  have hctx : (holdElem k h n s).ctx k = (u.ctx k).updCopy h.toNat fun q => { q with issued := n + 1 } :=
    State.ctx_updCtx_same (hu.storing hS).busy
  have hcopy : ((holdElem k h n s).ctx k).copy h.toNat = { (u.ctx k).copy h.toNat with issued := n + 1 } := by
    rw [hctx]
    exact copy_updCopy fun he => Nat.succ_ne_zero _ (congrArg Copy.issued he)
  have hfly : ((u.ctx k).copy h.toNat).flying = ((s.ctx k).copy h.toNat).flying := by
    obtain ⟨_, _, hc⟩ := hu.copy
    rw [hc]
  have hkept : ((u.ctx k).copy h.toNat).kept =
      (((takeElem k h n s).2.2.ctx k).copy h.toNat).kept ++ [⟨n, (takeElem k h n s).1, (takeElem k h n s).2.1⟩] := by
    have htake := (fetches_takeElem (n := n) hS).storing hS
    have hkeep : u.ctx k = ((takeElem k h n s).2.2.ctx k).updCopy h.toNat fun q =>
      { q with kept := q.kept ++ [⟨n, (takeElem k h n s).1, (takeElem k h n s).2.1⟩] } := State.ctx_updCtx_same htake.busy
    rw [hkeep, copy_updCopy]
    exact fun he => htake.op (congrArg Copy.op he)
  have hinside : Inside (holdElem k h n s) s := inside_updCtx.trans hu.inside
  refine ⟨hinside.accs, hinside.mem, ?_, ?_, ⟨⟨n, (takeElem k h n s).1, (takeElem k h n s).2.1⟩, ?_, rfl, rfl⟩⟩
  · rw [hcopy]
  · rw [hcopy]
    exact hfly
  · rw [hcopy]
    show _ ∈ ((u.ctx k).copy h.toNat).kept
    rw [hkept]
    exact List.mem_append_right _ (List.mem_singleton.mpr rfl)

end Sys2Proof.Machine
end

section
/-! The completion of accesses (R220, R223, R224). -/
namespace Sys2Proof.Machine
set_option Elab.async false
open Sys2Proof
variable {s u v w : State} {k n j : Nat} {h : BitVec 4} {bad : Bool} {p : Copy} {c : Ctx}

/-! Landed data. -/

/-- u follows from s as data reach line memory: seat k changes in the marks of its poison only. -/
structure Lands (k : Nat) (u s : State) : Prop where
  inside : Inside u s
  steps : u.steps = s.steps
  seat : (s.seat k).phase ≠ .idle → ∃ x, u.seat k = { s.seat k with ctx.sig.poison := x }

namespace Lands

theorem refl : Lands k s s := ⟨.refl, rfl, fun _ => ⟨_, rfl⟩⟩

theorem trans (h : Lands k v u) (h' : Lands k u s) : Lands k v s := by
  refine ⟨h.inside.trans h'.inside, h.steps.trans h'.steps, fun hb => ?_⟩
  obtain ⟨x, hx⟩ := h'.seat hb
  obtain ⟨y, hy⟩ := h.seat (by rw [hx]; exact hb)
  exact ⟨y, by rw [hy, hx]⟩

theorem ite {p : Prop} [Decidable p] {a b : State} (ha : Lands k a s) (hb : Lands k b s) : Lands k (if p then a else b) s := by
  split <;> assumption

theorem foldl {α : Type} {f : State → α → State} (h : ∀ s x, Lands k (f s x) s) :
    ∀ (xs : List α) (s : State), Lands k (xs.foldl f s) s
  | [], _ => refl
  | x :: xs, s => (foldl h xs (f s x)).trans (h s x)

theorem updCore {i : Nat} {f : Core → Core} : Lands k (s.updCore i f) s := ⟨inside_updCore, rfl, fun _ => ⟨_, rfl⟩⟩

end Lands

theorem markPoison_folds {n : BitVec 7} {b : Nat} : ∀ (us : List Nat) (c : Ctx),
    ∃ x, us.foldl (fun c u => c.markPoison n b u true) c = { c with sig.poison := x }
  | [], c => ⟨c.sig.poison, rfl⟩
  | u :: us, c => by
    obtain ⟨x, hx⟩ := markPoison_folds us (c.markPoison n b u true)
    exact ⟨x, hx⟩

theorem lands_poisonUnits {n : BitVec 7} {g : Sig} {i : Int} {us : List Nat} : Lands k (poisonUnits k n g i us s) s := by
  refine ⟨inside_updCtx, rfl, fun hb => ?_⟩
  obtain ⟨x, hx⟩ := markPoison_folds (n := n) (b := g.slotOf i) us (s.ctx k)
  refine ⟨x, (State.seat_updCtx_same hb).trans ?_⟩
  show { s.seat k with ctx := us.foldl (fun c u => c.markPoison n (g.slotOf i) u true) (s.ctx k) } = _
  rw [hx]
  rfl

theorem lands_putBytes {g : Sig} {slot b z v : Nat} : Lands k (putBytes k g slot b z v s) s :=
  Lands.updCore (f := fun c => { c.heal [s.unitOf k g slot (b / 32)] with line := _ })

theorem lands_putPlaneBit {g : Sig} {slot q e v : Nat} : Lands k (putPlaneBit k g slot q e v s) s := lands_putBytes

theorem lands_putCopy {g : Sig} {i : Int} {mem : Fmt} {e x : Nat} : Lands k (putCopy k g i mem e x s) s := by
  unfold putCopy
  dsimp only
  split
  · exact .ite lands_putBytes ((Lands.foldl (fun _ _ => lands_putPlaneBit) _ _).trans lands_putPlaneBit)
  · exact lands_putBytes

theorem lands_setLine {q : Nat} {x : UnitW} : Lands k (s.setLine k q x) s := .updCore

theorem lands_zeroBeyond {g : Sig} {i : Int} {mem : Fmt} {q : Nat} : Lands k (zeroBeyond k g i mem q s) s :=
  .foldl (fun _ _ => .ite .refl lands_setLine) _ _

theorem lands_landElem {i : Int} {e x : Nat} : Lands k (landElem k p i e x bad s) s :=
  .ite (lands_poisonUnits.trans lands_putCopy) lands_putCopy

/-- Without 2:4 expansion every access lands at once. -/
theorem lands_landAccess {x : Nat} (hp : ((s.ctx k).copy h.toNat).sp24 = false) : Lands k (landAccess k h n x bad s) s := by
  have hzero : ∀ {g : Sig} {i : Int} {mem : Fmt} {p q : Nat},
      Lands k (if q = 0 then zeroBeyond k g i mem p s else s) s := .ite lands_zeroBeyond .refl
  unfold landAccess
  dsimp only
  rw [if_neg (by rw [hp]; exact Bool.false_ne_true)]
  exact lands_landElem.trans hzero

theorem lands_useUnit {q : Nat} : Lands k (s.useUnit k q) s := .updCore

theorem lands_useUnits (l : List Nat) : Lands k (l.foldl (fun s u => s.useUnit k u) s) s :=
  .foldl (fun _ _ => lands_useUnit) _ _

theorem readUnits_line (x : Core) (us : List Nat) : (x.readUnits us).line = x.line := by
  unfold Core.readUnits
  split <;> rfl

/-- A read of units by an agent leaves the line memory alone. -/
theorem line_useUnits (q : Nat) : ∀ (l : List Nat) (s : State), (l.foldl (fun s u => s.useUnit k u) s).line k q = s.line k q
  | [], _ => rfl
  | x :: l, s => by
    rw [List.foldl_cons, line_useUnits q l]
    have hcore : (s.useUnit k x).core (coreOf k) =
        { (s.core (coreOf k)).readUnits [x] with engBanks := (s.core (coreOf k)).engBanks ++ [x % 16] } :=
      Sparse.get_set_same fun he => List.append_ne_nil_of_right_ne_nil _ (List.cons_ne_nil _ _) (congrArg Core.engBanks he)
    rw [State.line, hcore, State.line]
    show ((s.core (coreOf k)).readUnits [x]).line.get 0 q = _
    rw [readUnits_line]

theorem ctx_useUnits : ∀ (l : List Nat) (s : State), (l.foldl (fun s u => s.useUnit k u) s).ctx k = s.ctx k
  | [], _ => rfl
  | _ :: l, _ => ctx_useUnits l _

/-- An access of its own lands as one element. -/
theorem landRun_one {bs : List Byte} : landRun k h n 1 bs bad s =
    (landUnits s k ((s.ctx k).copy h.toNat) n 1).foldl (fun s u => s.useUnit k u)
      (landAccess k h n (leNat (bs.take (((s.ctx k).copy h.toNat).accSize n))) bad s) := by
  simp only [landRun, List.range_one, List.foldl_cons, List.foldl_nil, Nat.add_zero, Nat.zero_mul, List.drop_zero]

/-! A served access (R220). -/

theorem takeFirst_some {α : Type} {q : α → Bool} : ∀ {xs : List α} {a : α} {rest : List α},
    takeFirst q xs = some (a, rest) → q a = true
  | x :: xs, a, rest, h => by
    rw [takeFirst] at h
    split at h
    · next hx =>
      obtain ⟨rfl, -⟩ := Prod.mk.inj (Option.some.inj h)
      exact hx
    · obtain ⟨r, hr, he⟩ := Option.map_eq_some_iff.mp h
      rw [← (Prod.mk.inj he).1]
      exact takeFirst_some (q := q) (rest := r.2) hr

section
variable {a : Access} {rest : List Access}
  (ht : takeFirst (fun (a : Access) => a.seat == k && a.h == h && a.elem == j) s.accs = some (a, rest))
include ht

theorem takeFirst_names : a.seat = k ∧ a.h = h ∧ a.elem = j := by
  have hq := takeFirst_some ht
  simp only [Bool.and_eq_true, beq_iff_eq] at hq
  exact ⟨hq.1.1, hq.1.2, hq.2⟩

theorem copyAccessComplete_served (hp : a.phase = .served) : copyAccessComplete k h j s =
    countAccess k h j a.count (!a.write && a.poison)
      (if a.write then { s with accs := rest } else landRun k h j a.count a.data a.poison { s with accs := rest }) := by
  obtain ⟨hk, hh, hj⟩ := takeFirst_names ht
  simp only [copyAccessComplete, ht, hp, endAccess, hk, hh, hj]

end

/-! FILL rises over the next sample (R223). -/

/-- Access j of the only load of a seat is the next to complete, in the sample after FILL. -/
def Fills (c : Ctx) (h : BitVec 4) (j : Nat) : Prop :=
  let p := c.copy h.toNat
  c.eng.landed = [] ∧ c.eng.copies = [(h.toNat, p)] ∧ (c.handle h.toNat).state = 1 ∧ p.suspended = false ∧ p.stop = false ∧
    p.sp24 = false ∧ p.perSampleAcc = 1 ∧ p.lead = j ∧ p.done = [] ∧ p.issued < p.total ∧ j + 1 < p.total ∧
    (c.sg p.sig).present = true ∧ (c.sg p.sig).fillMark + 1 = p.sampleAt j ∧ 0 < (c.sg p.sig).slots ∧
    p.sampleAt j < (c.sg p.sig).head.toNat + 2 ^ 16

theorem fillsNext_iff : FillsNext s k h j ↔ Fills (s.ctx k) h j := Iff.rfl

/-- A FILL within the reach of its field. -/
theorem fillMark_setFill {g : Sig} (hi : g.fillMark + 1 = i) (hr : i < g.head.toNat + 2 ^ 16) : (g.setFill i).fillMark = i := by
  have hlow : -(2 ^ 16 : Int) ≤ g.fill.toInt := BitVec.le_toInt g.fill
  have hfill : i - g.head.toNat = g.fill.toInt + 1 := by rw [← hi, Sig.fillMark]; omega
  have hset : (g.setFill i).fillMark = g.head.toNat + (BitVec.ofInt 17 (i - g.head.toNat)).toInt := rfl
  rw [hset, BitVec.toInt_ofInt_eq_self (by decide) (by omega) (by omega)]
  omega

section
variable {q : Copy} {a : Nat} (hl : c.eng.landed = []) (hc : c.eng.copies = [(a, q)]) (hacc : q.perSampleAcc = 1)
  (hlead : q.lead = j + 1) (hdone : q.done = [])
include hl hc hacc hlead hdone

omit hdone in
/-- The sample of the last complete access is complete. -/
theorem sampleDone_last (hop : isLoadOp q.op = true) (hst : (c.handle a).state = 1) (ht : j < q.samples) :
    sampleDone c q.sig (q.first + j) = true := by
  have hlow : q.first ≤ q.first + (j : Int) := by omega
  have hhigh : q.first + (j : Int) < q.first + q.samples := by omega
  have hat : (q.first + (j : Int) - q.first).toNat = j := by omega
  simp only [sampleDone, hl, hc, List.any_nil, List.any_cons, hop, beq_self_eq_true, Handle.busy, hst, decide_eq_true hlow,
    decide_eq_true hhigh, hacc, List.range_one, List.all_cons, List.all_nil, hat, Nat.mul_one, Nat.add_zero, hlead,
    decide_eq_true (Nat.lt_succ_self j), Bool.true_or, Bool.and_true, Bool.or_false, Bool.false_or]
  decide

/-- The sample after it is not. -/
theorem sampleDone_following : sampleDone c q.sig (q.first + j + 1) = false := by
  have hat : (q.first + (j : Int) + 1 - q.first).toNat = j + 1 := by omega
  simp only [sampleDone, hl, hc, List.any_nil, List.any_cons, hacc, List.range_one, List.all_cons, List.all_nil, hat,
    Nat.mul_one, Nat.add_zero, hlead, hdone, Nat.lt_irrefl, decide_false, List.contains_nil, Bool.or_false, Bool.and_false,
    Bool.false_and]

/-- FILL rises over one sample. -/
theorem raise_one (hop : isLoadOp q.op = true) (hst : (c.handle a).state = 1) (ht : j < q.samples)
    (hp : (c.sg q.sig).present = true) (hfill : (c.sg q.sig).fillMark + 1 = q.first + j) (hs : 0 < (c.sg q.sig).slots)
    (hr : q.first + j < (c.sg q.sig).head.toNat + 2 ^ 16) :
    (c.raise q.sig).sg q.sig = (c.sg q.sig).setFill (q.first + j) ∧ (c.raise q.sig).handle a = c.handle a ∧
      (c.raise q.sig).copy a = c.copy a := by
  obtain ⟨f, hf⟩ := Nat.exists_eq_add_of_lt hs
  rw [Nat.zero_add] at hf
  let c' := c.setSg q.sig ((c.sg q.sig).setFill (q.first + j))
  have hsg : c'.sg q.sig = (c.sg q.sig).setFill (q.first + j) := setSg_sg_present hp
  have hstop : ∀ f, raiseFill q.sig f c' = c'
    | 0 => rfl
    | f + 1 => by
      have hno : sampleDone c' q.sig ((c'.sg q.sig).fillMark + 1) = false := by
        rw [hsg, fillMark_setFill hfill hr]
        exact sampleDone_following (c := c') hl hc hacc hlead hdone
      rw [raiseFill]
      exact if_neg (by rw [hno]; exact Bool.false_ne_true)
  have hraise : raiseFill q.sig (c.sg q.sig).slots c = c' := by
    rw [hf, raiseFill, hfill]
    exact (if_pos (sampleDone_last hl hc hacc hlead hop hst ht)).trans (hstop f)
  have hres : ∃ l, c.raise q.sig = { c' with eng.landed := l } := by
    unfold Ctx.raise
    rw [hraise]
    exact ⟨_, rfl⟩
  obtain ⟨l, hl'⟩ := hres
  rw [hl']
  exact ⟨hsg, rfl, rfl⟩

end

/-! The count of a complete access (R216, R223). -/

/-- A command that has more to come, and is not cancelled, goes on. -/
theorem tryFinish_goesOn {st m i : Nat} (hstop : ((s.memberCtx st m).copy i).stop = false)
    (hmore : ((s.memberCtx st m).copy i).issued ≠ ((s.memberCtx st m).copy i).total)
    (hst : ((s.memberCtx st m).handle i).state ≠ 4) : tryFinish st m i s = s := by
  refine if_neg ?_
  have hperf : ((s.memberCtx st m).copy i).performed = false := by
    rw [Copy.performed, hstop, beq_eq_false_iff_ne.mpr hmore]
    rfl
  rw [hperf, beq_eq_false_iff_ne.mpr hst]
  simp

theorem memberCtx_here {st m : Nat} (hm : memberSeat s st m = some k) : s.memberCtx st m = s.ctx k := by
  simp only [State.memberCtx, hm]

/-- A seat that stands where its member is, is the seat of that member. -/
theorem memberSeat_updCtx {f : Ctx → Ctx} (hb : (s.seat k).phase ≠ .idle)
    (hm : memberSeat s (s.stepKey k) (s.memberNo k) = some k) :
    memberSeat (s.updCtx k f) ((s.updCtx k f).stepKey k) ((s.updCtx k f).memberNo k) = some k := by
  have hkey : (s.updCtx k f).stepKey k = s.stepKey k ∧ (s.updCtx k f).memberNo k = s.memberNo k := by
    rw [State.stepKey, State.memberNo, State.seat_updCtx_same hb]
    exact ⟨rfl, rfl⟩
  rw [hkey.1, hkey.2]
  exact hm

/-- The complete accesses of a command beside c from n on. -/
def Copy.doneWith (p : Copy) (n c : Nat) : List Nat := p.done ++ (List.range c).map (n + ·)

/-- The complete accesses from the start, with c from n on. -/
def Copy.leadWith (p : Copy) (n c : Nat) : Nat := leadOf (p.doneWith n c) (p.doneWith n c).length p.lead

/-- The command once c accesses from n on are counted. -/
def Copy.counted (n c : Nat) (p : Copy) : Copy :=
  { p with
    flying := p.flying - c
    lead := p.leadWith n c
    done := (p.doneWith n c).filter fun x => x ≥ p.leadWith n c }

/-- Its handle. -/
def Handle.counted (p : Copy) (n c : Nat) (bad : Bool) (x : Handle) : Handle :=
  { x with
    progress := BitVec.ofNat 32 (p.elemAt (p.leadWith n c))
    poison := x.poison || bad
    state := if p.suspended && p.flying ≤ c && x.state == 1 then 2 else x.state }

/-- The context before FILL rises. -/
def completedCtx (h : BitVec 4) (n c : Nat) (bad : Bool) (x : Ctx) : Ctx :=
  (x.updCopy h.toNat (·.counted n c)).updHandle h.toNat (·.counted (x.copy h.toNat) n c bad)

/-- The context once c accesses from n on are counted. -/
def countedCtx (h : BitVec 4) (n c : Nat) (bad : Bool) (x : Ctx) : Ctx :=
  if isLoadOp (x.copy h.toNat).op then (completedCtx h n c bad x).raise (x.copy h.toNat).sig else completedCtx h n c bad x

theorem countAccess_eq {c : Nat} : countAccess k h n c bad s =
    tryFinish ((s.updCtx k (countedCtx h n c bad)).stepKey k) ((s.updCtx k (countedCtx h n c bad)).memberNo k) h.toNat
      (s.updCtx k (countedCtx h n c bad)) := rfl

/-- Access j completes where all before it are complete. -/
theorem leadWith_next (hlead : p.lead = j) (hdone : p.done = []) : p.leadWith j 1 = j + 1 ∧ (p.counted j 1).done = [] := by
  have hwith : p.doneWith j 1 = [j] := by simp [Copy.doneWith, hdone]
  have hl : p.leadWith j 1 = j + 1 := by simp [Copy.leadWith, hwith, hlead, leadOf]
  exact ⟨hl, by simp [Copy.counted, hwith, hl]⟩

/-- What the count of the next access leaves of a context. -/
theorem countedCtx_filled (hop : isLoadOp (c.copy h.toNat).op = true) (hf : Fills c h j) :
    let t := countedCtx h j 1 bad c
    let p := c.copy h.toNat
    t.sg p.sig = (c.sg p.sig).setFill (p.sampleAt j) ∧ t.handle h.toNat = (c.handle h.toNat).counted p j 1 bad ∧
      t.copy h.toNat = p.counted j 1 := by
  obtain ⟨hland, hcopies, hst, hsus, -, -, hacc, hlead, hdone, -, hmore, hpres, hfill, hslots, hreach⟩ := hf
  intro t p
  have ht : t = (completedCtx h j 1 bad c).raise p.sig := if_pos hop
  obtain ⟨hl, hd⟩ := leadWith_next hlead hdone
  have hat : p.sampleAt j = p.first + j := by rw [Copy.sampleAt, hacc]; simp
  have htotal : p.total = p.samples := by rw [Copy.total, hacc, Nat.mul_one]
  have hq : p.counted j 1 ≠ {} := fun he => by
    have hzero : p.leadWith j 1 = 0 := congrArg Copy.lead he
    rw [hl] at hzero
    exact Nat.succ_ne_zero _ hzero
  have hstate : ((c.handle h.toNat).counted p j 1 bad).state = 1 := by
    show (if p.suspended && p.flying ≤ 1 && (c.handle h.toNat).state == 1 then 2 else (c.handle h.toNat).state) = (1 : BitVec 4)
    rw [hsus, hst]
    rfl
  have hx : (c.handle h.toNat).counted p j 1 bad ≠ {} := fun he => by
    rw [he] at hstate
    exact absurd hstate (by decide)
  have hcopy : (completedCtx h j 1 bad c).copy h.toNat = p.counted j 1 :=
    copy_updCopy (x := c) (f := fun p => p.counted j 1) hq
  have hhandle : (completedCtx h j 1 bad c).handle h.toNat = (c.handle h.toNat).counted p j 1 bad :=
    handle_updHandle (x := c.updCopy h.toNat fun p => p.counted j 1) (f := fun x => x.counted p j 1 bad) hx
  have hlist : (completedCtx h j 1 bad c).eng.copies = [(h.toNat, p.counted j 1)] := by
    show Sparse.set {} c.eng.copies h.toNat (p.counted j 1) = _
    rw [hcopies, Sparse.set, if_neg (Nat.lt_irrefl _), if_pos rfl, if_neg hq]
  obtain ⟨hsg, hh, hc⟩ := raise_one (c := completedCtx h j 1 bad c) (q := p.counted j 1) hland hlist hacc hl hd hop
    ((congrArg Handle.state hhandle).trans hstate) (htotal ▸ Nat.lt_of_succ_lt hmore) hpres (hfill.trans hat) hslots
    (hat ▸ hreach)
  rw [ht]
  exact ⟨hat ▸ hsg, hh.trans hhandle, hc.trans hcopy⟩

/-- One access completes: FILL and PROGRESS rise by one, and the command goes on. -/
theorem countAccess_fills (hb : (s.seat k).phase ≠ .idle) (hm : memberSeat s (s.stepKey k) (s.memberNo k) = some k)
    (hop : isLoadOp ((s.ctx k).copy h.toNat).op = true) (hf : Fills (s.ctx k) h j) :
    let t := countAccess k h j 1 bad s
    let p := (s.ctx k).copy h.toNat
    (t.ctx k).sg p.sig = ((s.ctx k).sg p.sig).setFill (p.sampleAt j) ∧
      ((t.ctx k).handle h.toNat).progress = BitVec.ofNat 32 (j + 1) := by
  obtain ⟨hsg, hhandle, hcopy⟩ := countedCtx_filled (bad := bad) hop hf
  obtain ⟨-, -, hst, hsus, hstop, hsp, -, hlead, hdone, hiss, -⟩ := hf
  have hctx : (s.updCtx k (countedCtx h j 1 bad)).ctx k = countedCtx h j 1 bad (s.ctx k) := State.ctx_updCtx_same hb
  have hmember := memberCtx_here (memberSeat_updCtx (f := countedCtx h j 1 bad) hb hm)
  have ht : countAccess k h j 1 bad s = s.updCtx k (countedCtx h j 1 bad) := by
    rw [countAccess_eq]
    refine tryFinish_goesOn ?_ ?_ ?_
    · rw [hmember, hctx, hcopy]
      exact hstop
    · rw [hmember, hctx, hcopy]
      exact Nat.ne_of_lt hiss
    · rw [hmember, hctx, hhandle, Handle.counted, hsus, hst]
      show (1 : BitVec 4) ≠ 4
      decide
  intro t p
  rw [show t = _ from ht, hctx, hhandle]
  refine ⟨hsg, ?_⟩
  show BitVec.ofNat 32 (p.elemAt (p.leadWith j 1)) = _
  rw [(leadWith_next hlead hdone).1, Copy.elemAt, hsp]
  rfl

/-! The last access of a store (R216). -/

/-- A store of which the c accesses in flight are the last, from the first that is not complete. -/
structure Ends (x : Ctx) (h : BitVec 4) (c : Nat) : Prop where
  op : (x.copy h.toNat).op = 1
  state : (x.handle h.toNat).state = 1
  clean : (x.handle h.toNat).poison = false
  sound : (x.copy h.toNat).failed = false
  goes : (x.copy h.toNat).stop = false
  awake : (x.copy h.toNat).suspended = false
  noStack : (x.copy h.toNat).ctxStack = none
  flying : (x.copy h.toNat).flying = c
  issued : (x.copy h.toNat).issued = (x.copy h.toNat).total

/-- A store that is performed ends complete. -/
theorem finishCopy_store {x : Ctx} {i : Nat} {stuck : Bool} (hop : (x.copy i).op = 1) (hstop : (x.copy i).stop = false)
    (hfail : (x.copy i).failed = false) (hst : (x.handle i).state = 1) (hpoison : (x.handle i).poison = false) :
    (x.finishCopy stuck i).handle i = { x.handle i with progress := (x.handle i).total, state := 5 } ∧
      (x.finishCopy stuck i).sig = x.sig := by
  have hload : ¬(isLoadOp (x.copy i).op && (x.copy i).samples != 0) = true := by
    rw [hop]
    exact Bool.false_ne_true
  have hend : x.finishCopy stuck i = (x.dropCopy i).updHandle i fun y =>
      { y with progress := y.total, state := if y.poison || (x.copy i).failed then 6 else 5 } := by
    simp only [Ctx.finishCopy, hst, hstop, Ctx.landSamples, if_neg hload, Bool.false_eq_true, if_false]
    rfl
  rw [hend]
  refine ⟨(handle_updHandle (x := x.dropCopy i) fun hd => ?_).trans ?_, rfl⟩
  · have hzero : (if (x.handle i).poison || (x.copy i).failed then (6 : BitVec 4) else 5) = 0 := congrArg Handle.state hd
    rw [hpoison, hfail] at hzero
    exact absurd hzero (by decide)
  · show { x.handle i with
      progress := (x.handle i).total, state := if (x.handle i).poison || (x.copy i).failed then 6 else 5 } = _
    rw [hpoison, hfail]
    rfl

/-- The context of the seat of a store that is performed and holds no context of a stack. -/
theorem tryFinish_store {st m i : Nat} (hb : (s.seat k).phase ≠ .idle) (hm : memberSeat s st m = some k)
    (hop : ((s.ctx k).copy i).op = 1) (hperf : ((s.ctx k).copy i).performed = true)
    (hstack : ((s.ctx k).copy i).ctxStack = none) (hst : ((s.ctx k).handle i).state = 1) :
    (tryFinish st m i s).ctx k = (s.ctx k).finishCopy (memberStuck s st m) i := by
  have hgo : (((s.ctx k).handle i).busy && isCopyOp ((s.ctx k).copy i).op && ((s.ctx k).copy i).op != 6 &&
      (((s.ctx k).copy i).performed || (((s.ctx k).handle i).state == 4 && ((s.ctx k).copy i).flying == 0)) &&
      !(((s.ctx k).copy i).op == 3 && !((s.ctx k).copy i).stop && ((s.ctx k).handle i).state != 4 &&
        !visibleAt s (st / 16384) (s.ctx k) ((s.ctx k).copy i).scope)) = true := by
    rw [hop, hperf, Handle.busy, hst]
    rfl
  have hspoil : spoilLoad st m i s = s := by
    simp only [spoilLoad, hm, memberCtx_here hm, hst]
    rfl
  have hfree : ∀ u, freeStackCtx ((s.ctx k).copy i) u = u := fun u => by simp only [freeStackCtx, hstack]
  simp only [tryFinish, memberCtx_here hm, hgo, if_true, hspoil, hfree]
  rw [State.ctx, updMemberCtx_here hb hm]

section
variable {x : Ctx} {m : Nat} (he : Ends x h m)
include he

/-- What the count of its last accesses leaves of the context of a store. -/
theorem countedCtx_ends :
    let t := countedCtx h j m false x
    t.handle h.toNat = (x.handle h.toNat).counted (x.copy h.toNat) j m false ∧
      ((x.handle h.toNat).counted (x.copy h.toNat) j m false).state = 1 ∧ t.sig = x.sig ∧
      t.copy h.toNat = (x.copy h.toNat).counted j m := by
  intro t
  have ht : t = completedCtx h j m false x := if_neg (by rw [he.op]; decide)
  have hstate : ((x.handle h.toNat).counted (x.copy h.toNat) j m false).state = 1 := by
    rw [Handle.counted, he.awake, he.state]
    rfl
  have hx : (x.handle h.toNat).counted (x.copy h.toNat) j m false ≠ {} := fun hd => by
    rw [hd] at hstate
    exact absurd hstate (by decide)
  have hq : (x.copy h.toNat).counted j m ≠ {} := fun hd => by
    have hzero : (x.copy h.toNat).op = 0 := congrArg Copy.op hd
    rw [he.op] at hzero
    exact absurd hzero (by decide)
  rw [ht]
  exact ⟨handle_updHandle (x := x.updCopy h.toNat (·.counted j m))
      (f := fun y => y.counted (x.copy h.toNat) j m false) hx, hstate, rfl,
    copy_updCopy (x := x) (f := fun p => p.counted j m) hq⟩

/-- The last accesses of a store end it: complete, with PROGRESS at its total. -/
theorem countAccess_ends (hb : (s.seat k).phase ≠ .idle) (hm : memberSeat s (s.stepKey k) (s.memberNo k) = some k)
    (hx : s.ctx k = x) :
    let t := countAccess k h j m false s
    (t.ctx k).handle h.toNat = { x.handle h.toNat with state := 5, progress := (x.handle h.toNat).total } ∧
      (t.ctx k).sig = x.sig := by
  subst hx
  obtain ⟨hhandle, hstate, hsig, hcopy⟩ := countedCtx_ends (j := j) he
  have hctx : (s.updCtx k (countedCtx h j m false)).ctx k = countedCtx h j m false (s.ctx k) := State.ctx_updCtx_same hb
  have hseat := memberSeat_updCtx (f := countedCtx h j m false) hb hm
  have hbusy : ((s.updCtx k (countedCtx h j m false)).seat k).phase ≠ .idle := by
    rw [State.seat_updCtx_same hb]
    exact hb
  rw [countAccess_eq]
  generalize s.updCtx k (countedCtx h j m false) = u at hctx hseat hbusy
  have hmember := memberCtx_here hseat
  generalize countedCtx h j m false (s.ctx k) = y at hhandle hsig hcopy hctx
  have hperf : (y.copy h.toNat).performed = true := by
    rw [hcopy, Copy.performed]
    show (((s.ctx k).copy h.toNat).stop || ((s.ctx k).copy h.toNat).issued == ((s.ctx k).copy h.toNat).total) &&
      ((s.ctx k).copy h.toNat).flying - m == 0
    rw [he.issued, he.flying, Nat.sub_self, beq_self_eq_true, Bool.or_true]
    rfl
  have hpoison : (y.handle h.toNat).poison = false := by
    rw [hhandle, Handle.counted, he.clean]
    rfl
  have hcopyop : (y.copy h.toNat).op = 1 := hcopy ▸ he.op
  have hst : (y.handle h.toNat).state = 1 := hhandle ▸ hstate
  obtain ⟨hend, hendsig⟩ := finishCopy_store (stuck := memberStuck u (u.stepKey k) (u.memberNo k)) hcopyop
    (hcopy ▸ he.goes) (hcopy ▸ he.sound) hst hpoison
  have hfin := tryFinish_store (i := h.toNat) hbusy hseat (hctx ▸ hcopyop) (hctx ▸ hperf) (hctx ▸ hcopy ▸ he.noStack)
    (hctx ▸ hst)
  intro t
  rw [show t.ctx k = _ from hfin, hctx]
  refine ⟨hend.trans ?_, hendsig.trans hsig⟩
  rw [hhandle]
  simp only [Handle.counted, Bool.or_false]

end

end Sys2Proof.Machine
end

section
/-! The copy engine, loaders and storers (R220, R223 to R226, R234, R235). -/
namespace Sys2Proof.Machine
set_option Elab.async false
open Sys2Proof
variable {s u v w : State} {k n j pa z : Nat} {h : BitVec 4} {bad unc : Bool} {p : Copy} {t : Target} {bs : List Byte}

/-! Runs of accesses that go as one (R374). -/

/-- The first c accesses from n on lie side by side. -/
def SideBySide (p : Copy) (n c : Nat) : Prop :=
  ∀ j < c, (p.accAddr (n + j)).toNat = (p.accAddr n).toNat + j * p.memFormat.size

theorem sideBySide_one : SideBySide p n 1 := fun j hj => by
  obtain rfl : j = 0 := by omega
  simp

theorem sideBySide_join {c : Nat} (h : SideBySide p n c) (hj : p.joins n c = true) : SideBySide p n (c + 1) := fun j hlt => by
  by_cases hc : j = c
  · subst hc
    simp only [Copy.joins, Bool.and_eq_true, beq_iff_eq] at hj
    exact hj.1.2
  · exact h j (by omega)

theorem pieceLength_runs : ∀ (f c : Nat), SideBySide p n c → 1 ≤ c →
    SideBySide p n (pieceLength p n f c) ∧ 1 ≤ pieceLength p n f c
  | 0, _, h, hc => ⟨h, hc⟩
  | f + 1, c, h, hc => by
    rw [pieceLength]
    split
    · next hj =>
      rw [Bool.and_eq_true] at hj
      exact pieceLength_runs f (c + 1) (sideBySide_join h hj.2) (by omega)
    · exact ⟨h, hc⟩

theorem runLength_runs : ∀ (f c : Nat), SideBySide p n c → 1 ≤ c →
    SideBySide p n (runLength s k p n f c) ∧ 1 ≤ runLength s k p n f c
  | 0, _, h, hc => ⟨h, hc⟩
  | f + 1, c, h, hc => by
    rw [runLength]
    split
    · next hj =>
      simp only [Bool.and_eq_true] at hj
      exact runLength_runs f (c + 1) (sideBySide_join h hj.1.1.2) (by omega)
    · exact ⟨h, hc⟩

section
variable (hready : sampleReady s k p n = true) (hmay : mayAccess s k p n = true)
include hready hmay

theorem runNow_load (hop : p.op = 0) : runNow s k p n = runLength s k p n 15 1 := by
  rw [runNow, hready, hmay, hop]
  rfl

theorem runNow_store (hop : p.op = 1) (hpiece : pieceReady s k p n = true)
    (hall : ∀ j < pieceLength p n 15 1, mayAccess s k p (n + j) = true) : runNow s k p n = pieceLength p n 15 1 := by
  have hrange : ((List.range (pieceLength p n 15 1)).all fun j => mayAccess s k p (n + j)) = true :=
    List.all_eq_true.mpr fun j hj => hall j (List.mem_range.mp hj)
  simp only [runNow, hready, hmay, hop, hpiece, hrange]
  rfl

theorem runNow_hold (hop : p.op = 1) (hpiece : pieceReady s k p n = false) : runNow s k p n = 1 := by
  simp only [runNow, hready, hmay, hop, hpiece]
  rfl

end

/-! Issue. -/

/-- The command of handle h may issue access n. -/
structure Issues (s : State) (k : Nat) (h : BitVec 4) (n : Nat) : Prop where
  engine : engineOn (s.seat k).phase = true
  state : ((s.ctx k).handle h.toNat).state = 1
  op : ((s.ctx k).copy h.toNat).op ∈ ([0, 1] : List (BitVec 8))
  goes : ((s.ctx k).copy h.toNat).stop = false
  awake : ((s.ctx k).copy h.toNat).suspended = false
  next : n = ((s.ctx k).copy h.toNat).issued
  more : n < ((s.ctx k).copy h.toNat).total
  fences : (s.ctx k).eng.fences = []
  here : memberSeat s (s.stepKey k) (s.memberNo k) = some k

theorem engineOn_busy {x : Phase} (h : engineOn x = true) : x ≠ .idle := fun he => by
  rw [he] at h
  cases h

theorem pruneFences_none {st m : Nat} (h : (s.memberCtx st m).eng.fences = []) : pruneFences st m s = s := by
  simp only [pruneFences, h, List.isEmpty_nil, if_true]

section
variable (hi : Issues s k h n) (hx : copyXlate k h ((s.ctx k).copy h.toNat) (((s.ctx k).copy h.toNat).accAddr n) s =
  (some (t, unc), s))
include hi

/-- What is issued on the seat goes on where its fences are none. -/
theorem copyElementIssue_eq (hu : issueNext k h s = u) (hsteps : u.steps = s.steps)
    (hf : (u.ctx k).eng.fences = []) : copyElementIssue k h s = u := by
  have hseat : memberSeat u (s.stepKey k) (s.memberNo k) = some k := by
    rw [memberSeat, State.step1, hsteps]
    exact hi.here
  rw [copyElementIssue, if_pos hi.engine, hu]
  exact pruneFences_none (by rw [memberCtx_here hseat, hf])

include hx

theorem issueNext_eq (hrun : runNow s k ((s.ctx k).copy h.toNat) n ≠ 0) : issueNext k h s =
    if isStoreOp ((s.ctx k).copy h.toNat).op && !pieceReady s k ((s.ctx k).copy h.toNat) n then holdElem k h n s
    else sendAccess k h ((s.ctx k).copy h.toNat) n (runNow s k ((s.ctx k).copy h.toNat) n) t unc s := by
  obtain ⟨-, hst, hop, hgoes, hawake, rfl, hmore, -, -⟩ := hi
  have hcopy : isCopyOp ((s.ctx k).copy h.toNat).op = true ∧ ((s.ctx k).copy h.toNat).op ≠ 6 ∧
      ((s.ctx k).copy h.toNat).op ≠ 0x0B ∧ ((s.ctx k).copy h.toNat).op ≠ 0x0C := by
    simp only [List.mem_cons, List.not_mem_nil, or_false] at hop
    rcases hop with hop | hop <;> rw [hop] <;> decide
  obtain ⟨hc, h6, hb, hcc⟩ := hcopy
  simp only [issueNext, hst, hc, beq_eq_false_iff_ne.mpr h6, beq_eq_false_iff_ne.mpr hb, beq_eq_false_iff_ne.mpr hcc, hgoes,
    hawake, decide_eq_false (Nat.not_le.mpr hmore), decide_eq_false hrun, hx, bne_self_eq_false, Bool.not_true,
    Bool.or_false, Bool.false_eq_true, if_false]

/-- A store whose piece cannot be read yet holds the element. -/
theorem copyElementIssue_holds (hop : ((s.ctx k).copy h.toNat).op = 1)
    (hready : sampleReady s k ((s.ctx k).copy h.toNat) n = true) (hmay : mayAccess s k ((s.ctx k).copy h.toNat) n = true)
    (hpiece : pieceReady s k ((s.ctx k).copy h.toNat) n = false) : copyElementIssue k h s = holdElem k h n s := by
  have hS : Storing k h s := ⟨engineOn_busy hi.engine, by rw [hop]; decide⟩
  have hkeep := fetches_keepElem (n := n) hS
  have hctx : (holdElem k h n s).ctx k = ((keepElem k h s n).ctx k).updCopy h.toNat fun q => { q with issued := n + 1 } :=
    State.ctx_updCtx_same (hkeep.storing hS).busy
  refine copyElementIssue_eq hi ?_ ?_ ?_
  · rw [issueNext_eq hi hx (by rw [runNow_hold hready hmay hop hpiece]; decide), hop, hpiece]
    rfl
  · exact hkeep.steps
  · obtain ⟨cs, hc⟩ := hkeep.ctx
    rw [hctx, hc]
    exact hi.fences

end

/-- An access to memory that no line of the die serves waits at its port. -/
theorem putAccess_dram {a : Access} (ht : a.target = .dram pa) (hp : (s.die (dieOf a.seat)).pcache = []) :
    putAccess p a s =
      { s with accs := s.accs ++ [{ a with phase := if a.write && a.nt then .combined else .waiting }] } := by
  have hline : heldLine s (dieOf a.seat) (pa / 64) .look = none := by
    simp only [heldLine, hp, List.find?_nil, Option.map_none]
    rfl
  simp only [putAccess, ht, hline]
  split
  · next hm =>
    split at hm <;> cases hm
  · rfl

/-- The context of a seat whose command has issued c accesses up to n. -/
def issuedCtx (h : BitVec 4) (n c : Nat) (bad : Bool) (x : Ctx) : Ctx :=
  let c1 := x.updCopy h.toNat fun q => { q with issued := n + c, flying := q.flying + c }
  if bad then c1.updHandle h.toNat fun x => { x with poison := true } else c1

theorem issuedCtx_eq {c : Nat} {x : Ctx} (hc : 1 ≤ c) :
    (issuedCtx h n c bad x).copy h.toNat = { x.copy h.toNat with issued := n + c, flying := (x.copy h.toNat).flying + c } ∧
      (issuedCtx h n c bad x).regs = x.regs ∧ (issuedCtx h n c bad x).eng.fences = x.eng.fences := by
  have hcopy := copy_updCopy (x := x) (i := h.toNat) (f := fun q => { q with issued := n + c, flying := q.flying + c })
    fun he => by
      have hzero : n + c = 0 := congrArg Copy.issued he
      omega
  unfold issuedCtx
  cases bad
  · exact ⟨hcopy, rfl, rfl⟩
  · exact ⟨hcopy, rfl, rfl⟩

/-- What an issue of c accesses from n on to memory leaves. -/
structure Sent (s : State) (k : Nat) (h : BitVec 4) (n c pa : Nat) (wr : Bool) (t : State) (a : Access) : Prop where
  accs : t.accs = s.accs ++ [a]
  seat : a.seat = k
  handle : a.h = h
  elem : a.elem = n
  write : a.write = wr
  target : a.target = .dram pa
  count : a.count = c
  size : a.size = c * ((s.ctx k).copy h.toNat).accSize n
  issued : ((t.ctx k).copy h.toNat).issued = n + c
  flying : ((t.ctx k).copy h.toNat).flying = ((s.ctx k).copy h.toNat).flying + c
  regs : (t.ctx k).regs = (s.ctx k).regs
  fences : (t.ctx k).eng.fences = (s.ctx k).eng.fences
  steps : t.steps = s.steps
  mem : t.mem = s.mem

/-- A store then takes the data of the rest of its piece. -/
theorem Sent.keepRest {c : Nat} {wr : Bool} {a : Access} (hs : Sent s k h n c pa wr u a) (hS : Storing k h u) :
    Sent s k h n c pa wr (keepRest k h p n c u) a := by
  have hk := fetches_keepRest (p := p) (n := n) (c := c) hS
  obtain ⟨_, hctx⟩ := hk.ctx
  obtain ⟨_, _, hcopy⟩ := hk.copy
  exact { hs with
    accs := hk.inside.accs.trans hs.accs
    issued := (congrArg Copy.issued hcopy).trans hs.issued
    flying := (congrArg Copy.flying hcopy).trans hs.flying
    regs := hk.regs.trans hs.regs
    fences := (congrArg (fun x : Ctx => x.eng.fences) hctx).trans hs.fences
    steps := hk.steps.trans hs.steps
    mem := hk.inside.mem.trans hs.mem }

theorem Storing.withAccs {l : List Access} (hS : Storing k h s) : Storing k h { s with accs := l } := ⟨hS.busy, hS.op⟩

section
variable {c : Nat} (hc : 1 ≤ c) (hb : (s.seat k).phase ≠ .idle) (hp : (s.die (dieOf k)).pcache = [])
include hc hb hp

theorem sendAccess_load (hop : ((s.ctx k).copy h.toNat).op = 0) :
    ∃ a, Sent s k h n c pa false (sendAccess k h ((s.ctx k).copy h.toNat) n c (.dram pa) unc s) a := by
  have hstore : isStoreOp ((s.ctx k).copy h.toNat).op = false := by
    rw [hop]
    decide
  have hctx := State.ctx_updCtx_same (f := issuedCtx h n c false) hb
  obtain ⟨hcopy, hregs, hfences⟩ := issuedCtx_eq (h := h) (n := n) (bad := false) (x := s.ctx k) hc
  simp only [sendAccess, hstore, Bool.false_eq_true, if_false]
  rw [putAccess_dram rfl hp]
  refine ⟨_, rfl, rfl, rfl, rfl, rfl, rfl, rfl, rfl, ?_, ?_, ?_, ?_, rfl, rfl⟩
  · exact (congrArg (fun x : Ctx => (x.copy h.toNat).issued) hctx).trans (congrArg Copy.issued hcopy)
  · exact (congrArg (fun x : Ctx => (x.copy h.toNat).flying) hctx).trans (congrArg Copy.flying hcopy)
  · exact (congrArg Ctx.regs hctx).trans hregs
  · exact (congrArg (fun x : Ctx => x.eng.fences) hctx).trans hfences

theorem sendAccess_store (hop : ((s.ctx k).copy h.toNat).op = 1) (hkept : ((s.ctx k).copy h.toNat).kept = []) :
    ∃ a, Sent s k h n c pa true (sendAccess k h ((s.ctx k).copy h.toNat) n c (.dram pa) unc s) a := by
  have hstore : isStoreOp ((s.ctx k).copy h.toNat).op = true := by
    rw [hop]
    decide
  have hS : Storing k h s := ⟨hb, by rw [hop]; decide⟩
  have hbefore : ((s.ctx k).copy h.toNat).keptBefore n = [] := by rw [Copy.keptBefore, hkept, List.filter_nil]
  have htake := fetches_takeElems c n hS
  simp only [sendAccess, hstore, if_true, hbefore, List.foldl_nil]
  generalize takeElems k h c n s = x at htake ⊢
  obtain ⟨data, bad, s0⟩ := x
  dsimp only at htake ⊢
  have hS0 := htake.storing hS
  have hctx := State.ctx_updCtx_same (f := issuedCtx h n c bad) hS0.busy
  obtain ⟨hcopy, hregs, hfences⟩ := issuedCtx_eq (h := h) (n := n) (bad := bad) (x := s0.ctx k) hc
  have hpcache : ((s0.updCtx k (issuedCtx h n c bad)).die (dieOf k)).pcache = [] := by
    show (s0.die (dieOf k)).pcache = []
    rw [State.die, htake.inside.dies]
    exact hp
  obtain ⟨cs, hcs⟩ := htake.ctx
  obtain ⟨sn, kp, hc0⟩ := htake.copy
  have hS1 : Storing k h (s0.updCtx k (issuedCtx h n c bad)) := by
    refine ⟨?_, ?_⟩
    · rw [State.seat_updCtx_same hS0.busy]
      exact hS0.busy
    · rw [hctx, hcopy]
      exact hS0.op
  have hissued : (((s0.updCtx k (issuedCtx h n c bad)).ctx k).copy h.toNat).issued = n + c := by rw [hctx, hcopy]
  have hflying : (((s0.updCtx k (issuedCtx h n c bad)).ctx k).copy h.toNat).flying =
      ((s.ctx k).copy h.toNat).flying + c := by
    rw [hctx, hcopy, hc0]
  have hkeepregs : ((s0.updCtx k (issuedCtx h n c bad)).ctx k).regs = (s.ctx k).regs := by rw [hctx, hregs, hcs]
  have hkeepfences : ((s0.updCtx k (issuedCtx h n c bad)).ctx k).eng.fences = (s.ctx k).eng.fences := by
    rw [hctx, hfences, hcs]
  rw [putAccess_dram rfl hpcache]
  exact ⟨_, Sent.keepRest ⟨congrArg (· ++ [_]) htake.inside.accs, rfl, rfl, rfl, rfl, rfl, rfl, rfl, hissued, hflying, hkeepregs,
    hkeepfences, htake.steps, htake.inside.mem⟩ hS1.withAccs⟩

end

/-- The next accesses of a copy to or from memory are issued as one. -/
theorem copyElementIssue_sends (hi : Issues s k h n)
    (hready : sampleReady s k ((s.ctx k).copy h.toNat) n = true) (hmay : mayAccess s k ((s.ctx k).copy h.toNat) n = true)
    (hkept : ((s.ctx k).copy h.toNat).kept = [])
    (hpiece : ((s.ctx k).copy h.toNat).op = 1 → pieceReady s k ((s.ctx k).copy h.toNat) n = true ∧
      ∀ j < pieceLength ((s.ctx k).copy h.toNat) n 15 1, mayAccess s k ((s.ctx k).copy h.toNat) (n + j) = true)
    (hp : (s.die (dieOf k)).pcache = [])
    (hx : copyXlate k h ((s.ctx k).copy h.toNat) (((s.ctx k).copy h.toNat).accAddr n) s = (some (.dram pa, unc), s)) :
    let p := (s.ctx k).copy h.toNat
    let c := if p.op = 1 then pieceLength p n 15 1 else runLength s k p n 15 1
    SideBySide p n c ∧ ∃ a, Sent s k h n c pa (p.op == 1) (copyElementIssue k h s) a := by
  intro p c
  have hb := engineOn_busy hi.engine
  by_cases hop : p.op = 1
  · obtain ⟨hready1, hall⟩ := hpiece hop
    obtain ⟨hside, hpos⟩ := pieceLength_runs (p := p) (n := n) 15 1 sideBySide_one (le_refl 1)
    have hc : c = pieceLength p n 15 1 := if_pos hop
    obtain ⟨a, ha⟩ := sendAccess_store (pa := pa) (unc := unc) hpos hb hp hop hkept
    have hrun := runNow_store hready hmay hop hready1 hall
    have hissue : copyElementIssue k h s = sendAccess k h p n (pieceLength p n 15 1) (.dram pa) unc s := by
      refine copyElementIssue_eq hi ?_ ha.steps (ha.fences.trans hi.fences)
      rw [issueNext_eq hi hx (by rw [hrun]; exact Nat.ne_of_gt hpos), hready1, hrun]
      exact if_neg (by rw [Bool.not_true, Bool.and_false]; exact Bool.false_ne_true)
    rw [hc, hissue, hop]
    exact ⟨hside, a, ha⟩
  · have hop0 : p.op = 0 := by
      have := hi.op
      simp only [List.mem_cons, List.not_mem_nil, or_false] at this
      exact this.resolve_right hop
    obtain ⟨hside, hpos⟩ := runLength_runs (s := s) (k := k) (p := p) (n := n) 15 1 sideBySide_one (le_refl 1)
    have hc : c = runLength s k p n 15 1 := if_neg hop
    obtain ⟨a, ha⟩ := sendAccess_load (pa := pa) (unc := unc) hpos hb hp hop0
    have hrun := runNow_load hready hmay hop0
    have hissue : copyElementIssue k h s = sendAccess k h p n (runLength s k p n 15 1) (.dram pa) unc s := by
      refine copyElementIssue_eq hi ?_ ha.steps (ha.fences.trans hi.fences)
      rw [issueNext_eq hi hx (by rw [hrun]; exact Nat.ne_of_gt hpos), hrun]
      exact if_neg (by
        show ¬(isStoreOp p.op && _) = true
        rw [hop0]
        exact Bool.false_ne_true)
    rw [hc, hissue, hop0]
    exact ⟨hside, a, ha⟩

/-! Scatter-accumulate (R235, R236). -/

/-- u follows from s as SCACC accumulates: of the seat's handle h only the poison may rise. -/
structure Accumulates (k : Nat) (h : BitVec 4) (u s : State) : Prop where
  mem : u.mem = s.mem
  phase : (u.seat k).phase = (s.seat k).phase
  regs : (u.ctx k).regs = (s.ctx k).regs
  handle : ∃ b, (u.ctx k).handle h.toNat = { (s.ctx k).handle h.toNat with poison := b } ∧
    (((s.ctx k).handle h.toNat).poison = true → b = true)

namespace Accumulates

theorem refl : Accumulates k h s s := ⟨rfl, rfl, rfl, ⟨_, rfl, id⟩⟩

theorem trans (h1 : Accumulates k h v u) (h2 : Accumulates k h u s) : Accumulates k h v s := by
  obtain ⟨b1, hh1, hb1⟩ := h1.handle
  obtain ⟨b2, hh2, hb2⟩ := h2.handle
  refine ⟨h1.mem.trans h2.mem, h1.phase.trans h2.phase, h1.regs.trans h2.regs, ⟨b1, ?_, fun hp => hb1 ?_⟩⟩
  · rw [hh1, hh2]
  · rw [hh2]
    exact hb2 hp

theorem of_lands (hl : Lands k u s) (hb : (s.seat k).phase ≠ .idle) : Accumulates k h u s := by
  obtain ⟨x, hx⟩ := hl.seat hb
  refine ⟨hl.inside.mem, by rw [hx], by rw [State.ctx, hx]; rfl, ⟨((s.ctx k).handle h.toNat).poison, ?_, id⟩⟩
  rw [State.ctx, hx]
  rfl

end Accumulates

/-- The seat is busy, and its handle holds a running command. -/
structure Running (k : Nat) (h : BitVec 4) (s : State) : Prop where
  busy : (s.seat k).phase ≠ .idle
  state : ((s.ctx k).handle h.toNat).state = 1

theorem Running.accumulates (hr : Running k h s) (ha : Accumulates k h u s) : Running k h u := by
  obtain ⟨b, hh, -⟩ := ha.handle
  refine ⟨by rw [ha.phase]; exact hr.busy, ?_⟩
  rw [hh]
  exact hr.state

theorem accumulates_poison (hr : Running k h s) :
    Accumulates k h (s.updCtx k fun c => c.updHandle h.toNat fun x => { x with poison := true }) s := by
  have hctx := State.ctx_updCtx_same (f := fun c => c.updHandle h.toNat fun x => { x with poison := true }) hr.busy
  refine ⟨rfl, (congrArg Seat.phase (State.seat_updCtx_same hr.busy)).trans rfl, (congrArg Ctx.regs hctx).trans rfl,
    ⟨true, ?_, fun _ => rfl⟩⟩
  rw [hctx]
  exact handle_updHandle fun he => Bool.noConfusion (congrArg Handle.poison he)

theorem accumulates_scaccIndex {sig : BitVec 7} {op : Nat} {ps : List (Int × Nat)} {x : Int} (hr : Running k h s) :
    Accumulates k h (scaccIndex k h sig op ps x s).1 s := by
  have hput : ∀ {q : Nat} {g : Sig} {a b c d : Nat}, Accumulates k h (putBytes k g a b c d (s.useUnit k q)) s :=
    .of_lands (lands_putBytes.trans lands_useUnit) hr.busy
  have hmark : ∀ {u : State} {n : BitVec 7} {g : Sig} {i : Int} {us : List Nat}, Running k h u →
      Accumulates k h ((poisonUnits k n g i us u).updCtx k fun c => c.updHandle h.toNat fun x => { x with poison := true }) u :=
    fun {u n g i us} hu => by
      have hunits : Accumulates k h (poisonUnits k n g i us u) u := .of_lands lands_poisonUnits hu.busy
      exact (accumulates_poison (hu.accumulates hunits)).trans hunits
  simp only [scaccIndex]
  split
  · exact .refl
  · split
    · exact .refl
    · split
      · exact (hmark (hr.accumulates hput)).trans hput
      · exact hput

/-- A window accumulates index by index. -/
theorem accumulates_window {sig : BitVec 7} {op : Nat} {ps : List (Int × Nat)} : ∀ (xs : List Int) (d : Nat) {s : State},
    Running k h s → Accumulates k h (xs.foldl (fun a x =>
      ((scaccIndex k h sig op ps x a.1).1, a.2 + (scaccIndex k h sig op ps x a.1).2)) (s, d)).1 s
  | [], _, _, _ => .refl
  | x :: xs, d, s, hr => by
    have hone := accumulates_scaccIndex (sig := sig) (op := op) (ps := ps) (x := x) hr
    exact (accumulates_window xs (d + (scaccIndex k h sig op ps x s).2) (hr.accumulates hone)).trans hone

/-- The context of a seat once a window of SCACC has been accumulated up to pair n; m of its pairs were dropped. -/
def windowCtx (h : BitVec 4) (n m : Nat) (last : Prop) [Decidable last] (c : Ctx) : Ctx :=
  let c1 := c.updHandle h.toNat fun x => { x with progress := BitVec.ofNat 32 n, first := x.first + BitVec.ofNat 44 m }
  if last then (c1.dropCopy h.toNat).updHandle h.toNat fun x => { x with state := if x.poison then 6 else 5 } else c1

theorem windowCtx_eq {m : Nat} {last : Prop} [Decidable last] {c : Ctx} (hst : (c.handle h.toNat).state = 1) :
    let t := windowCtx h n m last c
    t.regs = c.regs ∧ (t.handle h.toNat).progress = BitVec.ofNat 32 n ∧
      (t.handle h.toNat).state = (if last then if (t.handle h.toNat).poison then 6 else 5 else 1) ∧
      (t.handle h.toNat).poison = (c.handle h.toNat).poison := by
  let x : Handle := { c.handle h.toNat with
    progress := BitVec.ofNat 32 n, first := (c.handle h.toNat).first + BitVec.ofNat 44 m }
  let c1 := c.updHandle h.toNat fun x => { x with progress := BitVec.ofNat 32 n, first := x.first + BitVec.ofNat 44 m }
  have h1 : c1.handle h.toNat = x := handle_updHandle fun he => by
    have hzero : (c.handle h.toNat).state = 0 := congrArg Handle.state he
    rw [hst] at hzero
    exact absurd hzero (by decide)
  intro t
  by_cases hlast : last
  · have ht : t = (c1.dropCopy h.toNat).updHandle h.toNat fun x => { x with state := if x.poison then 6 else 5 } :=
      if_pos hlast
    have hdrop : (c1.dropCopy h.toNat).handle h.toNat = x := h1
    have hend : t.handle h.toNat = { x with state := if x.poison then 6 else 5 } := by
      rw [ht, handle_updHandle, hdrop]
      rw [hdrop]
      intro he
      have hzero : (if x.poison then (6 : BitVec 4) else 5) = 0 := congrArg Handle.state he
      split at hzero <;> exact absurd hzero (by decide)
    rw [hend, if_pos hlast, ht]
    exact ⟨rfl, rfl, rfl, rfl⟩
  · have ht : t = c1 := if_neg hlast
    rw [ht, h1, if_neg hlast]
    exact ⟨rfl, rfl, hst, rfl⟩

/-- A window of SCACC (R235). -/
theorem scaccWindow_takes (hon : engineOn (s.seat k).phase = true) (hop : ((s.ctx k).copy h.toNat).op = 6)
    (hst : ((s.ctx k).handle h.toNat).state = 1) (hbehind : scaccBehind (s.ctx k) ((s.ctx k).copy h.toNat) = false) :
    let p := (s.ctx k).copy h.toNat
    let hd := (s.ctx k).handle h.toNat
    let done := hd.progress.toNat + ((p.pairs.drop hd.progress.toNat).take p.window).length
    let t := scaccWindow k h s
    t.mem = s.mem ∧ (t.ctx k).regs = (s.ctx k).regs ∧ ((t.ctx k).handle h.toNat).progress = BitVec.ofNat 32 done ∧
      ((t.ctx k).handle h.toNat).state = (if p.pairs.length ≤ done then
        if ((t.ctx k).handle h.toNat).poison then 6 else 5 else 1) ∧
      (hd.poison = true → ((t.ctx k).handle h.toNat).poison = true) := by
  intro p hd done t
  let r := (firstIndices ((p.pairs.drop hd.progress.toNat).take p.window)).foldl (fun a x =>
    ((scaccIndex k h p.sig p.redOp.toNat ((p.pairs.drop hd.progress.toNat).take p.window) x a.1).1,
      a.2 + (scaccIndex k h p.sig p.redOp.toNat ((p.pairs.drop hd.progress.toNat).take p.window) x a.1).2)) (s, 0)
  have hr : Running k h s := ⟨engineOn_busy hon, hst⟩
  have hacc : Accumulates k h r.1 s := accumulates_window _ 0 hr
  obtain ⟨hbusy, hstate⟩ := hr.accumulates hacc
  have ht : t = r.1.updCtx k (windowCtx h done r.2 (p.pairs.length ≤ done)) := by
    have hgo : (!engineOn (s.seat k).phase || p.op != 6 || hd.state != 1 || scaccBehind (s.ctx k) p) = false := by
      rw [hon, show p.op = 6 from hop, show hd.state = 1 from hst, show scaccBehind (s.ctx k) p = false from hbehind]
      rfl
    exact (if_neg (by rw [hgo]; exact Bool.false_ne_true)).trans rfl
  obtain ⟨hregs, hprog, hres, hpoison⟩ := windowCtx_eq (n := done) (m := r.2) (last := p.pairs.length ≤ done) hstate
  have hctx : t.ctx k = windowCtx h done r.2 (p.pairs.length ≤ done) (r.1.ctx k) := by
    rw [ht]
    exact State.ctx_updCtx_same hbusy
  rw [hctx]
  obtain ⟨b, hh, hb⟩ := hacc.handle
  refine ⟨by rw [ht]; exact hacc.mem, hregs.trans hacc.regs, hprog, hres, fun hp => ?_⟩
  rw [hpoison, hh]
  exact hb hp

end Sys2Proof.Machine
end

section
/-! Loaders, storers, and the steps of the copy engine (R220 to R236). -/
namespace Sys2Proof.Machine
set_option Elab.async false
open Sys2Proof
variable {s u v w : State} {k n j d pa z : Nat} {h : BitVec 4} {bad unc : Bool} {p : Copy} {bs : List Byte} {c : Ctx}
  {op : BitVec 8} {tc : BitVec 3}

/-! A load that completes (R220, R223). -/

/-- The data of a load of one access a sample land, and FILL and PROGRESS rise. -/
theorem countAccess_lands (hb : (s.seat k).phase ≠ .idle) (hm : memberSeat s (s.stepKey k) (s.memberNo k) = some k)
    (hop : isLoadOp ((s.ctx k).copy h.toNat).op = true) (hf : Fills (s.ctx k) h j) (hu : Lands k u s) :
    let t := countAccess k h j 1 bad u
    let p := (s.ctx k).copy h.toNat
    (t.ctx k).sg p.sig = ((s.ctx k).sg p.sig).setFill (p.sampleAt j) ∧
      ((t.ctx k).handle h.toNat).progress = BitVec.ofNat 32 (j + 1) := by
  obtain ⟨y, hy⟩ := hu.seat hb
  have hctx : u.ctx k = { s.ctx k with sig.poison := y } := by
    rw [State.ctx, hy]
    rfl
  have hkey : u.stepKey k = s.stepKey k ∧ u.memberNo k = s.memberNo k := by
    rw [State.stepKey, State.memberNo, hy]
    exact ⟨rfl, rfl⟩
  have hmember : memberSeat u (u.stepKey k) (u.memberNo k) = some k := by
    rw [hkey.1, hkey.2, memberSeat, State.step1, hu.steps]
    exact hm
  have hres := countAccess_fills (s := u) (h := h) (j := j) (bad := bad) (by rw [hy]; exact hb) hmember
    (by rw [hctx]; exact hop) (by rw [hctx]; exact hf)
  rw [hctx] at hres
  exact hres

/-! A loader or storer that may serve the command of its handle (R225, R226). -/

theorem restOfSample_one (hacc : p.perSampleAcc = 1) : restOfSample p = 1 := by
  rw [restOfSample, hacc, Nat.max_self, Nat.mod_one]

theorem takeStackCtx_held (hz : p.ctxStack = some z) : takeStackCtx k h p pa s = some (z, s) := by rw [takeStackCtx, hz]

theorem stackReady_serves (hr : stackReady k h op s = true) :
    (s.seat k).phase ≠ .idle ∧ ((s.ctx k).copy h.toNat).op = op := by
  simp only [stackReady, Bool.and_eq_true, beq_iff_eq] at hr
  exact ⟨engineOn_busy hr.1.1.1.1.1.1.1, hr.1.1.1.1.1.2⟩

section
variable (hacc : ((s.ctx k).copy h.toNat).perSampleAcc = 1) (hz : ((s.ctx k).copy h.toNat).ctxStack = some z)
  (hx : copyXlate k h ((s.ctx k).copy h.toNat) (((s.ctx k).copy h.toNat).accAddr n) s = (some (.dram pa, unc), s))
include hacc hz hx

/-- The run of a sample of one access. -/
theorem stackRun_one {load : Bool} : stackRun k h load (restOfSample ((s.ctx k).copy h.toNat)) n s =
    if load then pushAccess k h n pa s else pullAccess k h n pa s := by
  rw [restOfSample_one hacc]
  simp only [stackRun, hx, takeStackCtx_held hz]

theorem loaderSamplePush_one (hr : stackReady k h 0x0B s = true) (hn : n = ((s.ctx k).copy h.toNat).issued) :
    ∃ us : List Nat, loaderSamplePush k h s = us.foldl (fun s u => s.useUnit k u) (pushAccess k h n pa s) := by
  have hready : ¬(!stackReady k h (if true = true then 0x0B else 0x0C) s) = true := by
    rw [if_pos rfl, hr]
    exact Bool.false_ne_true
  rw [loaderSamplePush, stackSample, if_neg hready]
  dsimp only
  rw [← hn, stackRun_one hacc hz hx]
  simp only [if_true]
  exact ⟨_, rfl⟩

theorem storerSampleWrite_one (hr : stackReady k h 0x0C s = true) (hn : n = ((s.ctx k).copy h.toNat).issued) :
    storerSampleWrite k h s = pullAccess k h n pa s := by
  have hready : ¬(!stackReady k h (if false = true then 0x0B else 0x0C) s) = true := by
    rw [if_neg Bool.false_ne_true, hr]
    exact Bool.false_ne_true
  rw [storerSampleWrite, stackSample, if_neg hready]
  dsimp only
  rw [← hn, stackRun_one hacc hz hx]
  rfl

end

/-! A loader (R225). -/

/-- Access n of the command of a handle is under way. -/
def goingCtx (h : BitVec 4) (n : Nat) (c : Ctx) : Ctx :=
  c.updCopy h.toNat fun q => { q with issued := n + 1, flying := q.flying + 1 }

/-- The state in which a loader reads. -/
def going (k : Nat) (h : BitVec 4) (n : Nat) (s : State) : State := s.updCtx k (goingCtx h n)

theorem goingCtx_copy : (goingCtx h n c).copy h.toNat =
    { c.copy h.toNat with issued := n + 1, flying := (c.copy h.toNat).flying + 1 } :=
  copy_updCopy fun he => Nat.succ_ne_zero _ (congrArg Copy.issued he)

theorem fills_going (hf : Fills c h n) : Fills (goingCtx h n c) h n := by
  obtain ⟨hland, hcopies, hst, hsus, hstop, hsp, hacc, hlead, hdone, -, hmore, hpres, hfill, hslots, hreach⟩ := hf
  have hlist : (goingCtx h n c).eng.copies = [(h.toNat, (goingCtx h n c).copy h.toNat)] := by
    rw [goingCtx_copy]
    show Sparse.set {} c.eng.copies h.toNat _ = _
    have hq : ({ c.copy h.toNat with issued := n + 1, flying := (c.copy h.toNat).flying + 1 } : Copy) ≠ {} := fun he =>
      Nat.succ_ne_zero _ (congrArg Copy.issued he)
    rw [hcopies, Sparse.set, if_neg (Nat.lt_irrefl _), if_pos rfl, if_neg hq]
  unfold Fills
  rw [goingCtx_copy] at hlist ⊢
  exact ⟨hland, hlist, hst, hsus, hstop, hsp, hacc, hlead, hdone, hmore, hmore, hpres, hfill, hslots, hreach⟩

/-- What a loader's read leaves, before its data land. -/
theorem peek_read (hr : s.accs = []) (hread : checkedRead (homeDie pa) pa n .home s tc = (bs, bad, v)) :
    Peek (applySeen d (pa / 64) v) s := by
  rw [checkedRead_alone hr] at hread
  have hpeek := peek_getMem (d := homeDie pa) (pa := pa) (n := n) (via := .home) (s := s)
  rw [hread] at hpeek
  exact peek_applySeen.trans hpeek

theorem read_home (hr : s.accs = []) (hread : checkedRead (homeDie pa) pa n .home s tc = (bs, bad, v))
    (hg : pa % 64 + n ≤ 64) : bs = memRead s.mem pa n := by
  rw [checkedRead_alone hr] at hread
  rw [← getMem_home (via := .home) rfl hg, hread]

/-- The access of a loader, with what it reads. -/
theorem pushAccess_eq (hread : checkedRead (homeDie pa) pa (((s.ctx k).copy h.toNat).accSize n) .home (going k h n s)
    ((s.ctx k).copy h.toNat).tcls = (bs, bad, v)) : pushAccess k h n pa s =
      countAccess k h n 1 bad (landAccess k h n (leNat bs) bad (applySeen (dieOf k) (pa / 64) v)) := by
  unfold going goingCtx at hread
  simp only [pushAccess, hread]

/-- What the access of a loader leaves. -/
structure Loaded (k : Nat) (h : BitVec 4) (n : Nat) (t s : State) : Prop where
  mem : t.mem = s.mem
  regs : (t.ctx k).regs = (s.ctx k).regs
  fills : memberSeat s (s.stepKey k) (s.memberNo k) = some k → Fills (s.ctx k) h n →
    (t.ctx k).sg ((s.ctx k).copy h.toNat).sig =
        ((s.ctx k).sg ((s.ctx k).copy h.toNat).sig).setFill (((s.ctx k).copy h.toNat).sampleAt n) ∧
      ((t.ctx k).handle h.toNat).progress = BitVec.ofNat 32 (n + 1)

theorem going_loads {x : Nat} (hb : (s.seat k).phase ≠ .idle) (hop : ((s.ctx k).copy h.toNat).op = 0x0B)
    (hu : Peek u (going k h n s)) : Loaded k h n (countAccess k h n 1 bad (landAccess k h n x bad u)) s := by
  have hgoing : Minds k (going k h n s) s := .updCtx fun _ => rfl
  have hctx : (going k h n s).ctx k = goingCtx h n (s.ctx k) := State.ctx_updCtx_same hb
  have hbusy : ((going k h n s).seat k).phase ≠ .idle := by rw [hgoing.phase hb]; exact hb
  refine ⟨?_, ?_, fun hm hf => ?_⟩
  · exact inside_countAccess.mem.trans (inside_landAccess.mem.trans (hu.mem.trans inside_updCtx.mem))
  · exact (minds_countAccess.trans (minds_landAccess.trans ((Minds.of_seats hu.aside.seats).trans hgoing))).regs hb
  · have hseat : u.seat k = (going k h n s).seat k := by rw [State.seat, State.seat, hu.aside.seats]
    have huctx : u.ctx k = goingCtx h n (s.ctx k) := by rw [State.ctx, hseat]; exact hctx
    have hmember : memberSeat u (u.stepKey k) (u.memberNo k) = some k := by
      rw [State.stepKey, State.memberNo, hseat, memberSeat, State.step1, hu.aside.steps]
      exact memberSeat_updCtx (f := goingCtx h n) hb hm
    have hcopy := goingCtx_copy (h := h) (n := n) (c := s.ctx k)
    have hsp : ((s.ctx k).copy h.toNat).sp24 = false := by
      obtain ⟨-, -, -, -, -, hsp, -⟩ := hf
      exact hsp
    have hland : Lands k (landAccess k h n x bad u) u := lands_landAccess (by rw [huctx, hcopy]; exact hsp)
    have hres := countAccess_lands (bad := bad) (h := h) (j := n) (by rw [hseat]; exact hbusy) hmember
      (by rw [huctx, hcopy]; show isLoadOp ((s.ctx k).copy h.toNat).op = true; rw [hop]; decide)
      (by rw [huctx]; exact fills_going hf) hland
    rw [huctx, hcopy] at hres
    exact hres

theorem Loaded.useUnits {us : List Nat} (hl : Loaded k h n u s) :
    Loaded k h n (us.foldl (fun s u => s.useUnit k u) u) s := by
  have hctx := ctx_useUnits (k := k) us u
  exact ⟨(lands_useUnits us).inside.mem.trans hl.mem, by rw [hctx]; exact hl.regs, fun hm hf => by
    rw [hctx]
    exact hl.fills hm hf⟩

/-! A storer (R226). -/

theorem putMem_mem (hl : (s.stack (stackOf pa)).lost = false) : (putMem d pa bs bad s).mem = memWrite s.mem pa bs := by
  by_cases hb : bs = []
  · subst hb
    rfl
  · exact (putMem_writes hb hl).1

theorem pullWrite_mem (ha : s.accs = []) (hl : (s.stack (stackOf pa)).lost = false) :
    (pullWrite d pa bs bad tc s).mem = memWrite s.mem pa bs := by
  have hsync := peek_sync (d := homeDie pa) (s := s)
  rw [pullWrite, peek_sync.mem, checkedWrite_alone (hsync.accs.trans ha), putMem_mem (by rw [sync_stack]; exact hl), hsync.mem]

/-- The context of a storer that has taken element n alone. -/
def pulledCtx (h : BitVec 4) (n : Nat) (e : Kept) (c : Ctx) : Ctx :=
  (c.updCopy h.toNat fun q => { q with
    issued := n + 1, flying := q.flying + 1, kept := q.kept.filter fun x => decide (n ≤ x.elem) || !([e].contains x) }).updHandle
      h.toNat fun x => { x with poison := x.poison || [e].any (·.bad) }

/-- The element is written, and nothing but the command changes on the seat. -/
theorem pulled_writes {e : Kept} (hb : (u.seat k).phase ≠ .idle) (ha : u.accs = []) (hl : (u.stack (stackOf pa)).lost = false) :
    let t := countAccess k h n 1 false (pullWrite d pa e.data e.bad tc (u.updCtx k (pulledCtx h n e)))
    (t.ctx k).regs = (u.ctx k).regs ∧ t.mem = memWrite u.mem pa e.data := by
  have hctx : Minds k (u.updCtx k (pulledCtx h n e)) u := .updCtx fun _ => rfl
  have hin : Inside (u.updCtx k (pulledCtx h n e)) u := inside_updCtx
  have hlost : ((u.updCtx k (pulledCtx h n e)).stack (stackOf pa)).lost = false := hl
  generalize u.updCtx k (pulledCtx h n e) = v at hctx hin hlost
  refine ⟨(minds_countAccess.trans ((Minds.of_seats aside_pullWrite.seats).trans hctx)).regs hb,
    inside_countAccess.mem.trans ((pullWrite_mem (hin.accs.trans ha) hlost).trans ?_)⟩
  rw [hin.mem]

section
variable (hkept : ((s.ctx k).copy h.toNat).kept = []) (hpiece : pieceReady s k ((s.ctx k).copy h.toNat) n = true)
  (hpa : pa % 16 = (((s.ctx k).copy h.toNat).accAddr n).toNat % 16)
include hkept hpiece hpa

/-- With nothing kept before it in its piece, an element goes alone. -/
theorem pullAccess_one : pullAccess k h n pa s =
    let e : Kept := ⟨n, (takeElem k h n s).1, (takeElem k h n s).2.1⟩
    let p := (s.ctx k).copy h.toNat
    countAccess k h n 1 false (pullWrite (dieOf k) pa e.data e.bad p.tcls
      ((keepRest k h p n 1 (takeElem k h n s).2.2).updCtx k (pulledCtx h n e))) := by
  have hbefore : ((s.ctx k).copy h.toNat).keptBefore n = [] := by rw [Copy.keptBefore, hkept, List.filter_nil]
  have hplace : pa / 16 * 16 + (((s.ctx k).copy h.toNat).accAddr n).toNat % 16 = pa := by rw [← hpa]; omega
  simp only [pullAccess, hpiece, hbefore, List.nil_append, List.foldl_cons, List.foldl_nil, hplace, Bool.not_true,
    Bool.false_eq_true, if_false]
  rfl

/-- A storer writes its element to memory. -/
theorem pullAccess_writes (hS : Storing k h s) (ha : s.accs = []) (hl : (s.stack (stackOf pa)).lost = false) :
    let t := pullAccess k h n pa s
    (t.ctx k).regs = (s.ctx k).regs ∧ t.mem = memWrite s.mem pa (takeElem k h n s).1 := by
  have htake := fetches_takeElem (n := n) hS
  have hrest := (fetches_keepRest (p := (s.ctx k).copy h.toNat) (n := n) (c := 1) (htake.storing hS)).trans htake
  have hstack : ((keepRest k h ((s.ctx k).copy h.toNat) n 1 (takeElem k h n s).2.2).stack (stackOf pa)).lost = false := by
    rw [State.stack, hrest.stackTab]
    exact hl
  obtain ⟨hregs, hmem⟩ := pulled_writes (d := dieOf k) (h := h) (n := n) (tc := ((s.ctx k).copy h.toNat).tcls)
    (e := ⟨n, (takeElem k h n s).1, (takeElem k h n s).2.1⟩) (hrest.storing hS).busy (hrest.inside.accs.trans ha) hstack
  rw [pullAccess_one hkept hpiece hpa]
  exact ⟨hregs.trans hrest.regs, hmem.trans (congrArg (memWrite · pa (takeElem k h n s).1) hrest.inside.mem)⟩

end

end Sys2Proof.Machine
namespace Sys2Proof.Proofs
set_option Elab.async false
open Sys2Proof Sys2Proof.Machine

/-- Settles O43: each event of the copy engine on a seat, by what it leaves of the command and of the seat. -/
theorem engineSteps : Obligations.EngineSteps := by
  intro s k h hm c p hd n
  refine ⟨fun pa unc hon hst hop hstop hsus hmore hready hmay hkept hpiece hfences hpc hx => ?_,
    fun t' unc hon hst hop hstop hsus hmore hready hmay hpiece hfences hx => ?_,
    fun j a rest ht hb hw hph hop => ?_, fun j a rest ht hb hw hph hop hst hpoison hfail hstop hsus hsp hstack hdone hfly
      hiss hlead hpos hlast => ?_,
    fun hon hop hst hbehind => ?_, fun pa z unc bs bad v hr ha hacc hz hx hread => ?_, fun pa z unc hr ha hacc hz hx => ⟨?_, ?_⟩⟩
  · obtain ⟨hside, a, hs⟩ := copyElementIssue_sends ⟨hon, hst, hop, hstop, hsus, rfl, hmore, hfences, hm⟩ hready hmay hkept
      hpiece hpc hx
    refine ⟨_, a, rfl, hs.accs, hs.seat, hs.handle, hs.elem, hs.write, hs.target, hs.count, ?_, ?_, ?_, ?_, hs.regs, hs.mem⟩
    · exact hs.size.trans (congrArg (· * p.accSize n) hs.count.symm)
    · rw [hs.count]
      exact hside
    · rw [hs.count]
      exact hs.issued
    · rw [hs.count]
      exact hs.flying
  · have hi : Issues s k h n := ⟨hon, hst, by rw [show ((s.ctx k).copy h.toNat).op = 1 from hop]; decide, hstop, hsus, rfl,
      hmore, hfences, hm⟩
    have hS : Storing k h s := ⟨engineOn_busy hon, by rw [show ((s.ctx k).copy h.toNat).op = 1 from hop]; decide⟩
    exact ⟨_, congrArg Host.Outcome.next (copyElementIssue_holds hi hx hop hready hmay hpiece), holdElem_holds hS⟩
  · have hstep := copyAccessComplete_served ht hph
    rw [hw] at hstep
    refine ⟨congrArg Host.Outcome.next hstep, fun hone => ?_, fun hone hf => ⟨_, congrArg Host.Outcome.next hstep, ?_⟩⟩
    · rw [hone, landRun_one]
      exact ⟨ctx_useUnits _ _, fun q => line_useUnits q _ _,
        (lands_useUnits _).inside.mem.trans inside_landAccess.mem⟩
    · have hsp : ((State.ctx { s with accs := rest } k).copy h.toNat).sp24 = false := by
        obtain ⟨-, -, -, -, -, hsp, -⟩ := hf
        exact hsp
      rw [hone, landRun_one]
      exact countAccess_lands (s := { s with accs := rest }) hb hm (by
          show isLoadOp p.op = true
          rw [hop]
          decide) hf ((lands_useUnits _).trans (lands_landAccess hsp))
  · have hstep := copyAccessComplete_served ht hph
    rw [hw] at hstep
    have hends : Ends (State.ctx { s with accs := rest } k) h a.count := ⟨hop, hst, hpoison, hfail, hstop, hsus, hstack, hfly, hiss⟩
    have hin := inside_countAccess (k := k) (h := h) (n := j) (c := a.count) (bad := false) (s := { s with accs := rest })
    exact ⟨_, congrArg Host.Outcome.next hstep, hin.accs, hin.mem, countAccess_ends hends hb hm rfl⟩
  · exact ⟨_, rfl, scaccWindow_takes hon hop hst hbehind⟩
  · obtain ⟨hb, hop⟩ := stackReady_serves hr
    obtain ⟨us, hus⟩ := loaderSamplePush_one hacc hz hx hr rfl
    have hpush := pushAccess_eq (s := s) (k := k) (h := h) (n := n) hread
    have hload := going_loads (n := n) (bad := bad) (x := leNat bs) hb hop
      (peek_read (d := dieOf k) (s := going k h n s) ha hread)
    rw [← hpush] at hload
    intro u
    refine ⟨read_home (s := going k h n s) ha hread, _, congrArg Host.Outcome.next hus, hload.useUnits.mem,
      hload.useUnits.regs, (ctx_useUnits _ _).trans (congrArg (State.ctx · k) hpush),
      fun q => (line_useUnits q _ _).trans (congrArg (State.line · k q) hpush), fun hf => hload.useUnits.fills hm hf⟩
  · intro hpiece
    refine congrArg Host.Outcome.next ((storerSampleWrite_one hacc hz hx hr rfl).trans (if_pos ?_))
    rw [show pieceReady s k ((s.ctx k).copy h.toNat) n = false from hpiece]
    rfl
  · intro hpiece hkept hpa hl
    obtain ⟨hb, hop⟩ := stackReady_serves hr
    have hS : Storing k h s := ⟨hb, by rw [hop]; decide⟩
    exact ⟨_, congrArg Host.Outcome.next (storerSampleWrite_one hacc hz hx hr rfl), pullAccess_writes hkept hpiece hpa hS ha hl⟩

end Sys2Proof.Proofs
end

section
/-!
O32. A root releases a barrier set once each package of it has arrived and none of it is lost; its own package is one of the
set, and the claim says nothing of what the package records of itself. Where it has itself down as lost, a group of one that
arrives at a barrier of scope pod is not released (R90, R490, R492).
-/
namespace Sys2Proof.Machine
set_option Elab.async false
open Sys2Proof

/-- A group of one runs on seat 0 with a budget of 5, in a package that has itself down as lost. -/
def ownLost : State :=
  { seats := [(0, { phase := .running, step := some (0, 0), ctx := { bud := { ibud := 5 } } })]
    steps := [(0, { present := true, uid := 1, members := [{ place := .onSeat 0 }] })]
    fab := { peers := [(0, { lost := true })] } }

theorem runs_ownLost : Runs { neg := false, pred := 0 } 1 0 ownLost where
  can := {
    running := rfl
    single := rfl
    here := rfl
    examined := rfl
    unmasked := rfl
    final := nofun
    first := rfl
    whole := rfl
    beside := rfl
    banks := rfl
    ungated := rfl
    tolls := by decide
    traffics := by decide }
  settled := nofun
  guard := rfl

/-- The barriers that an outcome leaves in its package. -/
def barsLeft : Out → Nat
  | .next t => t.fab.bars.length
  | _ => 0

/-- The barrier stays, and seat 0 waits at it. -/
theorem barsLeft_ownLost : barsLeft (exec (.bar { neg := false, pred := 0 } .pod 0) ownLost) = 1 := by decide +kernel

/-- A bundle that passes leaves the barriers of its package as they were. -/
theorem bars_of_passes {i : Instr} {s : State} (h : Passes i s) : barsLeft (exec i s) = s.fab.bars.length := by
  obtain ⟨t, hexec, _, _, _, _, -, ht⟩ := h
  rw [hexec, ht]
  rfl

end Sys2Proof.Machine
namespace Sys2Proof.Proofs
set_option Elab.async false
open Sys2Proof Sys2Proof.Machine

/-- Refutes O32: in a package that has itself down as lost, a group of one that arrives at a barrier of scope pod waits at
it for good, where the statement says that its bundle passes. -/
theorem not_blocksAndBarriers : ¬ Obligations.BlocksAndBarriers := by
  intro h
  obtain ⟨hbars, -⟩ := h
  obtain ⟨hone, -⟩ := hbars ownLost { neg := false, pred := 0 } .pod 0 rfl runs_ownLost ⟨rfl, rfl, rfl⟩ rfl rfl
  have hpass := bars_of_passes (hone rfl (by decide) rfl rfl)
  rw [barsLeft_ownLost] at hpass
  exact absurd hpass (by decide)

end Sys2Proof.Proofs
end

section
/-!
The canonical form of the memories and of the seats (State.Wf) through the operations of a state, of a core and of the
copy engine. Each rule is named after the function that it is about.
-/
namespace Sys2Proof.Machine
set_option Elab.async false
open Sys2Proof
variable {s : State} {k n st m : Nat} {h : BitVec 4} {p : Copy}

/-! Rules for the forms of definitions. -/

theorem wf_ite {p : Prop} [Decidable p] {a b : State} (ha : a.Wf) (hb : b.Wf) : (if p then a else b).Wf := by
  split <;> assumption

theorem wf_foldl {α : Type} {f : State → α → State} (hf : ∀ s x, s.Wf → (f s x).Wf) :
    ∀ (xs : List α) {s : State}, s.Wf → (xs.foldl f s).Wf
  | [], _, hs => hs
  | x :: xs, _, hs => wf_foldl hf xs (hf _ x hs)

/-- A fold that carries a value beside the state. -/
theorem wf_foldl_fst {α β : Type} {f : State × β → α → State × β} (hf : ∀ a x, a.1.Wf → (f a x).1.Wf) :
    ∀ (xs : List α) {a : State × β}, a.1.Wf → (xs.foldl f a).1.Wf
  | [], _, hs => hs
  | x :: xs, _, hs => wf_foldl_fst hf xs (hf _ x hs)

/-! Seats and contexts. -/

section
variable (hs : s.Wf)
include hs

theorem wf_setSeat {x : Seat} : (s.setSeat k x).Wf := inside_setSeat.wf hs
theorem wf_updSeat {f : Seat → Seat} : (s.updSeat k f).Wf := inside_updSeat.wf hs
@[simp] theorem wf_updCtx {f : Ctx → Ctx} : (s.updCtx k f).Wf := inside_updCtx.wf hs
theorem wf_updMemberCtx {f : Ctx → Ctx} : (s.updMemberCtx st m f).Wf := inside_updMemberCtx.wf hs
theorem wf_updDie {f : Die → Die} : (s.updDie n f).Wf := aside_updDie.wf hs
theorem wf_updCore {f : Core → Core} : (s.updCore n f).Wf := inside_updCore.wf hs
theorem wf_updStep {f : Step → Step} : (s.updStep n f).Wf := inside_updStep.wf hs
theorem wf_updMember {f : Member → Member} : (s.updMember n m f).Wf := wf_updStep hs
theorem wf_updChan {f : Chan → Chan} : (s.updChan n f).Wf := apart_updChan.wf hs
theorem wf_updTask {f : Task → Task} : (s.updTask n f).Wf := apart_updTask.wf hs
theorem wf_updPeer {x : BitVec 18} {f : Peer → Peer} : (s.updPeer x f).Wf := ⟨hs.mem, hs.host, hs.seats⟩
theorem wf_bumpFree : s.bumpFree.Wf := ⟨hs.mem, hs.host, hs.seats⟩
theorem wf_setLine {x : UnitW} : (s.setLine k n x).Wf := inside_setLine.wf hs
theorem wf_useUnit : (s.useUnit k n).Wf := inside_useUnit.wf hs

theorem wf_freezeStreams : (freezeStreams k s).Wf := wf_ite hs (wf_updDie hs)

omit hs in
theorem wf_takeTrap {t : TrapIn} (hs : s.Wf) : (takeTrap k t s).Wf := wf_freezeStreams (wf_updSeat hs)

theorem wf_retryTrap {x : BitVec 8} : (retryTrap k x s).Wf := wf_freezeStreams (wf_updSeat hs)
theorem wf_beginYield {x : BitVec 2} : (beginYield k x s).Wf := wf_updSeat hs

/-! Channels at a cycle boundary. -/

theorem wf_returnPermit : (returnPermit n s).Wf := wf_updChan hs

theorem wf_settleChan : (settleChan s n).Wf := wf_ite (wf_updChan hs)
  (wf_ite (apart_sendGrant.wf (wf_updChan hs)) (wf_updChan (wf_updChan hs)))

theorem wf_settleChans : (settleChans s).Wf := wf_foldl (fun _ _ hs => wf_settleChan hs) _ hs

/-! Samples. -/

theorem wf_putElem {t : Tap} {e x : Nat} : (putElem k t e x s).Wf := by
  unfold putElem
  exact wf_updCtx (wf_setLine hs)

end

@[simp] theorem wf_putElems {t : Tap} : ∀ (xs : List Nat) {s : State} {e : Nat}, s.Wf → (putElems k t e xs s).Wf
  | [], _, _, hs => wf_ite hs hs
  | _ :: xs, _, _, hs => wf_ite hs (wf_putElems xs (wf_ite (wf_putElem hs) hs))

theorem wf_tapWrite {t : Tap} {ty : Fmt} {mode : RM} {xs : List Nat} (hs : s.Wf) : (tapWrite k t ty mode xs s).Wf :=
  wf_putElems _ hs

@[simp] theorem wf_vWrite {c : Ctx} {ty : VTy} {mode : RM} {xs : List Nat} {d : VOp} (hs : s.Wf) :
    (vWrite k c ty mode xs d s).Wf := by
  unfold vWrite
  split
  · exact wf_updCtx hs
  · exact wf_tapWrite hs
  · exact hs
  · exact hs

/-! Translations (R414). -/

section
variable (hs : s.Wf)
include hs

theorem wf_dropXlats {q : Xlat → Bool} : (dropXlats n q s).Wf := ⟨hs.mem, hs.host, hs.seats⟩
theorem wf_invalidate {q : Xlat → Bool} : (invalidate n q s).Wf := wf_dropXlats (aside_syncAll.wf hs)
theorem wf_dropWalks : (dropWalks n s).Wf := ⟨hs.mem, hs.host, hs.seats⟩

/-! Copy commands (R220 to R226, R412). -/

theorem wf_suspendCopy : (suspendCopy st m h s).Wf := wf_updMemberCtx hs
theorem wf_resumeCopy : (resumeCopy st m h s).Wf := wf_updMemberCtx hs
theorem wf_pruneFences : (pruneFences st m s).Wf := wf_ite hs (wf_updMemberCtx hs)

theorem wf_copyXlate {a : Word} : (copyXlate k h p a s).2.Wf := by
  have hfault : ∀ {part kind code level entry : Nat} {a : Word} {ag : Nat} {b : Bool} {tc : BitVec 3} {ws : List Waiter},
      (suspendCopy (s.stepKey k) (s.memberNo k) h (recordFault (dieOf k) part a kind code ag level entry b tc ws s)).Wf :=
    wf_suspendCopy (aside_recordFault.wf hs)
  simp only [copyXlate]
  split
  · exact hs
  · split
    · exact inside_failCopy.wf hs
    · exact hfault
  · split
    · exact hs
    · split
      · exact hfault
      · exact aside_enqueueWalk.wf hs

theorem wf_takeWord {i : Int} {u : Nat} : (takeWord k h i u s).2.Wf := by
  simp only [takeWord]
  split
  · exact hs
  · dsimp only
    exact wf_updCtx (wf_ite hs (wf_useUnit hs))

theorem wf_takeElem : (takeElem k h n s).2.2.Wf := by
  simp only [takeElem]
  split
  · dsimp only
    exact wf_updCtx hs
  · exact wf_takeWord hs

omit hs in
theorem wf_takeElems : ∀ (c n : Nat) {s : State}, s.Wf → (takeElems k h c n s).2.2.Wf
  | 0, _, _, hs => hs
  | c + 1, n, _, hs => wf_takeElems c (n + 1) (wf_takeElem hs)

theorem wf_keepElem : (keepElem k h s n).Wf := by
  unfold keepElem
  exact wf_updCtx (wf_takeElem hs)
theorem wf_keepRest {c : Nat} : (keepRest k h p n c s).Wf := wf_foldl (fun _ _ hs => wf_keepElem hs) _ hs
theorem wf_holdElem : (holdElem k h n s).Wf := wf_updCtx (wf_keepElem hs)

theorem wf_sendAccess {c : Nat} {t : Target} {unc : Bool} : (sendAccess k h p n c t unc s).Wf := by
  have hkept : ∀ s x, s.Wf → (sendKept k h p t unc s x).Wf := fun _ _ hs => aside_putAccess.wf (wf_updCtx hs)
  simp only [sendAccess]
  split
  · exact wf_keepRest (wf_foldl hkept _ (aside_putAccess.wf (wf_updCtx (wf_takeElems _ _ hs))))
  · exact aside_putAccess.wf (wf_updCtx hs)

theorem wf_issueNext : (issueNext k h s).Wf := by
  have hx := wf_copyXlate (k := k) (h := h) (p := (s.ctx k).copy h.toNat)
    (a := ((s.ctx k).copy h.toNat).accAddr ((s.ctx k).copy h.toNat).issued) hs
  simp only [issueNext]
  generalize copyXlate k h _ _ s = r at hx ⊢
  split
  · exact hs
  · split
    · exact wf_ite (wf_holdElem hx) (wf_sendAccess hx)
    · exact hx

theorem wf_copyElementIssue : (copyElementIssue k h s).Wf := wf_ite (wf_pruneFences (wf_issueNext hs)) hs

end

end Sys2Proof.Machine
end

section
/-!
The canonical form through accesses, loaders and storers, SCACC, suspended commands, walks, advances, and the messages of
channels.
-/
namespace Sys2Proof.Machine
set_option Elab.async false
open Sys2Proof
variable {s : State} {k n d st m ch : Nat} {h : BitVec 4} {p : Copy} {sig : BitVec 7} {w : Waiter}

/-- The state of a pair that is well formed. -/
theorem wf_snd {α : Type} {r : α × State} {a : α} {t : State} (h : r = (a, t)) (hr : r.2.Wf) : t.Wf := by
  rw [h] at hr
  exact hr

theorem wf_thd {α β : Type} {r : α × β × State} {a : α} {b : β} {t : State} (h : r = (a, b, t)) (hr : r.2.2.Wf) : t.Wf := by
  rw [h] at hr
  exact hr

/-! Accesses (R220, R387). -/

section
variable (hs : s.Wf)
include hs

theorem wf_hostAccess {a : Access} {bus : Nat} : (hostAccess a bus s).2.2.Wf := by
  have hstore := aside_hostStore (a := bus) (bs := a.data).wf hs
  unfold hostAccess
  split
  · exact wf_ite ⟨hstore.mem, hstore.host, hstore.seats⟩ hstore
  · exact hs

theorem wf_withAccs {l : List Access} : State.Wf { s with accs := l } := aside_accs.wf hs

theorem wf_copyAccessComplete : (copyAccessComplete k h n s).Wf := by
  unfold copyAccessComplete
  split
  · exact inside_tryFinish.wf hs
  · next a rest _ =>
    dsimp only
    split
    · exact hs
    · next x hgo =>
      split at hgo
      · cases hgo
        exact inside_endAccess.wf (wf_withAccs hs)
      · injection hgo with hgo
        exact inside_endAccess.wf (wf_thd hgo (wf_hostAccess (wf_withAccs hs)))
      · cases hgo

/-! Loaders and storers (R225, R226). -/

theorem wf_takeStackCtx {pa : Nat} {x : Nat × State} (hx : takeStackCtx k h p pa s = some x) : x.2.Wf := by
  simp only [takeStackCtx] at hx
  split at hx
  · cases hx
    exact hs
  · obtain ⟨-, hx⟩ := Option.ite_none_left_eq_some.mp hx
    cases hx
    dsimp only
    exact wf_updCtx (aside_updStack.wf hs)

theorem wf_pushAccess {pa : Nat} : (pushAccess k h n pa s).Wf := by
  simp only [pushAccess]
  exact inside_countAccess.wf (inside_landAccess.wf (aside_applySeen.wf (aside_checkedRead.wf (wf_updCtx hs))))

theorem wf_pullAccess {pa : Nat} : (pullAccess k h n pa s).Wf := by
  unfold pullAccess
  refine wf_ite (wf_holdElem hs) (wf_foldl (fun _ _ hs => inside_countAccess.wf hs) _ ?_)
  exact wf_foldl (fun _ _ hs => aside_pullWrite.wf hs) _ (wf_updCtx (wf_keepRest (wf_takeElem hs)))

omit hs in
theorem wf_stackRun {load : Bool} : ∀ (f n : Nat) {s : State}, s.Wf → (stackRun k h load f n s).Wf
  | 0, _, _, hs => hs
  | f + 1, n, s, hs => by
    simp only [stackRun]
    split
    · next heq =>
      have h1 := wf_snd heq (wf_copyXlate hs)
      split
      · exact h1
      · next hctx =>
        exact wf_stackRun f (n + 1) (wf_ite (wf_pushAccess (wf_takeStackCtx h1 hctx)) (wf_pullAccess (wf_takeStackCtx h1 hctx)))
    · next heq => exact wf_snd heq (wf_copyXlate hs)

theorem wf_stackSample {load : Bool} : (stackSample k h load s).Wf := by
  have hrun := wf_stackRun (k := k) (h := h) (load := load) (restOfSample ((s.ctx k).copy h.toNat))
    ((s.ctx k).copy h.toNat).issued hs
  unfold stackSample
  exact wf_ite hs (wf_ite (wf_foldl (fun _ _ hs => wf_useUnit hs) _ hrun) hrun)

theorem wf_loaderSamplePush : (loaderSamplePush k h s).Wf := wf_stackSample hs
theorem wf_storerSampleWrite : (storerSampleWrite k h s).Wf := wf_stackSample hs

/-! Scatter-accumulate (R235). -/

theorem wf_scaccIndex {op : Nat} {ps : List (Int × Nat)} {x : Int} : (scaccIndex k h sig op ps x s).1.Wf := by
  have hput : ∀ {q : Nat} {g : Sig} {a b c d : Nat}, (putBytes k g a b c d (s.useUnit k q)).Wf :=
    inside_putBytes.wf (wf_useUnit hs)
  simp only [scaccIndex]
  split
  · exact hs
  · split
    · exact hs
    · exact wf_ite (wf_updCtx (inside_poisonUnits.wf hput)) hput

theorem wf_scaccWindow : (scaccWindow k h s).Wf := by
  unfold scaccWindow
  refine wf_ite hs (wf_updCtx (wf_foldl_fst ?_ _ hs))
  exact fun _ _ hs => wf_scaccIndex hs

/-! The yield of a seat's commands (R237, R275), and what a resume and a fault leave of them. -/

omit hs in
theorem wf_issueToGranule : ∀ (f : Nat) {s : State}, s.Wf → (issueToGranule k h f s).Wf
  | 0, _, hs => hs
  | f + 1, _, hs => by
    unfold issueToGranule
    exact wf_ite hs (wf_ite (wf_issueNext hs) (wf_issueToGranule f (wf_issueNext hs)))

theorem wf_cancelOne : (cancelOne st m n s).Wf := (steady_cancelOne hs).wf

theorem wf_yieldHandle : (yieldHandle k n s).Wf := by
  have hissue : ∀ b : Prop, ∀ _ : Decidable b, ∀ h f, (if b then s else issueToGranule k h f s).Wf :=
    fun _ _ _ _ => wf_ite hs (wf_issueToGranule _ hs)
  unfold yieldHandle
  refine wf_ite hs (wf_ite (wf_ite hs (wf_cancelOne hs)) (wf_ite (wf_ite hs ?_) hs))
  exact wf_ite (aside_dropWaiters.wf (wf_updCtx (hissue _ _ _ _))) (hissue _ _ _ _)

theorem wf_resumeHandles : (resumeHandles k s).Wf := wf_updCtx hs

theorem wf_combinerFlush : (combinerFlush d n s).Wf := wf_withAccs hs

theorem wf_announcementApply : (announcementApply d n s).Wf := by
  unfold announcementApply
  split
  · exact wf_ite (aside_applyAnn.wf (aside_anns.wf hs)) hs
  · exact hs

/-! Faults and walks (R406, R411, R412). -/

theorem wf_withNear {l : List NmCmd} : State.Wf { s with near := l } := ⟨hs.mem, hs.host, hs.seats⟩
theorem wf_updNear {f : NmCmd → NmCmd} : (updNear st m h f s).Wf := wf_withNear hs

theorem wf_failWaiter : (failWaiter d n s w).Wf := by
  unfold failWaiter
  split
  · exact wf_ite (wf_updMemberCtx (wf_updNear hs)) (inside_failCopy.wf hs)
  · exact aside_wakeWaiters.wf (wf_updDie hs)

theorem wf_retryWaiter : (retryWaiter d n s w).Wf := by
  unfold retryWaiter
  split
  · exact wf_ite (wf_updMemberCtx (wf_updNear hs)) (wf_resumeCopy hs)
  · exact aside_wakeWaiters.wf hs

theorem wf_holdWaiter : (holdWaiter s w).Wf := by
  unfold holdWaiter
  split
  · exact wf_ite (wf_updMemberCtx (wf_updNear hs)) (wf_suspendCopy hs)
  · exact hs

theorem wf_tellXfault {va : Word} : (tellXfault d n va s).Wf := by
  unfold tellXfault
  split
  · exact hs
  · exact wf_foldl (fun _ _ hs => aside_send.wf hs) _ hs

theorem wf_translationWalk : (translationWalk d n s).Wf := by
  unfold translationWalk
  split
  · exact hs
  · refine wf_ite hs ?_
    dsimp only
    split
    · next heq => exact aside_wakeWaiters.wf (wf_snd heq (aside_walk.wf (wf_updDie hs)))
    · next heq =>
      have hwalk := wf_snd heq (aside_walk.wf (wf_updDie hs))
      refine wf_ite (wf_foldl (fun _ _ hs => wf_failWaiter hs) _ (aside_wakeWaiters.wf hwalk)) ?_
      generalize hu : List.foldl holdWaiter _ _ = u
      have hhold : u.Wf := by
        rw [← hu]
        exact wf_foldl (fun _ _ hs => wf_holdWaiter hs) _ (aside_recordFault.wf (aside_wakeWaiters.wf hwalk))
      exact wf_ite (wf_tellXfault hhold) hhold

theorem wf_endFault {id : BitVec 32} {retry : Bool} : (endFault d id retry s).Wf := by
  unfold endFault
  split
  · exact hs
  · exact wf_ite (wf_foldl (fun _ _ hs => wf_retryWaiter hs) _ (wf_updDie hs))
      (wf_foldl (fun _ _ hs => wf_failWaiter hs) _ (wf_updDie hs))

/-! Advances (R150) and SIGSET (R165). -/

theorem wf_streamPermit : (streamPermit k sig s).Wf := wf_ite hs (wf_updDie hs)

theorem wf_returnPermits {i : Int} : (returnPermits k sig i s).Wf := by
  unfold returnPermits
  refine wf_streamPermit ?_
  split
  · exact wf_ite (wf_returnPermit hs) (wf_ite hs (wf_returnPermit (wf_updChan hs)))
  · exact hs

theorem wf_advance1 : (advance1 k sig s).Wf := by
  unfold advance1
  exact wf_returnPermits (wf_updCtx hs)

omit hs in
theorem wf_advanceN : ∀ (a : Nat) {s : State}, s.Wf → (advanceN k sig a s).Wf
  | 0, _, hs => hs
  | a + 1, _, hs => wf_advanceN a (wf_advance1 hs)

@[simp] theorem wf_advances {a : Nat} : (advances k sig a s).Wf := wf_ite (wf_advanceN _ hs) hs
@[simp] theorem wf_sigsetEffect {f l : Nat} {x : Word} : (sigsetEffect k sig f l x s).Wf := wf_updCtx hs

/-! Messages of channels (R354 to R361). -/

theorem wf_faultChan : (faultChan ch s).Wf := by
  have hhit : ∀ {u : State} {st m : Nat} {q : Ctx → Bool} {why : Cause}, u.Wf →
      (if q (u.memberCtx st m) then u.updMemberCtx st m fun x => { x with causes := x.causes ++ [why] } else u).Wf :=
    fun hu => wf_ite (wf_updMemberCtx hu) hu
  have hread : ∀ {u : State} (o : Option (Nat × Nat × Nat)) {why : Cause}, u.Wf → (match o with
      | some (st, m, n) =>
        if (u.memberCtx st m).wait.taps.contains n then u.updMemberCtx st m fun x => { x with causes := x.causes ++ [why] } else u
      | none => u).Wf := fun o _ hu => by
    split
    · exact hhit (q := fun x => x.wait.taps.contains _) hu
    · exact hu
  unfold faultChan
  dsimp only
  split
  · exact aside_send.wf (hread _ (wf_updChan hs))
  · split
    · exact hhit (q := fun x => x.wait.sendReg == _) (hread _ (wf_updChan hs))
    · exact hread _ (wf_updChan hs)

theorem wf_landMessage {i : Int} {us : List UnitW} {q : BitVec 128} : (landMessage k sig i us q s).Wf := by
  unfold landMessage
  exact wf_updCtx (inside_poisonUnits.wf (wf_foldl (fun _ _ hs => wf_setLine hs) _ hs))

theorem wf_setDevwriter : (setDevwriter ch n s).Wf := wf_updChan hs
theorem wf_countMessage {x : ChMsg} : (countMessage ch x s).Wf := by
  unfold countMessage
  exact wf_updChan hs

theorem wf_feedProxy : (feedProxy ch s).Wf := by
  unfold feedProxy
  exact wf_ite hs (wf_ite hs (apart_sendGrant.wf (wf_updChan hs)))

theorem wf_feedPool : (feedPool n s).Wf := wf_foldl (fun _ _ hs => wf_feedProxy hs) _ hs

theorem wf_messageDelivery : (messageDelivery d n s).Wf := by
  have hland : ∀ {ch k : Nat} {sig : BitVec 7} {i : Int} {us : List UnitW} {q : BitVec 128} {x : ChMsg} {f : Chan → Chan},
      (countMessage ch x (landMessage k sig i us q ((s.wakeDie d).updChan ch f))).Wf :=
    wf_countMessage (wf_landMessage (wf_updChan (aside_wakeDie.wf hs)))
  unfold messageDelivery
  dsimp only
  split
  · exact wf_ite hs (wf_ite hland (wf_feedPool hland))
  · exact hs

theorem wf_messageSpill : (messageSpill d n s).Wf := by
  have hwrite : ∀ {ch a : Nat} {c : Chan} {bs : List Byte},
      ((s.wakeDie d).agentWrite d c.part (request agentChan ch) a bs).2.Wf := aside_agentWrite.wf (aside_wakeDie.wf hs)
  unfold messageSpill
  dsimp only
  split
  · exact hs
  · refine wf_ite hs ?_
    split
    · exact hs
    · split
      · next heq => exact wf_snd heq hwrite
      · next heq => exact wf_faultChan (wf_snd heq hwrite)
      · next heq => exact wf_updChan (wf_snd heq hwrite)

end

end Sys2Proof.Machine
end

section
/-!
The canonical form through the drains of cisterns, remote channels, queues, tasks, and near memory.
-/
namespace Sys2Proof.Machine
set_option Elab.async false
open Sys2Proof
variable {s : State} {k n d i st m ch q t : Nat} {h : BitVec 4} {sig : BitVec 7} {x : NmCmd} {r : List Byte} {b : Bool}

/-! Channels (R357 to R365). -/

section
variable (hs : s.Wf)
include hs

theorem wf_send {die cls type flags die' : Nat} {dst : BitVec 18} {a : Word} {tag : BitVec 32} {bs : List Byte} :
    (s.send die cls type flags dst die' a tag bs).Wf := aside_send.wf hs

theorem wf_agentWrite {agent va : Nat} {bs : List Byte} : (s.agentWrite d n agent va bs).2.Wf := aside_agentWrite.wf hs

theorem wf_post {type die part : Nat} {bs : List Byte} : (s.post type die part bs).Wf := aside_post.wf hs

theorem wf_afterDrain : (afterDrain ch k s).Wf := by
  unfold afterDrain
  exact wf_feedPool (wf_ite (wf_send (wf_updChan hs)) (wf_updChan hs))

theorem wf_cisternDrain : (cisternDrain d n s).Wf := by
  have hread : ∀ {ch a l : Nat} {c : Chan}, ((s.wakeDie d).agentRead d c.part (request agentChan ch) a l).2.Wf :=
    aside_agentRead.wf (aside_wakeDie.wf hs)
  unfold cisternDrain
  dsimp only
  split
  · refine wf_ite hs ?_
    split
    · next heq => exact wf_snd heq hread
    · next heq => exact wf_faultChan (wf_snd heq hread)
    · next heq => exact wf_afterDrain (wf_countMessage (wf_landMessage (wf_updChan (wf_snd heq hread))))
  · exact hs

theorem wf_markAway : (markAway st m b s).Wf :=
  wf_foldl (fun _ _ hs => wf_ite (wf_updChan hs) (wf_feedProxy (wf_updChan hs))) _ hs

@[simp] theorem wf_sendLocal {path : SendPath} {us : List UnitW} {q : BitVec 128} {after : Option (Nat × Nat × Nat)} :
    (sendLocal ch path us q after s).Wf := by
  unfold sendLocal
  exact wf_ite (wf_updChan (aside_wakeDie.wf hs)) (apart_armTrigger.wf (wf_updChan (aside_wakeDie.wf hs)))

theorem wf_withFab {f : Fabric} : State.Wf { s with fab := f } := aside_fab.wf hs

omit hs in
theorem wf_flushDeferred : ∀ (n : Nat) {s : State}, s.Wf → (flushDeferred n s).Wf
  | 0, _, hs => hs
  | n + 1, _, hs => by
    unfold flushDeferred
    split
    · exact wf_flushDeferred n (aside_sendWire.wf (wf_withFab hs))
    · exact hs

theorem wf_flush : s.flush.Wf := wf_flushDeferred _ hs

@[simp] theorem wf_sendRequest {r : Word} : (sendRequest k b r s).Wf := by
  have htag : s.newTag.2.Wf := aside_newTag.wf hs
  unfold sendRequest
  exact wf_ite hs (wf_send (wf_updCtx (wf_withFab htag)))

@[simp] theorem wf_clearRemote {r : Word} : (clearRemote k b r s).Wf := wf_updCtx hs
theorem wf_growChan : (growChan ch s).Wf := wf_ite (wf_feedProxy (wf_updChan hs)) hs
theorem wf_raiseStall : (raiseStall d n s).Wf := wf_ite hs (wf_post (wf_updDie hs))

theorem wf_deadlockSample : (deadlockSample d n s).Wf := by
  unfold deadlockSample
  refine wf_ite (wf_updDie hs) (wf_ite (wf_updDie hs) (wf_ite (wf_raiseStall (wf_updDie hs)) ?_))
  refine wf_foldl ?_ _ (wf_updDie hs)
  exact fun _ _ hs => wf_ite (wf_send hs) (wf_growChan hs)

theorem wf_permitAudit : (permitAudit d s).Wf := by
  unfold permitAudit
  exact wf_foldl (fun _ _ hs => wf_post hs) _ (wf_foldl (fun _ _ hs => wf_post hs) _ hs)

/-! Queues, reserves and tasks (R317, R339, R342). -/

theorem wf_updQueue {f : Queue → Queue} : (s.updQueue q f).Wf := apart_updQueue.wf hs
theorem wf_updPart {f : Part → Part} : (s.updPart n f).Wf := apart_updPart.wf hs

theorem wf_putQueueRec : (putQueueRec q s).Wf := by
  unfold putQueueRec
  dsimp only
  split
  · next heq => exact wf_updQueue (wf_snd heq (wf_agentWrite hs))
  · next heq => exact wf_updQueue (wf_snd heq (wf_agentWrite hs))
  · next heq => exact aside_queueError.wf (wf_updQueue (wf_snd heq (wf_agentWrite hs)))

theorem wf_putEntry {bs : List Byte} {o : Origin} : (putEntry q bs o s).2.Wf := by
  unfold putEntry
  dsimp only
  split
  · exact hs
  · split
    · next heq => exact wf_snd heq (wf_agentWrite hs)
    · next heq => exact wf_snd heq (wf_agentWrite hs)
    · next heq => exact apart_nameDone.wf (wf_putQueueRec (wf_updQueue (aside_wakeDie.wf (wf_snd heq (wf_agentWrite hs)))))

theorem wf_drawReserve {u : State} (hu : drawReserve n i t s = some u) : u.Wf := by
  simp only [drawReserve] at hu
  split at hu
  · cases hu
    exact wf_updPart hs
  · cases hu

theorem wf_settleOwed : (settleOwed st m s).Wf := by
  unfold settleOwed
  exact wf_ite hs (apart_addReserve.wf (wf_updMemberCtx hs))


/-! Near memory (R430 to R439). -/

@[simp] theorem wf_nmAccept {rs : List (List Byte)} : (nmAccept b k sig h rs s).Wf := wf_withNear (wf_updCtx hs)
theorem wf_setNm : (s.setNm i x).Wf := wf_withNear hs
theorem wf_onNmHandle {f : Handle → Handle} : (onNmHandle x f s).Wf := wf_ite (wf_updMemberCtx hs) hs

theorem wf_nmXlate {va : Nat} {w : Want} : (nmXlate x va w s).2.Wf := by
  unfold nmXlate
  dsimp only
  split
  · dsimp only
    exact wf_failWaiter hs
  · split
    · exact hs
    · split
      · dsimp only
        exact wf_holdWaiter (aside_recordFault.wf hs)
      · exact aside_enqueueWalk.wf hs

theorem wf_nmEnd : (nmEnd i x s).Wf := by
  unfold nmEnd
  exact wf_withNear (wf_onNmHandle hs)

theorem wf_nmClose {a b c d : Nat} : (nmClose i x a b c d s).Wf := wf_setNm hs

theorem wf_nmPut {c : Nat × Nat × Nat × Nat} : (nmPut i x c r s).Wf := by
  unfold nmPut
  refine wf_ite (wf_setNm hs) (wf_ite (wf_setNm hs) ?_)
  split
  · next heq => exact wf_setNm (aside_nmWrite.wf (wf_snd heq (wf_nmXlate hs)))
  · next heq => exact wf_snd heq (wf_nmXlate hs)

end

end Sys2Proof.Machine
end

section
/-!
The canonical form through the granules and records of near memory, launches, sends of work, and the results of the matrix
unit.
-/
namespace Sys2Proof.Machine
set_option Elab.async false
open Sys2Proof
variable {s : State} {k n d i q t p id va pa : Nat} {h : BitVec 4} {sig : BitVec 7} {x : NmCmd} {r bs : List Byte} {l : Launch}

theorem wf_ite_snd {α : Type} {c : Prop} [Decidable c] {a b : α × State} (ha : a.2.Wf) (hb : b.2.Wf) :
    (if c then a else b).2.Wf := by
  split <;> assumption

theorem wf_ite_thd {α β : Type} {c : Prop} [Decidable c] {a b : α × β × State} (ha : a.2.2.Wf) (hb : b.2.2.Wf) :
    (if c then a else b).2.2.Wf := by
  split <;> assumption

section
variable (hs : s.Wf)
include hs

/-! Near memory (R434, R435, R439). -/

theorem wf_nmFetch {tc : BitVec 3} : (nmFetch d pa n s tc).2.2.Wf := aside_nmFetch.wf hs

theorem wf_nmPoison : (nmPoison x s).Wf := wf_onNmHandle hs

theorem wf_nmGranule : (nmGranule i x r s).Wf := by
  unfold nmGranule
  dsimp only
  split
  · next heq => exact wf_snd heq (wf_nmXlate hs)
  · next heq =>
    have h1 := wf_snd heq (wf_nmXlate hs)
    split
    · next heq2 => exact wf_snd heq2 (wf_ite_snd h1 (wf_nmXlate h1))
    · next pa s2 heq2 =>
      have h2 := wf_snd heq2 (wf_ite_snd h1 (wf_nmXlate h1))
      have hboth : ∀ {c e : Prop} {_ : Decidable c} {_ : Decidable e} {a b : Nat}, (if e then
          nmFetch a b 64 (if c then ([], false, s2) else nmFetch a pa 64 s2 x.tcls).2.2 x.tcls
          else ([], false, (if c then ([], false, s2) else nmFetch a pa 64 s2 x.tcls).2.2)).2.2.Wf :=
        wf_ite_thd (wf_nmFetch (wf_ite_thd h2 (wf_nmFetch h2))) (wf_ite_thd h2 (wf_nmFetch h2))
      exact wf_ite (wf_nmClose (wf_nmPoison hboth))
        (wf_ite (wf_nmClose (wf_onNmHandle (aside_nmWrite.wf hboth))) (wf_setNm (wf_onNmHandle (aside_nmWrite.wf hboth))))

theorem wf_nmStep : (nmStep i x s).Wf := by
  unfold nmStep
  split
  · exact wf_nmPut hs
  · exact wf_nmEnd hs
  · exact wf_ite (wf_nmClose hs) (wf_ite (wf_nmClose hs) (wf_ite (wf_nmClose hs) (wf_nmGranule hs)))

theorem wf_nearMemoryGranule : (nearMemoryGranule n s).Wf := by
  unfold nearMemoryGranule
  split
  · exact hs
  · exact wf_ite hs (wf_pruneFences (wf_nmStep hs))

theorem wf_atPerform {res : Option Nat} : (atPerform i x r pa res s).Wf := by
  have hf := wf_nmFetch (d := homeDie pa) (pa := pa) (n := atSize r) (tc := x.tcls) hs
  unfold atPerform
  refine wf_ite (wf_nmEnd (wf_nmPoison hf)) (wf_onNmHandle (wf_setNm ?_))
  generalize hnew : atNew r _ = o
  cases o with
  | none =>
    split
    · exact aside_nmWrite.wf (aside_applySeen.wf hf)
    · exact hf
  | some y =>
    split
    · exact aside_nmWrite.wf (aside_applySeen.wf (aside_nmWrite.wf hf))
    · exact aside_nmWrite.wf hf

theorem wf_atStep : (atStep i x s).Wf := by
  unfold atStep
  split
  · exact wf_nmEnd hs
  · refine wf_ite (wf_nmEnd hs) (wf_ite (wf_nmEnd hs) ?_)
    split
    · next heq => exact wf_snd heq (wf_nmXlate hs)
    · next heq =>
      have h1 := wf_snd heq (wf_nmXlate hs)
      refine wf_ite (wf_atPerform h1) ?_
      split
      · next heq2 => exact wf_snd heq2 (wf_nmXlate h1)
      · next heq2 => exact wf_atPerform (wf_snd heq2 (wf_nmXlate h1))

theorem wf_nmAtomicRecord : (nmAtomicRecord n s).Wf := by
  unfold nmAtomicRecord
  split
  · exact hs
  · exact wf_ite hs (wf_pruneFences (wf_atStep hs))

theorem wf_nearRead {w : Want} : (nearRead d p id va n w s).2.Wf := by
  have hx := aside_agentXlate (s := s) (d := d) (p := p) (va := BitVec.ofNat 64 va) (agent := id) (w := w) |>.wf hs
  unfold nearRead
  split
  · next heq => exact wf_snd heq hx
  · next heq => exact wf_snd heq hx
  · next heq =>
    exact wf_ite_snd (wf_nmFetch (wf_snd heq hx)) (aside_applySeen.wf (wf_nmFetch (wf_snd heq hx)))

theorem wf_nearUpdate {f : Nat → Nat} : (nearUpdate d p id va n f s).2.Wf := by
  unfold nearUpdate
  split
  · next heq => exact wf_snd heq (wf_nearRead hs)
  · next heq => exact wf_snd heq (wf_nearRead hs)
  · next heq => exact aside_nmWrite.wf (wf_snd heq (wf_nearRead hs))

theorem wf_nearAdd : (nearAdd d p id va n s).2.Wf := wf_nearUpdate hs

/-! Launches (R338, R342). -/

theorem wf_launchCommit : (launchCommit k sig q h bs s).Wf := by
  unfold launchCommit
  exact wf_updDie (wf_updCtx (apart_nameDone.wf (wf_updTask (wf_updQueue hs))))

theorem wf_onLaunchHandle {f : Handle → Handle} : (onLaunchHandle l f s).Wf := wf_ite (wf_updMemberCtx hs) hs

theorem wf_dropLaunch {b : Bool} : (dropLaunch d n b l s).Wf := by
  have hfree : ∀ {c : Prop} {_ : Decidable c} {f : Die → Die} {g : Queue → Queue},
      (if c then (s.updDie d f).updQueue l.queue g else s.updDie d f).Wf := wf_ite (wf_updQueue (wf_updDie hs)) (wf_updDie hs)
  unfold dropLaunch
  refine wf_ite hfree ?_
  dsimp only
  generalize hu : (List.foldl _ _ _ : State) = u
  have hw : u.Wf := by
    rw [← hu]
    exact wf_foldl (fun _ _ hs => wf_onLaunchHandle hs) _ hfree
  exact ⟨hw.mem, hw.host, hw.seats⟩

theorem wf_returnBudget {i n : Nat} {o : Origin} : (returnBudget p o i n s).Wf := (calm_returnBudget hs).1

theorem wf_failLaunch : (failLaunch d n l s).Wf := by
  have hdrop : ∀ {g : Nat → Bool}, (dropRequests d g s).Wf := aside_dropRequests.wf hs
  unfold failLaunch
  exact wf_dropLaunch (wf_returnBudget (wf_onLaunchHandle (wf_ite (wf_updTask hdrop) hdrop)))

theorem wf_borrow : (borrow d p l s).2.Wf := by
  unfold borrow
  refine wf_ite_snd hs ?_
  dsimp only
  split
  · next heq => exact wf_snd heq (wf_nearRead hs)
  · next heq => exact wf_snd heq (wf_nearRead hs)
  · next heq =>
    have h1 := wf_snd heq (wf_nearRead hs)
    refine wf_ite_snd h1 ?_
    split
    · next heq2 => exact wf_snd heq2 (wf_nearAdd h1)
    · next heq2 => exact wf_snd heq2 (wf_nearAdd h1)
    · next heq2 => exact wf_snd heq2 (wf_nearAdd h1)

theorem wf_launchEntryWrite : (launchEntryWrite d n s).Wf := by
  unfold launchEntryWrite
  split
  · exact hs
  · refine wf_ite hs (wf_ite (wf_failLaunch hs) ?_)
    split
    · next heq => exact wf_snd heq (wf_borrow hs)
    · next heq => exact wf_failLaunch (wf_snd heq (wf_borrow hs))
    · next heq =>
      have h2 := fun f => wf_updDie (n := d) (f := f) (wf_snd heq (wf_borrow hs))
      refine wf_ite (h2 _) ?_
      split
      · next heq2 => exact wf_snd heq2 (wf_putEntry (h2 _))
      · next heq2 => exact wf_failLaunch (wf_snd heq2 (wf_putEntry (h2 _)))
      · next heq2 => exact wf_dropLaunch (wf_onLaunchHandle (wf_snd heq2 (wf_putEntry (h2 _))))

@[simp] theorem wf_wsendAccept {r : Word} : (wsendAccept k sig r h bs s).Wf := by
  unfold wsendAccept
  exact wf_withFab (wf_updCtx (aside_newTag.wf hs))

/-! The matrix unit (R243, R244). -/

@[simp] theorem wf_pipeTake {p : Pipe} : (p.take k s).Wf := by
  unfold Pipe.take
  dsimp only
  split
  · exact wf_updCore hs
  · exact wf_updCore hs
  · exact wf_updCtx hs

@[simp] theorem wf_pendRows {fs : List (Nat × Flags)} : (pendRows k fs s).Wf := by
  unfold pendRows
  exact wf_updCtx hs

@[simp] theorem wf_putRow {t : Tap} {xs : List (BitVec 32 × Bool)} : (putRow k t xs s).Wf := by
  unfold putRow
  exact wf_ite (wf_tapWrite hs) (wf_foldl (fun _ _ hs => wf_updCtx hs) _ (wf_tapWrite hs))

end

end Sys2Proof.Machine
end

section
/-!
The canonical form through budgets, events, barriers, streams, and the end of a member.
-/
namespace Sys2Proof.Machine
set_option Elab.async false
open Sys2Proof
variable {s : State} {k n d st m p sc id : Nat}

section
variable (hs : s.Wf)
include hs

/-! Budgets and events (R89, R102). -/

@[simp] theorem wf_topupEffect {b : Bool} {x : Nat} : (topupEffect k b x s).Wf := by
  unfold topupEffect
  exact wf_updCtx (wf_updPart hs)

theorem wf_withEvents {l : List EvMsg} : State.Wf { s with events := l } := ⟨hs.mem, hs.host, hs.seats⟩

@[simp] theorem wf_sigevEffect {e : Scope} {t : Nat} {ev : BitVec 4} : (sigevEffect k e t ev s).Wf := by
  unfold sigevEffect
  split
  · exact wf_withEvents hs
  · exact wf_updCtx hs

/-! Barriers (R90, R490). -/

theorem wf_updBar {f : PodBar → PodBar} : (updBar p sc id f s).Wf := wf_withFab hs
theorem wf_needBar : (needBar p sc id s).Wf := wf_ite hs (wf_withFab hs)
theorem wf_onArrival {f : Arrival → Arrival} : (onArrival f st m s).Wf := (calm_onArrival hs).1
theorem wf_recheckBars : (recheckBars st s).Wf := (calm_recheckBars hs).1

theorem wf_releasePod : (releasePod p sc id s).Wf := by
  unfold releasePod
  split
  · exact hs
  · exact wf_ite hs (wf_ite (wf_withFab hs) (wf_foldl (fun _ _ hs => wf_onArrival hs) _ (wf_withFab hs)))

theorem wf_rootArrival {pkg : BitVec 18} : (rootArrival pkg p sc id s).Wf := by
  have hbar : ∀ {f : PodBar → PodBar}, (updBar p sc id f (needBar p sc id s)).Wf := wf_updBar (wf_needBar hs)
  unfold rootArrival
  dsimp only
  split
  · exact wf_ite (wf_releasePod (wf_foldl (fun _ _ hs => wf_send hs) _ hbar)) hbar
  · exact hbar

theorem wf_reportBar : (reportBar p sc id s).Wf := by
  unfold reportBar
  split
  · exact hs
  · refine wf_ite hs ?_
    dsimp only
    generalize hu : (List.foldl _ _ _ : State) = u
    have hw : u.Wf := by
      rw [← hu]
      exact wf_foldl (fun _ _ hs => wf_onArrival hs) _ (wf_updBar hs)
    exact wf_ite (wf_rootArrival hw) (wf_send hw)

theorem wf_podArrive : (podArrive k sc id s).Wf := by
  unfold podArrive
  exact wf_reportBar (wf_updBar (wf_needBar hs))

theorem wf_breakBars {pkg : BitVec 18} : (breakBars pkg s).Wf := wf_withFab hs

theorem wf_arriveBar : (arriveBar k sc id s).Wf := by
  unfold arriveBar
  exact wf_ite hs (wf_ite (calm_tryRelease (wf_updCtx hs)).1 (wf_podArrive (wf_updCtx hs)))

/-! Streams (R295 to R299, R313). -/

theorem wf_nextOrder : (nextOrder d s).2.Wf := by
  unfold nextOrder
  dsimp only
  exact wf_updDie hs
theorem wf_dropGhosts {f : Ghost → Bool} : (dropGhosts d st m f s).Wf := wf_ite hs (wf_updDie hs)
theorem wf_dropStreams : (dropStreams k s).Wf := aside_dropStreams.wf hs

theorem wf_yieldStreams : (yieldStreams k s).Wf := by
  unfold yieldStreams
  exact wf_ite (wf_dropStreams hs) (wf_updDie (wf_dropStreams hs))

theorem wf_landStream {x : Stream} {i : Nat} {q : BitVec 128} : (landStream x i q s).Wf := wf_landMessage hs

theorem wf_poisonStreams : (poisonStreams k s).Wf := by
  refine wf_dropStreams (wf_foldl (fun s x hs => ?_) _ hs)
  split
  · exact wf_landStream hs
  · exact hs

/-! The commands of a member that ends (R93, R275). -/

theorem wf_settleAccess : (settleAccess n s).Wf := by
  unfold settleAccess
  split
  · exact hs
  · refine wf_ite hs ?_
    split
    · exact wf_ite (aside_settlePort.wf hs) (aside_serveAcc.wf (aside_settlePort.wf hs))
    · exact wf_hostAccess hs
    · exact hs

theorem wf_settleSeat : (settleSeat k s).Wf := by
  unfold settleSeat
  exact wf_withAccs (wf_foldl (fun _ _ hs => wf_settleAccess hs) _ hs)

@[simp] theorem wf_cancelHandle : (cancelHandle st m n s).Wf := (steady_cancelHandle hs).wf
theorem wf_cancelAll : (cancelAll st m s).Wf := wf_foldl (fun _ _ hs => wf_cancelHandle hs) _ hs

theorem wf_endCommands : (endCommands st m s).Wf := by
  unfold endCommands
  refine wf_foldl (fun s h hs => wf_ite (inside_freeStackCtx.wf (wf_updMemberCtx hs)) hs) _ ?_
  split
  · exact wf_settleSeat (wf_cancelAll hs)
  · exact wf_cancelAll hs

theorem wf_freeSeat : (freeSeat k s).Wf := (freeSeat_idle hs).2.1

theorem wf_fuseTrapAt : (fuseTrapAt k m s).Wf := by
  unfold fuseTrapAt
  dsimp only
  split
  · next heq => exact wf_takeTrap (wf_snd heq (apart_fetch.wf hs))
  · next heq => exact wf_takeTrap (wf_snd heq (apart_fetch.wf hs))

theorem wf_endFuseWaits : (endFuseWaits st m s).Wf := by
  refine wf_foldl (fun s j hs => ?_) _ hs
  split
  · exact wf_ite hs (wf_fuseTrapAt hs)
  · exact hs

theorem wf_leaveMember : (leaveMember k s).Wf := by
  unfold leaveMember
  refine wf_recheckBars (wf_endFuseWaits (wf_freeSeat (wf_updMember ?_)))
  exact aside_forgetGhosts.wf (wf_dropStreams (apart_closeBindings.wf hs))

theorem wf_exitMember : (exitMember k s).Wf := by
  unfold exitMember
  exact (calm_afterLeave (wf_leaveMember (wf_foldl (fun _ _ hs => wf_cancelOne hs) _ hs))).1

end

end Sys2Proof.Machine
end

section
/-!
The canonical form through the effects of slots: what each instruction does at its commit (R152) and while it holds.
-/
namespace Sys2Proof.Machine
set_option Elab.async false
open Sys2Proof
variable {s : State} {k lat : Nat} {g : Guard} {c : Ctx} {o : SlotOut} {rd ra rb : BitVec 6} {pd : BitVec 4} {us : List Res}
  {sig : BitVec 7} {h : BitVec 4} {t : VTy} {d a b : VOp} {rm : RM} {r : MRows} {tile : BitVec 1} {n lag : BitVec 7} {kd : MKind}

/-- Each effect of a slot keeps the canonical form. -/
structure Sound (o : SlotOut) : Prop where
  write : ∀ s : State, s.Wf → (o.write s).Wf := by intro s hs; simp [hs, sResult, pResult, sF32, vOut]
  desc : ∀ s : State, s.Wf → (o.desc s).Wf := by intro s hs; simp [hs, sResult, pResult, sF32, vOut]
  tick : ∀ s : State, s.Wf → (o.tick s).Wf := by intro s hs; simp [hs, sResult, pResult, sF32, vOut]
  accept : ∀ s : State, s.Wf → (o.accept s).Wf := by intro s hs; simp [hs, sResult, pResult, sF32, vOut]
  onHold : ∀ s : State, s.Wf → (o.onHold s).Wf := by intro s hs; simp [hs, sResult, pResult, sF32, vOut]

theorem sound_none : Sound {} := {}

theorem sound_slotBrm {ts : List BrmTest} : Sound (slotBrm ts k s) := by
  unfold slotBrm
  exact {}

theorem sound_guarded (ho : Sound o) : Sound (guarded g c o) := by
  unfold guarded
  split
  · exact { ho with }
  · exact {}

theorem wf_ite_fun {p : Prop} [Decidable p] {f g : State → State} (hf : ∀ s, s.Wf → (f s).Wf) (hg : ∀ s, s.Wf → (g s).Wf)
    (s : State) (hs : s.Wf) : ((if p then f else g) s).Wf := by
  split
  · exact hf s hs
  · exact hg s hs

/-- An effect that may be absent. -/
theorem wf_ite_id {p : Prop} [Decidable p] {f : State → State} (hf : ∀ s, s.Wf → (f s).Wf) (s : State) (hs : s.Wf) :
    ((if p then f else id) s).Wf := wf_ite_fun hf (fun _ hs => hs) s hs

/-! Scalar instructions. -/

theorem sound_sResult {v : Word} : Sound (sResult k rd lat us v) := {}
theorem sound_pResult {v : Bool} : Sound (pResult k pd lat us v) := {}
theorem sound_sF32 {v : Nat × Flags} : Sound (sF32 k rd us v) := {}

theorem sound_bin {f : Word → Word → Word} : Sound (bin f lat g rd ra rb k s) := sound_guarded sound_sResult
theorem sound_un {f : Word → Word} : Sound (un f lat g rd ra k s) := sound_guarded sound_sResult
theorem sound_pbin {f : Bool → Bool → Bool} {pa pb : BitVec 4} : Sound (pbin f g pd pa pb k s) := sound_guarded sound_pResult
theorem sound_fbin {f : RM → FVal → FVal → Nat × Flags} : Sound (fbin f g rd ra rb k s) := sound_guarded sound_sF32
theorem sound_fmm {m : Bool} : Sound (fmm m g rd ra rb k s) := sound_guarded sound_sF32

theorem sound_slotSpst {x : BitVec 9} : Sound (slotSpst g ra x k s) := sound_guarded {}
theorem sound_slotCsrr {x : BitVec 12} : Sound (slotCsrr g rd x k s) := sound_guarded {}
theorem sound_slotCsrw {x : BitVec 12} : Sound (slotCsrw g ra x k s) := sound_guarded {}
theorem sound_slotFcmp {x : Cond} : Sound (slotFcmp g pd x ra rb k s) := sound_guarded {}
theorem sound_slotFcvti : Sound (slotFcvti g rd ra k s) := sound_guarded {}

/-! Signals (R150, R165 to R172). -/

theorem sound_slotTick {x : BitVec 8} : Sound (slotTick g x k s) :=
  sound_guarded { tick := fun _ hs => wf_foldl (fun _ _ hs => wf_advances hs) _ (wf_updCtx hs) }

theorem sound_slotAdv {x : BitVec 8} : Sound (slotAdv g n x k s) := sound_guarded {}

theorem sound_slotSigset {f : BitVec 4} {l : BitVec 3} : Sound (slotSigset g ra n f l k s) := sound_guarded {}

theorem sound_slotSigget {f : BitVec 4} {l : BitVec 3} : Sound (slotSigget g rd n f l k s) := sound_guarded {}

theorem sound_slotSigclr : Sound (slotSigclr g n k s) := sound_guarded {}
theorem sound_slotFillmk {x : BitVec 8} : Sound (slotFillmk g n x k s) := sound_guarded {}

theorem sound_slotWaitfill {x : BitVec 8} : Sound (slotWaitfill g rd n x k s) := sound_guarded {}

theorem sound_slotTaprd {x : BitVec 8} : Sound (slotTaprd g rd n x k s) := sound_guarded {}
theorem sound_slotTapwr {x : BitVec 8} : Sound (slotTapwr g ra n x k s) := sound_guarded {}

/-! Vector instructions. -/

theorem sound_vOut {srcs : List (VOp × VTy)} {vals : List Nat × Flags} : Sound (vOut s k c srcs d t rm lat vals) := {}

theorem sound_vbin {f : RM → VTy → Nat → Nat → Nat × Flags} : Sound (vbin f lat g t d a b rm k s) := sound_guarded sound_vOut
theorem sound_vbits {f : BitVec 32 → BitVec 32 → BitVec 32} : Sound (vbits f g d a b k s) := sound_vbin
theorem sound_vtri {f : RM → VTy → Nat → Nat → Nat → Nat × Flags} : Sound (vtri f lat g t d a b rm k s) :=
  sound_guarded sound_vOut
theorem sound_vun {f : RM → VTy → Nat → Nat × Flags} : Sound (vun f lat g t d a rm k s) := sound_guarded sound_vOut
theorem sound_vreduce {f : RM → VTy → Nat → Nat → Nat × Flags} : Sound (vreduce f g t d a rm k s) := sound_guarded sound_vOut

theorem sound_slotVtapx : Sound (slotVtapx g t d a b k s) := by
  unfold slotVtapx
  dsimp only
  split
  · exact sound_guarded {}
  · exact sound_guarded {}
  · exact sound_guarded {}
  · exact sound_guarded {}

/-! Matrix and affine instructions. -/

section
variable {p : Pipe} {reads writes : List (Res × Nat)} {toll : Nat} {eff : State → State} {fs : List (Nat × Flags)}

theorem sound_mOut (ho : Sound o) (he : ∀ s, s.Wf → (eff s).Wf) : Sound (mOut s k o p reads writes toll eff fs) where
  write s hs := wf_pendRows (wf_pipeTake (he s hs))
  desc := ho.desc
  tick := ho.tick
  accept := ho.accept
  onHold := ho.onHold

/-- A command of the matrix unit that changes the context of its seat. -/
theorem sound_mOut_ctx {f : Ctx → Ctx} (ho : Sound o) : Sound (mOut s k o p reads writes toll (fun s => s.updCtx k f) fs) :=
  sound_mOut ho fun _ hs => wf_updCtx hs

end

theorem sound_mReadOut {t : Tap} {rows elems last : Nat} {pl : Option Nat} {x : Bool} :
    Sound (mReadOut s k c t rows elems pl x last) := by
  unfold mReadOut
  exact {}

theorem sound_mWriteOut {x : Tap} {l : List Tap} : Sound (mWriteOut s k x l) := by
  unfold mWriteOut
  exact {}

theorem Sound.withHold {x : Hold} {y : Bool} (ho : Sound o) : Sound { o with hold := x, other := y } := { ho with }
theorem Sound.withMarks {l : List (Res × Bool × Nat)} (ho : Sound o) : Sound { o with marks := l } := { ho with }

theorem sound_latchOut {x : Bool} {l : BitVec 1} : Sound (latchOut x g l n lag kd k s) := by
  unfold latchOut
  exact sound_guarded (sound_mOut_ctx sound_mReadOut).withHold

theorem sound_mmaOut {x : Bool} {l : BitVec 1} : Sound (mmaOut x g tile l n lag r kd k s) := by
  unfold mmaOut
  exact sound_guarded (sound_mOut_ctx sound_mReadOut).withMarks

theorem sound_asetOut {x : BitVec 32} : Sound (asetOut x g tile r k s) := sound_guarded (sound_mOut_ctx sound_none)

theorem sound_mapOut {f : PairP → Nat → PairP × Flags} {x y : List (Nat → Nat → Res)} :
    Sound (mapOut f x y g tile n lag r k s) := by
  unfold mapOut
  exact sound_guarded (sound_mOut_ctx sound_mReadOut)

theorem sound_ardOut {x : Bool} : Sound (ardOut x g tile n lag r k s) := by
  unfold ardOut
  exact sound_guarded (sound_mOut sound_mWriteOut fun _ hs => wf_foldl (fun _ _ hs => wf_putRow hs) _ hs)

theorem sound_scanOut {x : Bool} {cy : BitVec 2} : Sound (scanOut x g tile cy r k s) := by
  unfold scanOut
  refine sound_guarded (sound_mOut sound_none fun _ hs => ?_)
  dsimp only
  exact wf_updCtx hs

theorem sound_slotCyset {cy : BitVec 2} : Sound (slotCyset g cy n lag k s) := by
  unfold slotCyset
  exact sound_guarded (sound_mOut_ctx sound_mReadOut)

theorem sound_slotCysetId {cy : BitVec 2} : Sound (slotCysetId g cy k s) := sound_guarded (sound_mOut_ctx sound_none)

theorem sound_slotCyget {cy : BitVec 2} : Sound (slotCyget g cy n lag k s) := by
  unfold slotCyget
  exact sound_guarded (sound_mOut sound_mWriteOut fun _ hs => wf_putRow hs)

/-! Commands of the engines. -/

theorem sound_copyForm {f : CopyForm} : Sound (f.slot g k s) := sound_guarded {}
theorem sound_slotScacc {x : XsOps} : Sound (slotScacc g x k s) := sound_guarded {}
theorem sound_cancelSlot : Sound (cancelSlot g h k s) := sound_guarded {}

theorem sound_slotCwait : Sound (slotCwait g h k s) :=
  sound_guarded { accept := fun _ hs => wf_ite (wf_updCtx hs) hs }

theorem sound_slotDset {x f : BitVec 4} : Sound (slotDset g x f ra k s) := sound_guarded {}

theorem sound_fenceSlot {nm : Bool} {sc : Scope} {x : FenceKind} {m : BitVec 8} : Sound (fenceSlot nm g sc x m k s) := sound_guarded {}

theorem sound_nmSlot {x : Bool} : Sound (nmSlot x g sig ra h k s) := sound_guarded {}

theorem sound_slotLaunch : Sound (slotLaunch g sig ra h k s) :=
  sound_guarded { accept := fun _ hs => (steady_launchAccept (wf_launchCommit hs)).wf }

theorem sound_slotWsend : Sound (slotWsend g sig ra h k s) := sound_guarded {}

/-! Channels. -/

theorem wf_sendRemoteMsg {x : Word} {path : SendPath} {us : List UnitW} {q : BitVec 128} {seq : Nat} (hs : s.Wf) :
    (sendRemoteMsg k x path us q seq s).Wf := aside_sendRemoteMsg.wf hs

theorem sound_chsendSlot {x : Bool} : Sound (chsendSlot x g n ra rd k s) :=
  sound_guarded {
    accept := wf_ite_fun (fun _ hs => hs) (wf_ite_fun (fun _ hs => wf_sendRemoteMsg hs) fun _ hs => wf_sendLocal hs)
    onHold := wf_ite_id fun _ hs => apart_armTrigger.wf hs }

theorem sound_slotChbind : Sound (slotChbind g n ra rd k s) :=
  sound_guarded { accept := wf_ite_id fun _ hs => apart_bindReader.wf hs }

theorem sound_slotChbindW : Sound (slotChbindW g ra rd k s) := by
  unfold slotChbindW
  dsimp only
  split
  · exact sound_guarded {
                          onHold := wf_ite_id fun _ hs => wf_sendRequest hs }
  · exact sound_guarded { accept := wf_ite_id fun _ hs => apart_bindWriter.wf hs }

theorem sound_slotChclose : Sound (slotChclose g ra rd k s) :=
  sound_guarded { accept := wf_ite_id fun _ hs => apart_closeReader.wf hs }

theorem sound_slotChcloseW : Sound (slotChcloseW g ra rd k s) := by
  unfold slotChcloseW
  dsimp only
  split
  · refine sound_guarded { accept := fun s hs => ?_ }
    dsimp only
    generalize State.proxy _ _ _ = px
    cases px with
    | some p => exact aside_closeProxy.wf hs
    | none => exact hs
  · exact sound_guarded { accept := wf_ite_id fun _ hs => apart_closeWriter.wf hs }

theorem sound_slotChstat : Sound (slotChstat g ra rd k s) := by
  unfold slotChstat
  dsimp only
  split
  · exact sound_guarded {
                          onHold := wf_ite_id fun _ hs => wf_sendRequest hs }
  · exact sound_guarded {}

/-! Every instruction. -/

theorem sound_slotOf {i : Instr} : Sound (slotOf i k s) := by
  cases i with
  | nop | br | jr | call | callr | ret | loop | loopr | ypt | yield | resume | exit | trap | waitev | bar | fuse | decouple
  | rejoin => dsimp only [slotOf]; exact sound_guarded {}
  | brm => dsimp only [slotOf]; exact sound_slotBrm
  | lexit | cont => dsimp only [slotOf]; exact sound_guarded {}
  | tick => dsimp only [slotOf]; exact sound_slotTick
  | adv => dsimp only [slotOf]; exact sound_slotAdv
  | topup => dsimp only [slotOf]; exact sound_guarded {}
  | sigev => dsimp only [slotOf]; exact sound_guarded {}
  | add | sub | mul | mulh | mulhu | div | divu | rem | and | or | xor | andn | shl | shr | sar | min | max | minu | maxu =>
    dsimp only [slotOf]; exact sound_bin
  | clz | popc | addi | andi | ori | xori | shli | shri | sari | movhi => dsimp only [slotOf]; exact sound_un
  | sel | movi | spld | lidx => dsimp only [slotOf]; exact sound_guarded sound_sResult
  | cmp | cmpi | pset => dsimp only [slotOf]; exact sound_guarded sound_pResult
  | pand | por | pxor | pandn => dsimp only [slotOf]; exact sound_pbin
  | spst => dsimp only [slotOf]; exact sound_slotSpst
  | csrr => dsimp only [slotOf]; exact sound_slotCsrr
  | csrw => dsimp only [slotOf]; exact sound_slotCsrw
  | fadd | fsub | fmul => dsimp only [slotOf]; exact sound_fbin
  | fmin | fmax => dsimp only [slotOf]; exact sound_fmm
  | ffma | icvtf => dsimp only [slotOf]; exact sound_guarded sound_sF32
  | fcmp => dsimp only [slotOf]; exact sound_slotFcmp
  | fcvti => dsimp only [slotOf]; exact sound_slotFcvti
  | sigset => dsimp only [slotOf]; exact sound_slotSigset
  | sigget => dsimp only [slotOf]; exact sound_slotSigget
  | sigclr => dsimp only [slotOf]; exact sound_slotSigclr
  | fillmk => dsimp only [slotOf]; exact sound_slotFillmk
  | waitfill => dsimp only [slotOf]; exact sound_slotWaitfill
  | taprd => dsimp only [slotOf]; exact sound_slotTaprd
  | tapwr => dsimp only [slotOf]; exact sound_slotTapwr
  | vadd | vsub | vmul | vmin | vmax | vcmpeq | vcmplt | vcmple => dsimp only [slotOf]; exact sound_vbin
  | vand | vor | vxor | vshl | vshr | vsar => dsimp only [slotOf]; exact sound_vbits
  | vfma | vfms | vsel => dsimp only [slotOf]; exact sound_vtri
  | vabs | vneg | vmov | vrcp | vrsq | vexp2 | vlog2 => dsimp only [slotOf]; exact sound_vun
  | vrsum | vrmax => dsimp only [slotOf]; exact sound_vreduce
  | vbcast | vscale | vcvt | vperm | vslide | viota => dsimp only [slotOf]; exact sound_guarded sound_vOut
  | vtapx => dsimp only [slotOf]; exact sound_slotVtapx
  | mma | mmaz => dsimp only [slotOf]; exact sound_mmaOut
  | latch | latcht => dsimp only [slotOf]; exact sound_latchOut
  | asetId | asetZero => dsimp only [slotOf]; exact sound_asetOut
  | again | aoff | apply => dsimp only [slotOf]; exact sound_mapOut
  | ardOff | ardGain => dsimp only [slotOf]; exact sound_ardOut
  | scan | scanUpd => dsimp only [slotOf]; exact sound_scanOut
  | cyset => dsimp only [slotOf]; exact sound_slotCyset
  | cysetId => dsimp only [slotOf]; exact sound_slotCysetId
  | cyget => dsimp only [slotOf]; exact sound_slotCyget
  | cld | cst | clda | cstr | cgath | cscat | csub | cpull => dsimp only [slotOf]; exact sound_copyForm
  | scacc => dsimp only [slotOf]; exact sound_slotScacc
  | ccancel | cunsub => dsimp only [slotOf]; exact sound_cancelSlot
  | cwait => dsimp only [slotOf]; exact sound_slotCwait
  | dset => dsimp only [slotOf]; exact sound_slotDset
  | fence | nmfence => dsimp only [slotOf]; exact sound_fenceSlot
  | nmcmd | nmatom => dsimp only [slotOf]; exact sound_nmSlot
  | chsend | chsendTry => dsimp only [slotOf]; exact sound_chsendSlot
  | chbind => dsimp only [slotOf]; exact sound_slotChbind
  | chbindW => dsimp only [slotOf]; exact sound_slotChbindW
  | chclose => dsimp only [slotOf]; exact sound_slotChclose
  | chcloseW => dsimp only [slotOf]; exact sound_slotChcloseW
  | chstat => dsimp only [slotOf]; exact sound_slotChstat
  | launch => dsimp only [slotOf]; exact sound_slotLaunch
  | wsend => dsimp only [slotOf]; exact sound_slotWsend
  | _ => exact sound_none

end Sys2Proof.Machine
end

section
/-!
The canonical form through a bundle: its checks, its commit, its holds and its traps (R56, R100 to R105, R152, R308).
-/
namespace Sys2Proof.Machine
set_option Elab.async false
open Sys2Proof
variable {s : State} {k st : Nat} {a : Word} {b : Fetched} {ctl : Ctl} {after : Word} {os : List (Nat × SlotOut)}
  {ev : List (Nat × List (Nat × SlotOut))} {ks : List Nat} {h : Hold} {holds : List (Nat × Hold)} {arr : Arrival}

/-- A fold whose step is good for the elements of its list. -/
theorem wf_foldl_mem {α : Type} {f : State → α → State} : ∀ (xs : List α) {s : State},
    (∀ s, ∀ x ∈ xs, s.Wf → (f s x).Wf) → s.Wf → (xs.foldl f s).Wf
  | [], _, _, hs => hs
  | x :: xs, _, hf, hs => wf_foldl_mem xs (fun s y hy => hf s y (List.mem_cons_of_mem _ hy)) (hf _ x List.mem_cons_self hs)

/-! The slots of a bundle. -/

def AllSound (os : List (Nat × SlotOut)) : Prop := ∀ o ∈ os, Sound o.2

/-- The slots of every member of a bundle. -/
def SoundBlock (ev : List (Nat × List (Nat × SlotOut))) : Prop := ∀ x ∈ ev, AllSound x.2

theorem sound_evalSlot {x : Slot} : Sound (evalSlot x k s) := by
  unfold evalSlot
  split
  · unfold maskedSlot
    split
    · exact {}
    · exact {}
  · exact sound_slotOf

theorem sound_settle {o : SlotOut} (ho : Sound o) : Sound (o.settle s) := { ho with }

theorem allSound_evalSlots : AllSound (evalSlots b k s) := by
  intro o ho
  simp only [evalSlots, List.mem_map] at ho
  obtain ⟨-, ⟨x, -, rfl⟩, rfl⟩ := ho
  exact sound_settle sound_evalSlot

theorem soundBlock_evalSlots : SoundBlock (ks.map fun k => (k, evalSlots b k s)) := by
  intro x hx
  obtain ⟨k, -, rfl⟩ := List.mem_map.mp hx
  exact allSound_evalSlots

theorem SoundBlock.filter {f : Nat × List (Nat × SlotOut) → Bool} (he : SoundBlock ev) : SoundBlock (ev.filter f) :=
  fun x hx => he x (List.mem_filter.mp hx).1

theorem SoundBlock.flat (he : SoundBlock ev) : AllSound (ev.flatMap (·.2)) := fun o ho => by
  obtain ⟨x, hx, ho⟩ := List.mem_flatMap.mp ho
  exact he x hx o ho

/-! Checks. -/

section
variable (hs : s.Wf)
include hs

theorem wf_delimitAt : (delimitAt k a s).2.Wf := apart_delimitAt.wf hs

theorem wf_nearLoopEnd : (nearLoopEnd k b s).2.Wf := by
  unfold nearLoopEnd
  split
  · exact hs
  · refine wf_ite_snd hs (wf_ite_snd hs (wf_ite_snd hs (wf_ite_snd hs ?_)))
    split
    · next heq => exact wf_snd heq (wf_delimitAt hs)
    · next heq => exact wf_snd heq (wf_delimitAt hs)

theorem wf_staticFault : (staticFault k b s).2.Wf := by
  unfold staticFault
  exact wf_ite_snd hs (wf_ite_snd (wf_ite_snd (wf_nearLoopEnd hs) hs) (wf_ite_snd (wf_ite_snd (wf_nearLoopEnd hs) hs)
    (wf_ite_snd (wf_ite_snd (wf_nearLoopEnd hs) hs) (wf_ite_snd (wf_nearLoopEnd hs) hs))))

theorem wf_ahead : (ahead k b ctl s).2.Wf := by
  unfold ahead
  dsimp only
  split
  · split
    · next heq => exact wf_snd heq (wf_delimitAt hs)
    · next heq =>
      have h1 := wf_snd heq (wf_delimitAt hs)
      split
      · next heq2 => exact wf_snd heq2 (wf_delimitAt h1)
      · next heq2 => exact wf_snd heq2 (wf_delimitAt h1)
  · split
    · next heq => exact wf_snd heq (wf_delimitAt hs)
    · next heq => exact wf_snd heq (wf_delimitAt hs)
  · exact hs

theorem wf_verdict : (verdict b ks ev s).2.Wf := by
  have hfault := wf_staticFault (k := ks.headD 0) (b := b) hs
  unfold verdict
  dsimp only
  split
  · exact hfault
  · refine wf_ite_snd hfault (wf_ite_snd hfault (wf_ite_snd hfault ?_))
    split
    · next heq => exact wf_snd heq (wf_ahead hfault)
    · next heq => exact wf_snd heq (wf_ahead hfault)

/-! Commit (R54, R95, R97, R152). -/

theorem wf_effects (ho : AllSound os) : (effects os s).Wf :=
  wf_foldl_mem _ (fun s o hm hs => (ho o hm).accept s hs) (wf_foldl_mem _ (fun s o hm hs => (ho o hm).tick s hs)
    (wf_foldl_mem _ (fun s o hm hs => (ho o hm).desc s hs) (wf_foldl_mem _ (fun s o hm hs => (ho o hm).write s hs) hs)))

theorem wf_useCore {lead : Nat} {x : Bool} : (useCore b os k lead x s).Wf := wf_updCore hs

theorem wf_commitSeat {lead : Nat} (ho : AllSound os) : (commitSeat b ctl after os lead k s).Wf := by
  unfold commitSeat
  exact wf_useCore (wf_updCtx (wf_effects hs ho))

theorem wf_yieldBlock {c : BitVec 2} : (yieldBlock ks c s).Wf := wf_foldl (fun _ _ hs => wf_ite (wf_beginYield hs) hs) _ hs

theorem wf_afterCommit {x y : Bool} : (afterCommit ks ctl x y s).Wf := by
  unfold afterCommit
  split
  · exact wf_foldl (fun _ _ hs => wf_exitMember hs) _ hs
  · exact wf_ite hs (wf_ite (wf_yieldBlock hs) (wf_ite (wf_yieldBlock hs) hs))

theorem wf_followLead : (followLead ks s).Wf := wf_ite (wf_foldl (fun _ _ hs => wf_updCtx hs) _ hs) hs

theorem wf_commitBlock (he : SoundBlock ev) : (commitBlock b ctl after ev s).Wf := by
  unfold commitBlock
  refine wf_afterCommit (wf_followLead (wf_foldl (fun _ _ hs => wf_updCtx hs) _ ?_))
  exact wf_foldl_mem _ (fun s x hx hs => wf_commitSeat hs (he x hx)) hs

theorem wf_firstCycle : (firstCycle b after ev s).Wf := by
  unfold firstCycle
  exact wf_foldl (fun _ _ hs => wf_useCore (wf_updSeat hs)) _ hs

theorem wf_finish (he : SoundBlock ev) : (finish b ctl after ev s).Wf := wf_ite (wf_firstCycle hs) (wf_commitBlock hs he)

theorem wf_secondCycle : (secondCycle k s).Wf := by
  unfold secondCycle
  split
  · exact hs
  · split
    · exact hs
    · exact wf_commitBlock (wf_foldl (fun _ _ hs => wf_updSeat hs) _ hs) soundBlock_evalSlots

/-! Traps and holds of a block (R100 to R105, R308). -/

theorem wf_trapBlock {fs : List (Nat × TrapIn)} : (trapBlock b ks fs s).Wf := by
  refine wf_foldl (fun s k hs => ?_) _ hs
  split
  · exact wf_takeTrap hs
  · exact wf_takeTrap hs

theorem wf_fuseExpire : (fuseExpire k s).Wf := by
  unfold fuseExpire
  dsimp only
  split
  · refine wf_foldl (fun s j hs => wf_ite ?_ hs) _ hs
    split
    · exact wf_fuseTrapAt hs
    · exact hs
  · exact hs

theorem wf_stallBlock : (stallBlock b holds ev s).Wf := by
  unfold stallBlock
  exact wf_foldl (fun _ _ hs => wf_ite (wf_updCtx hs) hs) _ hs

theorem wf_holdOutcome : (holdOutcome b h holds ev s).Wf := by
  unfold holdOutcome
  exact wf_ite (wf_trapBlock hs) (wf_ite (wf_fuseExpire hs) (wf_ite (wf_yieldBlock hs) (wf_ite (wf_trapBlock hs) hs)))

theorem wf_heldCycle (he : SoundBlock ev) : (heldCycle b h holds ev s).Wf := by
  unfold heldCycle
  exact wf_holdOutcome (wf_stallBlock (wf_foldl_mem _ (fun s o ho hs => wf_ite hs ((he.flat o ho).onHold s hs)) hs))

/-! Barriers, FUSE and REJOIN (R90, R304, R310). -/

theorem wf_barCycle (he : SoundBlock ev) : (barCycle b ev s).Wf := wf_heldCycle hs he

theorem wf_joinFail {x : Nat × List (Nat × SlotOut)} : (joinFail b arr x s).Wf := by
  unfold joinFail
  split
  · exact wf_trapBlock hs
  · exact wf_yieldBlock hs
  · exact hs
  · exact hs

theorem wf_joinBlock {ms : List Nat} : (joinBlock b k arr st ms h s).Wf := by
  have hfail : ∀ l : List (Nat × List (Nat × SlotOut)), (l.foldl (fun s x => joinFail b arr x s) s).Wf :=
    fun l => wf_foldl (fun _ _ hs => wf_joinFail hs) l hs
  unfold joinBlock
  exact wf_ite (wf_finish hs soundBlock_evalSlots) (wf_ite (hfail _) (wf_heldCycle (hfail _) soundBlock_evalSlots.filter))

theorem wf_clashBlock {ms : List Nat} : (clashBlock st ms s).Wf := wf_foldl (fun _ _ hs => wf_fuseTrapAt hs) _ hs

theorem wf_meetAt {span : Nat} (he : SoundBlock ev) : (meetAt b k arr span ev h s).Wf := by
  unfold meetAt
  dsimp only
  split
  · exact wf_heldCycle (wf_updCtx hs) he
  · exact wf_ite (wf_joinBlock (wf_updCtx hs)) (wf_heldCycle (wf_updCtx (wf_updCtx hs)) he)
  · exact wf_clashBlock (wf_updCtx hs)

theorem wf_lineCycle {span : Nat} (he : SoundBlock ev) : (lineCycle b k arr span ev h s).Wf := by
  unfold lineCycle
  dsimp only
  split
  · exact wf_heldCycle hs he
  · refine wf_ite ?_ (wf_heldCycle (wf_updCtx hs) he)
    split
    · exact wf_heldCycle (wf_updCtx hs) he
    · exact wf_joinBlock (wf_updCtx hs)
    · exact wf_clashBlock (wf_updCtx hs)

theorem wf_arrivals : (ev.foldl (fun s x => match barOf x.2 with
    | some (sc, id) => arriveBar x.1 sc id s
    | none => s) s).Wf := by
  refine wf_foldl (fun s x hs => ?_) _ hs
  split
  · exact wf_arriveBar hs
  · exact hs

theorem wf_passBlock (he : SoundBlock ev) : (passBlock b after ev s).Wf := by
  unfold passBlock
  dsimp only
  split
  · exact wf_meetAt hs he
  · exact wf_meetAt hs he
  · exact wf_ite (wf_finish (wf_arrivals hs) he) (wf_barCycle (wf_arrivals hs) he)

theorem wf_waitCycle (he : SoundBlock ev) : (waitCycle b ev s).Wf := by
  unfold waitCycle
  dsimp only
  split
  · exact wf_lineCycle hs he
  · exact wf_lineCycle hs he
  · exact wf_ite (wf_finish hs he) (wf_barCycle hs he)

/-! Issue. -/

theorem wf_bankDelay : (bankDelay b ev s).Wf := by
  refine wf_ite hs (wf_foldl (fun s x hs => ?_) _ hs)
  exact wf_ite hs (wf_updCore hs)

theorem wf_meetUnits : (meetUnits ev s).Wf := wf_foldl (fun _ _ hs => wf_updCore hs) _ hs

theorem wf_issueBlock : (issueBlock b ks s).Wf := by
  have he : SoundBlock (ks.map fun k => (k, evalSlots b k s)) := soundBlock_evalSlots
  unfold issueBlock
  refine wf_ite (wf_waitCycle hs he) ?_
  split
  · next heq => exact wf_trapBlock (wf_meetUnits (wf_snd heq (wf_verdict hs)))
  · next heq => exact wf_heldCycle (wf_bankDelay (wf_snd heq (wf_verdict hs))) he
  · next heq => exact wf_yieldBlock (wf_snd heq (wf_verdict hs))
  · next heq => exact wf_passBlock (wf_snd heq (wf_verdict hs)) he

theorem wf_nextBundle : (nextBundle k s).2.Wf := by
  unfold nextBundle
  dsimp only
  split
  · next heq =>
    have h1 := wf_snd heq (apart_fetch.wf hs)
    split
    · exact h1
    · exact h1
  · next heq => exact wf_snd heq (apart_fetch.wf hs)

theorem wf_issueAt : (issueAt k s).Wf := by
  unfold issueAt
  dsimp only
  split
  · next heq => exact wf_issueBlock (wf_snd heq (wf_nextBundle hs))
  · next heq => exact wf_foldl (fun _ _ hs => wf_takeTrap hs) _ (wf_snd heq (wf_nextBundle hs))

/-! Steps of a held bundle (R60, R90, R100, R103, R155, R305). -/

theorem wf_heldBundle : (heldBundle k s).2.Wf := by
  unfold heldBundle
  refine wf_ite_snd hs ?_
  dsimp only
  split
  · next heq => exact wf_snd heq (wf_nextBundle hs)
  · next heq => exact wf_snd heq (wf_nextBundle hs)

theorem wf_heldBundleRelease : (heldBundleRelease k s).Wf := by
  unfold heldBundleRelease
  split
  · exact wf_ite hs (wf_issueAt hs)
  · exact hs

theorem wf_barrierRelease : (barrierRelease k s).Wf := wf_ite (wf_issueAt hs) hs

theorem wf_stallToll : (stallToll k s).Wf := by
  unfold stallToll
  split
  · exact wf_ite (wf_issueAt hs) hs
  · exact hs

theorem wf_maxrunOverrun : (maxrunOverrun k s).Wf := by
  unfold maxrunOverrun
  split
  · next heq => exact wf_ite (wf_trapBlock (wf_snd heq (wf_heldBundle hs))) hs
  · exact hs

theorem wf_tapDeadlock : (tapDeadlock k s).Wf := by
  unfold tapDeadlock
  split
  · next heq => exact wf_ite hs (wf_trapBlock (wf_snd heq (wf_heldBundle hs)))
  · exact hs

theorem wf_fuseTimeout : (fuseTimeout k s).Wf := wf_ite (wf_fuseExpire hs) hs

end

end Sys2Proof.Machine
end

section
/-!
The canonical form through streams, events, the start and the end of a cycle, recalls, and the ends of steps.
-/
namespace Sys2Proof.Machine
set_option Elab.async false
open Sys2Proof
variable {s : State} {k n d st m c t : Nat} {sig : BitVec 7}

section
variable (hs : s.Wf)
include hs

/-! Streams (R293 to R295). -/

theorem wf_updStream {src dst : Nat} {f : Stream → Stream} : (updStream src dst n f s).Wf := wf_updDie hs

omit hs in
theorem wf_fillOld {src dst : Nat} : ∀ (n : Nat) {s : State}, s.Wf → (fillOld src dst sig n s).Wf
  | 0, _, hs => hs
  | n + 1, _, hs => by
    unfold fillOld
    dsimp only
    split
    · exact hs
    · exact wf_ite (wf_fillOld n (wf_landStream (wf_updStream hs))) hs

theorem wf_connectStream {src dst : Nat} : (connectStream src dst sig s).Wf := wf_fillOld _ (wf_updDie hs)

theorem wf_mirrorSourceSearch : (mirrorSourceSearch k sig s).Wf := by
  unfold mirrorSourceSearch
  refine wf_ite ?_ hs
  dsimp only
  split
  · exact wf_connectStream (wf_dropGhosts hs)
  · exact wf_dropGhosts hs

theorem wf_searchSeat : (searchSeat k s).Wf := wf_foldl (fun _ _ hs => wf_mirrorSourceSearch hs) _ hs

theorem wf_sendSample {x : Stream} : (sendSample x s).Wf := by
  unfold sendSample
  exact wf_ite hs (wf_ite (wf_fillOld _ hs) (wf_ite hs (wf_updStream hs)))

theorem wf_streamSampleSend : (streamSampleSend d n s).Wf := by
  unfold streamSampleSend
  split
  · exact wf_sendSample hs
  · exact hs

theorem wf_streamSampleArrival : (streamSampleArrival d n s).Wf := by
  unfold streamSampleArrival
  split
  · split
    · exact wf_ite hs (wf_landStream (wf_updStream hs))
    · exact hs
  · exact hs

/-! Events (R88, R89). -/

theorem wf_deliverEvent {e : EvMsg} : (deliverEvent e s).Wf := by
  unfold deliverEvent
  refine wf_ite (wf_updMemberCtx hs) ?_
  dsimp only
  split
  · exact wf_updCtx hs
  · exact wf_updMember hs
  · exact wf_updMemberCtx hs
  · exact wf_updMemberCtx hs

theorem wf_eventLatch : (eventLatch n s).Wf := by
  unfold eventLatch
  split
  · exact wf_deliverEvent (wf_withEvents hs)
  · exact hs

omit hs in
theorem wf_latchCore : ∀ (n : Nat) {s : State}, s.Wf → (latchCore c n s).Wf
  | 0, _, hs => hs
  | n + 1, _, hs => by
    unfold latchCore
    split
    · exact wf_latchCore n (wf_deliverEvent (wf_withEvents hs))
    · exact hs

/-! What a seat does before its bundle. -/

theorem wf_mResultFinal : (mResultFinal k s).Wf := wf_ite hs (wf_updCtx hs)

theorem wf_takeAsync : (takeAsync k s).Wf := by
  unfold takeAsync
  refine wf_ite hs ?_
  split
  · exact hs
  · exact wf_takeTrap (wf_updCtx hs)

theorem wf_asynchronousCause {x : Cause} : (asynchronousCause k x s).Wf := wf_ite hs (wf_takeAsync (wf_updCtx hs))
theorem wf_takeTrapStep : (takeTrapStep k s).Wf := wf_ite (wf_updSeat (wf_mResultFinal hs)) (wf_mResultFinal hs)
theorem wf_countCycle : (countCycle k s).Wf := wf_ite (wf_updCtx hs) hs

theorem wf_meetFlip {f : Flip} : (meetFlip k s f).Wf := by
  unfold meetFlip
  refine wf_ite (wf_updCore hs) ?_
  split
  · exact wf_updCtx (wf_updCore hs)
  · exact wf_updCtx (wf_updCore hs)
  · exact wf_updCtx (wf_updCore hs)
  · exact wf_updCtx (wf_updCore hs)
  · exact wf_updCore hs
  · exact wf_ite (wf_updCtx (wf_withAccs (wf_updCore hs))) (wf_withAccs (wf_updCore hs))

theorem wf_meetFlips : (meetFlips k s).Wf := wf_ite hs (wf_updCtx (wf_foldl (fun _ _ hs => wf_meetFlip hs) _ hs))
theorem wf_delaySamples : (delaySamples k s).Wf := wf_ite hs (wf_updCtx hs)

theorem wf_seatStart : (seatStart s k).Wf :=
  wf_takeAsync (wf_meetFlips (wf_searchSeat (wf_delaySamples (wf_mResultFinal (wf_countCycle hs)))))

theorem wf_cycleStart : (cycleStart c s).Wf := by
  unfold cycleStart
  exact wf_foldl (fun _ _ hs => wf_seatStart hs) _ (wf_latchCore _ (wf_updCore (wf_flush hs)))

/-! The turn of a seat, and the end of a cycle. -/

theorem wf_bubbleCycle : (bubbleCycle k s).Wf := wf_updCtx hs

theorem wf_trapIssue {t : TrapIn} {r : State} : (trapIssue k t r s).Wf := wf_foldl (fun _ _ hs => wf_takeTrap hs) _ hs

theorem wf_bubbleTurn : (bubbleTurn k s).Wf := wf_foldl (fun _ _ hs => wf_bubbleCycle hs) _ hs

theorem wf_stalledTurn : (stalledTurn k s).Wf := by
  unfold stalledTurn
  exact wf_holdOutcome (wf_stallBlock (wf_nextBundle hs))

theorem wf_reportAlert : (reportAlert c s).Wf := by
  unfold reportAlert
  exact wf_ite hs (wf_ite (aside_coreEvent.wf (wf_updCore hs)) (wf_updCore hs))

theorem wf_cycleEnd : (cycleEnd c s).Wf := by
  refine wf_foldl ?_ _ (wf_settleChans (wf_reportAlert (wf_updCore hs)))
  exact fun _ _ hs => wf_ite hs (wf_updCtx hs)

/-! Recalls (R104). -/

theorem wf_recallSeat : (recallSeat k s).Wf := wf_ite (wf_updCtx hs) hs
theorem wf_recallStep : (recallStep st s).Wf := wf_foldl (fun _ _ hs => wf_recallSeat hs) _ hs
theorem wf_recallAt : (recallAt k s).Wf := wf_ite (wf_recallStep hs) hs
theorem wf_recallHalted : (recallHalted k s).Wf := wf_ite (wf_recallAt hs) hs

/-! The ends of steps (R271, R272, R336). -/

theorem wf_stopMember {held : Option Nat} : (stopMember st held s m).Wf := by
  have hend : ∀ {d : Nat}, (forgetGhosts d st m (settleOwed st m (closeBindings st m (endCommands st m s)))).Wf :=
    aside_forgetGhosts.wf (wf_settleOwed (apart_closeBindings.wf (wf_endCommands hs)))
  unfold stopMember
  dsimp only
  split
  · exact wf_updMember (wf_ite (wf_setSeat (wf_dropStreams hend)) (wf_freeSeat (wf_dropStreams hend)))
  · exact wf_updMember hend

theorem wf_cancelStep : (cancelStep s st).Wf := wf_foldl (fun _ _ hs => wf_cancelAll hs) _ hs

theorem wf_stopMembers {held : Option Nat} : (stopMembers st held s).Wf := wf_foldl (fun _ _ hs => wf_stopMember hs) _ hs

theorem wf_endStep {held : Option Nat} : (endStep st held s).Wf :=
  aside_dropRequests.wf (calm_retireStep (wf_stopMembers hs)).1

theorem wf_dropUnplaced : (dropUnplaced t s).Wf := by
  unfold dropUnplaced
  refine wf_ite hs (wf_updTask ?_)
  split
  · exact hs
  · exact wf_returnBudget hs
  · exact wf_returnBudget hs

end

end Sys2Proof.Machine
end

section
/-!
The canonical form through aborts, dispositions of traps, yields, saved contexts, and queues.
-/
namespace Sys2Proof.Machine
set_option Elab.async false
open Sys2Proof
variable {s : State} {k n d st m c t q status : Nat}

section
variable (hs : s.Wf)
include hs

/-! Convoys and faulted steps (R314, R335). -/

theorem wf_poisonMember {x : Nat × Nat} : (poisonMember s x).Wf := by
  unfold poisonMember
  split
  · exact wf_poisonStreams hs
  · exact hs

theorem wf_abortMember {x : Nat × Nat} : (abortMember n s x).Wf := by
  unfold abortMember
  split
  · exact wf_asynchronousCause hs
  · exact wf_updMember hs

theorem wf_convoyAbort {sts : List Nat} : (convoyAbort sts st m s).Wf := by
  have hp : ∀ l, (List.foldl poisonMember s l).Wf := fun l => wf_foldl (fun _ _ hs => wf_poisonMember hs) l hs
  unfold convoyAbort
  exact wf_ite hs (wf_ite (hp _) (wf_updStep (wf_foldl (fun _ _ hs => wf_abortMember hs) _ (hp _))))

theorem wf_markTask {code : BitVec 8} {b : Word} : (markTask t status code b s).Wf := wf_updTask hs

theorem wf_endFaulted {code : BitVec 8} {b : Word} : (endFaulted st m status code b s).2.Wf := by
  have hc : ∀ {l g}, (List.foldl cancelStep (convoyAbort g st m s) l).Wf :=
    wf_foldl (fun _ _ hs => wf_cancelStep hs) _ (wf_convoyAbort hs)
  unfold endFaulted
  refine wf_ite_snd hc ?_
  refine wf_foldl (fun _ _ hs => wf_endStep hs) _ (wf_endStep ?_)
  exact wf_ite (wf_markTask hc) (wf_dropUnplaced (wf_markTask hc))

theorem wf_endTrapped : (endTrapped k s).2.Wf := wf_endFaulted hs

theorem wf_restartStep : (restartStep k s).2.Wf := by
  unfold restartStep
  refine wf_ite_snd (wf_cancelStep (wf_convoyAbort hs)) ?_
  refine (calm_readyStep (wf_updTask (wf_updStep ?_))).1
  exact aside_leavePod.wf (wf_stopMembers (wf_cancelStep (wf_convoyAbort hs)))

theorem wf_restartOrEnd : (restartOrEnd k s).2.Wf := wf_ite_snd (wf_restartStep hs) (wf_endTrapped hs)

/-! Dispositions of traps (R269 to R272). -/

theorem wf_resolvable : (resolvable k s).2.Wf := by
  unfold resolvable
  refine wf_ite_snd hs ?_
  split
  · next heq => exact wf_snd heq (aside_nowXlate.wf hs)
  · next heq => exact wf_snd heq (aside_nowXlate.wf hs)

theorem wf_resumeTrapped {x : BitVec 8} : (resumeTrapped k x s).Wf := wf_recallHalted (wf_retryTrap (wf_settleOwed hs))

theorem wf_holdTrapped : (holdTrapped k s).Wf := by
  unfold holdTrapped
  exact wf_post (wf_updSeat hs)

theorem wf_trapDisposition : (trapDisposition k s).Wf := by
  unfold trapDisposition
  refine wf_ite hs ?_
  split
  · exact wf_endTrapped hs
  · exact wf_ite (wf_holdTrapped hs) (wf_endTrapped hs)
  · split
    · split
      · next heq => exact wf_resumeTrapped (wf_snd heq (wf_resolvable hs))
      · next heq => exact wf_restartOrEnd (wf_snd heq (wf_resolvable hs))
    · exact wf_restartOrEnd hs
  · exact wf_restartOrEnd hs

omit hs in
theorem wf_doneWith {r : Bool × State} (hr : r.2.Wf) : (doneWith n r).2.Wf := hr

theorem wf_disposeHeld {x : Dispose} {mask : BitVec 8} {patch : Option (List Byte)} :
    (disposeHeld k x mask patch s).2.Wf := by
  unfold disposeHeld
  refine wf_ite_snd (wf_doneWith (wf_endTrapped hs)) ?_
  split
  · exact wf_doneWith (wf_endTrapped hs)
  · exact wf_ite_snd (wf_doneWith (wf_restartStep hs)) (wf_doneWith (wf_endTrapped hs))
  · refine wf_resumeTrapped ?_
    split
    · exact wf_updCtx hs
    · exact hs
  · refine wf_resumeTrapped ?_
    split
    · exact wf_updCtx hs
    · exact hs

theorem wf_releaseShare {r : State} (hr : releaseShare k s = some r) : r.Wf := by
  obtain ⟨-, hr⟩ := Option.ite_none_right_eq_some.mp hr
  cases hr
  exact wf_freeSeat hs

/-! Yields, saved and restored contexts (R274 to R281). -/

theorem wf_yieldTaken : (yieldTaken k s).Wf := by
  have hm : (mResultFinal k s).Wf := wf_mResultFinal hs
  unfold yieldTaken
  exact wf_ite (wf_updSeat (wf_markAway (wf_yieldStreams (wf_foldl (fun _ _ hs => wf_yieldHandle hs) _ hm)))) hm

theorem wf_storeCtx {place : Option Nat} : (storeCtx k place s).Wf := by
  unfold storeCtx
  exact (calm_afterLeave (wf_freeSeat (wf_updMember (wf_updCore (wf_meetFlips hs))))).1

theorem wf_endLost : (endLost st m s).Wf := wf_endFaulted hs

theorem wf_contextSave : (contextSave k s).Wf := by
  have hf : ∀ {l}, (List.foldl (fun s h => tryFinish (s.stepKey k) (s.memberNo k) h s) s l).Wf :=
    wf_foldl (fun _ _ hs => inside_tryFinish.wf hs) _ hs
  unfold contextSave
  refine wf_ite hs (wf_ite hf (wf_ite (wf_storeCtx hf) ?_))
  split
  · exact hf
  · split
    · next heq => exact wf_storeCtx (wf_snd heq (wf_agentWrite hf))
    · next heq => exact wf_snd heq (wf_agentWrite hf)
    · next heq => exact wf_endLost (wf_snd heq (wf_agentWrite hf))

theorem wf_loadShare {x : Member} : (loadShare k x s).Wf := by
  unfold loadShare
  exact wf_updCore hs

theorem wf_resumeSeat {b : Bool} : (resumeSeat k b s).Wf := by
  unfold resumeSeat
  refine wf_recallHalted (wf_searchSeat (wf_takeAsync (wf_markAway (wf_updMember (wf_resumeHandles (wf_updSeat ?_))))))
  exact wf_loadShare (wf_ite (wf_updCore hs) hs)

theorem wf_takeBytes {bs : List Byte} : (takeBytes k bs n s).Wf := wf_updMember (wf_updCtx hs)

theorem wf_contextRestore : (contextRestore k s).Wf := by
  unfold contextRestore
  refine wf_ite hs ?_
  dsimp only
  split
  · exact wf_resumeSeat hs
  · split
    · next heq => exact wf_resumeSeat (wf_takeBytes (wf_snd heq (aside_agentRead.wf hs)))
    · next heq => exact wf_snd heq (aside_agentRead.wf hs)
    · next heq => exact wf_endLost (wf_snd heq (aside_agentRead.wf hs))

/-! Queues (R319 to R323). -/

theorem wf_updSlot {f : HwSlot → HwSlot} : (updSlot d n f s).Wf := wf_updDie hs

theorem wf_switchOut : (switchOut d n s).Wf := by
  unfold switchOut
  split
  · exact hs
  · exact wf_putQueueRec (wf_updSlot (wf_updQueue hs))

theorem wf_switchIn : (switchIn d n q s).Wf := wf_putQueueRec (wf_updSlot (wf_updQueue hs))

theorem wf_switchQueue : (switchQueue d n s).Wf := by
  unfold switchQueue
  refine wf_ite hs ?_
  split
  · exact wf_switchIn (wf_switchOut hs)
  · exact hs

theorem wf_doorbellTailWrite {x : BitVec 32} : (doorbellTailWrite d n x s).Wf := by
  have h1 : (if s.host.resetting then s else (s.wakeDie d).sync d : State).Wf :=
    wf_ite hs (aside_sync.wf (aside_wakeDie.wf hs))
  unfold doorbellTailWrite
  refine wf_ite h1 (wf_ite (aside_queueError.wf (wf_putQueueRec (wf_updQueue h1))) ?_)
  exact wf_ite (wf_updQueue h1) (wf_putQueueRec (wf_updQueue h1))

theorem wf_retryRecords : (retryRecords d s).Wf := wf_foldl (fun _ _ hs => wf_putQueueRec hs) _ hs
theorem wf_faultEnd {id : BitVec 32} {b : Bool} : (faultEnd d id b s).Wf := wf_retryRecords (wf_endFault hs)

theorem wf_faultTimeout : (faultTimeout d n s).Wf := by
  unfold faultTimeout
  split
  · exact wf_ite hs (wf_faultEnd hs)
  · exact hs

end

end Sys2Proof.Machine
end

section
/-!
The canonical form through the entries of queues, placement, the wait table, graphs and triggers.
-/
namespace Sys2Proof.Machine
set_option Elab.async false
open Sys2Proof
variable {s : State} {k n d st m c t q i tr p g ch status : Nat}

section
variable (hs : s.Wf)
include hs

/-! Entries (R329, R336). -/

theorem wf_checkEntry {x : Queue} {bs : List Byte} : (checkEntry d n x bs s).2.Wf := by
  unfold checkEntry
  refine wf_ite_snd hs (wf_ite_snd hs ?_)
  split
  · next heq => exact wf_snd heq (aside_agentRead.wf hs)
  · next heq => exact wf_snd heq (aside_agentRead.wf hs)
  · next heq =>
    have hr := wf_snd heq (aside_agentRead.wf hs)
    exact wf_ite_snd hr (wf_ite_snd hr hr)

theorem wf_returnEntry {o : Origin} : (returnEntry d p status o s).Wf := by
  unfold returnEntry
  split
  · exact hs
  · exact wf_returnBudget hs
  · dsimp only
    split
    · exact wf_post (apart_addReserve.wf hs)
    · exact apart_addReserve.wf hs

theorem wf_beginTask {bs : List Byte} {image : Sparse Sig} : (beginTask d n q t bs status image s).Wf := by
  unfold beginTask
  have h2 : ∀ {f : Queue → Queue} {x : Task} {y : Nat},
      (nameDone q y bs (((nextOrder d s).2.updQueue q f).updTask t fun _ => x)).Wf :=
    apart_nameDone.wf (wf_updTask (wf_updQueue (wf_nextOrder hs)))
  dsimp only
  generalize graphChan _ _ _ _ = o
  cases o with
  | none => exact wf_ite h2 (apart_checkTask.wf (wf_returnEntry h2))
  | some c => exact wf_ite (wf_setDevwriter h2) (apart_checkTask.wf (wf_returnEntry (wf_setDevwriter h2)))

theorem wf_takeEntry : (takeEntry d n q s).2.Wf := by
  unfold takeEntry
  split
  · exact hs
  · dsimp only
    split
    · next heq => exact wf_snd heq (aside_agentRead.wf hs)
    · next heq =>
      dsimp only
      exact wf_beginTask (wf_snd heq (aside_agentRead.wf hs))
    · next heq =>
      dsimp only
      exact wf_beginTask (wf_snd heq (aside_agentRead.wf hs))
    · next heq =>
      have hr := wf_snd heq (aside_agentRead.wf hs)
      split
      · next heq => exact wf_beginTask (wf_snd heq (wf_checkEntry hr))
      · next heq => exact wf_snd heq (wf_checkEntry hr)
      · next heq => exact wf_snd heq (wf_checkEntry hr)

theorem wf_candidate : (candidate d n s).2.Wf := by
  unfold candidate
  split
  · exact hs
  · exact hs
  · dsimp only
    split
    · exact wf_switchQueue hs
    · refine wf_ite_snd (wf_switchQueue hs) ?_
      split
      · next heq => exact wf_snd heq (wf_takeEntry (wf_switchQueue hs))
      · next heq => exact wf_snd heq (wf_takeEntry (wf_switchQueue hs))

/-! Seats for groups (R331). -/

theorem wf_choose : (s.choose n).2.Wf := wf_bumpFree hs

omit hs in
theorem wf_chooseSeats : ∀ (n : Nat) {ks : List Nat} {s : State} {x : List Nat × State}, s.Wf →
    chooseSeats n ks s = some x → x.2.Wf
  | 0, _, _, _, hs, hx => by
    cases hx
    exact hs
  | n + 1, _, _, _, hs, hx => by
    simp only [chooseSeats] at hx
    split at hx
    · cases hx
    · obtain ⟨r, hr, rfl⟩ := Option.map_eq_some_iff.mp hx
      have h := wf_chooseSeats n (wf_choose hs) hr
      exact h

omit hs in
theorem wf_assignSeats {w : Waybill} : ∀ {gs : List Group} {ks : List Nat} {s : State}
    {x : List (Group × List (Nat × Nat)) × State}, s.Wf → assignSeats d w gs ks s = some x → x.2.Wf
  | [], _, _, _, hs, hx => by
    cases hx
    exact hs
  | g :: gs, ks, s, _, hs, hx => by
    simp only [assignSeats] at hx
    split at hx
    · cases hx
    · next xs s1 hpick =>
      obtain ⟨r, hr, rfl⟩ := Option.map_eq_some_iff.mp hx
      suffices h1 : s1.Wf by
        have h := wf_assignSeats h1 hr
        exact h
      split at hpick
      · obtain ⟨ys, -, hy⟩ := Option.map_eq_some_iff.mp hpick
        cases hy
        exact wf_choose hs
      · obtain ⟨y, hchosen, hy⟩ := Option.map_eq_some_iff.mp hpick
        cases hy
        exact wf_chooseSeats _ hs hchosen

theorem wf_placeMember : (placeMember st i tr m k s).Wf := by
  unfold placeMember
  exact wf_updMember (wf_setSeat hs)

theorem wf_setPrimary : (setPrimary c s).Wf := by
  unfold setPrimary
  exact wf_updCore hs

theorem wf_stepRecord {x : Group} {r : Nat × State} (hr : stepRecord d t x s = some r) : r.2.Wf := by
  unfold stepRecord at hr
  split at hr
  · cases hr
    exact hs
  · split at hr
    · cases hr
    · cases hr
      dsimp only
      exact wf_updTask (wf_updStep (wf_nextOrder hs))

theorem wf_placeGroup {x : Group × List (Nat × Nat)} : (placeGroup d t i tr s x).Wf := by
  unfold placeGroup
  split
  · exact hs
  · next heq =>
    refine wf_foldl (fun _ _ hs => wf_setPrimary hs) _ (wf_recheckBars (wf_updStep ?_))
    exact wf_foldl (fun _ _ hs => wf_placeMember hs) _ (wf_nextOrder (wf_stepRecord hs heq))

theorem wf_endReserve {x : Cand} {ks : List Nat} : (endReserve d x ks s).Wf := by
  unfold endReserve
  exact wf_updDie hs

theorem wf_place {x : Cand} {r : State} (hr : place d x i tr s = some r) : r.Wf := by
  unfold place at hr
  obtain ⟨-, hr⟩ := Option.ite_none_left_eq_some.mp hr
  split at hr
  · cases hr
  · next heq =>
    cases hr
    exact wf_foldl (fun _ _ hs => wf_placeGroup hs) _ (wf_endReserve (wf_assignSeats hs heq))

theorem wf_reserveConvoy {x : Cand} : (reserveConvoy d x i tr s).Wf := by
  unfold reserveConvoy
  dsimp only
  split
  · exact wf_updDie hs
  · exact wf_ite hs (wf_ite (wf_updDie hs) (wf_updDie hs))

theorem wf_wantSeats {x : Cand} : (wantSeats d x i tr s).Wf := by
  have hr : (if (s.task x.task).wb.convoy != 0 && x.step.isNone then reserveConvoy d x i tr s else s).Wf :=
    wf_ite (wf_reserveConvoy hs) hs
  unfold wantSeats
  refine wf_ite hr ?_
  split
  · exact hr
  · exact wf_updDie (wf_foldl (fun _ _ hs => wf_recallStep hs) _ hr)

theorem wf_timetableVisit : (timetableVisit d s).Wf := by
  have hv : ∀ {f}, (retryRecords d (s.updDie d f)).Wf := wf_retryRecords (wf_updDie hs)
  unfold timetableVisit
  refine wf_ite hs (wf_ite hv ?_)
  split
  · next heq => exact wf_snd heq (wf_candidate hv)
  · next heq =>
    have hc := wf_snd heq (wf_candidate hv)
    split
    · next heq => exact wf_updSlot (wf_place hc heq)
    · exact wf_wantSeats hc

theorem wf_placeReserved {x : Reserve} : (placeReserved d s x).Wf := by
  unfold placeReserved
  refine wf_ite (wf_endReserve hs) (wf_ite hs ?_)
  cases hx : place d x.cand x.grantI x.grantT s with
  | none => exact hs
  | some r => exact wf_place hs hx

theorem wf_reservedPlacement : (reservedPlacement d s).Wf := wf_foldl (fun _ _ hs => wf_placeReserved hs) _ hs

theorem wf_convoyPlacement : (convoyPlacement d s).Wf := by
  unfold convoyPlacement
  split
  · exact wf_placeReserved hs
  · exact hs

/-! The wait table (R343 to R345). -/

theorem wf_groupPark : (groupPark d n s).Wf := by
  unfold groupPark
  dsimp only
  split
  · exact hs
  · refine wf_ite hs (wf_ite ?_ ?_)
    · exact wf_foldl (fun _ _ hs => wf_updCtx hs) _ hs
    · exact wf_foldl (fun _ _ hs => wf_beginYield hs) _ (wf_updStep hs)

theorem wf_groupWake : (groupWake d n s).Wf := by
  unfold groupWake
  dsimp only
  split
  · exact hs
  · exact wf_ite hs (wf_ite (calm_readyStep (aside_wakeDie.wf hs)).1 (wf_updStep hs))

theorem wf_waitExamination : (waitExamination k s).Wf := by
  unfold waitExamination
  refine wf_ite hs ?_
  dsimp only
  split
  · exact wf_updCtx hs
  · exact wf_ite (wf_updCtx hs) (wf_groupPark hs)

/-! Graphs (R339). -/

theorem wf_orState : (orState d p t g n s).2.Wf := wf_nearUpdate hs

theorem wf_sendGraph : (sendGraph d p g n s).Wf := by
  unfold sendGraph
  split
  · exact wf_ite (apart_sendDevice.wf hs) hs
  · exact hs

theorem wf_graphSum : (graphSum d p t g n s).Wf := by
  unfold graphSum
  split
  · next heq =>
    have hr := wf_snd heq (wf_nearRead hs)
    refine wf_ite hr ?_
    split
    · next heq => exact wf_sendGraph (wf_snd heq (wf_orState hr))
    · next heq => exact wf_snd heq (wf_orState hr)
    · next heq => exact wf_snd heq (wf_orState hr)
  · next heq => exact wf_snd heq (wf_nearRead hs)

/-! Triggers (R362). -/

theorem wf_trigFail : (trigFail ch status s).Wf := wf_post (wf_updChan hs)

theorem wf_trigWrite {bs : List Byte} : (trigWrite ch bs s).Wf := by
  have hfail : ∀ {a b c : Nat} {u : State}, u.Wf → (trigFail ch 7 (addReserve a b c u)).Wf :=
    fun hu => wf_trigFail (apart_addReserve.wf hu)
  unfold trigWrite
  refine wf_ite (hfail hs) (wf_ite hs ?_)
  split
  · next heq => exact wf_snd heq (wf_putEntry hs)
  · next heq => exact hfail (wf_snd heq (wf_putEntry hs))
  · next heq => exact wf_updChan (wf_snd heq (wf_putEntry hs))

theorem wf_triggerFire : (triggerFire d n s).Wf := by
  unfold triggerFire
  refine wf_ite hs ?_
  split
  · exact wf_trigWrite hs
  · split
    · next heq => exact wf_snd heq (aside_agentRead.wf hs)
    · next heq => exact wf_trigFail (wf_snd heq (aside_agentRead.wf hs))
    · next heq => exact wf_trigFail (wf_snd heq (aside_agentRead.wf hs))
    · next heq =>
      have hr := wf_snd heq (aside_agentRead.wf hs)
      dsimp only
      split
      · exact wf_trigFail hr
      · next heq => exact wf_trigWrite (wf_updChan (wf_drawReserve hr heq))

end

end Sys2Proof.Machine
end

section
/-!
The canonical form through graph returns, the steps of a stack, spare cores, lost packages, and the fabric's checks.
-/
namespace Sys2Proof.Machine
set_option Elab.async false
open Sys2Proof
variable {s : State} {k n d st m c t q p g ch bank : Nat} {w : Wire} {pkg : BitVec 18}

section
variable (hs : s.Wf)
include hs

/-! Graphs (R339). -/

theorem wf_graphReturn : (graphReturn d n s).Wf := by
  unfold graphReturn
  split
  · exact hs
  · next t _ =>
    have hfin : ∀ {f : Die → Die} {u : State}, u.Wf → (finishTask t (u.updDie d f)).Wf :=
      fun hu => apart_finishTask.wf (wf_updDie hu)
    have hbad : ∀ {a b a' : Nat} {bs : List Byte} {u : State}, u.Wf → ((u.fwRead d a b 4).2.fwWrite d a a' bs).2.Wf :=
      fun hu => aside_fwWrite.wf (aside_fwRead.wf hu)
    have hfirst : ∀ {p g : Nat} {b : Prop} [Decidable b],
        (if b then (XferRes.ok 0, s) else orState d p t g 2 s).2.Wf := wf_ite_snd hs (wf_orState hs)
    dsimp only
    split
    · next heq => exact wf_snd heq hfirst
    · next heq =>
      have hr := wf_snd heq hfirst
      split
      · next heq => exact hfin (aside_fwWrite.wf (wf_snd heq (aside_fwRead.wf hr)))
      · next heq => exact hfin (wf_snd heq (aside_fwRead.wf hr))
    · next heq =>
      have hr := wf_snd heq hfirst
      split
      · next heq => exact wf_snd heq (wf_nearAdd hr)
      · next heq =>
        have hr := wf_snd heq (wf_nearAdd hr)
        split
        · next heq => exact hfin (aside_fwWrite.wf (wf_snd heq (aside_fwRead.wf hr)))
        · next heq => exact hfin (wf_snd heq (aside_fwRead.wf hr))
      · next heq => exact hfin (wf_graphSum (wf_snd heq (wf_nearAdd hr)))

/-! Stacks (R386, R420 to R428). -/

theorem wf_stackServe {b : Bool} : (stackServe b n s).Wf := by
  unfold stackServe
  split
  · exact hs
  · split
    · exact wf_ite hs (aside_serveAcc.wf hs)
    · exact hs
    · exact hs

theorem wf_stackRead : (stackRead n s).Wf := wf_stackServe hs
theorem wf_stackWrite : (stackWrite n s).Wf := wf_stackServe hs

theorem wf_bankRefresh {x : BitVec 6} : (bankRefresh n c bank x s).Wf := by
  unfold bankRefresh
  exact wf_ite hs (wf_withAccs (aside_closeRow.wf hs))

theorem wf_retryReissue : (retryReissue n s).Wf := wf_withAccs hs
theorem wf_rowPrecharge : (rowPrecharge n c bank s).Wf := aside_closeRow.wf hs
theorem wf_rowOpenLimit : (rowOpenLimit n c bank s).Wf := aside_closeRow.wf hs
theorem wf_patrolScrub : (patrolScrub n g s).Wf := wf_ite hs (aside_updStack.wf (aside_homeRead.wf hs))

omit hs in
theorem wf_withHost {x : HostIf} (hx : x.mem = s.host.mem) (hs : s.Wf) : State.Wf { s with host := x } :=
  ⟨hs.mem, (congrArg Memory.wf hx).trans hs.host, hs.seats⟩

theorem wf_stackLost : (stackLost n s).Wf := by
  unfold stackLost
  exact wf_ite hs (aside_stackEvent.wf (wf_withHost rfl (aside_updStack.wf hs)))

/-! Cores (R63, R289). -/

theorem wf_slotmapWrite {x : BitVec 32} : (slotmapWrite c x s).Wf := by
  unfold slotmapWrite
  exact wf_ite hs (wf_ite (aside_coreEvent.wf (wf_updCore hs)) (wf_updCore hs))

theorem wf_setCore {x : Core} : (s.setCore c x).Wf := ⟨hs.mem, hs.host, hs.seats⟩

theorem wf_spareMap : (spareMap c s).Wf := by
  unfold spareMap
  refine wf_ite hs (wf_ite (wf_ite hs ?_) (wf_updDie (wf_setCore hs)))
  exact aside_coreEvent.wf (wf_updCore hs)

theorem wf_retireCore : (retireCore c s).Wf := by
  refine wf_foldl ?_ _ (aside_coreEvent.wf (wf_updCore hs))
  exact fun _ _ hs => wf_ite (wf_recallStep hs) hs

/-! Lost packages (R480, R491, R492). -/

theorem wf_fabricEvent {sub port : Nat} {x : Word} : (fabricEvent d sub port pkg x s).Wf := wf_post hs

theorem wf_faultRemote {r : Word} : (faultRemote r s).Wf := by
  unfold faultRemote
  exact wf_withFab (wf_foldl (fun _ _ hs => inside_faultMember.wf hs) _ hs)

theorem wf_faultAccess {a : Access} : (faultAccess a s).Wf := by
  unfold faultAccess
  exact inside_failCopy.wf (wf_updCtx hs)

theorem wf_onWorkHandle {x : Req} {f : Handle → Handle} : (onWorkHandle x f s).Wf := by
  unfold onWorkHandle
  split
  · exact wf_ite (wf_updMemberCtx hs) hs
  · exact hs
  · exact hs

theorem wf_announce : (announce n pkg s).Wf := wf_foldl (fun _ _ hs => wf_ite hs (wf_send hs)) _ hs

theorem wf_withAgenda {l : List Turn} {f : Fabric} : State.Wf { s with fab := f, agenda := l } :=
  ⟨hs.mem, hs.host, hs.seats⟩

theorem wf_endPeer : (endPeer pkg s).Wf := by
  unfold endPeer
  refine wf_withAgenda (wf_foldl (fun _ _ hs => aside_dropRequests.wf hs) _ ?_)
  refine wf_foldl (fun _ _ hs => inside_refuseAccess.wf hs) _ (wf_withAccs ?_)
  refine wf_foldl (fun _ _ hs => wf_onWorkHandle hs) _ (wf_foldl (fun _ _ hs => wf_faultRemote hs) _ ?_)
  refine wf_foldl (fun _ _ hs => wf_feedPool hs) _ (wf_foldl (fun _ _ hs => wf_faultChan (wf_updChan hs)) _ ?_)
  exact wf_breakBars hs

theorem wf_packageLost : (packageLost pkg s).Wf :=
  wf_ite hs (wf_fabricEvent (wf_announce (wf_endPeer (wf_updPeer hs))))

theorem wf_endOwed : (endOwed s).Wf := wf_foldl (fun _ _ hs => wf_endPeer hs) _ hs

theorem wf_meetEpoch {e : BitVec 32} : (meetEpoch pkg e s).2.Wf := by
  unfold meetEpoch
  refine wf_ite_snd hs ?_
  split
  · dsimp only
    exact wf_updPeer hs
  · exact wf_ite_snd hs (wf_fabricEvent (wf_updPeer (wf_packageLost hs)))

/-! The checks and the flow of a message (R476 to R481). -/

theorem wf_answer {cls op : Nat} {x : BitVec 3} {bs : List Byte} : (answer w cls op x bs s).Wf := aside_send.wf hs
theorem wf_noteRefusal : (noteRefusal w s).Wf := wf_answer (wf_fabricEvent hs)
theorem wf_failData : (failData w s).Wf := wf_answer hs

theorem wf_turnAway : (turnAway w s).Wf := wf_ite hs (wf_ite (wf_failData hs) (wf_noteRefusal (wf_failData hs)))

theorem wf_tellFault : (tellFault w s).Wf := wf_answer hs
theorem wf_sendAck {x : BitVec 32} : (sendAck w x s).Wf := by
  unfold sendAck
  exact wf_send hs

theorem wf_takeFlow : (takeFlow w s).2.Wf := by
  unfold takeFlow
  exact wf_ite_snd hs (wf_ite_snd (wf_sendAck (wf_turnAway (wf_withFab hs))) hs)

end

end Sys2Proof.Machine
end

section
/-!
The canonical form through the actions of messages and the steps of ports.
-/
namespace Sys2Proof.Machine
set_option Elab.async false
open Sys2Proof
variable {s : State} {n d p va status : Nat} {w : Wire} {pkg : BitVec 18}

section
variable (hs : s.Wf)
include hs

/-! DATA and WORK (R480 to R482, R484, R487). -/

theorem wf_actMsg : (actMsg w s).Wf := by
  unfold actMsg
  refine wf_ite hs (wf_feedProxy ?_)
  exact wf_ite (wf_updChan hs) (apart_armTrigger.wf (wf_updChan hs))

theorem wf_actClose : (actClose w s).Wf := by
  unfold actClose
  exact wf_ite hs (wf_feedPool (apart_closeWriter.wf (wf_updChan hs)))

theorem wf_workReply : (workReply w status n s).Wf := wf_answer hs

theorem wf_writeWork : (writeWork w s).2.Wf := by
  have hrefuse : ∀ {u : State}, u.Wf → (noteRefusal w (workReply w 1 0 u)).Wf :=
    fun hu => wf_noteRefusal (wf_workReply hu)
  unfold writeWork
  refine wf_ite_snd (hrefuse hs) (wf_ite_snd hs ?_)
  dsimp only
  split
  · exact hrefuse hs
  · next heq =>
    have hd := wf_drawReserve hs heq
    split
    · next heq => exact wf_workReply (wf_snd heq (wf_putEntry hd))
    · next heq => exact apart_addReserve.wf (wf_snd heq (wf_putEntry hd))
    · next heq => exact hrefuse (apart_addReserve.wf (wf_snd heq (wf_putEntry hd)))

omit hs in
/-- A fold that carries a value before the state. -/
theorem wf_foldl_snd {α β : Type} {f : β × State → α → β × State} (hf : ∀ a x, a.2.Wf → (f a x).2.Wf) :
    ∀ (xs : List α) {a : β × State}, a.2.Wf → (xs.foldl f a).2.Wf
  | [], _, hs => hs
  | x :: xs, _, hs => wf_foldl_snd hf xs (hf _ x hs)

theorem wf_pumpWork : (pumpWork d s).Wf := by
  unfold pumpWork
  refine wf_foldl_snd (fun a x ha => wf_ite_snd ha ?_) _ hs
  split
  · next heq =>
    dsimp only
    exact wf_withFab (wf_snd heq (wf_writeWork (wf_withFab ha)))
  · next heq =>
    dsimp only
    exact wf_snd heq (wf_writeWork (wf_withFab ha))

theorem wf_actWaybill : (actWaybill w s).Wf := by
  unfold actWaybill
  refine wf_ite (wf_withFab hs) ?_
  split
  · next heq => exact wf_withFab (wf_snd heq (wf_writeWork hs))
  · next heq => exact wf_snd heq (wf_writeWork hs)

theorem wf_actLoss : (actLoss w s).Wf := wf_ite (wf_packageLost hs) hs

/-! BULK (R481, R489). -/

theorem wf_refuseBulk : (refuseBulk w status s).Wf := wf_noteRefusal (wf_ite (wf_answer hs) (wf_answer hs))

theorem wf_waitBulk : (waitBulk w p va s).Wf := by
  unfold waitBulk
  dsimp only
  split
  · exact wf_answer (wf_withFab hs)
  · exact wf_withFab hs

theorem wf_actRead : (actRead w s).Wf := by
  unfold actRead
  dsimp only
  split
  · exact wf_refuseBulk hs
  · split
    · next heq => exact wf_waitBulk (wf_snd heq (aside_agentXlate.wf hs))
    · next heq => exact wf_refuseBulk (wf_snd heq (aside_agentXlate.wf hs))
    · next heq => exact wf_answer (aside_readMarked.wf (wf_snd heq (aside_agentXlate.wf hs)))

theorem wf_actWrite : (actWrite w s).Wf := by
  unfold actWrite
  dsimp only
  split
  · exact wf_refuseBulk hs
  · split
    · next heq => exact wf_waitBulk (wf_snd heq (aside_agentXlate.wf hs))
    · next heq => exact wf_refuseBulk (wf_snd heq (aside_agentXlate.wf hs))
    · next heq => exact wf_answer ((aside_writeMarked _ _ _ _ _ _ _).wf (wf_snd heq (aside_agentXlate.wf hs)))

theorem wf_takeAccess {b : Bool} {r : Access × State} (hr : takeAccess w b s = some r) : r.2.Wf := by
  obtain ⟨x, -, rfl⟩ := Option.map_eq_some_iff.mp hr
  exact wf_withAccs hs

theorem wf_actReadresp : (actReadresp w s).Wf := by
  unfold actReadresp
  split
  · exact hs
  · next heq =>
    have hr := wf_takeAccess hs heq
    split
    · exact inside_endAccess.wf hr
    · exact inside_refuseAccess.wf hr
    · exact wf_faultAccess hr

theorem wf_actWriteack : (actWriteack w s).Wf := by
  unfold actWriteack
  split
  · exact hs
  · next heq =>
    have hr := wf_takeAccess hs heq
    split
    · exact inside_endAccess.wf hr
    · exact inside_refuseAccess.wf hr
    · exact wf_faultAccess hr

/-! CONTROL (R478, R483 to R492). -/

theorem wf_actAck : (actAck w s).Wf := by
  unfold actAck
  exact aside_pruneProxies.wf (wf_withFab hs)

theorem wf_actBindreq : (actBindreq w s).Wf := by
  unfold actBindreq
  exact wf_ite (wf_noteRefusal (wf_answer hs)) (wf_ite (wf_answer hs) (wf_answer (wf_updChan hs)))

theorem wf_takeReq {r : Req × State} (hr : takeReq w s = some r) : r.2.Wf := by
  obtain ⟨x, -, rfl⟩ := Option.map_eq_some_iff.mp hr
  exact wf_withFab hs

theorem wf_giveReply {q : Req} {x : Word} : (giveReply q x s).Wf := wf_updMemberCtx hs

theorem wf_actBindreply : (actBindreply w s).Wf := by
  unfold actBindreply
  split
  · exact hs
  · next heq =>
    have hr := wf_takeReq hs heq
    dsimp only
    split
    · exact wf_giveReply (wf_withFab hr)
    · exact aside_closeProxy.wf hr
    · exact wf_giveReply hr
    · exact inside_faultMember.wf hr
    · exact hr

theorem wf_actGrant : (actGrant w s).Wf := by
  unfold actGrant
  exact wf_ite (wf_withFab hs) (wf_ite (wf_updChan hs) hs)

theorem wf_actDrained : (actDrained w s).Wf := wf_withFab hs

theorem wf_actStatreq : (actStatreq w s).Wf := by
  unfold actStatreq
  exact wf_ite (wf_noteRefusal (wf_tellFault hs)) (wf_ite (wf_tellFault hs) (wf_answer hs))

theorem wf_actStatreply : (actStatreply w s).Wf := by
  unfold actStatreply
  split
  · exact hs
  · next heq => exact wf_ite (wf_giveReply (wf_takeReq hs heq)) (wf_takeReq hs heq)

theorem wf_actGrow : (actGrow w s).Wf := by
  unfold actGrow
  exact wf_ite hs (wf_ite (wf_growChan hs) (wf_raiseStall hs))

theorem wf_actRefuse : (actRefuse w s).Wf := wf_faultRemote (wf_foldl (fun _ _ hs => inside_addFault.wf hs) _ hs)

theorem wf_actBararr : (actBararr w s).Wf := by
  unfold actBararr
  split
  · exact wf_ite (wf_rootArrival hs) hs
  · exact hs

theorem wf_actBarrel : (actBarrel w s).Wf := by
  unfold actBarrel
  split
  · exact wf_releasePod hs
  · exact hs

theorem wf_actWorkdone : (actWorkdone w s).Wf := by
  unfold actWorkdone
  split
  · exact hs
  · next heq => exact wf_ite (wf_onWorkHandle (wf_takeReq hs heq)) (wf_onWorkHandle (wf_takeReq hs heq))

theorem wf_retryPaths : (retryPaths s).Wf := wf_foldl (fun _ _ hs => aside_launchWire.wf hs) _ (wf_withFab hs)

theorem wf_tellTo {qs : List (BitVec 18)} : (tellTo qs s).Wf := wf_foldl (fun _ _ hs => wf_send hs) _ hs
theorem wf_tellLinks : (tellLinks s).Wf := wf_tellTo hs

theorem wf_actLinkstate : (actLinkstate w s).Wf := by
  unfold actLinkstate
  exact wf_tellTo (wf_retryPaths (wf_updPeer hs))

/-- The action of every message (R479, R495). -/
theorem wf_actOf {cls op : Nat} : (actOf cls op w s).Wf := by
  unfold actOf
  split
  · exact wf_actMsg hs
  · exact wf_actClose hs
  · exact wf_actWaybill hs
  · exact wf_actLoss hs
  · exact hs
  · exact hs
  · exact wf_actRead hs
  · exact wf_actReadresp hs
  · exact wf_actWrite hs
  · exact wf_actWriteack hs
  · exact wf_actAck hs
  · exact wf_actBindreq hs
  · exact wf_actBindreply hs
  · exact wf_actGrant hs
  · exact wf_actDrained hs
  · exact wf_actStatreq hs
  · exact wf_actStatreply hs
  · exact wf_actGrow hs
  · exact wf_faultRemote hs
  · exact wf_actBararr hs
  · exact wf_actBarrel hs
  · exact wf_actWorkdone hs
  · exact wf_actLinkstate hs
  · exact wf_actRefuse hs
  · exact hs

omit hs in
theorem wf_arrive {act : Wire → State → State} (hact : ∀ w s, s.Wf → (act w s).Wf) (hs : s.Wf) : (arrive act w s).Wf := by
  unfold arrive
  refine wf_ite (aside_launchWire.wf hs) (wf_ite hs ?_)
  split
  · next heq => exact wf_snd heq (wf_meetEpoch (aside_wakeDie.wf hs))
  · next heq =>
    have hm := wf_snd heq (wf_meetEpoch (aside_wakeDie.wf hs))
    split
    · next heq => exact hact _ _ (wf_snd heq (wf_takeFlow hm))
    · next heq => exact wf_snd heq (wf_takeFlow hm)

theorem wf_messageTurn : (messageTurn w s).Wf := wf_arrive (fun _ _ hs => wf_actOf hs) hs

/-! Ports (R470 to R475). -/

theorem wf_updPort {f : Port → Port} : (s.updPort n f).Wf := aside_updPort.wf hs

theorem wf_portDown : (portDown n s).Wf := by
  unfold portDown
  refine wf_ite hs (wf_tellLinks (wf_fabricEvent ?_))
  exact wf_foldl (fun _ _ hs => aside_launchWire.wf hs) _ (wf_updPort hs)

theorem wf_trainedPort {e : BitVec 32} : (trainedPort n pkg e s).Wf := by
  unfold trainedPort
  refine wf_ite (wf_fabricEvent (wf_updPort hs)) ?_
  exact wf_retryPaths (wf_tellLinks (wf_fabricEvent (wf_meetEpoch (wf_updPort hs))))

theorem wf_portTraining {b : Bool} {e : BitVec 32} : (portTraining n b pkg e s).Wf := by
  unfold portTraining
  refine wf_ite hs ?_
  split
  · exact hs
  · exact wf_ite (wf_trainedPort hs) (wf_updPort hs)
  · exact wf_ite (wf_trainedPort hs) hs

theorem wf_replayRound : (replayRound n s).Wf := wf_ite (wf_portDown (wf_updPort hs)) (wf_updPort hs)
theorem wf_replayTimeout : (replayTimeout n s).Wf := wf_ite (wf_replayRound hs) hs
theorem wf_ackFlits {x : BitVec 12} : (ackFlits n x s).Wf := wf_updPort hs

theorem wf_assemble : (assemble n s).Wf := by
  unfold assemble
  split
  · exact hs
  · refine wf_ite (wf_updPort hs) (wf_ite hs (wf_ite (wf_updPort hs) ?_))
    exact wf_withAgenda (wf_updPort hs)

theorem wf_flitReceive {x : Flit} : (flitReceive n x s).Wf := by
  have hack : ∀ {f : Port → Port}, (ackFlits n x.aseq (s.updPort n f)).Wf := wf_ackFlits (wf_updPort hs)
  have h2 : ∀ {b : Prop} [Decidable b] {f : Port → Port},
      (if b then replayRound n (ackFlits n x.aseq (s.updPort n f)) else ackFlits n x.aseq (s.updPort n f)).Wf :=
    wf_ite (wf_replayRound hack) hack
  unfold flitReceive
  refine wf_ite hs (wf_ite (wf_updPort hs) (wf_ite (wf_portDown hs) (aside_pump.wf ?_)))
  exact wf_ite h2 (wf_ite (wf_assemble (wf_updPort h2)) (wf_updPort h2))

theorem wf_flowResend : (flowResend n s).Wf := by
  unfold flowResend
  split
  · exact wf_ite (wf_foldl (fun _ _ hs => aside_launchWire.wf hs) _ hs) hs
  · exact hs

end

end Sys2Proof.Machine
end

section
/-!
The canonical form through power, resets, boot, and the registers and apertures of the host.
-/
namespace Sys2Proof.Machine
set_option Elab.async false
open Sys2Proof
variable {s : State} {n d st a off : Nat} {v : Word}

section
variable (hs : s.Wf)
include hs

/-! Power and links (R443, R462 to R464). -/

theorem wf_wakeDie : (s.wakeDie d).Wf := aside_wakeDie.wf hs

theorem wf_setFatal : (setFatal s).Wf := wf_ite hs (wf_announce (aside_msix.wf (wf_withHost rfl hs)))

theorem wf_loseAt : (loseAt d st s).Wf := by
  have h1 : ∀ {l : Sparse Core} {p : Prop} [Decidable p], (if p then s else { s with cores := l } : State).Wf :=
    wf_ite hs ⟨hs.mem, hs.host, hs.seats⟩
  unfold loseAt
  exact wf_ite h1 (wf_updDie h1)

theorem wf_powerStateEntry : (powerStateEntry d s).Wf := by
  have h1 : ∀ {t : Nat} {f : Die → Die} {p : Prop} [Decidable p], (if p then s else (loseAt d t s).updDie d f).Wf :=
    wf_ite hs (wf_updDie (wf_loseAt hs))
  unfold powerStateEntry
  exact wf_ite (wf_withHost rfl h1) h1

theorem wf_wakeEvent : (wakeEvent d s).Wf := wf_ite hs (wf_wakeDie hs)

theorem wf_ltrWrite : (ltrWrite v s).Wf := by
  unfold ltrWrite
  refine wf_ite hs (wf_foldl ?_ _ (wf_withHost rfl hs))
  exact fun _ _ hs => wf_ite (wf_powerStateEntry (wf_wakeDie hs)) hs

theorem wf_withLinksDown {l : List Nat} : State.Wf { s with linksDown := l } := ⟨hs.mem, hs.host, hs.seats⟩

theorem wf_linkDown : (linkDown n s).Wf := by
  unfold linkDown
  exact wf_ite hs (wf_ite (wf_setFatal (wf_post (wf_withLinksDown hs))) (wf_post (wf_withLinksDown hs)))

theorem wf_powerSample {b c : Bool} {x : BitVec 4} : (powerSample n b c x s).Wf := by
  have h1 : (if s.host.fatal then s.msix 2 else setFatal s : State).Wf := wf_ite (aside_msix.wf hs) (wf_setFatal hs)
  unfold powerSample
  exact wf_ite ⟨h1.mem, h1.host, rfl⟩ ⟨hs.mem, hs.host, hs.seats⟩

/-! Resets and boot (R455, R457, R465). -/

theorem wf_startReset {r : ResetKind} : (startReset r s).Wf := ⟨hs.mem, hs.host, rfl⟩

theorem wf_zeroMemory : (zeroMemory s).Wf := ⟨rfl, hs.host, hs.seats⟩

theorem wf_train : (train s).Wf := by
  unfold train
  dsimp only
  generalize hu : (List.foldl _ _ _ : State) = u
  have hw : u.Wf := by
    rw [← hu]
    exact wf_foldl (fun _ _ hs => aside_updStack.wf hs) _ (wf_withHost rfl hs)
  exact wf_ite hw (wf_setFatal (wf_withHost rfl hw))

theorem wf_linksUp : (linksUp s).Wf := wf_foldl (fun _ _ hs => wf_post hs) _ (wf_withLinksDown hs)

omit hs in
theorem wf_withHostFw {x : HostIf} {y : Firmware} (hx : x.mem = s.host.mem) (hs : s.Wf) :
    State.Wf { s with host := x, fw := y } := ⟨hs.mem, (congrArg Memory.wf hx).trans hs.host, hs.seats⟩

theorem wf_startFirmware {b : Bool} : (startFirmware b s).Wf := by
  unfold startFirmware
  refine wf_foldl (fun _ _ hs => aside_stackEvent.wf hs) _ (wf_linksUp (wf_withHostFw rfl ?_))
  exact wf_foldl (fun _ _ hs => wf_updCore hs) _ hs

theorem wf_withFw {x : Firmware} : State.Wf { s with fw := x } := ⟨hs.mem, hs.host, hs.seats⟩

theorem wf_boot : (boot s).Wf := by
  unfold boot
  refine wf_ite hs (wf_ite (wf_withHost rfl (wf_withFw hs)) ?_)
  have ht : ∀ {x : Firmware} {p : Prop} [Decidable p],
      (train (if p then { s with fw := x } else zeroMemory { s with fw := x })).Wf :=
    wf_train (wf_ite (wf_withFw hs) (wf_zeroMemory (wf_withFw hs)))
  dsimp only
  split
  · exact wf_withHost rfl ht
  · exact wf_startFirmware ht

theorem wf_powerLoss : (powerLoss s).Wf := by
  unfold powerLoss
  refine wf_startReset ?_
  refine wf_ite hs (wf_ite ?_ ?_)
  · exact ⟨hs.mem, hs.host, hs.seats⟩
  · exact ⟨hs.mem, hs.host, hs.seats⟩

/-! Registers (R446, R449, R465). -/

theorem wf_ctailWrite : (ctailWrite v s).Wf := by
  unfold ctailWrite
  exact wf_ite hs (wf_withHost rfl hs)

theorem wf_pheadWrite : (pheadWrite v s).Wf := wf_ite hs (wf_withHost rfl hs)
theorem wf_eheadWrite : (eheadWrite v s).Wf := wf_ite hs (aside_drainKept.wf (wf_withHost rfl hs))
theorem wf_resetctlWrite : (resetctlWrite v s).Wf := wf_ite hs (wf_startReset hs)

theorem wf_bar0Write : (bar0Write off v s).Wf := by
  unfold bar0Write
  refine wf_ite hs ?_
  split
  · exact wf_withHost rfl hs
  · exact wf_withHost rfl hs
  · exact wf_ctailWrite hs
  · exact wf_withHost rfl hs
  · exact wf_withHost rfl hs
  · exact wf_pheadWrite hs
  · exact aside_drainKept.wf (wf_withHost rfl hs)
  · exact aside_drainKept.wf (wf_withHost rfl hs)
  · exact wf_eheadWrite hs
  · exact wf_ltrWrite hs
  · exact wf_resetctlWrite hs
  · exact hs

theorem wf_configRegisterWrite {r : CfgReg} : (configRegisterWrite r v s).Wf := by
  cases r with
  | bar0 off => exact wf_bar0Write hs
  | cerr c => exact wf_ite hs (wf_updCore hs)
  | stackcfg n => exact wf_ite hs (aside_updStack.wf hs)
  | stackerr n => exact hs
  | doorbell off => exact wf_ite (wf_doorbellTailWrite hs) hs

/-! Apertures (R413, R445, R448). -/

theorem wf_hostWrite {bs : List Byte} {ep : Bool} : (hostWrite a off bs ep s).Wf := by
  unfold hostWrite
  refine wf_ite hs (wf_foldl (fun s p hs => ?_) _ (wf_wakeDie hs))
  split
  · next heq => exact aside_checkedWrite.wf (wf_snd heq (aside_hostXlate.wf hs))
  · next heq => exact wf_snd heq (aside_hostXlate.wf hs)

omit hs in
theorem wf_hostPages : ∀ (xs : List (Nat × Nat)) {s : State}, s.Wf → (hostPages n xs s).2.Wf
  | [], _, hs => hs
  | x :: xs, s, hs => by
    simp only [hostPages]
    split
    · next heq => exact wf_snd heq (aside_hostXlate.wf hs)
    · next heq =>
      have hr := wf_snd heq (aside_hostXlate.wf hs)
      split
      · next heq => exact wf_snd heq (wf_hostPages xs (aside_read.wf hr))
      · next heq => exact wf_snd heq (wf_hostPages xs (aside_read.wf hr))

theorem wf_hostReadAt : (hostReadAt a off n s).Wf := by
  unfold hostReadAt
  exact wf_ite (wf_withHost rfl hs) (wf_withHost rfl (wf_hostPages _ (wf_wakeDie hs)))

end

end Sys2Proof.Machine
end

section
/-!
The canonical form through the commands of the host (R452).
-/
namespace Sys2Proof.Machine
set_option Elab.async false
open Sys2Proof
variable {s : State} {n d st p q t ch : Nat} {x : Word}

/-- A command that keeps the canonical form. -/
def Tidy (f : Cmd → State → CmdOut × State) : Prop := ∀ c s, s.Wf → (f c s).2.Wf

/-! The forms of commands. -/

section
variable (hs : s.Wf)
include hs

theorem wf_done : (done n s).2.Wf := hs
theorem wf_result : (result x s).2.Wf := hs
theorem wf_waits : (waits s).2.Wf := hs

theorem wf_hostStore {a : Nat} {bs : List Byte} : (hostStore a bs s).Wf := aside_hostStore.wf hs

end

theorem tidy_uses {f : Cmd → State → CmdOut × State} (hf : Tidy f) : Tidy (uses n f) :=
  fun _ _ hs => wf_ite_snd (hf _ _ hs) (wf_done hs)

theorem tidy_onDie {f : Nat → Cmd → State → CmdOut × State} (hf : ∀ d, Tidy (f d)) : Tidy (onDie f) :=
  fun _ _ hs => wf_ite_snd (hf _ _ _ hs) (wf_done hs)

theorem tidy_onPart {f : Nat → Cmd → State → CmdOut × State} (hf : ∀ p, Tidy (f p)) : Tidy (onPart f) :=
  fun _ _ hs => wf_ite_snd (hf _ _ _ hs) (wf_done hs)

theorem tidy_onQueue {f : Nat → Cmd → State → CmdOut × State} (hf : ∀ q, Tidy (f q)) : Tidy (onQueue f) :=
  tidy_onDie fun _ _ _ hs => wf_ite_snd (wf_done hs) (wf_ite_snd (wf_done hs) (hf _ _ _ hs))

theorem tidy_onChan {f : Nat → Cmd → State → CmdOut × State} (hf : ∀ ch, Tidy (f ch)) : Tidy (onChan f) :=
  tidy_onDie fun _ _ _ hs => wf_ite_snd (wf_done hs) (wf_ite_snd (wf_done hs) (hf _ _ _ hs))

/-- A range error. -/
theorem tidy_refuse : Tidy (uses n fun _ s => done stRange s) := tidy_uses fun _ _ hs => wf_done hs

/-! Parts of the commands. -/

section
variable (hs : s.Wf)
include hs

theorem wf_unlistQueue : (unlistQueue q s).Wf := by
  unfold unlistQueue
  exact wf_updDie hs

theorem wf_destroyQueue : (destroyQueue q s).Wf := aside_dropRequests.wf (wf_updQueue (wf_unlistQueue hs))

theorem wf_destroyChan : (destroyChan ch s).Wf := by
  unfold destroyChan
  refine wf_feedPool (aside_dropRequests.wf (wf_updChan ?_))
  split
  · exact apart_addReserve.wf hs
  · exact hs

theorem wf_failFaults : (failFaults p s).Wf := by
  refine wf_foldl (fun s d hs => ?_) _ hs
  dsimp only
  generalize hu : (List.foldl _ _ _ : State) = u
  have hw : u.Wf := by
    rw [← hu]
    exact wf_foldl (fun _ _ hs => wf_faultEnd hs) _ hs
  exact wf_ite (wf_updDie hw) hw

theorem wf_placeOn : (placeOn d x s st).Wf := by
  unfold placeOn
  refine wf_ite hs ?_
  dsimp only
  split
  · exact hs
  · next heq => exact wf_foldl (fun _ _ hs => wf_placeGroup hs) _ (wf_endReserve (wf_assignSeats hs heq))

theorem wf_fwReaches {a b : Nat} : (fwReaches d p a b s).2.Wf := by
  unfold fwReaches
  split
  · next heq => exact wf_snd heq (aside_nowXlate.wf hs)
  · next heq =>
    have hr := wf_snd heq (aside_nowXlate.wf hs)
    split
    · next heq => exact wf_snd heq (aside_nowXlate.wf hr)
    · next heq => exact wf_snd heq (aside_nowXlate.wf hr)

theorem wf_assignQueue : (assignQueue q n s).Wf := by
  unfold assignQueue
  refine wf_putQueueRec (wf_updQueue (wf_updSlot (wf_unlistQueue ?_)))
  split
  · exact wf_switchOut hs
  · exact hs

theorem wf_endTask : (endTask t s).2.Wf := by
  have h2 : ∀ {f : Task → Task} {a b : List Nat}, (a.foldl (fun s st => if stepBusy s st then s else cancelStep s st)
      (b.foldl (fun s k => recallSeat k s) (s.updTask t f))).Wf :=
    wf_foldl (fun _ _ hs => wf_ite hs (wf_cancelStep hs)) _ (wf_foldl (fun _ _ hs => wf_recallSeat hs) _ (wf_updTask hs))
  have h4 : ∀ {u : State} {l : List Nat}, u.Wf → (l.foldl (fun s st => endStep st none s) (dropUnplaced t u)).Wf :=
    fun hu => wf_foldl (fun _ _ hs => wf_endStep hs) _ (wf_dropUnplaced hu)
  unfold endTask
  exact wf_ite_snd (wf_waits (wf_withFw h2)) (wf_done (wf_withFw (wf_ite (apart_checkTask.wf (h4 h2)) (h4 h2))))

theorem wf_placeObject {bs : List Byte} {a : Nat} : (placeObject p bs a s).2.Wf := by
  unfold placeObject
  refine wf_ite_snd (wf_done hs) ?_
  split
  · next heq => exact wf_done (wf_snd heq (aside_fwWrite.wf hs))
  · next heq => exact wf_result (wf_updPart (wf_snd heq (aside_fwWrite.wf hs)))

end

/-! Commands on the package and on partitions. -/

theorem tidy_cmdIdentify : Tidy cmdIdentify := tidy_uses fun _ _ hs => wf_result (wf_hostStore hs)

theorem tidy_cmdAttest : Tidy cmdAttest := tidy_uses fun _ _ hs => by
  dsimp only
  exact wf_ite_snd (wf_done hs) (wf_result (wf_hostStore hs))

theorem tidy_cmdFwStage : Tidy cmdFwStage :=
  tidy_uses fun _ _ hs => wf_ite_snd (wf_done hs) (wf_result (wf_ite (wf_withFw hs) (wf_withFw hs)))

theorem tidy_cmdPartCreate : Tidy cmdPartCreate :=
  tidy_uses fun _ _ hs => wf_ite_snd (wf_done hs) (wf_ite_snd (wf_done hs) (wf_done (wf_updPart hs)))

theorem tidy_cmdPartDestroy : Tidy cmdPartDestroy := tidy_uses <| tidy_onPart fun _ _ _ hs => by
  refine wf_ite_snd (wf_done hs) ?_
  dsimp only
  generalize hu : failFaults _ _ = u
  have hw : u.Wf := by
    rw [← hu]
    refine wf_failFaults (wf_foldl (fun _ _ hs => wf_destroyChan hs) _ ?_)
    exact wf_foldl (fun _ _ hs => wf_destroyQueue hs) _ hs
  refine wf_done (wf_updPart ?_)
  exact wf_withHost rfl (wf_invalidate hw)

theorem tidy_cmdPartXlat : Tidy cmdPartXlat :=
  tidy_uses (tidy_onPart fun _ _ _ hs => wf_done (wf_updPart (wf_dropWalks hs)))

theorem tidy_cmdPartWindow : Tidy cmdPartWindow := tidy_uses <| tidy_onPart fun _ _ _ hs =>
  wf_ite_snd (wf_done hs) (wf_ite_snd (wf_done (wf_updPart hs)) (wf_waits (wf_updPart hs)))

theorem tidy_cmdPartInval : Tidy cmdPartInval := tidy_uses <| tidy_onPart fun _ _ _ hs =>
  wf_ite_snd (wf_done hs) (wf_ite_snd (wf_done (wf_invalidate hs)) (wf_waits (wf_invalidate hs)))

theorem tidy_cmdSwapOut : Tidy cmdSwapOut := tidy_uses <| tidy_onDie fun _ => tidy_onPart fun _ _ s hs => by
  have h2 : ∀ {p : Nat} {f : Part → Part} {l : List Nat}, (l.foldl (fun s k => recallSeat k s) (s.updPart p f)).Wf :=
    wf_foldl (fun _ _ hs => wf_recallSeat hs) _ (wf_updPart hs)
  exact wf_ite_snd (wf_waits h2) (wf_ite_snd (wf_done (wf_invalidate h2)) (wf_waits (wf_invalidate h2)))

theorem tidy_cmdSwapIn : Tidy cmdSwapIn := tidy_uses <| tidy_onDie fun d => tidy_onPart fun p _ s hs => by
  have hrest : ∀ {u : State}, u.Wf → (if restoring u d p then waits u else done 0 u).2.Wf :=
    fun hu => wf_ite_snd (wf_waits hu) (wf_done hu)
  exact wf_ite_snd (hrest hs) (wf_ite_snd (wf_done hs)
    (hrest (wf_foldl (fun _ _ hs => wf_placeOn hs) _ (wf_updPart hs))))

theorem tidy_cmdPartSwap : Tidy cmdPartSwap :=
  fun _ _ hs => wf_ite_snd (tidy_cmdSwapOut _ _ hs) (wf_ite_snd (tidy_cmdSwapIn _ _ hs) (tidy_refuse _ _ hs))

theorem tidy_cmdPartReserve : Tidy cmdPartReserve := tidy_uses <| tidy_onPart fun _ _ _ hs =>
  wf_ite_snd (wf_done hs) (wf_result (wf_updPart hs))

theorem tidy_cmdTrapPolicy : Tidy cmdTrapPolicy := tidy_uses <| tidy_onPart fun _ _ _ hs =>
  wf_ite_snd (wf_done hs) (wf_done (wf_updPart hs))

theorem tidy_cmdAperture : Tidy cmdAperture := tidy_uses fun _ _ hs =>
  wf_ite_snd (wf_done hs) (wf_ite_snd (wf_done hs) (wf_done (wf_withHost rfl hs)))

/-! Commands on trapped seats and faults. -/

theorem tidy_cmdDispose {x : Dispose} : Tidy (cmdDispose x) := tidy_uses fun _ _ hs => by
  split
  · exact wf_done hs
  · exact wf_ite_snd (wf_done hs) (wf_ite_snd (wf_disposeHeld hs) (wf_ite_snd (wf_done hs) (wf_disposeHeld hs)))

theorem tidy_cmdTrapDispose : Tidy cmdTrapDispose := fun _ _ hs => by
  unfold cmdTrapDispose
  split
  · exact tidy_cmdDispose _ _ hs
  · exact tidy_cmdDispose _ _ hs
  · exact tidy_cmdDispose _ _ hs
  · exact tidy_cmdDispose _ _ hs
  · exact tidy_refuse _ _ hs

theorem tidy_cmdTrapRead : Tidy cmdTrapRead := tidy_uses fun _ _ hs => by
  split
  · exact wf_done hs
  · exact wf_ite_snd (wf_done hs) (wf_done (wf_hostStore hs))

theorem tidy_cmdShareRelease : Tidy cmdShareRelease := tidy_uses fun _ _ hs => by
  split
  · exact wf_done hs
  · split
    · next heq => exact wf_done (wf_releaseShare hs heq)
    · exact wf_done hs

theorem tidy_cmdResolve {b : Bool} : Tidy (cmdResolve b) := tidy_uses <| tidy_onDie fun _ _ _ hs =>
  wf_ite_snd (wf_done hs) (wf_done (wf_faultEnd hs))

theorem tidy_cmdFaultResolve : Tidy cmdFaultResolve := fun _ _ hs => by
  unfold cmdFaultResolve
  split
  · exact tidy_cmdResolve _ _ hs
  · exact tidy_cmdResolve _ _ hs
  · exact tidy_refuse _ _ hs

/-! Commands on queues, tasks, slots, channels, code and cores. -/

theorem tidy_cmdQueueCreate : Tidy cmdQueueCreate := tidy_uses <| tidy_onDie fun _ _ _ hs => by
  refine wf_ite_snd (wf_done hs) (tidy_onPart (fun _ _ _ hs => wf_ite_snd (wf_done hs) ?_) _ _ hs)
  dsimp only
  split
  · next heq => exact wf_done (wf_snd heq (wf_fwReaches hs))
  · next heq => exact wf_done (wf_updQueue (aside_fwWrite.wf (wf_snd heq (wf_fwReaches hs))))

theorem tidy_cmdQueueDestroy : Tidy cmdQueueDestroy :=
  tidy_uses (tidy_onQueue fun _ _ _ hs => wf_done (wf_destroyQueue hs))

theorem tidy_cmdQueueAssign : Tidy cmdQueueAssign := tidy_uses fun _ _ hs =>
  wf_ite_snd (wf_done hs) (tidy_onQueue (fun _ _ _ hs => wf_done (wf_assignQueue hs)) _ _ hs)

theorem tidy_cmdTaskEnd : Tidy cmdTaskEnd := tidy_uses <| tidy_onDie fun _ _ _ hs => by
  refine wf_ite_snd (wf_done hs) ?_
  dsimp only
  split
  · exact wf_ite_snd (wf_endTask hs) (wf_done hs)
  · exact wf_ite_snd (wf_done (wf_withFw hs)) (wf_done hs)

theorem tidy_cmdSlotSet : Tidy cmdSlotSet := tidy_uses <| tidy_onDie fun _ _ _ hs =>
  wf_ite_snd (wf_done hs) (wf_done (wf_updSlot hs))

theorem tidy_cmdRowSet : Tidy cmdRowSet := tidy_uses <| tidy_onDie fun _ _ _ hs =>
  wf_ite_snd (wf_done hs) (wf_done (wf_updDie hs))

theorem tidy_cmdChanCreate : Tidy cmdChanCreate := tidy_uses <| tidy_onDie fun _ _ _ hs =>
  wf_ite_snd (wf_done hs) (tidy_onPart (fun _ _ _ hs => wf_ite_snd (wf_done hs) (wf_done (wf_updChan hs))) _ _ hs)

theorem tidy_cmdChanDestroy : Tidy cmdChanDestroy := tidy_uses <| tidy_onChan fun _ _ _ hs =>
  wf_ite_snd (wf_done hs) (wf_done (wf_destroyChan hs))

theorem tidy_cmdChanSet : Tidy cmdChanSet := tidy_uses <| tidy_onChan fun ch _ s hs => by
  have h1 : ∀ {p : Prop} [Decidable p] {f : Chan → Chan}, (if p then s else feedProxy ch (s.updChan ch f)).Wf :=
    wf_ite hs (wf_feedProxy (wf_updChan hs))
  exact wf_ite_snd (wf_done hs) (wf_done (wf_ite (wf_faultChan h1) h1))

theorem tidy_cmdCodeLoad : Tidy cmdCodeLoad := tidy_uses <| tidy_onPart fun _ _ _ hs =>
  wf_ite_snd (wf_done hs) (wf_placeObject hs)

theorem tidy_cmdCoreRetire : Tidy cmdCoreRetire := tidy_uses <| tidy_onDie fun _ _ _ hs =>
  wf_ite_snd (wf_done hs) (wf_ite_snd (wf_done hs) (wf_result (wf_retireCore hs)))

theorem tidy_cmdPowerCap : Tidy cmdPowerCap := tidy_uses fun _ _ hs => wf_ite_snd (wf_done hs) (wf_done (wf_withFw hs))
theorem tidy_cmdReset : Tidy cmdReset := tidy_uses fun _ _ hs => wf_done hs
theorem tidy_cmdUnknown : Tidy cmdUnknown := fun _ _ hs => wf_done hs

/-- The command of every opcode of R452. -/
theorem tidy_cmdOf {op : Nat} {f : Cmd → State → CmdOut × State} (hf : cmdOf op = some f) : Tidy f := by
  unfold cmdOf at hf
  split at hf <;> cases hf
  · exact tidy_cmdIdentify
  · exact tidy_cmdAttest
  · exact tidy_cmdFwStage
  · exact tidy_cmdPartCreate
  · exact tidy_cmdPartDestroy
  · exact tidy_cmdPartXlat
  · exact tidy_cmdPartWindow
  · exact tidy_cmdPartInval
  · exact tidy_cmdPartSwap
  · exact tidy_cmdPartReserve
  · exact tidy_cmdTrapPolicy
  · exact tidy_cmdTrapDispose
  · exact tidy_cmdTrapRead
  · exact tidy_cmdShareRelease
  · exact tidy_cmdFaultResolve
  · exact tidy_cmdAperture
  · exact tidy_cmdQueueCreate
  · exact tidy_cmdQueueDestroy
  · exact tidy_cmdQueueAssign
  · exact tidy_cmdTaskEnd
  · exact tidy_cmdSlotSet
  · exact tidy_cmdRowSet
  · exact tidy_cmdChanCreate
  · exact tidy_cmdChanDestroy
  · exact tidy_cmdChanSet
  · exact tidy_cmdCodeLoad
  · exact tidy_cmdCoreRetire
  · exact tidy_cmdPowerCap

/-! Firmware (R446, R449). -/

theorem tidy_command {op : Nat} : Tidy ((cmdOf op).getD cmdUnknown) := by
  cases hf : cmdOf op with
  | none => exact tidy_cmdUnknown
  | some f => exact tidy_cmdOf hf

theorem wf_completeCmd {op : BitVec 16} {c : Cmd} {r : CmdOut × State} (hr : r.2.Wf) : (completeCmd op c r).Wf := by
  unfold completeCmd
  split
  · exact wf_withFw hr
  · refine aside_msix.wf (wf_hostStore ?_)
    exact wf_withHostFw rfl hr

section
variable (hs : s.Wf)
include hs

theorem wf_wakeAll : (wakeAll s).Wf := wf_foldl (fun _ _ hs => wf_wakeDie hs) _ hs

theorem wf_runCmd {op : BitVec 16} {c : Cmd} {f : Cmd → State → CmdOut × State} (hf : Tidy f) : (runCmd op f c s).Wf :=
  wf_ite (wf_completeCmd (hf _ _ (wf_wakeAll hs))) hs

theorem wf_runReset {c : Cmd} : (runReset c s).Wf := by
  have h1 : (completeCmd 0x0050 c (cmdReset c (wakeAll s))).Wf := wf_completeCmd (tidy_cmdReset _ _ (wf_wakeAll hs))
  unfold runReset
  dsimp only
  generalize completeCmd 0x0050 c (cmdReset c (wakeAll s)) = u at h1 ⊢
  exact wf_ite (wf_ite (wf_startReset h1) h1) hs

theorem wf_takeCmd : (takeCmd s).Wf := by
  unfold takeCmd
  refine wf_ite hs (wf_ite hs ?_)
  have hw : ∀ {x : BitVec 32}, State.Wf { s with host.cmd.head := x } := wf_withHost rfl hs
  exact wf_ite (wf_runReset hw) (wf_runCmd hw tidy_command)

theorem wf_firmwareTurn : (firmwareTurn s).Wf := by
  unfold firmwareTurn
  refine wf_ite (wf_endOwed hs) ?_
  split
  · exact wf_ite (wf_endOwed hs) (wf_completeCmd (tidy_command _ _ (wf_endOwed hs)))
  · exact wf_takeCmd (wf_endOwed hs)

end

end Sys2Proof.Machine
end

section
/-!
The canonical form through the step: every instruction and event, the seats of a cycle, the turns of the agenda.
-/
namespace Sys2Proof.Machine
set_option Elab.async false
open Sys2Proof
variable {s : State} {k c : Nat}

/-- What a turn gives keeps the canonical form. -/
def TidyOut (o : Out) : Prop := ∀ t, o = .next t → t.Wf

theorem tidyOut_next {t : State} (h : t.Wf) : TidyOut (.next t) := by
  intro u hu
  cases hu
  exact h

theorem tidyOut_andThen {o : Out} {f : State → Out} (ho : TidyOut o) (hf : ∀ s, s.Wf → TidyOut (f s)) :
    TidyOut (andThen o f) := by
  cases o with
  | next s => exact hf s (ho s rfl)
  | fault r => exact fun _ h => nomatch h
  | refused r => exact fun _ h => nomatch h

section
variable (hs : s.Wf)
include hs

theorem wf_withCur {n : Nat} : State.Wf { s with cur := n } := ⟨hs.mem, hs.host, hs.seats⟩

theorem tidyOut_issueOne {i : Instr} : TidyOut (issueOne i s) := by
  unfold issueOne
  split
  · exact tidyOut_next (wf_issueBlock hs)
  · exact fun _ h => nomatch h

theorem wf_actRefused {w : Wire} : (actRefused w s).Wf := hs
theorem wf_actXfault {w : Wire} : (actXfault w s).Wf := hs
theorem wf_actFault {w : Wire} : (actFault w s).Wf := wf_faultRemote hs

theorem wf_unknownOpcode {op : BitVec 16} {x : Cmd} :
    (if op = 0x0050 then runReset x s else runCmd op ((cmdOf op.toNat).getD cmdUnknown) x s).Wf :=
  wf_ite (wf_runReset hs) (wf_runCmd hs tidy_command)

/-- Events and commands each by their own rule; every other instruction issues on the current seat. -/
theorem tidyOut_exec {i : Instr} : TidyOut (exec i s) := by
  match i with
  | .heldBundleRelease .. => exact tidyOut_next (wf_heldBundleRelease hs)
  | .eventLatch .. => exact tidyOut_next (wf_eventLatch hs)
  | .barrierRelease .. => exact tidyOut_next (wf_barrierRelease hs)
  | .stallToll .. => exact tidyOut_next (wf_stallToll hs)
  | .maxrunOverrun .. => exact tidyOut_next (wf_maxrunOverrun hs)
  | .tapDeadlock .. => exact tidyOut_next (wf_tapDeadlock hs)
  | .fuseTimeout .. => exact tidyOut_next (wf_fuseTimeout hs)
  | .mResultFinal .. => exact tidyOut_next (wf_mResultFinal hs)
  | .takeTrap .. => exact tidyOut_next (wf_takeTrapStep hs)
  | .asynchronousCause .. => exact tidyOut_next (wf_asynchronousCause hs)
  | .trapDisposition .. => exact tidyOut_next (wf_trapDisposition hs)
  | .recall .. => exact tidyOut_next (wf_recallAt hs)
  | .yieldTaken .. => exact tidyOut_next (wf_yieldTaken hs)
  | .contextSave .. => exact tidyOut_next (wf_contextSave hs)
  | .contextRestore .. => exact tidyOut_next (wf_contextRestore hs)
  | .spareMap .. => exact tidyOut_next (wf_spareMap hs)
  | .mirrorSourceSearch .. => exact tidyOut_next (wf_mirrorSourceSearch hs)
  | .streamSampleSend .. => exact tidyOut_next (wf_streamSampleSend hs)
  | .streamSampleArrival .. => exact tidyOut_next (wf_streamSampleArrival hs)
  | .copyElementIssue .. => exact tidyOut_next (wf_copyElementIssue hs)
  | .copyAccessComplete .. => exact tidyOut_next (wf_copyAccessComplete hs)
  | .scaccWindow .. => exact tidyOut_next (wf_scaccWindow hs)
  | .loaderSamplePush .. => exact tidyOut_next (wf_loaderSamplePush hs)
  | .storerSampleWrite .. => exact tidyOut_next (wf_storerSampleWrite hs)
  | .combinerFlush .. => exact tidyOut_next (wf_combinerFlush hs)
  | .announcementApply .. => exact tidyOut_next (wf_announcementApply hs)
  | .translationWalk .. => exact tidyOut_next (wf_translationWalk hs)
  | .faultTimeout .. => exact tidyOut_next (wf_faultTimeout hs)
  | .stackRead .. => exact tidyOut_next (wf_stackRead hs)
  | .stackWrite .. => exact tidyOut_next (wf_stackWrite hs)
  | .bankRefresh .. => exact tidyOut_next (wf_bankRefresh hs)
  | .retryReissue .. => exact tidyOut_next (wf_retryReissue hs)
  | .rowPrecharge .. => exact tidyOut_next (wf_rowPrecharge hs)
  | .rowOpenLimit .. => exact tidyOut_next (wf_rowOpenLimit hs)
  | .patrolScrub .. => exact tidyOut_next (wf_patrolScrub hs)
  | .stackLost .. => exact tidyOut_next (wf_stackLost hs)
  | .nearMemoryGranule .. => exact tidyOut_next (wf_nearMemoryGranule hs)
  | .nmAtomicRecord .. => exact tidyOut_next (wf_nmAtomicRecord hs)
  | .timetableVisit .. => exact tidyOut_next (wf_pumpWork (wf_timetableVisit hs))
  | .reservedPlacement .. => exact tidyOut_next (wf_reservedPlacement hs)
  | .convoyPlacement .. => exact tidyOut_next (wf_convoyPlacement hs)
  | .graphReturn .. => exact tidyOut_next (wf_graphReturn hs)
  | .launchEntryWrite .. => exact tidyOut_next (wf_launchEntryWrite hs)
  | .groupPark .. => exact tidyOut_next (wf_groupPark hs)
  | .groupWake .. => exact tidyOut_next (wf_groupWake hs)
  | .waitExamination .. => exact tidyOut_next (wf_waitExamination hs)
  | .messageDelivery .. => exact tidyOut_next (wf_messageDelivery hs)
  | .messageSpill .. => exact tidyOut_next (wf_messageSpill hs)
  | .cisternDrain .. => exact tidyOut_next (wf_cisternDrain hs)
  | .triggerFire .. => exact tidyOut_next (wf_triggerFire hs)
  | .deadlockSample .. => exact tidyOut_next (wf_deadlockSample hs)
  | .permitAudit .. => exact tidyOut_next (wf_permitAudit hs)
  | .doorbellTailWrite .. => exact tidyOut_next (wf_doorbellTailWrite hs)
  | .ctailWrite .. => exact tidyOut_next (wf_ctailWrite hs)
  | .pheadWrite .. => exact tidyOut_next (wf_pheadWrite hs)
  | .eheadWrite .. => exact tidyOut_next (wf_eheadWrite hs)
  | .ltrWrite .. => exact tidyOut_next (wf_ltrWrite hs)
  | .resetctlWrite .. => exact tidyOut_next (wf_resetctlWrite hs)
  | .slotmapWrite .. => exact tidyOut_next (wf_slotmapWrite hs)
  | .configRegisterWrite .. => exact tidyOut_next (wf_configRegisterWrite hs)
  | .hostWrite .. => exact tidyOut_next (wf_hostWrite hs)
  | .hostRead .. => exact tidyOut_next (wf_hostReadAt hs)
  | .reset .. => exact tidyOut_next (wf_runReset hs)
  | .coldReset => exact tidyOut_next (wf_startReset hs)
  | .warmReset .. => exact tidyOut_next (wf_startReset hs)
  | .boot => exact tidyOut_next (wf_boot hs)
  | .linkDown .. => exact tidyOut_next (wf_linkDown hs)
  | .powerSample .. => exact tidyOut_next (wf_powerSample hs)
  | .powerStateEntry .. => exact tidyOut_next (wf_powerStateEntry hs)
  | .wakeEvent .. => exact tidyOut_next (wf_wakeEvent hs)
  | .flitReceive .. => exact tidyOut_next (wf_flitReceive hs)
  | .replayTimeout .. => exact tidyOut_next (wf_replayTimeout hs)
  | .portDown .. => exact tidyOut_next (wf_portDown hs)
  | .portTraining .. => exact tidyOut_next (wf_portTraining hs)
  | .flowResend .. => exact tidyOut_next (wf_flowResend hs)
  | .packageLost .. => exact tidyOut_next (wf_packageLost hs)
  | .powerLoss => exact tidyOut_next (wf_powerLoss hs)
  | .identify .. => exact tidyOut_next (wf_runCmd hs tidy_cmdIdentify)
  | .attest .. => exact tidyOut_next (wf_runCmd hs tidy_cmdAttest)
  | .fwStage .. => exact tidyOut_next (wf_runCmd hs tidy_cmdFwStage)
  | .partCreate .. => exact tidyOut_next (wf_runCmd hs tidy_cmdPartCreate)
  | .partDestroy .. => exact tidyOut_next (wf_runCmd hs tidy_cmdPartDestroy)
  | .partXlat .. => exact tidyOut_next (wf_runCmd hs tidy_cmdPartXlat)
  | .partWindow .. => exact tidyOut_next (wf_runCmd hs tidy_cmdPartWindow)
  | .partInval .. => exact tidyOut_next (wf_runCmd hs tidy_cmdPartInval)
  | .partSwapOut .. => exact tidyOut_next (wf_runCmd hs tidy_cmdPartSwap)
  | .partSwapIn .. => exact tidyOut_next (wf_runCmd hs tidy_cmdPartSwap)
  | .partReserve .. => exact tidyOut_next (wf_runCmd hs tidy_cmdPartReserve)
  | .trapPolicy .. => exact tidyOut_next (wf_runCmd hs tidy_cmdTrapPolicy)
  | .trapDisposeRetry .. => exact tidyOut_next (wf_runCmd hs tidy_cmdTrapDispose)
  | .trapDisposeMaskedRetry .. => exact tidyOut_next (wf_runCmd hs tidy_cmdTrapDispose)
  | .trapDisposeEnd .. => exact tidyOut_next (wf_runCmd hs tidy_cmdTrapDispose)
  | .trapDisposeRestart .. => exact tidyOut_next (wf_runCmd hs tidy_cmdTrapDispose)
  | .trapRead .. => exact tidyOut_next (wf_runCmd hs tidy_cmdTrapRead)
  | .shareRelease .. => exact tidyOut_next (wf_runCmd hs tidy_cmdShareRelease)
  | .faultResolveRetry .. => exact tidyOut_next (wf_runCmd hs tidy_cmdFaultResolve)
  | .faultResolveFail .. => exact tidyOut_next (wf_runCmd hs tidy_cmdFaultResolve)
  | .aperture .. => exact tidyOut_next (wf_runCmd hs tidy_cmdAperture)
  | .queueCreate .. => exact tidyOut_next (wf_runCmd hs tidy_cmdQueueCreate)
  | .queueDestroy .. => exact tidyOut_next (wf_runCmd hs tidy_cmdQueueDestroy)
  | .queueAssign .. => exact tidyOut_next (wf_runCmd hs tidy_cmdQueueAssign)
  | .taskEnd .. => exact tidyOut_next (wf_runCmd hs tidy_cmdTaskEnd)
  | .slotSet .. => exact tidyOut_next (wf_runCmd hs tidy_cmdSlotSet)
  | .rowSet .. => exact tidyOut_next (wf_runCmd hs tidy_cmdRowSet)
  | .chanCreate .. => exact tidyOut_next (wf_runCmd hs tidy_cmdChanCreate)
  | .chanDestroy .. => exact tidyOut_next (wf_runCmd hs tidy_cmdChanDestroy)
  | .chanSet .. => exact tidyOut_next (wf_runCmd hs tidy_cmdChanSet)
  | .codeLoad .. => exact tidyOut_next (wf_runCmd hs tidy_cmdCodeLoad)
  | .coreRetire .. => exact tidyOut_next (wf_runCmd hs tidy_cmdCoreRetire)
  | .powerCap .. => exact tidyOut_next (wf_runCmd hs tidy_cmdPowerCap)
  | .msg .. => exact tidyOut_next (wf_arrive (fun _ _ hs => wf_actMsg hs) hs)
  | .close .. => exact tidyOut_next (wf_arrive (fun _ _ hs => wf_actClose hs) hs)
  | .waybill .. => exact tidyOut_next (wf_arrive (fun _ _ hs => wf_actWaybill hs) hs)
  | .loss .. => exact tidyOut_next (wf_arrive (fun _ _ hs => wf_actLoss hs) hs)
  | .refused .. => exact tidyOut_next (wf_arrive (fun _ _ hs => wf_actRefused hs) hs)
  | .xfault .. => exact tidyOut_next (wf_arrive (fun _ _ hs => wf_actXfault hs) hs)
  | .read .. => exact tidyOut_next (wf_arrive (fun _ _ hs => wf_actRead hs) hs)
  | .readresp .. => exact tidyOut_next (wf_arrive (fun _ _ hs => wf_actReadresp hs) hs)
  | .write .. => exact tidyOut_next (wf_arrive (fun _ _ hs => wf_actWrite hs) hs)
  | .writeack .. => exact tidyOut_next (wf_arrive (fun _ _ hs => wf_actWriteack hs) hs)
  | .ack .. => exact tidyOut_next (wf_arrive (fun _ _ hs => wf_actAck hs) hs)
  | .bindreq .. => exact tidyOut_next (wf_arrive (fun _ _ hs => wf_actBindreq hs) hs)
  | .bindreply .. => exact tidyOut_next (wf_arrive (fun _ _ hs => wf_actBindreply hs) hs)
  | .grant .. => exact tidyOut_next (wf_arrive (fun _ _ hs => wf_actGrant hs) hs)
  | .drained .. => exact tidyOut_next (wf_arrive (fun _ _ hs => wf_actDrained hs) hs)
  | .statreq .. => exact tidyOut_next (wf_arrive (fun _ _ hs => wf_actStatreq hs) hs)
  | .statreply .. => exact tidyOut_next (wf_arrive (fun _ _ hs => wf_actStatreply hs) hs)
  | .grow .. => exact tidyOut_next (wf_arrive (fun _ _ hs => wf_actGrow hs) hs)
  | .fault .. => exact tidyOut_next (wf_arrive (fun _ _ hs => wf_actFault hs) hs)
  | .bararr .. => exact tidyOut_next (wf_arrive (fun _ _ hs => wf_actBararr hs) hs)
  | .barrel .. => exact tidyOut_next (wf_arrive (fun _ _ hs => wf_actBarrel hs) hs)
  | .workdone .. => exact tidyOut_next (wf_arrive (fun _ _ hs => wf_actWorkdone hs) hs)
  | .linkstate .. => exact tidyOut_next (wf_arrive (fun _ _ hs => wf_actLinkstate hs) hs)
  | .refuse .. => exact tidyOut_next (wf_arrive (fun _ _ hs => wf_actRefuse hs) hs)
  | .unknownOpcode .. => exact tidyOut_next (wf_unknownOpcode hs)
  | .nop .. | .br .. | .brm .. | .jr .. | .call .. | .callr .. | .ret .. | .loop .. | .loopr .. | .lexit ..
  | .tick .. | .adv .. | .ypt .. | .yield .. | .cont .. | .resume .. | .topup .. | .exit .. | .trap .. | .waitev ..
  | .sigev .. | .bar .. | .fuse .. | .decouple .. | .rejoin .. | .add .. | .sub .. | .mul .. | .mulh .. | .mulhu ..
  | .div .. | .divu .. | .rem .. | .and .. | .or .. | .xor .. | .andn .. | .shl .. | .shr .. | .sar .. | .min ..
  | .max .. | .minu .. | .maxu .. | .clz .. | .popc .. | .sel .. | .addi .. | .andi .. | .ori .. | .xori ..
  | .shli .. | .shri .. | .sari .. | .movi .. | .movhi .. | .cmp .. | .cmpi .. | .pand .. | .por .. | .pxor ..
  | .pandn .. | .pset .. | .spld .. | .spst .. | .csrr .. | .csrw .. | .lidx .. | .fadd .. | .fsub .. | .fmul ..
  | .ffma .. | .fmin .. | .fmax .. | .fcmp .. | .fcvti .. | .icvtf .. | .sigset .. | .sigget .. | .sigclr ..
  | .fillmk .. | .waitfill .. | .taprd .. | .tapwr .. | .vadd .. | .vsub .. | .vmul .. | .vfma .. | .vfms ..
  | .vmin .. | .vmax .. | .vabs .. | .vneg .. | .vcmpeq .. | .vcmplt .. | .vcmple .. | .vsel .. | .vmov ..
  | .vbcast .. | .vrsum .. | .vrmax .. | .vrcp .. | .vrsq .. | .vexp2 .. | .vlog2 .. | .vscale .. | .vcvt ..
  | .vperm .. | .vslide .. | .viota .. | .vtapx .. | .vand .. | .vor .. | .vxor .. | .vshl .. | .vshr .. | .vsar ..
  | .mma .. | .mmaz .. | .latch .. | .latcht .. | .asetId .. | .asetZero .. | .again .. | .aoff .. | .apply ..
  | .ardOff .. | .ardGain .. | .scan .. | .scanUpd .. | .cyset .. | .cysetId .. | .cyget .. | .cld .. | .cst ..
  | .clda .. | .cstr .. | .cgath .. | .cscat .. | .scacc .. | .ccancel .. | .cwait .. | .dset .. | .fence ..
  | .csub .. | .cpull .. | .cunsub .. | .nmcmd .. | .nmfence .. | .nmatom .. | .chsend .. | .chsendTry ..
  | .chbind .. | .chbindW .. | .chclose .. | .chcloseW .. | .chstat .. | .launch .. | .wsend .. =>
    exact tidyOut_issueOne hs

/-! A cycle of a core (R61, R64). -/

theorem tidyOut_issueTurn : TidyOut (issueTurn k s) := by
  unfold issueTurn
  split
  · next heq => exact tidyOut_next (wf_trapIssue (wf_snd heq (wf_nextBundle hs)))
  · next heq =>
    have hb := wf_snd heq (wf_nextBundle hs)
    split
    · exact tidyOut_andThen (tidyOut_exec (wf_withCur hb)) fun _ ht => tidyOut_next (wf_withCur ht)
    · exact tidyOut_next (wf_issueBlock hb)

theorem tidyOut_seatCycle : TidyOut (seatCycle k s) := by
  unfold seatCycle
  split
  · exact tidyOut_next hs
  · exact tidyOut_next (wf_bubbleTurn hs)
  · exact tidyOut_next (wf_secondCycle hs)
  · exact tidyOut_next (wf_stalledTurn hs)
  · exact tidyOut_issueTurn hs

theorem tidyOut_coreCycle : TidyOut (coreCycle c s) := by
  unfold coreCycle
  dsimp only
  split
  · refine tidyOut_andThen (tidyOut_seatCycle (wf_cycleStart hs)) fun _ h2 => ?_
    refine tidyOut_andThen (tidyOut_seatCycle h2) fun _ h3 => ?_
    exact tidyOut_next (wf_cycleEnd h3)
  · exact tidyOut_next (wf_cycleEnd (wf_cycleStart hs))

/-! The turns of the agenda. -/

theorem tidyOut_takeTurn {t : Turn} : TidyOut (takeTurn t s) := by
  unfold takeTurn
  split
  · split
    · exact tidyOut_coreCycle hs
    · exact tidyOut_next hs
  · exact tidyOut_exec hs
  · exact tidyOut_next (wf_messageTurn hs)
  · exact tidyOut_next (wf_firmwareTurn hs)

theorem tidyOut_idleTurn : TidyOut (idleTurn s) := by
  unfold idleTurn
  split
  · exact tidyOut_exec hs
  · exact tidyOut_takeTurn hs

theorem wf_withCycle {n : Nat} : State.Wf { s with cycle := n } := ⟨hs.mem, hs.host, hs.seats⟩

theorem wf_withAgendaCycle {l : List Turn} {n : Nat} : State.Wf { s with agenda := l, cycle := n } :=
  ⟨hs.mem, hs.host, hs.seats⟩

theorem tidyOut_step : TidyOut (step s) := by
  unfold step
  split
  · exact tidyOut_idleTurn (wf_withCycle hs)
  · exact tidyOut_takeTurn (wf_withAgendaCycle hs)

end

end Sys2Proof.Machine

namespace Sys2Proof.Proofs
set_option Elab.async false
open Sys2Proof Sys2Proof.Machine

/-- Settles O38: each function that a step runs keeps the canonical form, as each of its writes of the memories and of the
seats goes through an operation that does. -/
theorem stepKeepsWf : Obligations.StepKeepsWf := fun _ t hs => tidyOut_step hs t

end Sys2Proof.Proofs
end
